-- ==== Sys2Proof/Word.lean ====
section
/-!
DEFINITION. Word.lean: the word types of the device (R19: 32-bit registers; R21: 72-bit native words of 64 data bits
and 8 check bits) and the shape of the sparse tables that State is made of.
-/
namespace Sys2Proof

/-- A register (R19). -/
abbrev Word := BitVec 32

/-- The data bits of a native word (R21). -/
abbrev Data := BitVec 64

/-- A native word with its check byte (R21). -/
abbrev Native := BitVec 72

/-- A sparse table: entries in strictly rising key order; a key that is not listed holds the table's default. -/
abbrev Tbl (V : Type) := List (Nat × V)

end Sys2Proof
end

