-- ==== Sys2Proof/Syntax.lean ====
section
/-!
DEFINITION. Syntax.lean: the commands, one constructor for each row of the opcode table, with the operands that the
row's event brings from outside: who writes and what, what arrived on a line, what a measurement gave.
-/
namespace Sys2Proof

/-- Who reads and writes registers (R308): the two PCIe functions, the service cores' firmware, the secure core (it
shares the firmware's selectors), and the controller on the Crown bus. -/
inductive Accessor where
  | host0 | host1 | firmware | sec | controller
  deriving DecidableEq, Repr

/-- The set of selector and window registers an accessor has of its own (R308): PCIe function 0, function 1, the
firmware (service cores and secure core), the controller. -/
def Accessor.idx : Accessor → Nat
  | .host0 => 0 | .host1 => 1 | .firmware => 2 | .sec => 2 | .controller => 3

/-- Whether an accessor is on firmware's side. -/
def Accessor.isFw : Accessor → Bool
  | .firmware => true
  | .sec => true
  | _ => false

/-- What the link partner announces in Clause 73 (R40): the rates of R38 it can run, the FEC modes it can run at
25GBASE-R (1 BASE-R, 2 RS) and the ones it asks for. -/
structure AnPage where
  rates : List Nat
  fecs : List Nat
  asks : List Nat
  deriving DecidableEq, Repr

/-- Errors in the 72-bit words that carry a frame: in its bundles (R65) and in the lines of its buffer (R118), how many
were corrected and whether one was uncorrectable. -/
structure WordErrors where
  bundle : Nat
  badBundle : Bool
  sram : Nat
  badSram : Bool
  deriving DecidableEq, Repr

/-- Whether a frame has a word that cannot be corrected. -/
def WordErrors.bad (e : WordErrors) : Bool := e.badBundle || e.badSram

/-- The start-of-frame edge of a received frame (R48, R49, R216): how far the time base has advanced, in units of
2^-40 ns, since the last tick before the edge of the destination address's first bit, the measured phase of that edge,
and the interpolator position latched at it (signed), both in tick / 65,536. -/
structure RxEdge where
  back : Nat
  phase : BitVec 16
  interp : BitVec 16
  deriving DecidableEq, Repr

/-- What a latency measurement reports (R46): gearbox positions and analogue terms. -/
structure LatMeas where
  gbRx : Nat
  gbTx : Nat
  aRx : Nat
  aTx : Nat
  deriving DecidableEq, Repr


/-- What the PCS and the FEC of a lane counted since the last report (R369 n = 24 to 26): codewords corrected and
uncorrectable, block errors. -/
structure PcsCount where
  corrected : Nat
  uncorrectable : Nat
  blocks : Nat
  deriving DecidableEq, Repr

/-- What link training settled (R40, R50): the transmit coefficients and the CTLE code. -/
structure TrainedEq where
  pre : BitVec 5
  main : BitVec 7
  post : BitVec 5
  ctle : BitVec 5
  deriving DecidableEq, Repr

/-- How a received frame ended (R158, R165, R369): `cut` when LOS or LOL ended it (R79), `overflow` when the receive
crossing filled (R70). -/
inductive RxStatus where
  | good | badFcs | reassembly | cut | overflow
  deriving DecidableEq, Repr

/-- A received frame's end: how, and in how many preemptable fragments it came. -/
structure RxEnd where
  status : RxStatus
  fragments : Nat
  deriving DecidableEq, Repr

/-- What the Doublet link brings of a mailbox channel (R316): a notice with its payload, or the mirrored flags. -/
inductive TwinMbx where
  | notice (n : BitVec 64) (payload : List (BitVec 8))
  | mirror (full wait : Bool)
  deriving DecidableEq, Repr

/-- A staging list's operation as the Doublet copies it (R288): table number, index, words, insert, delete. -/
structure TwinOp where
  table : Nat
  index : Nat
  words : List (BitVec 64)
  insert : Bool
  delete : Bool
  deriving DecidableEq, Repr

/-- A reservation as the Doublet copies it: ID, request words, unreduced start, ports with window lengths, offset,
swap. -/
structure TwinResv where
  id : Nat
  words : List (BitVec 64)
  s : Nat
  ports : List (Nat × Nat)
  ofs : Nat
  swap : Nat
  deriving DecidableEq, Repr

/-- A port's Blocker bank as the Doublet copies it: the entries of the bank last written, its cycle, the instant of a
swap that is pending, and whether that swap releases the port. -/
structure TwinBank where
  port : Nat
  cycle : Nat
  entries : List (BitVec 64)
  swapAt : Option Nat
  release : Bool
  deriving DecidableEq, Repr

/-- A reference slot as the Doublet mirrors it: number, TYPE, STATE, CAUSE, TIMER_S. -/
structure TwinSlot where
  slot : Nat
  type : Nat
  state : Nat
  cause : Nat
  timer : Nat
  deriving DecidableEq, Repr

/-- The content of a Doublet copy, class by class (R288). -/
inductive CopyItem where
  /-- INC, SLEW_REM, TRACEABLE, HO_CORR, INC_avg, HO_READY, the words of HO_CFG, HO_C1 to HO_C3 and HO_AGE, and the
  state of firmware's servo, as one number -/
  | time (inc : Nat) (slew : Int) (traceable : Bool) (hoCorr : Int) (avg : Option Nat) (ready : Bool)
      (model : List (BitVec 32)) (servo : Nat)
  /-- REF_CFG, REF_TIME, SELECTED, SWITCHING and the slots -/
  | ref (cfg time : BitVec 32) (selected : Option Nat) (switching : Bool) (slots : List TwinSlot)
  /-- NEXT_SEQ and the stamp of the last frame numbered of a generation entry -/
  | frer (handle seq stamp : Nat)
  /-- the state of a recovery entry, at a full copy -/
  | frerFull (handle : Nat) (word : BitVec 64)
  /-- one staging list -/
  | tables (ops : List TwinOp)
  /-- at a full copy: every entry of the staged tables that does not hold its reset contents (R291) -/
  | tablesFull (ops : List TwinOp)
  /-- the Blocker: page registers (offset, instance, word), reservations, launch table, staged launch entries, banks -/
  | blk (regs : List (Nat × Nat × BitVec 32)) (resv : List TwinResv) (launch : List (Nat × BitVec 64 × BitVec 64))
      (stage : List (Nat × Nat × BitVec 64 × BitVec 64)) (banks : List TwinBank)
  deriving DecidableEq, Repr

/-- The header of a Doublet cycle's copy or acknowledgement (R286): the sender's side and OWNER bit, its time, the
handover notice or its acceptance, whether a full copy runs, READY, the stamps of R290, and whether the copy ends
within an item that the next one continues (R287). -/
structure TwinHeader where
  sideB : Bool
  owner : Bool
  time : Nat
  notice : Bool
  full : Bool
  ready : Bool
  t1 : Nat
  t4 : Nat
  more : Bool
  deriving DecidableEq, Repr


/-- A request to the Epash agent (R383 to R386): the requester (address and port), and the datagram's header fields and
body. -/
structure EpashReq where
  requester : Nat
  version : BitVec 8
  length : BitVec 16
  seq : BitVec 32
  body : List (BitVec 8)
  deriving DecidableEq, Repr

/-- Whose transmit request is taken (R334): the descriptor at the head of a host ring, a firmware transmit request that
names a class, for EP49 (R87, R169), or one for the management lane (R337). The table has a row for the first only
(DESIGN CHOICE, log entry 115). -/
inductive TxSource where
  | ring (n : Fin 8)
  | firmware (cls : Fin 8)
  | ml
  deriving DecidableEq, Repr

/-- The commands (opcode_table.json), in the table's order. -/
inductive Instr where
  /-- REGISTER_WRITE (R19). -/
  | registerWrite (acc : Accessor) (addr : BitVec 26) (byteEn : BitVec 4) (data : List (BitVec 32))
  /-- COMMIT_GO (R397). -/
  | commitGo (acc : Accessor) (page : BitVec 16)
  /-- COMMIT_DISCARD (R398). -/
  | commitDiscard (acc : Accessor) (page : BitVec 16)
  /-- SOFT_RESET (R396). -/
  | softReset (acc : Accessor) (page : BitVec 16)
  /-- OWNER_WRITE (R309). -/
  | ownerWrite (acc : Accessor) (page : BitVec 16) (owner : BitVec 2)
  /-- VIEW_SET (R307). -/
  | viewSet (acc : Accessor) (page : BitVec 16) (view : Bool)
  /-- INT_RAW_CLEAR (R395). -/
  | intRawClear (acc : Accessor) (page : BitVec 16) (bits raised : BitVec 32)
  /-- ERR_INFO_CLEAR (R394). -/
  | errInfoClear (acc : Accessor) (page : BitVec 16)
  /-- LOS_DEASSERT (R53). -/
  | losDeassert (lane : Fin 51)
  /-- LOS_ASSERT (R44). -/
  | losAssert (lane : Fin 51)
  /-- LOL_ASSERT (R54). -/
  | lolAssert (lane : Fin 51)
  /-- LOL_CLEAR (R54). -/
  | lolClear (lane : Fin 51)
  /-- AUTONEG_RESOLVED (R40). -/
  | autonegResolved (lane : Fin 51) (partner : AnPage)
  /-- AUTONEG_TIMEOUT (R41). -/
  | autonegTimeout (lane : Fin 51)
  /-- TRAINING_DONE (R42). -/
  | trainingDone (lane : Fin 51) (coef : TrainedEq)
  /-- TRAINING_TIMEOUT (R42). -/
  | trainingTimeout (lane : Fin 51)
  /-- CDR_LOCKED (R433). -/
  | cdrLocked (lane : Fin 51)
  /-- CDR_ACQUIRE_TIMEOUT (R433). -/
  | cdrAcquireTimeout (lane : Fin 51)
  /-- BLOCK_LOCK_ACHIEVED (R41). -/
  | blockLockAchieved (lane : Fin 51)
  /-- FEC_ALIGNED (R42). -/
  | fecAligned (lane : Fin 51)
  /-- BLOCK_LOCK_TIMEOUT (R42). -/
  | blockLockTimeout (lane : Fin 51)
  /-- LATENCY_MEASURED (R47). -/
  | latencyMeasured (lane : Fin 51) (meas : LatMeas)
  /-- LATENCY_MEASURE_TIMEOUT (R42). -/
  | latencyMeasureTimeout (lane : Fin 51)
  /-- RATE_SEARCH_TRY_TIMEOUT (R41). -/
  | rateSearchTryTimeout (lane : Fin 51)
  /-- TRAINING_FRAMES_DETECTED (R41). -/
  | trainingFramesDetected (lane : Fin 51)
  /-- FAULT_TIMEOUT (R42). -/
  | faultTimeout (lane : Fin 51)
  /-- REMOTE_FAULT (R43). -/
  | remoteFault (lane : Fin 51)
  /-- RETRAIN (R43). -/
  | retrain (acc : Accessor) (lane : Fin 51)
  /-- BLOCK_ALIGNER_SHIFT (R43). -/
  | blockAlignerShift (lane : Fin 51)
  /-- IDLE_ENTRY_DELAY_EXPIRY (R57). -/
  | idleEntryDelayExpiry (lane : Fin 51)
  /-- IDLE_REQUEST_RECEIVED (R57). -/
  | idleRequestReceived (lane : Fin 51) (deep : Bool)
  /-- IDLE_REPLY_RECEIVED (R57). -/
  | idleReplyReceived (lane : Fin 51) (deep : Bool)
  /-- IDLE_REPLY_TIMEOUT (R57). -/
  | idleReplyTimeout (lane : Fin 51)
  /-- WAKE_TRIGGER (R57). -/
  | wakeTrigger (lane : Fin 51)
  /-- WAKE_COMPLETE (R56). -/
  | wakeComplete (lane : Fin 51) (shifted : Bool)
  /-- WAKE_TIMEOUT (R58). -/
  | wakeTimeout (lane : Fin 51)
  /-- REFRESH_BURST_SEND (R58). -/
  | refreshBurstSend (lane : Fin 51)
  /-- REFRESH_MISSING (R58). -/
  | refreshMissing (lane : Fin 51)
  /-- GCL_WAKE_PORT (R59). -/
  | gclWakePort (port : Fin 48)
  /-- PRBS_GEN_ENABLE (R62). -/
  | prbsGenEnable (acc : Accessor) (lane : Fin 51)
  /-- PRBS_GEN_DISABLE (R62). -/
  | prbsGenDisable (acc : Accessor) (lane : Fin 51)
  /-- PRBS_ERR_INJECT (R62). -/
  | prbsErrInject (acc : Accessor) (lane : Fin 51)
  /-- PRBS_CLEAR (R62). -/
  | prbsClear (acc : Accessor) (lane : Fin 51)
  /-- PRBS_CHECKER_LOCK (R62). -/
  | prbsCheckerLock (lane : Fin 51)
  /-- PRBS_CHECKER_LOSS (R62). -/
  | prbsCheckerLoss (lane : Fin 51) (errors bits : Nat)
  /-- BACKGROUND_CAL_STEP (R50). -/
  | backgroundCalStep (lane : Fin 51) (dirs : List (Nat × Bool))
  /-- EYE_REFRESH (R52). -/
  | eyeRefresh (lane : Fin 51) (height : BitVec 10) (width : BitVec 8) (worst : BitVec 2)
  /-- PD_PHASE_REFRESH (R48). -/
  | pdPhaseRefresh (lane : Fin 51) (phase : BitVec 16) (pcs : PcsCount)
  /-- TRIM_VAL_WRITE (R51). -/
  | trimValWrite (acc : Accessor) (lane : Fin 51) (value : BitVec 32)
  /-- PAUSE_FRAME_RECEIVED (R430). -/
  | pauseFrameReceived (port : Fin 48) (pfc : Bool) (enables : BitVec 8) (quanta : List (BitVec 16))
  /-- PAUSE_EXPIRY (R430). -/
  | pauseExpiry (port : Fin 48)
  /-- PACE_READING (R71). -/
  | paceReading (readings : List (BitVec 10))
  /-- AVS_LOOP_RUN (R73). -/
  | avsLoopRun
  /-- AVS_ACK (R73). -/
  | avsAck
  /-- AVS_ACK_TIMEOUT (R74). -/
  | avsAckTimeout
  /-- PACE_LOW_CLR (R71). -/
  | paceLowClr (acc : Accessor)
  /-- HANDSHAKE_LOCKUP (R67). -/
  | handshakeLockup (island : Fin 64) (stage : BitVec 8)
  /-- CLOCK_STOP_DETECTED (R78). -/
  | clockStopDetected (island : Fin 56)
  /-- CLOCK_RUNNING_AGAIN (R78). -/
  | clockRunningAgain (island : Fin 56) (late : BitVec 16)
  /-- XING_COMPAT_TIMEOUT (R81). -/
  | xingCompatTimeout (island : Fin 56)
  /-- XING_RESYNC_FLAG_SEEN (R83). -/
  | xingResyncFlagSeen (island : Fin 56)
  /-- XING_RESYNC_ACK_SEEN (R83). -/
  | xingResyncAckSeen (island : Fin 56)
  /-- XING_RESYNC_CONFIRMED (R83). -/
  | xingResyncConfirmed (island : Fin 56)
  /-- RX_FRAME_START (R86). -/
  | rxFrameStart (port : Fin 49) (pre : Bool) (bytes : List (BitVec 8)) (whole : Option RxEnd) (edge : RxEdge)
      (errs : WordErrors)
  /-- MAX_SDU_EXCEEDED (R97). -/
  | maxSduExceeded (input : Fin 50) (pre : Bool) (more : List (BitVec 8))
  /-- RX_FRAME_END (R108). -/
  | rxFrameEnd (port : Fin 49) (pre : Bool) (more : List (BitVec 8)) (ending : RxEnd) (errs : WordErrors)
  /-- BUFFER_ASSIGN_LATE (R125). -/
  | bufferAssignLate (input : Fin 50) (pre : Bool) (more : List (BitVec 8))
  /-- LEN_HINT_OVERRUN (R125). -/
  | lenHintOverrun (input : Fin 50) (pre : Bool) (more : List (BitVec 8))
  /-- HOLDING_AREA_GRANT (R124). -/
  | holdingAreaGrant (input : Fin 50)
  /-- LEARN_WRITE (R102). -/
  | learnWrite
  /-- AGEING_SWEEP (R103). -/
  | ageingSweep
  /-- STREAM_GATE_ENTRY_ADVANCE (R109). -/
  | streamGateEntryAdvance (gate : Fin 4096)
  /-- LKP_READ (R400). -/
  | lkpRead (acc : Accessor)
  /-- LKP_STAGE_WRITE (R113). -/
  | lkpStageWrite (acc : Accessor)
  /-- LKP_STAGE_DELETE (R431). -/
  | lkpStageDelete (acc : Accessor)
  /-- LKP_READ_KEY (R431). -/
  | lkpReadKey (acc : Accessor)
  /-- LKP_LOOKUP (R431). -/
  | lkpLookup (acc : Accessor)
  /-- LKP_STAGE_INSERT (R431). -/
  | lkpStageInsert (acc : Accessor)
  /-- LKP_STAGE_CLEAR (R117). -/
  | lkpStageClear (acc : Accessor)
  /-- LKP_FLUSH_DYNAMIC (R400). -/
  | lkpFlushDynamic (acc : Accessor)
  /-- MTR_READ (R400). -/
  | mtrRead (acc : Accessor)
  /-- MTR_STAGE_WRITE (R104). -/
  | mtrStageWrite (acc : Accessor)
  /-- MTR_STAGE_DELETE (R115). -/
  | mtrStageDelete (acc : Accessor)
  /-- MTR_RESET_STATE (R107). -/
  | mtrResetState (acc : Accessor)
  /-- PENDING_COMMIT_APPLY (R117). -/
  | pendingCommitApply
  /-- EPOCH_AGED (R116). -/
  | epochAged (epoch : Fin 16)
  /-- REROLL_EMPTY_COMMIT (R117). -/
  | rerollEmptyCommit
  /-- TX_FRAME_DONE (R134). -/
  | txFrameDone (output : Fin 50) (errs : WordErrors)
  /-- CACHE_REFILL_DONE (R129). -/
  | cacheRefillDone (pool : Fin 4) (bad : Fin 65)
  /-- HASH_WINDOW_END (R132). -/
  | hashWindowEnd
  /-- HASH_REROLL_REQUEST (R132). -/
  | hashRerollRequest (acc : Accessor)
  /-- SPILL_COPY_DONE (R140). -/
  | spillCopyDone (voq : Fin 20000) (busy : Bool)
  /-- SPILL_REFILL_DONE (R140). -/
  | spillRefillDone (voq : Fin 20000) (uncorrectable : Bool)
  /-- HOLD_EXPIRY (R144). -/
  | holdExpiry (port : Fin 50)
  /-- MGR_HALT (R120). -/
  | mgrHalt (acc : Accessor)
  /-- MGR_RESUME (R120). -/
  | mgrResume (acc : Accessor)
  /-- MGR_HALTED (R120). -/
  | mgrHalted
  /-- POOL_LOW_CLR (R136). -/
  | poolLowClr (acc : Accessor)
  /-- VOQ_FLUSH_START (R144). -/
  | voqFlushStart (acc : Accessor) (scope : BitVec 2) (ep : BitVec 6)
  /-- VOQ_FLUSH_DONE (R144). -/
  | voqFlushDone
  /-- BP_REFRESH (R138). -/
  | bpRefresh (port : Fin 48)
  /-- EGRESS_SELECT (R155). -/
  | egressSelect (output : Fin 50) (errs : WordErrors)
  /-- VERIFY_MPACKET_SEND (R157). -/
  | verifyMpacketSend (port : Fin 48)
  /-- VERIFY_RESPONSE_RECEIVED (R157). -/
  | verifyResponseReceived (port : Fin 48)
  /-- SCH_READ (R400). -/
  | schRead (acc : Accessor)
  /-- SCH_WRITE_SHADOW (R151). -/
  | schWriteShadow (acc : Accessor)
  /-- SCH_READ_SHADOW (R151). -/
  | schReadShadow (acc : Accessor)
  /-- SCH_READ_CLR (R168). -/
  | schReadClr (acc : Accessor)
  /-- SCH_CLEAR_TABLE (R168). -/
  | schClearTable (acc : Accessor)
  /-- LAUNCH_ENQUEUE (R173). -/
  | launchEnqueue (port : Fin 48)
  /-- LAUNCH_TIME_REACHED (R170). -/
  | launchTimeReached (port : Fin 48)
  /-- LAUNCH_LATE (R171). -/
  | launchLate (port : Fin 48)
  /-- GCL_ENTRY_ADVANCE (R175). -/
  | gclEntryAdvance (port : Fin 48)
  /-- GCL_SWAP_REQUEST (R176). -/
  | gclSwapRequest (acc : Accessor) (port : Fin 48) (sec : BitVec 32) (ns : BitVec 30)
  /-- GCL_SWAP_CANCEL (R177). -/
  | gclSwapCancel (acc : Accessor) (port : Fin 48)
  /-- GCL_SWAP_APPLY (R176). -/
  | gclSwapApply (port : Fin 48)
  /-- GCL_READ (R400). -/
  | gclRead (acc : Accessor) (port : Fin 48)
  /-- GCL_WRITE (R177). -/
  | gclWrite (acc : Accessor) (port : Fin 48)
  /-- LAUNCH_HWM_CLR (R173). -/
  | launchHwmClr (acc : Accessor) (port : Fin 48)
  /-- BLK_PUSH (R187). -/
  | blkPush (acc : Accessor)
  /-- BLK_POP (R183). -/
  | blkPop (acc : Accessor)
  /-- BLK_ADD (R185). -/
  | blkAdd
  /-- BLK_REMOVE (R182). -/
  | blkRemove
  /-- BLK_REPLACE_ALL (R189). -/
  | blkReplaceAll
  /-- BLK_QUERY (R182). -/
  | blkQuery
  /-- BLK_RESUME_AFTER_SWAP (R188). -/
  | blkResumeAfterSwap
  /-- BLK_LAUNCH_READ (R400). -/
  | blkLaunchRead (acc : Accessor)
  /-- BLK_LAUNCH_WRITE (R172). -/
  | blkLaunchWrite (acc : Accessor)
  /-- BLK_LAUNCH_DELETE (R172). -/
  | blkLaunchDelete (acc : Accessor)
  /-- TIME_STEP (R210). -/
  | timeStep (acc : Accessor) (ns frac : BitVec 32)
  /-- TIME_SET (R209). -/
  | timeSet (acc : Accessor) (secHi : BitVec 16) (secLo : BitVec 32) (ns : BitVec 30) (frac : BitVec 16)
  /-- NEG_STEP_DONE (R210). -/
  | negStepDone
  /-- SLEW_DONE (R211). -/
  | slewDone
  /-- LANE_COPY_CHECK (R213). -/
  | laneCopyCheck (lane : Fin 51) (differs : Bool)
  /-- TIME_SNAPSHOT (R25). -/
  | timeSnapshot (acc : Accessor)
  /-- TRACE_SET (R208). -/
  | traceSet (acc : Accessor)
  /-- TRACE_CLR (R208). -/
  | traceClr (acc : Accessor)
  /-- EVENT_MSG_STROBE (R220). -/
  | eventMsgStrobe (port : Fin 48)
  /-- TXF_POP (R223). -/
  | txfPop (acc : Accessor) (tsu : Fin 49)
  /-- TXF_CLEAR (R223). -/
  | txfClear (acc : Accessor) (tsu : Fin 49)
  /-- TCAP_EDGE (R226). -/
  | tcapEdge (sub : Fin 16)
  /-- CAP_NS_READ (R226). -/
  | capNsRead
  /-- REF_SECOND_MEASURE (R230). -/
  | refSecondMeasure (ys : List (Fin 16 × Int)) (phase : Option Int)
  /-- DRIFT_DWELL_EXPIRY (R232). -/
  | driftDwellExpiry (slot : Fin 16)
  /-- MAJ_DWELL_EXPIRY (R233). -/
  | majDwellExpiry (slot : Fin 16)
  /-- SLOT_ACTIVITY_FAIL (R227). -/
  | slotActivityFail (slot : Fin 16)
  /-- SLOT_ACTIVITY_RETURN (R231). -/
  | slotActivityReturn (slot : Fin 16)
  /-- QUAL_TIMER_EXPIRY (R231). -/
  | qualTimerExpiry (slot : Fin 16)
  /-- WTR_EXPIRY (R236). -/
  | wtrExpiry (slot : Fin 16)
  /-- SWITCH_MEASURE_DONE (R238). -/
  | switchMeasureDone (delta : Int)
  /-- LOCK_DETECTED (R237). -/
  | lockDetected
  /-- HO_READY_SET (R237). -/
  | hoReadySet
  /-- HOLDOVER_UPDATE (R242). -/
  | holdoverUpdate (sensor : Int)
  /-- PTP_OFS_WRITE (R227). -/
  | ptpOfsWrite (acc : Accessor) (value : BitVec 32)
  /-- PTP_OFS_TIMEOUT (R227). -/
  | ptpOfsTimeout (slot : Fin 16)
  /-- SLOT_FW_WRITE (R229). -/
  | slotFwWrite (acc : Accessor) (value : BitVec 32)
  /-- HO_TEMP_WRITE (R243). -/
  | hoTempWrite (acc : Accessor) (temp : BitVec 16)
  /-- HO_TEMP_STALE (R243). -/
  | hoTempStale
  /-- SWITCH_MANUAL (R235). -/
  | switchManual (acc : Accessor) (slot : Fin 16)
  /-- SWITCH_FORCED (R235). -/
  | switchForced (acc : Accessor) (slot : Fin 16)
  /-- CLR_WTR (R235). -/
  | clrWtr (acc : Accessor) (slot : Fin 16)
  /-- ABS_CLR (R241). -/
  | absClr (acc : Accessor)
  /-- MODEL_LEARN_SAMPLE (R246). -/
  | modelLearnSample
  /-- MODEL_FIT (R246). -/
  | modelFit
  /-- BOOTROM_SLOT_REWRITE (R248). -/
  | bootromSlotRewrite
  /-- SYN_HOP (R253). -/
  | synHop (acc : Accessor) (syn : Fin 4) (plan : Fin 8)
  /-- SYN_HOP_DONE (R253). -/
  | synHopDone (syn : Fin 4) (band : BitVec 6) (tune : BitVec 16)
  /-- SYN_SEARCH (R253). -/
  | synSearch (acc : Accessor)
  /-- SYN_FORGET (R253). -/
  | synForget (acc : Accessor)
  /-- TUNE_LIMIT_REACHED (R254). -/
  | tuneLimitReached (syn : Fin 4) (tune : BitVec 16)
  /-- OUT_ALIGN (R263). -/
  | outAlign (acc : Accessor) (outs : BitVec 12) (walk : Bool)
  /-- OUT_ALIGN_CANCEL (R264). -/
  | outAlignCancel (acc : Accessor) (outs : BitVec 12)
  /-- OUT_ALIGN_DONE (R263). -/
  | outAlignDone (out : Fin 12)
  /-- EVT_EDGE (R269). -/
  | evtEdge (evt : Fin 8) (rising : Bool) (sub temp : BitVec 16)
  /-- EVT_FIFO_POP (R272). -/
  | evtFifoPop (acc : Accessor)
  /-- EVT_FIFO_CLEAR (R272). -/
  | evtFifoClear (acc : Accessor)
  /-- EVT_BLANK_END (R271). -/
  | evtBlankEnd (evt : Fin 8)
  /-- MEAS_START (R274). -/
  | measStart (acc : Accessor) (evt : Fin 8) (timed : Bool) (gateMs : BitVec 20) (sec : BitVec 32) (ns : BitVec 30)
  /-- MEAS_ABORT (R274). -/
  | measAbort (acc : Accessor) (evt : Fin 8)
  /-- MEAS_GATE_OPEN (R274). -/
  | measGateOpen (evt : Fin 8)
  /-- MEAS_GATE_CLOSE (R274). -/
  | measGateClose (evt : Fin 8)
  /-- MEAS_RESULT_READY (R275). -/
  | measResultReady (evt : Fin 8)
  /-- INTERP_CAL_SWAP (R270). -/
  | interpCalSwap (evt : Fin 8) (ok : Bool)
  /-- INTERP_RECAL (R270). -/
  | interpRecal (acc : Accessor) (ok : Bool)
  /-- DBL_HB_TOGGLE (R281). -/
  | dblHbToggle
  /-- DBL_HB_IN_EDGE (R281). -/
  | dblHbInEdge
  /-- DBL_HB_TIMEOUT (R282). -/
  | dblHbTimeout
  /-- DBL_OWN_IN_CHANGE (R282). -/
  | dblOwnInChange (level : Bool)
  /-- CLAIM_WAIT_EXPIRY (R282). -/
  | claimWaitExpiry
  /-- DBL_CYCLE_END (R286). -/
  | dblCycleEnd (fit : Nat) (kib : BitVec 10) (backlog : BitVec 22)
  /-- DBL_COPY_RECEIVED (R286). -/
  | dblCopyReceived (crcOk : Bool) (hdr : TwinHeader) (items : List CopyItem) (edge : RxEdge) (kib : BitVec 10)
  /-- DBL_ACK_RECEIVED (R286). -/
  | dblAckReceived (crcOk : Bool) (hdr : TwinHeader) (mismatch : BitVec 5) (edge : RxEdge)
  /-- DBL_HANDOVER (R298). -/
  | dblHandover (acc : Accessor)
  /-- DBL_HANDOVER_CANCEL (R298). -/
  | dblHandoverCancel (acc : Accessor)
  /-- DBL_FULL_COPY (R291). -/
  | dblFullCopy (acc : Accessor)
  /-- HANDOVER_RELEASE (R298). -/
  | handoverRelease
  /-- RECOVERY_RESET_TIMEOUT (R294). -/
  | recoveryResetTimeout (handle : Fin 16384)
  /-- DBL_ENTRY_READ (R400). -/
  | dblEntryRead (acc : Accessor)
  /-- DBL_ENTRY_WRITE (R293). -/
  | dblEntryWrite (acc : Accessor)
  /-- DBL_RESET_REC (R294). -/
  | dblResetRec (acc : Accessor)
  /-- PLACEMENT_PERIOD (R303). -/
  | placementPeriod (cores services : List (BitVec 7))
  /-- MBX_SEND (R314). -/
  | mbxSend (acc : Accessor) (ch : Fin 32) (fw : Bool) (mid : BitVec 32) (payload : List (BitVec 8))
  /-- MBX_RECEIVE (R315). -/
  | mbxReceive (acc : Accessor) (ch : Fin 32) (fw : Bool)
  /-- MBX_WAIT_SET (R317). -/
  | mbxWaitSet (acc : Accessor) (ch : Fin 32)
  /-- MBX_WAIT_CLR (R317). -/
  | mbxWaitClr (acc : Accessor) (ch : Fin 32)
  /-- MBX_CROSSED (R318). -/
  | mbxCrossed (ch : Fin 32)
  /-- MBX_TWIN_DELIVERY (R316). -/
  | mbxTwinDelivery (ch : Fin 4) (what : TwinMbx)
  /-- SYS_VERSION (R321). -/
  | sysVersion (ch : Fin 32)
  /-- SYS_RESTART (R321). -/
  | sysRestart (ch : Fin 32)
  /-- SYS_PLACEMENT (R321). -/
  | sysPlacement (ch : Fin 32)
  /-- PAGE_HOLD (R311). -/
  | pageHold (ch : Fin 32)
  /-- PAGE_RELEASE (R311). -/
  | pageRelease (ch : Fin 32)
  /-- PAGE_GRANT (R309). -/
  | pageGrant (ch : Fin 32)
  /-- PAGE_WRITE (R321). -/
  | pageWrite (ch : Fin 32)
  /-- PAGE_HOLD_EXPIRY (R311). -/
  | pageHoldExpiry (page : BitVec 16)
  /-- PTP_INSTANCE (R321). -/
  | ptpInstance (ch : Fin 32)
  /-- PTP_PORT (R321). -/
  | ptpPort (ch : Fin 32)
  /-- PTP_DATASET (R321). -/
  | ptpDataset (ch : Fin 32) (dataset : List (BitVec 8))
  /-- PTP_ASYM (R321). -/
  | ptpAsym (ch : Fin 32)
  /-- REF_SLOT_CMD (R321). -/
  | refSlotCmd (ch : Fin 32)
  /-- REF_MODEL_CMD (R321). -/
  | refModelCmd (ch : Fin 32)
  /-- REF_STORE_CMD (R321). -/
  | refStoreCmd (ch : Fin 32)
  /-- RED_PAIR_CMD (R321). -/
  | redPairCmd (ch : Fin 32)
  /-- RED_STREAM_CMD (R321). -/
  | redStreamCmd (ch : Fin 32)
  /-- RED_LATENT_CMD (R321). -/
  | redLatentCmd (ch : Fin 32)
  /-- BLK_REQUEST_CMD (R321). -/
  | blkRequestCmd (ch : Fin 32)
  /-- LLDP_PORT_CMD (R321). -/
  | lldpPortCmd (ch : Fin 32)
  /-- LLDP_NEIGHBOURS_CMD (R321). -/
  | lldpNeighboursCmd (ch : Fin 32)
  /-- LOG_MARK_CMD (R321). -/
  | logMarkCmd (ch : Fin 32)
  /-- LOG_EXPORT_CMD (R321). -/
  | logExportCmd (ch : Fin 32)
  /-- EPASH_CFG_CMD (R321). -/
  | epashCfgCmd (ch : Fin 32)
  /-- UPD_BEGIN (R324). -/
  | updBegin (ch : Fin 32)
  /-- UPD_WRITE (R324). -/
  | updWrite (ch : Fin 32)
  /-- UPD_VERIFY (R324). -/
  | updVerify (ch : Fin 32) (crcOk sigOk : Bool) (version : BitVec 32)
  /-- UPD_ACTIVATE (R324). -/
  | updActivate (ch : Fin 32)
  /-- UPD_CONFIRM (R324). -/
  | updConfirm (ch : Fin 32)
  /-- UPD_ABORT (R324). -/
  | updAbort (ch : Fin 32)
  /-- UPD_STATE (R324). -/
  | updState (ch : Fin 32)
  /-- SVC_RESTART (R325). -/
  | svcRestart (acc : Accessor)
  /-- RESTART_CORES_HALTED (R325). -/
  | restartCoresHalted
  /-- RESTART_DONE (R325). -/
  | restartDone
  /-- TRIAL_CONFIRM_TIMEOUT (R326). -/
  | trialConfirmTimeout
  /-- TRIAL_START_TIMEOUT (R326). -/
  | trialStartTimeout
  /-- RING_DOORBELL (R333). -/
  | ringDoorbell (acc : Accessor) (ring : Fin 16) (tail : BitVec 16)
  /-- TX_DESCRIPTOR_PROCESS (R334). -/
  | txDescriptorProcess (source : TxSource) (w1 w2 : BitVec 64) (bytes : List (BitVec 8)) (errs : WordErrors)
  /-- RX_FRAME_TO_HOST (R335). -/
  | rxFrameToHost (descs : List (BitVec 64 × BitVec 64)) (errs : WordErrors)
  /-- DMA_ERROR (R336). -/
  | dmaError (ring : Fin 16) (cause : Fin 4) (index : BitVec 16) (desc : Option (BitVec 64))
  /-- COALESCE_TIMER (R332). -/
  | coalesceTimer (ring : Fin 16)
  /-- I2C_TRANSFER (R337). -/
  | i2cTransfer (offset : BitVec 32) (write : Bool)
  /-- CROWN_TRIP_CLEAR (R342). -/
  | crownTripClear (bits setting : BitVec 32)
  /-- TEMPLATE_LAUNCH (R343). -/
  | templateLaunch (tpl : Fin 64) (data : BitVec 32)
  /-- TEMPLATE_LAUNCH_DEQUEUE (R203). -/
  | templateLaunchDequeue (errs : WordErrors)
  /-- CROWN_WAIT_READ (R345). -/
  | crownWaitRead (page : BitVec 16) (addr : BitVec 10)
  /-- CROWN_WAIT_WRITE (R345). -/
  | crownWaitWrite (page : BitVec 16) (addr : BitVec 10) (value : BitVec 32)
  /-- CROWN_WAIT_COMPLETE (R339). -/
  | crownWaitComplete
  /-- CROWN_WAIT_TIMEOUT (R345). -/
  | crownWaitTimeout
  /-- CROWN_BAD_ACCESS (R338). -/
  | crownBadAccess
  /-- CTL_MSG_WRITE (R341). -/
  | ctlMsgWrite (value : BitVec 32)
  /-- CRN_READ_LIVE (R344). -/
  | crnReadLive (acc : Accessor)
  /-- CRN_WRITE_SHADOW (R344). -/
  | crnWriteShadow (acc : Accessor)
  /-- CRN_READ_SHADOW (R344). -/
  | crnReadShadow (acc : Accessor)
  /-- CRN_PUBLISH (R344). -/
  | crnPublish (acc : Accessor)
  /-- POWER_ON_RESET (R346). -/
  | powerOnReset
  /-- BROWN_OUT (R346). -/
  | brownOut
  /-- RESET_N_LOW (R346). -/
  | resetNLow
  /-- CLOCK_FAILURE_RESET (R347). -/
  | clockFailureReset
  /-- WATCHDOG_WARN (R350). -/
  | watchdogWarn
  /-- WATCHDOG_EXPIRY (R350). -/
  | watchdogExpiry
  /-- WDOG_KICK (R350). -/
  | wdogKick (acc : Accessor)
  /-- SOFTWARE_RESET (R346). -/
  | softwareReset (acc : Accessor) (value : BitVec 32)
  /-- DEBUG_WARM_RESET (R346). -/
  | debugWarmReset
  /-- CORE_LOCKUP (R346). -/
  | coreLockup (core : Fin 5)
  /-- OPTION_LOAD_DONE (R364). -/
  | optionLoadDone (badA badB : Bool)
  /-- ISLAND_CLOCK_GOOD (R29). -/
  | islandClockGood (what : Fin 7)
  /-- XO_ABSENT_TIMEOUT (R353). -/
  | xoAbsentTimeout
  /-- DRAM_TRAINING_DONE (R351). -/
  | dramTrainingDone (rate : BitVec 16) (attempts : Fin 4)
  /-- DRAM_TRAINING_FAIL (R353). -/
  | dramTrainingFail
  /-- PACE_CHECK_ATTEMPT (R75). -/
  | paceCheckAttempt (crcFail : List (BitVec 16))
  /-- ISLAND_RELEASE (R351). -/
  | islandRelease (unit : Fin 128) (crcFail : List (BitVec 16)) (strapB : Bool)
  /-- PERST_N_RISE (R361). -/
  | perstNRise
  /-- DOZE_ENTRY (R359). -/
  | dozeEntry (acc : Accessor) (cfg : BitVec 32)
  /-- DOZE_EXIT (R359). -/
  | dozeExit (acc : Accessor) (cfg : BitVec 32)
  /-- KEEP_ENTRY (R360). -/
  | keepEntry (acc : Accessor) (cfg : BitVec 32)
  /-- KEEP_ISLANDS_RESET (R360). -/
  | keepIslandsReset
  /-- WAKE_N_LOW (R361). -/
  | wakeNLow
  /-- WAKE_TIME_REACHED (R361). -/
  | wakeTimeReached
  /-- KEEP_SUPPLY_RESTORED (R407). -/
  | keepSupplyRestored
  /-- KEEP_SUPPLY_TIMEOUT (R407). -/
  | keepSupplyTimeout
  /-- OPT_WRITE (R365). -/
  | optWrite (acc : Accessor)
  /-- OPT_WRITE_DONE (R365). -/
  | optWriteDone (ok : Bool)
  /-- CNT_LO_READ (R367). -/
  | cntLoRead (acc : Accessor)
  /-- FREEZE_ARM (R373). -/
  | freezeArm (acc : Accessor) (timed : Bool) (sec : BitVec 32) (ns : BitVec 30)
  /-- FREEZE_CANCEL (R374). -/
  | freezeCancel (acc : Accessor)
  /-- FREEZE_INSTANT (R373). -/
  | freezeInstant
  /-- SNAP_COLLECT_DONE (R373). -/
  | snapCollectDone
  /-- SAMPLER_FIRE (R375). -/
  | samplerFire (smp : Fin 4) (taken : Bool)
  /-- SW_INC (R376). -/
  | swInc (acc : Accessor) (value : BitVec 32)
  /-- RECORD_WRITE (R381). -/
  | recordWrite
  /-- LOG_CLEAR (R378). -/
  | logClear (acc : Accessor)
  /-- EPASH_IDENT (R385). -/
  | epashIdent (req : EpashReq)
  /-- EPASH_READ (R385). -/
  | epashRead (req : EpashReq)
  /-- EPASH_SNAP (R385). -/
  | epashSnap (req : EpashReq)
  /-- EPASH_LIVE (R385). -/
  | epashLive (req : EpashReq)
  /-- EPASH_FREEZE_AT (R385). -/
  | epashFreezeAt (req : EpashReq)
  /-- EPASH_LOG_READ (R385). -/
  | epashLogRead (req : EpashReq)
  /-- EPASH_MARK (R385). -/
  | epashMark (req : EpashReq)
  /-- DRAM_TEST_START (R389). -/
  | dramTestStart (acc : Accessor)
  /-- DRAM_TEST_ABORT (R389). -/
  | dramTestAbort (acc : Accessor)
  /-- DRAM_TEST_DONE (R389). -/
  | dramTestDone (errors : BitVec 32) (first : BitVec 27)
  /-- MBIST_RUN (R387). -/
  | mbistRun
  /-- TIME_BASE_TICK (R207). -/
  | timeBaseTick
  /-- RESET_N_RISE (R351). -/
  | resetNRise
  /-- REFRESH_BURST_RECEIVED (R58). -/
  | refreshBurstReceived (lane : Fin 51)
  /-- PCIE_LINK_CHANGE (R328). -/
  | pcieLinkChange (up : Bool) (speed width : BitVec 3)
  /-- D3HOT_ENTRY (R328). -/
  | d3hotEntry (fn : Fin 2) (hot : Bool)
  /-- LSY_LOCK_LOSS (R79). -/
  | lsyLockLoss (locked : Bool)
  deriving DecidableEq, Repr

end Sys2Proof
end

