-- ==== Sys2Proof/Decode.lean ====
section
/-!
DEFINITION. Decode.lean: the command that a word spells by the table's bits. No row of spec/opcode_table.json gives bits
(every row's "fields" is empty), so no word spells a command.
-/
namespace Sys2Proof

/-- R390: commands come as accesses, frames, edges and messages, none of them as an instruction word. -/
def decodeTableWord (_nbits _w : Nat) : Option Instr := none

end Sys2Proof
end

