-- ==== Sys2Proof/Machine/Ecc.lean ====
section
/-!
DEFINITION. Machine/Ecc.lean: the extended Hamming (72,64) code of R428 that every native word carries.
-/
namespace Sys2Proof.Machine

/-- Whether a codeword position is one of a check bit (a power of two). -/
def isPow2 (p : Nat) : Bool := [1, 2, 4, 8, 16, 32, 64].contains p

/-- The position of each data bit, d0 first: the positions 1 to 71 that are no power of two, ascending. -/
def dataPositions : List Nat := (List.range 72).filter (fun p => p != 0 && !isPow2 p)

/-- The exclusive OR of the data bits whose position has bit `j` set: check bit `j`, for j from 0 to 6. -/
def eccBit (data : Data) (j : Nat) : Bool :=
  (dataPositions.zipIdx.filter (fun e => e.1.testBit j)).foldl (fun b e => b ^^ data.toNat.testBit e.2) false

/-- ECC[6:0] of the data, as a number. -/
def eccLow (data : Data) : Nat :=
  (List.range 7).foldl (fun n j => n + if eccBit data j then 2 ^ j else 0) 0

/-- The parity of the low `n` bits of a number: true when odd. -/
def parity (n x : Nat) : Bool := (List.range n).foldl (fun b i => b ^^ x.testBit i) false

/-- The check byte of R428. -/
def eccByte (data : Data) : BitVec 8 :=
  let low := eccLow data
  BitVec.ofNat 8 (low + if parity 64 data.toNat ^^ parity 7 low then 128 else 0)

/-- The 72-bit word that carries the data: the check byte in bits [71:64] (R21). -/
def encodeNative (data : Data) : Native := (eccByte data) ++ data

/-- What a read of a native word finds (R428). -/
inductive EccResult where
  | clean (data : Data)
  | corrected (data : Data)
  | uncorrectable
  deriving DecidableEq, Repr

/-- The decision of R428 on the 72 bits read. -/
def decodeNative (w : Native) : EccResult :=
  let data : Data := w.setWidth 64
  let stored := w.toNat / 2 ^ 64 % 128
  let s := eccLow data ^^^ stored
  let odd := parity 72 w.toNat
  if !odd then (if s = 0 then .clean data else .uncorrectable)
  else if s = 0 ∨ isPow2 s then .corrected data
  else if s ≤ 71 then
    match dataPositions.idxOf? s with
    | some i => .corrected (data ^^^ (1#64 <<< i))
    | none => .uncorrectable
  else .uncorrectable

end Sys2Proof.Machine
end

