-- ==== Sys2Proof/Config.lean ====
section
/-!
DEFINITION. Config.lean: what one device fixes and the spec does not state (fuses, secrets, analogue results), and the
free values. Each is a constant without a body: a statement about the model holds whatever they are. Log entries
notes/assumptions/1.md to 3.md.
-/
namespace Sys2Proof

/-- DESIGN CHOICE (log entry 2): the values the spec leaves open, one for each reading of State's counter. -/
opaque Config.freeNat : Nat → Nat

/-- Fuses (GLB_ID.STEP): the die step. -/
opaque Config.siliconStep : BitVec 4

/-- Fuses (SEC_STAT.KEY_FUSED). -/
opaque Config.keyFused : Bool

/-- Fuses (SEC_STAT.DEBUG_LOCKED). -/
opaque Config.debugLocked : Bool

/-- Fuses (SEC page, MIN_VER): the lowest image version accepted (R323). -/
opaque Config.minVersion : Word

/-- Fuses (SEC page, KEYHASH): the words of the key hash. -/
opaque Config.keyHash : Nat → Word

/-- Herquaver's vendor ID (R329), whose number the spec does not give. -/
opaque Config.vendorId : BitVec 16

/-- The rotation of a line group under a hash key (R130): a keyed hash the spec does not spell out. -/
opaque Config.bankHash : (key pool group : Nat) → Nat

/-- The keyed mix of 60-bit forwarding-database keys (R94): one bijection for each secret. -/
opaque Config.mix60 : BitVec 60 → BitVec 60 ≃ BitVec 60

/-- The keyed mix of 61-bit stream keys (R94): one bijection for each secret. -/
opaque Config.mix61 : BitVec 61 → BitVec 61 ≃ BitVec 61

/-- What a service core has counted of its own execution at an instant (R370, 0xF00 to 0xF27): what the cores execute
the spec does not give. -/
opaque Config.coreCount : (index instant : Nat) → BitVec 48

/-- Fuses (R269): the delay from an event input's ball to its interpolator in ps, at each of the three junction
temperatures of the factory calibration, which rise and stand in sixteenths of a degree. -/
opaque Config.evtPath : (evt corner : Nat) → BitVec 16
opaque Config.calTemp : (corner : Nat) → Int

/-- The contents of a synthesizer's 24-bit LFSR a time after its restart from a seed (R255), whose taps and clock the
spec does not give. -/
opaque Config.lfsr : (seed elapsed : Nat) → BitVec 24

/-- The format of the continuity record that an image of firmware keeps (R325), the boot ROM's for no bytes, which the
spec does not give. -/
opaque Config.recordFormat : List (BitVec 8) → Nat

end Sys2Proof
end

