-- ==== Sys2Proof/Machine/Fields.lean ====
section
/-!
DEFINITION. Machine/Fields.lean: the register fields of every page, as the page tables of the chapters give them
(R19 for the access codes, R18 for the names PAGE.REGISTER.FIELD, R393 and R394 for the pages and their common part,
R402 for the list of registers). A field's reset value is the table's; a value the table calls fused, per page or
per instance stands in Machine/Regs.lean.
-/
namespace Sys2Proof.Machine

/-- The access codes of R19. -/
inductive Acc where
  | rw | ro | w1c | w1s | wo | sh
  deriving DecidableEq, Repr

/-- One field of one register: its offset in the page, its lowest bit, its width, its access code, its reset value,
and, for a register that stands several times in a page, the byte stride and the number of copies. -/
structure Field where
  off : Nat
  lo : Nat
  wd : Nat
  acc : Acc
  rst : Nat
  stride : Nat := 4
  count : Nat := 1
  deriving DecidableEq, Repr

/-- The page types of the page index (R393). -/
inductive PageType where
  | glb
  | rst
  | opt
  | sec
  | svc
  | mbx
  | pci
  | crn
  | fab
  | lkp
  | mtr
  | buf
  | voq
  | sch
  | blk
  | tal
  | log
  | tmb
  | ref
  | evt
  | dbl
  | syn
  | out
  | drm
  | lnk
  | prt
  | gcl
  | tsu
  deriving DecidableEq, Repr

/-! ### The common page layout (R394) -/

def COM.PAGE_ID.TYPE : Field := ⟨0x0, 24, 8, .ro, 0, 4, 1⟩
def COM.PAGE_ID.INSTANCE : Field := ⟨0x0, 16, 8, .ro, 0, 4, 1⟩
def COM.PAGE_ID.LAYOUT : Field := ⟨0x0, 8, 8, .ro, 1, 4, 1⟩
def COM.PAGE_CAPS.SHADOWED : Field := ⟨0x4, 31, 1, .ro, 0, 4, 1⟩
def COM.PAGE_CAPS.ENTRY : Field := ⟨0x4, 30, 1, .ro, 0, 4, 1⟩
def COM.PAGE_CAPS.SOFT_RST_OK : Field := ⟨0x4, 29, 1, .ro, 0, 4, 1⟩
def COM.PAGE_CAPS.OWNER_FIXED : Field := ⟨0x4, 28, 1, .ro, 0, 4, 1⟩
def COM.PAGE_CAPS.ISLAND : Field := ⟨0x4, 24, 4, .ro, 0, 4, 1⟩
def COM.CTRL.SOFT_RST : Field := ⟨0x8, 31, 1, .w1s, 0, 4, 1⟩
def COM.CTRL.VIEW : Field := ⟨0x8, 2, 1, .rw, 0, 4, 1⟩
def COM.CTRL.OWNER : Field := ⟨0x8, 0, 2, .rw, 1, 4, 1⟩
def COM.STAT.RESTORED : Field := ⟨0xc, 31, 1, .ro, 0, 4, 1⟩
def COM.STAT.DIRTY : Field := ⟨0xc, 30, 1, .ro, 0, 4, 1⟩
def COM.STAT.BUSY : Field := ⟨0xc, 29, 1, .ro, 0, 4, 1⟩
def COM.STAT.IMAGE_VOID : Field := ⟨0xc, 28, 1, .ro, 0, 4, 1⟩
def COM.INT_RAW.ALL : Field := ⟨0x10, 0, 32, .w1c, 0, 4, 1⟩
def COM.INT_EN.ALL : Field := ⟨0x14, 0, 32, .rw, 0, 4, 1⟩
def COM.INT_PEND.ALL : Field := ⟨0x18, 0, 32, .ro, 0, 4, 1⟩
def COM.COMMIT.DISCARD : Field := ⟨0x1c, 1, 1, .w1s, 0, 4, 1⟩
def COM.COMMIT.GO : Field := ⟨0x1c, 0, 1, .w1s, 0, 4, 1⟩
def COM.COMMIT_STAT.REJECTED : Field := ⟨0x20, 31, 1, .ro, 0, 4, 1⟩
def COM.COMMIT_STAT.PENDING : Field := ⟨0x20, 30, 1, .ro, 0, 4, 1⟩
def COM.COMMIT_STAT.CODE : Field := ⟨0x20, 16, 8, .ro, 0, 4, 1⟩
def COM.COMMIT_STAT.ACCEPTED : Field := ⟨0x20, 0, 16, .ro, 0, 4, 1⟩
def COM.ERR_INFO.VALID : Field := ⟨0x24, 31, 1, .w1c, 0, 4, 1⟩
def COM.ERR_INFO.CODE : Field := ⟨0x24, 20, 8, .ro, 0, 4, 1⟩
def COM.ERR_INFO.COUNT : Field := ⟨0x24, 16, 4, .ro, 0, 4, 1⟩
def COM.ERR_INFO.DETAIL : Field := ⟨0x24, 0, 16, .ro, 0, 4, 1⟩
def COM.ERR_TIME_NS.NS : Field := ⟨0x28, 0, 30, .ro, 0, 4, 1⟩
def COM.ERR_TIME_FRAC.SEC_LO : Field := ⟨0x2c, 16, 16, .ro, 0, 4, 1⟩
def COM.ERR_TIME_FRAC.FRAC : Field := ⟨0x2c, 0, 16, .ro, 0, 4, 1⟩

/-! ### The GLB page (16_reset_power_and_option_store.md) -/

def GLB.INT_RAW.WAKE : Field := ⟨0x10, 2, 1, .w1c, 0, 4, 1⟩
def GLB.INT_RAW.STATE_CHG : Field := ⟨0x10, 1, 1, .w1c, 0, 4, 1⟩
def GLB.INT_RAW.REFUSED : Field := ⟨0x10, 0, 1, .w1c, 0, 4, 1⟩
def GLB.GLB_ID.PART : Field := ⟨0x40, 16, 16, .ro, 18582, 4, 1⟩
def GLB.GLB_ID.STEP : Field := ⟨0x40, 12, 4, .ro, 0, 4, 1⟩
def GLB.PWR_CFG.TARGET : Field := ⟨0x44, 30, 2, .sh, 0, 4, 1⟩
def GLB.PWR_CFG.FORCE : Field := ⟨0x44, 29, 1, .sh, 0, 4, 1⟩
def GLB.PWR_CFG.WAKE_N_EN : Field := ⟨0x44, 28, 1, .sh, 1, 4, 1⟩
def GLB.PWR_CFG.WAKE_TIME_EN : Field := ⟨0x44, 27, 1, .sh, 0, 4, 1⟩
def GLB.PWR_STAT.STATE : Field := ⟨0x48, 30, 2, .ro, 0, 4, 1⟩
def GLB.PWR_STAT.CHANGING : Field := ⟨0x48, 29, 1, .ro, 0, 4, 1⟩
def GLB.PWR_STAT.LAST_WAKE : Field := ⟨0x48, 26, 3, .ro, 0, 4, 1⟩
def GLB.DOZE_LANES_LO.LANES : Field := ⟨0x4c, 0, 32, .sh, 0, 4, 1⟩
def GLB.DOZE_LANES_HI.LANES : Field := ⟨0x50, 0, 19, .sh, 458752, 4, 1⟩
def GLB.WAKE_SEC.SEC : Field := ⟨0x54, 0, 32, .sh, 0, 4, 1⟩
def GLB.WAKE_NS.NS : Field := ⟨0x58, 0, 30, .sh, 0, 4, 1⟩
def GLB.RESTORE_SEL.PAGE : Field := ⟨0x5c, 0, 16, .rw, 0, 4, 1⟩
def GLB.RESTORE_STAT.SOURCE : Field := ⟨0x60, 29, 3, .ro, 0, 4, 1⟩
def GLB.JUNCTION.TEMP : Field := ⟨0x64, 0, 16, .ro, 0, 4, 1⟩

/-! ### The RST page (16_reset_power_and_option_store.md) -/

def RST.INT_RAW.WDOG_WARN : Field := ⟨0x10, 1, 1, .w1c, 0, 4, 1⟩
def RST.INT_RAW.SEQ_RETRY : Field := ⟨0x10, 0, 1, .w1c, 0, 4, 1⟩
def RST.RST_CAUSE.CAUSE : Field := ⟨0x40, 28, 4, .ro, 0, 4, 1⟩
def RST.RST_CAUSE.DETAIL : Field := ⟨0x40, 24, 4, .ro, 0, 4, 1⟩
def RST.RST_CAUSE.TIME_VALID : Field := ⟨0x40, 23, 1, .ro, 0, 4, 1⟩
def RST.CAUSE_SEC.SEC : Field := ⟨0x44, 0, 32, .ro, 0, 4, 1⟩
def RST.CAUSE_NS.NS : Field := ⟨0x48, 0, 30, .ro, 0, 4, 1⟩
def RST.RST_CMD.KEY : Field := ⟨0x4c, 16, 16, .wo, 0, 4, 1⟩
def RST.RST_CMD.WARM : Field := ⟨0x4c, 0, 1, .wo, 0, 4, 1⟩
def RST.WDOG_CFG.EN : Field := ⟨0x50, 31, 1, .sh, 1, 4, 1⟩
def RST.WDOG_CFG.TIMEOUT_MS : Field := ⟨0x50, 0, 16, .sh, 2000, 4, 1⟩
def RST.WDOG_KICK.KICK : Field := ⟨0x54, 0, 1, .wo, 0, 4, 1⟩
def RST.SEQ_STAT.STEP : Field := ⟨0x58, 28, 4, .ro, 0, 4, 1⟩
def RST.SEQ_STAT.PACE_TRY : Field := ⟨0x58, 26, 2, .ro, 0, 4, 1⟩
def RST.SEQ_STAT.DRAM_FAIL : Field := ⟨0x58, 25, 1, .ro, 0, 4, 1⟩
def RST.SEQ_STAT.PACE_FAIL : Field := ⟨0x58, 24, 1, .ro, 0, 4, 1⟩
def RST.SEQ_STAT.XO_ABSENT : Field := ⟨0x58, 23, 1, .ro, 0, 4, 1⟩
def RST.SEQ_STAT.RELEASE_MS : Field := ⟨0x58, 0, 16, .ro, 0, 4, 1⟩
def RST.CLK_GOOD.GOOD : Field := ⟨0x5c, 0, 7, .ro, 0, 4, 1⟩
def RST.FORCE_CFG.FORCE : Field := ⟨0x60, 0, 7, .sh, 0, 4, 1⟩

/-! ### The OPT page (16_reset_power_and_option_store.md) -/

def OPT.INT_RAW.WRITE_FAIL : Field := ⟨0x10, 2, 1, .w1c, 0, 4, 1⟩
def OPT.INT_RAW.WRITE_DONE : Field := ⟨0x10, 1, 1, .w1c, 0, 4, 1⟩
def OPT.INT_RAW.LOAD_FALLBACK : Field := ⟨0x10, 0, 1, .w1c, 0, 4, 1⟩
def OPT.OPT_STAT.VALID : Field := ⟨0x40, 31, 1, .ro, 0, 4, 1⟩
def OPT.OPT_STAT.ACTIVE : Field := ⟨0x40, 29, 2, .ro, 0, 4, 1⟩
def OPT.OPT_STAT.RES_A : Field := ⟨0x40, 26, 3, .ro, 3, 4, 1⟩
def OPT.OPT_STAT.RES_B : Field := ⟨0x40, 23, 3, .ro, 3, 4, 1⟩
def OPT.OPT_STAT.LAST_WRITE : Field := ⟨0x40, 21, 2, .ro, 0, 4, 1⟩
def OPT.OPT_STAT.LOADING : Field := ⟨0x40, 20, 1, .ro, 0, 4, 1⟩
def OPT.OPT_STAT.WRITING : Field := ⟨0x40, 19, 1, .ro, 0, 4, 1⟩
def OPT.OPT_STAT.BAD_REC : Field := ⟨0x40, 0, 16, .ro, 0, 4, 1⟩
def OPT.GEN_A.GEN : Field := ⟨0x44, 0, 32, .ro, 0, 4, 1⟩
def OPT.GEN_B.GEN : Field := ⟨0x48, 0, 32, .ro, 0, 4, 1⟩
def OPT.OPT_CMD.BUSY : Field := ⟨0x4c, 31, 1, .ro, 0, 4, 1⟩
def OPT.OPT_CMD.WRITE : Field := ⟨0x4c, 0, 1, .w1s, 0, 4, 1⟩
def OPT.OPT_SRC.OFS : Field := ⟨0x50, 0, 24, .rw, 0, 4, 1⟩
def OPT.OPT_LEN.BYTES : Field := ⟨0x54, 0, 17, .rw, 0, 4, 1⟩
def OPT.OPT_WEAR.WRITES_B : Field := ⟨0x58, 16, 16, .ro, 0, 4, 1⟩
def OPT.OPT_WEAR.WRITES_A : Field := ⟨0x58, 0, 16, .ro, 0, 4, 1⟩

/-! ### The SEC page (18_register_pages.md) -/

def SEC.INT_RAW.AUTH_FAIL : Field := ⟨0x10, 0, 1, .w1c, 0, 4, 1⟩
def SEC.SEC_STAT.KEY_FUSED : Field := ⟨0x40, 31, 1, .ro, 0, 4, 1⟩
def SEC.SEC_STAT.DEBUG_LOCKED : Field := ⟨0x40, 30, 1, .ro, 0, 4, 1⟩
def SEC.SEC_STAT.BOOT_OK : Field := ⟨0x40, 29, 1, .ro, 0, 4, 1⟩
def SEC.MIN_VER.MAJOR : Field := ⟨0x44, 24, 8, .ro, 0, 4, 1⟩
def SEC.MIN_VER.MINOR : Field := ⟨0x44, 16, 8, .ro, 0, 4, 1⟩
def SEC.MIN_VER.BUILD : Field := ⟨0x44, 0, 16, .ro, 0, 4, 1⟩
def SEC.KEYHASH_SEL.WORD : Field := ⟨0x48, 0, 4, .rw, 0, 4, 1⟩
def SEC.KEYHASH.HASH : Field := ⟨0x4c, 0, 32, .ro, 0, 4, 1⟩

/-! ### The SVC page (14_firmware_services_and_mailboxes.md) -/

def SVC.INT_RAW.OWN_TAKEN : Field := ⟨0x10, 7, 1, .w1c, 0, 4, 1⟩
def SVC.INT_RAW.PLACED : Field := ⟨0x10, 6, 1, .w1c, 0, 4, 1⟩
def SVC.INT_RAW.SVC_DOWN : Field := ⟨0x10, 5, 1, .w1c, 0, 4, 1⟩
def SVC.INT_RAW.ROLLBACK : Field := ⟨0x10, 4, 1, .w1c, 0, 4, 1⟩
def SVC.INT_RAW.RESTART_DONE : Field := ⟨0x10, 3, 1, .w1c, 0, 4, 1⟩
def SVC.INT_RAW.RESTART_START : Field := ⟨0x10, 2, 1, .w1c, 0, 4, 1⟩
def SVC.INT_RAW.IMG_FAIL : Field := ⟨0x10, 1, 1, .w1c, 0, 4, 1⟩
def SVC.INT_RAW.TRIAL : Field := ⟨0x10, 0, 1, .w1c, 0, 4, 1⟩
def SVC.FW_STAT.IMAGE : Field := ⟨0x40, 30, 2, .ro, 0, 4, 1⟩
def SVC.FW_STAT.STATE : Field := ⟨0x40, 27, 3, .ro, 1, 4, 1⟩
def SVC.FW_STAT.TRIAL : Field := ⟨0x40, 26, 1, .ro, 0, 4, 1⟩
def SVC.FW_STAT.FAIL_A : Field := ⟨0x40, 22, 4, .ro, 0, 4, 1⟩
def SVC.FW_STAT.FAIL_B : Field := ⟨0x40, 18, 4, .ro, 0, 4, 1⟩
def SVC.FW_VER.MAJOR : Field := ⟨0x44, 24, 8, .ro, 0, 4, 1⟩
def SVC.FW_VER.MINOR : Field := ⟨0x44, 16, 8, .ro, 0, 4, 1⟩
def SVC.FW_VER.BUILD : Field := ⟨0x44, 0, 16, .ro, 0, 4, 1⟩
def SVC.UPD_STAT.STATE : Field := ⟨0x48, 29, 3, .ro, 0, 4, 1⟩
def SVC.UPD_STAT.TARGET : Field := ⟨0x48, 28, 1, .ro, 0, 4, 1⟩
def SVC.UPD_STAT.RX_KIB : Field := ⟨0x48, 0, 24, .ro, 0, 4, 1⟩
def SVC.PLACE_CFG.AUTO : Field := ⟨0x4c, 31, 1, .sh, 1, 4, 1⟩
def SVC.PLACE_CFG.HI : Field := ⟨0x4c, 24, 7, .sh, 75, 4, 1⟩
def SVC.PLACE_CFG.LO : Field := ⟨0x4c, 17, 7, .sh, 50, 4, 1⟩
def SVC.PLACE_CFG.PERIOD_MS : Field := ⟨0x4c, 0, 16, .sh, 100, 4, 1⟩
def SVC.SVC_SEL.SVC : Field := ⟨0x50, 0, 4, .rw, 0, 4, 1⟩
def SVC.SVC_CFG.ENABLE : Field := ⟨0x54, 31, 1, .sh, 1, 4, 1⟩
def SVC.SVC_CFG.PIN : Field := ⟨0x54, 30, 1, .sh, 0, 4, 1⟩
def SVC.SVC_CFG.CORE : Field := ⟨0x54, 28, 2, .sh, 0, 4, 1⟩
def SVC.SVC_STAT.RUNNING : Field := ⟨0x58, 31, 1, .ro, 0, 4, 1⟩
def SVC.SVC_STAT.DEGRADED : Field := ⟨0x58, 30, 1, .ro, 0, 4, 1⟩
def SVC.SVC_STAT.CORE_NOW : Field := ⟨0x58, 28, 2, .ro, 0, 4, 1⟩
def SVC.SVC_STAT.ON_SEC : Field := ⟨0x58, 27, 1, .ro, 0, 4, 1⟩
def SVC.SVC_STAT.LOAD : Field := ⟨0x58, 20, 7, .ro, 0, 4, 1⟩
def SVC.SVC_STAT.MOVES : Field := ⟨0x58, 0, 16, .ro, 0, 4, 1⟩
def SVC.CORE_LOAD.SC3 : Field := ⟨0x5c, 24, 8, .ro, 0, 4, 1⟩
def SVC.CORE_LOAD.SC2 : Field := ⟨0x5c, 16, 8, .ro, 0, 4, 1⟩
def SVC.CORE_LOAD.SC1 : Field := ⟨0x5c, 8, 8, .ro, 0, 4, 1⟩
def SVC.CORE_LOAD.SC0 : Field := ⟨0x5c, 0, 8, .ro, 0, 4, 1⟩
def SVC.HEARTBEAT.COUNT : Field := ⟨0x60, 0, 32, .ro, 0, 4, 1⟩
def SVC.OWN_TAKEN.PAGE : Field := ⟨0x64, 0, 16, .ro, 0, 4, 1⟩
def SVC.RESTART_CMD.RESTART : Field := ⟨0x68, 0, 1, .w1s, 0, 4, 1⟩

/-! ### The MBX page (14_firmware_services_and_mailboxes.md) -/

def MBX.INT_RAW.ACK : Field := ⟨0x10, 16, 16, .w1c, 0, 4, 1⟩
def MBX.INT_RAW.NEW : Field := ⟨0x10, 0, 16, .w1c, 0, 4, 1⟩
def MBX.MB_CROSSED.CROSSED : Field := ⟨0x40, 0, 16, .w1c, 0, 4, 1⟩
def MBX.FULL_SUM.FROMFW_FULL : Field := ⟨0x44, 16, 16, .ro, 0, 4, 1⟩
def MBX.FULL_SUM.TOFW_FULL : Field := ⟨0x44, 0, 16, .ro, 0, 4, 1⟩
def MBX.TOFW_LO.DATA_LO : Field := ⟨0x100, 0, 32, .rw, 0, 32, 16⟩
def MBX.TOFW_MID.DATA_MID : Field := ⟨0x104, 0, 32, .rw, 0, 32, 16⟩
def MBX.FROMFW_LO.DATA_LO : Field := ⟨0x108, 0, 32, .rw, 0, 32, 16⟩
def MBX.FROMFW_MID.DATA_MID : Field := ⟨0x10c, 0, 32, .rw, 0, 32, 16⟩
def MBX.CH_STAT.TOFW_FULL : Field := ⟨0x110, 31, 1, .ro, 0, 32, 16⟩
def MBX.CH_STAT.FROMFW_FULL : Field := ⟨0x110, 30, 1, .ro, 0, 32, 16⟩
def MBX.CH_STAT.TOFW_WAIT : Field := ⟨0x110, 29, 1, .ro, 0, 32, 16⟩
def MBX.CH_STAT.FROMFW_WAIT : Field := ⟨0x110, 28, 1, .ro, 0, 32, 16⟩
def MBX.CH_STAT.CROSSED : Field := ⟨0x110, 27, 1, .ro, 0, 32, 16⟩
def MBX.CH_STAT.TOFW_ECC : Field := ⟨0x110, 26, 1, .ro, 0, 32, 16⟩
def MBX.CH_STAT.FROMFW_ECC : Field := ⟨0x110, 25, 1, .ro, 0, 32, 16⟩
def MBX.CH_STAT.LINK : Field := ⟨0x110, 24, 1, .ro, 0, 32, 16⟩
def MBX.CH_STAT.TOFW_LAST : Field := ⟨0x110, 22, 2, .ro, 0, 32, 16⟩
def MBX.CH_STAT.FROMFW_LAST : Field := ⟨0x110, 20, 2, .ro, 0, 32, 16⟩
def MBX.CH_CTRL.WAIT_CLR : Field := ⟨0x114, 1, 1, .w1s, 0, 32, 16⟩
def MBX.CH_CTRL.WAIT_SET : Field := ⟨0x114, 0, 1, .w1s, 0, 32, 16⟩
def MBX.CH_CNT.CROSSED_CNT : Field := ⟨0x118, 24, 8, .ro, 0, 32, 16⟩
def MBX.CH_CNT.REFUSED_CNT : Field := ⟨0x118, 16, 8, .ro, 0, 32, 16⟩
def MBX.CH_CNT.SENT_CNT : Field := ⟨0x118, 0, 16, .ro, 0, 32, 16⟩
def MBX.CH_ECC.FROMFW_ECC : Field := ⟨0x11c, 8, 8, .ro, 0, 32, 16⟩
def MBX.CH_ECC.TOFW_ECC : Field := ⟨0x11c, 0, 8, .ro, 0, 32, 16⟩

/-! ### The PCI page (15_host_and_crown_interfaces.md) -/

def PCI.INT_RAW.LINK_CHG : Field := ⟨0x10, 1, 1, .w1c, 0, 4, 1⟩
def PCI.INT_RAW.RING_ERR : Field := ⟨0x10, 0, 1, .w1c, 0, 4, 1⟩
def PCI.PCI_ID.DEVICE : Field := ⟨0x40, 16, 16, .ro, 0, 4, 1⟩
def PCI.PCI_ID.VENDOR : Field := ⟨0x40, 0, 16, .ro, 0, 4, 1⟩
def PCI.PCI_STAT.LINK_UP : Field := ⟨0x44, 31, 1, .ro, 0, 4, 1⟩
def PCI.PCI_STAT.SPEED : Field := ⟨0x44, 28, 3, .ro, 0, 4, 1⟩
def PCI.PCI_STAT.WIDTH : Field := ⟨0x44, 25, 3, .ro, 0, 4, 1⟩
def PCI.PCI_STAT.W2_READY : Field := ⟨0x44, 24, 1, .ro, 0, 4, 1⟩
def PCI.RING_SEL.RING : Field := ⟨0x48, 0, 4, .rw, 0, 4, 1⟩
def PCI.RING_BASE_LO.BASE_LO : Field := ⟨0x4c, 6, 26, .sh, 0, 4, 1⟩
def PCI.RING_BASE_HI.BASE_HI : Field := ⟨0x50, 0, 32, .sh, 0, 4, 1⟩
def PCI.RING_CFG.ENABLE : Field := ⟨0x54, 31, 1, .sh, 0, 4, 1⟩
def PCI.RING_CFG.SIZE : Field := ⟨0x54, 24, 4, .sh, 6, 4, 1⟩
def PCI.RING_CFG.COAL_US : Field := ⟨0x54, 16, 8, .sh, 10, 4, 1⟩
def PCI.RING_CFG.COAL_CNT : Field := ⟨0x54, 0, 16, .sh, 32, 4, 1⟩
def PCI.RING_STAT.ERR : Field := ⟨0x58, 31, 1, .ro, 0, 4, 1⟩
def PCI.RING_STAT.HEAD : Field := ⟨0x58, 0, 16, .ro, 0, 4, 1⟩
def PCI.DMA_ERR.RING : Field := ⟨0x5c, 28, 4, .ro, 0, 4, 1⟩
def PCI.DMA_ERR.CAUSE : Field := ⟨0x5c, 26, 2, .ro, 0, 4, 1⟩
def PCI.DMA_ERR.INDEX : Field := ⟨0x5c, 0, 16, .ro, 0, 4, 1⟩
def PCI.RING_DB.TAIL : Field := ⟨0x100, 0, 16, .rw, 0, 4, 16⟩

/-! ### The CRN page (15_host_and_crown_interfaces.md) -/

def CRN.INT_RAW.WAIT_TMO : Field := ⟨0x10, 3, 1, .w1c, 0, 4, 1⟩
def CRN.INT_RAW.LAUNCH_REFUSED : Field := ⟨0x10, 2, 1, .w1c, 0, 4, 1⟩
def CRN.INT_RAW.CTL_MSG : Field := ⟨0x10, 1, 1, .w1c, 0, 4, 1⟩
def CRN.INT_RAW.TRIP : Field := ⟨0x10, 0, 1, .w1c, 0, 4, 1⟩
def CRN.CRN_CFG.ENABLE : Field := ⟨0x40, 31, 1, .sh, 1, 4, 1⟩
def CRN.CRN_CFG.CTL_WR : Field := ⟨0x40, 30, 1, .sh, 0, 4, 1⟩
def CRN.CRN_CFG.WAIT_MAX : Field := ⟨0x40, 27, 3, .sh, 2, 4, 1⟩
def CRN.CRN_STAT.CLK_OK : Field := ⟨0x44, 31, 1, .ro, 0, 4, 1⟩
def CRN.CRN_STAT.TMO_CNT : Field := ⟨0x44, 8, 8, .ro, 0, 4, 1⟩
def CRN.CRN_STAT.BAD_CNT : Field := ⟨0x44, 0, 8, .ro, 0, 4, 1⟩
def CRN.TRIP_SEL.FLAG : Field := ⟨0x48, 0, 5, .rw, 0, 4, 1⟩
def CRN.TRIP_MAP.VALID : Field := ⟨0x4c, 31, 1, .sh, 0, 4, 1⟩
def CRN.TRIP_MAP.HANDLE : Field := ⟨0x4c, 0, 14, .sh, 0, 4, 1⟩
def CRN.TRIP_FLAGS.FLAGS : Field := ⟨0x50, 0, 32, .w1c, 0, 4, 1⟩
def CRN.CTL_MSG.DATA : Field := ⟨0x54, 0, 32, .ro, 0, 4, 1⟩
def CRN.HOST_MSG.DATA : Field := ⟨0x58, 0, 32, .rw, 0, 4, 1⟩
def CRN.LAUNCH_STAT.ACCEPTED : Field := ⟨0x5c, 16, 16, .ro, 0, 4, 1⟩
def CRN.LAUNCH_STAT.REFUSED : Field := ⟨0x5c, 0, 16, .ro, 0, 4, 1⟩
def CRN.ENTRY_ADDR.TPL : Field := ⟨0x60, 6, 6, .rw, 0, 4, 1⟩
def CRN.ENTRY_ADDR.WORD : Field := ⟨0x60, 0, 6, .rw, 0, 4, 1⟩
def CRN.ENTRY_LO.DATA_LO : Field := ⟨0x64, 0, 32, .rw, 0, 4, 1⟩
def CRN.ENTRY_MID.DATA_MID : Field := ⟨0x68, 0, 32, .rw, 0, 4, 1⟩
def CRN.ENTRY_HI.ECC : Field := ⟨0x6c, 0, 8, .ro, 0, 4, 1⟩
def CRN.ENTRY_CMD.BUSY : Field := ⟨0x70, 31, 1, .ro, 0, 4, 1⟩
def CRN.ENTRY_CMD.RESULT : Field := ⟨0x70, 28, 3, .ro, 0, 4, 1⟩
def CRN.ENTRY_CMD.OP : Field := ⟨0x70, 0, 4, .wo, 0, 4, 1⟩

/-! ### The FAB page (03_felt_fabric.md) -/

def FAB.INT_RAW.ECC_UNCORR : Field := ⟨0x10, 8, 1, .w1c, 0, 4, 1⟩
def FAB.INT_RAW.ECC_CORR : Field := ⟨0x10, 7, 1, .w1c, 0, 4, 1⟩
def FAB.INT_RAW.XING_TMO : Field := ⟨0x10, 6, 1, .w1c, 0, 4, 1⟩
def FAB.INT_RAW.XING_RESYNC : Field := ⟨0x10, 5, 1, .w1c, 0, 4, 1⟩
def FAB.INT_RAW.XING_HELD : Field := ⟨0x10, 4, 1, .w1c, 0, 4, 1⟩
def FAB.INT_RAW.AVS_FAIL : Field := ⟨0x10, 3, 1, .w1c, 0, 4, 1⟩
def FAB.INT_RAW.AVS_LIMIT : Field := ⟨0x10, 2, 1, .w1c, 0, 4, 1⟩
def FAB.INT_RAW.PACE_OK : Field := ⟨0x10, 1, 1, .w1c, 0, 4, 1⟩
def FAB.INT_RAW.UNDER_PACE : Field := ⟨0x10, 0, 1, .w1c, 0, 4, 1⟩
def FAB.PACE_CFG.HYST : Field := ⟨0x40, 20, 8, .sh, 15, 4, 1⟩
def FAB.PACE_CFG.TARGET : Field := ⟨0x40, 10, 10, .sh, 360, 4, 1⟩
def FAB.PACE_CFG.FLOOR : Field := ⟨0x40, 0, 10, .sh, 340, 4, 1⟩
def FAB.AVS_CFG.MODE : Field := ⟨0x44, 24, 2, .sh, 2, 4, 1⟩
def FAB.AVS_CFG.PMB_ADDR : Field := ⟨0x44, 17, 7, .sh, 64, 4, 1⟩
def FAB.AVS_CFG.PERIOD : Field := ⟨0x44, 14, 3, .sh, 2, 4, 1⟩
def FAB.AVS_CFG.STEP : Field := ⟨0x44, 12, 2, .sh, 1, 4, 1⟩
def FAB.AVS_LIMIT.VMAX : Field := ⟨0x48, 16, 10, .sh, 800, 4, 1⟩
def FAB.AVS_LIMIT.VMIN : Field := ⟨0x48, 0, 10, .sh, 650, 4, 1⟩
def FAB.AVS_STAT.FAIL : Field := ⟨0x4c, 31, 1, .ro, 0, 4, 1⟩
def FAB.AVS_STAT.AT_VMAX : Field := ⟨0x4c, 30, 1, .ro, 0, 4, 1⟩
def FAB.AVS_STAT.AT_VMIN : Field := ⟨0x4c, 29, 1, .ro, 0, 4, 1⟩
def FAB.AVS_STAT.EMERG : Field := ⟨0x4c, 28, 1, .ro, 0, 4, 1⟩
def FAB.AVS_STAT.VOUT : Field := ⟨0x4c, 0, 10, .ro, 0, 4, 1⟩
def FAB.PACE_STAT.UNDER : Field := ⟨0x50, 31, 1, .ro, 0, 4, 1⟩
def FAB.PACE_STAT.LOW_CLR : Field := ⟨0x50, 30, 1, .w1s, 0, 4, 1⟩
def FAB.PACE_STAT.LOW : Field := ⟨0x50, 16, 10, .ro, 0, 4, 1⟩
def FAB.PACE_STAT.MIN_IDX : Field := ⟨0x50, 10, 4, .ro, 0, 4, 1⟩
def FAB.PACE_STAT.MIN : Field := ⟨0x50, 0, 10, .ro, 0, 4, 1⟩
def FAB.PACE.PACE_ODD : Field := ⟨0x54, 16, 10, .ro, 0, 4, 8⟩
def FAB.PACE.PACE_EVEN : Field := ⟨0x54, 0, 10, .ro, 0, 4, 8⟩
def FAB.XING_CFG.TMO : Field := ⟨0x74, 16, 4, .sh, 4, 4, 1⟩
def FAB.XING_CFG.COMPAT : Field := ⟨0x74, 0, 6, .sh, 0, 4, 1⟩
def FAB.XING_SEL.INDEX : Field := ⟨0x78, 0, 6, .rw, 0, 4, 1⟩
def FAB.XING_STAT.STATE : Field := ⟨0x7c, 30, 2, .ro, 3, 4, 1⟩
def FAB.XING_STAT.CLK_STOP : Field := ⟨0x7c, 29, 1, .ro, 0, 4, 1⟩
def FAB.XING_STAT.RESYNC_CNT : Field := ⟨0x7c, 16, 8, .ro, 0, 4, 1⟩
def FAB.XING_STAT.TMO_CNT : Field := ⟨0x7c, 0, 16, .ro, 0, 4, 1⟩
def FAB.XING_HELD0.NOT_OPEN : Field := ⟨0x80, 0, 32, .ro, 4294967295, 4, 1⟩
def FAB.XING_HELD1.NOT_OPEN : Field := ⟨0x84, 0, 24, .ro, 16777215, 4, 1⟩

/-! ### The LKP page (04_ingress_lookup_policing.md) -/

def LKP.INT_RAW.COMMIT_DONE : Field := ⟨0x10, 5, 1, .w1c, 0, 4, 1⟩
def LKP.INT_RAW.PARSE_EXC : Field := ⟨0x10, 4, 1, .w1c, 0, 4, 1⟩
def LKP.INT_RAW.STAGE_REJECT : Field := ⟨0x10, 3, 1, .w1c, 0, 4, 1⟩
def LKP.INT_RAW.EPOCH_AGED : Field := ⟨0x10, 2, 1, .w1c, 0, 4, 1⟩
def LKP.INT_RAW.STATIC_MOVE : Field := ⟨0x10, 1, 1, .w1c, 0, 4, 1⟩
def LKP.INT_RAW.LEARN_FULL : Field := ⟨0x10, 0, 1, .w1c, 0, 4, 1⟩
def LKP.LKP_CFG.AGE_TIME : Field := ⟨0x40, 20, 12, .sh, 300, 4, 1⟩
def LKP.LKP_CFG.LEARN_EN : Field := ⟨0x40, 19, 1, .sh, 1, 4, 1⟩
def LKP.LKP_CFG.FLOOD_UNK_UC : Field := ⟨0x40, 18, 1, .sh, 1, 4, 1⟩
def LKP.LKP_CFG.FLOOD_UNK_MC : Field := ⟨0x40, 17, 1, .sh, 1, 4, 1⟩
def LKP.LKP_CFG.EPASH_UDP : Field := ⟨0x40, 0, 16, .sh, 47620, 4, 1⟩
def LKP.EPOCH_STAT.CUR : Field := ⟨0x44, 28, 4, .ro, 0, 4, 1⟩
def LKP.EPOCH_STAT.PENDING : Field := ⟨0x44, 16, 1, .ro, 0, 4, 1⟩
def LKP.EPOCH_STAT.OUTSTANDING : Field := ⟨0x44, 0, 16, .ro, 1, 4, 1⟩
def LKP.EPOCH_AGED.AGED_EPOCHS : Field := ⟨0x48, 24, 8, .ro, 0, 4, 1⟩
def LKP.EPOCH_AGED.AGED_FRAMES : Field := ⟨0x48, 0, 24, .ro, 0, 4, 1⟩
def LKP.STAGE_STAT.FULL : Field := ⟨0x4c, 11, 1, .ro, 0, 4, 1⟩
def LKP.STAGE_STAT.COUNT : Field := ⟨0x4c, 0, 11, .ro, 0, 4, 1⟩
def LKP.LEARN_STAT.FDB_USED : Field := ⟨0x50, 0, 19, .ro, 0, 4, 1⟩
def LKP.ENTRY_ADDR.TABLE : Field := ⟨0x54, 28, 4, .rw, 0, 4, 1⟩
def LKP.ENTRY_ADDR.WORD : Field := ⟨0x54, 25, 3, .rw, 0, 4, 1⟩
def LKP.ENTRY_ADDR.INDEX : Field := ⟨0x54, 0, 18, .rw, 0, 4, 1⟩
def LKP.ENTRY_LO.DATA_LO : Field := ⟨0x58, 0, 32, .rw, 0, 4, 1⟩
def LKP.ENTRY_MID.DATA_MID : Field := ⟨0x5c, 0, 32, .rw, 0, 4, 1⟩
def LKP.ENTRY_HI.ECC : Field := ⟨0x60, 0, 8, .ro, 0, 4, 1⟩
def LKP.ENTRY_CMD.BUSY : Field := ⟨0x64, 31, 1, .ro, 0, 4, 1⟩
def LKP.ENTRY_CMD.RESULT : Field := ⟨0x64, 28, 3, .ro, 0, 4, 1⟩
def LKP.ENTRY_CMD.OP : Field := ⟨0x64, 0, 4, .wo, 0, 4, 1⟩
def LKP.ENTRY_AUX.TARGET : Field := ⟨0x68, 16, 2, .rw, 0, 4, 1⟩
def LKP.ENTRY_AUX.STATIC : Field := ⟨0x68, 15, 1, .rw, 0, 4, 1⟩
def LKP.ENTRY_AUX.MCAST : Field := ⟨0x68, 14, 1, .rw, 0, 4, 1⟩
def LKP.ENTRY_AUX.DROP_SA : Field := ⟨0x68, 13, 1, .rw, 0, 4, 1⟩
def LKP.ENTRY_AUX.PUNT : Field := ⟨0x68, 12, 1, .rw, 0, 4, 1⟩
def LKP.ENTRY_AUX.DEST : Field := ⟨0x68, 0, 12, .rw, 0, 4, 1⟩
def LKP.PROF.TAG_MODE : Field := ⟨0x70, 30, 2, .sh, 1, 4, 8⟩
def LKP.PROF.ACL_KEY : Field := ⟨0x70, 28, 2, .sh, 1, 4, 8⟩
def LKP.PROF.L3 : Field := ⟨0x70, 27, 1, .sh, 1, 4, 8⟩
def LKP.PROF.L4 : Field := ⟨0x70, 26, 1, .sh, 1, 4, 8⟩
def LKP.PROF.PTP_L2 : Field := ⟨0x70, 25, 1, .sh, 1, 4, 8⟩
def LKP.PROF.PTP_UDP : Field := ⟨0x70, 24, 1, .sh, 1, 4, 8⟩
def LKP.PROF.RTAG : Field := ⟨0x70, 23, 1, .sh, 1, 4, 8⟩
def LKP.PROF.HSR : Field := ⟨0x70, 22, 1, .sh, 1, 4, 8⟩
def LKP.PROF.PRP : Field := ⟨0x70, 21, 1, .sh, 1, 4, 8⟩
def LKP.PROF.EPASH : Field := ⟨0x70, 20, 1, .sh, 1, 4, 8⟩

/-! ### The MTR page (04_ingress_lookup_policing.md) -/

def MTR.INT_RAW.TC7_NONCONF : Field := ⟨0x10, 0, 1, .w1c, 0, 4, 1⟩
def MTR.MTR_CFG.LEN_ADJ : Field := ⟨0x40, 0, 7, .sh, 0, 4, 1⟩
def MTR.ENTRY_ADDR.TABLE : Field := ⟨0x44, 28, 4, .rw, 0, 4, 1⟩
def MTR.ENTRY_ADDR.WORD : Field := ⟨0x44, 25, 3, .rw, 0, 4, 1⟩
def MTR.ENTRY_ADDR.INDEX : Field := ⟨0x44, 0, 14, .rw, 0, 4, 1⟩
def MTR.ENTRY_LO.DATA_LO : Field := ⟨0x48, 0, 32, .rw, 0, 4, 1⟩
def MTR.ENTRY_MID.DATA_MID : Field := ⟨0x4c, 0, 32, .rw, 0, 4, 1⟩
def MTR.ENTRY_HI.ECC : Field := ⟨0x50, 0, 8, .ro, 0, 4, 1⟩
def MTR.ENTRY_CMD.BUSY : Field := ⟨0x54, 31, 1, .ro, 0, 4, 1⟩
def MTR.ENTRY_CMD.RESULT : Field := ⟨0x54, 28, 3, .ro, 0, 4, 1⟩
def MTR.ENTRY_CMD.OP : Field := ⟨0x54, 0, 4, .wo, 0, 4, 1⟩
def MTR.TC7_LAST.VALID : Field := ⟨0x58, 31, 1, .ro, 0, 4, 1⟩
def MTR.TC7_LAST.INDEX : Field := ⟨0x58, 0, 14, .ro, 0, 4, 1⟩

/-! ### The BUF page (05_buffers_and_queues.md) -/

def BUF.INT_RAW.RING_ECC : Field := ⟨0x10, 7, 1, .w1c, 0, 4, 1⟩
def BUF.INT_RAW.TC7_NOBUF : Field := ⟨0x10, 6, 1, .w1c, 0, 4, 1⟩
def BUF.INT_RAW.NOBUF : Field := ⟨0x10, 5, 1, .w1c, 0, 4, 1⟩
def BUF.INT_RAW.BAD_FREE : Field := ⟨0x10, 4, 1, .w1c, 0, 4, 1⟩
def BUF.INT_RAW.REROLL : Field := ⟨0x10, 3, 1, .w1c, 0, 4, 1⟩
def BUF.INT_RAW.STOP : Field := ⟨0x10, 2, 1, .w1c, 0, 4, 1⟩
def BUF.INT_RAW.PRESS : Field := ⟨0x10, 1, 1, .w1c, 0, 4, 1⟩
def BUF.INT_RAW.WARN : Field := ⟨0x10, 0, 1, .w1c, 0, 4, 1⟩
def BUF.MGR_CTRL.HALTED : Field := ⟨0x40, 31, 1, .ro, 0, 4, 1⟩
def BUF.MGR_CTRL.EMPTY : Field := ⟨0x40, 30, 1, .ro, 1, 4, 1⟩
def BUF.MGR_CTRL.HALT : Field := ⟨0x40, 0, 1, .rw, 0, 4, 1⟩
def BUF.POOL_SEL.POOL : Field := ⟨0x44, 0, 2, .rw, 0, 4, 1⟩
def BUF.POOL_CFG.WARN_LVL : Field := ⟨0x48, 24, 8, .sh, 64, 4, 1⟩
def BUF.POOL_CFG.PRESS_LVL : Field := ⟨0x48, 16, 8, .sh, 32, 4, 1⟩
def BUF.POOL_CFG.RSV_LVL : Field := ⟨0x48, 8, 8, .sh, 24, 4, 1⟩
def BUF.POOL_CFG.HYST : Field := ⟨0x48, 0, 8, .sh, 4, 4, 1⟩
def BUF.POOL_SIZE.LINES : Field := ⟨0x4c, 24, 8, .sh, 0, 4, 1⟩
def BUF.POOL_SIZE.COUNT : Field := ⟨0x4c, 0, 18, .sh, 131072, 4, 1⟩
def BUF.POOL_STAT.LEVEL : Field := ⟨0x50, 29, 3, .ro, 0, 4, 1⟩
def BUF.POOL_STAT.FREE : Field := ⟨0x50, 0, 18, .ro, 0, 4, 1⟩
def BUF.POOL_LOW.CLR : Field := ⟨0x54, 31, 1, .w1s, 0, 4, 1⟩
def BUF.POOL_LOW.LOW : Field := ⟨0x54, 0, 18, .ro, 0, 4, 1⟩
def BUF.TC7_CFG.RSV_BUF : Field := ⟨0x58, 0, 17, .sh, 16384, 4, 1⟩
def BUF.TC7_STAT.FREE : Field := ⟨0x5c, 0, 17, .ro, 0, 4, 1⟩
def BUF.MIN_RSV.KIB : Field := ⟨0x60, 0, 12, .sh, 256, 4, 1⟩
def BUF.INPUT_SEL.EP : Field := ⟨0x64, 0, 6, .rw, 0, 4, 1⟩
def BUF.INPUT_STAT.BP_TC : Field := ⟨0x68, 24, 7, .ro, 0, 4, 1⟩
def BUF.INPUT_STAT.BELOW_MIN : Field := ⟨0x68, 23, 1, .ro, 1, 4, 1⟩
def BUF.INPUT_STAT.USAGE_KIB : Field := ⟨0x68, 0, 18, .ro, 0, 4, 1⟩
def BUF.BP_CFG.SEND_XON : Field := ⟨0x6c, 16, 1, .sh, 1, 4, 1⟩
def BUF.BP_CFG.REFRESH_US : Field := ⟨0x6c, 0, 16, .sh, 100, 4, 1⟩
def BUF.HOLD_CFG.HOLD_MS : Field := ⟨0x70, 0, 10, .sh, 50, 4, 1⟩
def BUF.HASH_CFG.AUTO : Field := ⟨0x74, 31, 1, .sh, 1, 4, 1⟩
def BUF.HASH_CFG.RATIO : Field := ⟨0x74, 23, 8, .sh, 96, 4, 1⟩
def BUF.HASH_CFG.DWELL : Field := ⟨0x74, 19, 4, .sh, 4, 4, 1⟩
def BUF.HASH_CFG.WINDOW : Field := ⟨0x74, 16, 3, .sh, 2, 4, 1⟩
def BUF.HASH_CFG.HOLDOFF_MS : Field := ⟨0x74, 0, 16, .sh, 10, 4, 1⟩
def BUF.HASH_CMD.REROLL : Field := ⟨0x78, 0, 1, .w1s, 0, 4, 1⟩
def BUF.HASH_STAT.KEY_GEN : Field := ⟨0x7c, 24, 8, .ro, 0, 4, 1⟩
def BUF.HASH_STAT.PENDING : Field := ⟨0x7c, 23, 1, .ro, 0, 4, 1⟩
def BUF.HASH_STAT.HOT_BANK : Field := ⟨0x7c, 16, 7, .ro, 0, 4, 1⟩
def BUF.HASH_STAT.OLD_GROUPS : Field := ⟨0x7c, 0, 16, .ro, 0, 4, 1⟩
def BUF.BANK_SEL.BANK : Field := ⟨0x80, 0, 7, .rw, 0, 4, 1⟩
def BUF.BANK_STAT.LOAD : Field := ⟨0x84, 24, 8, .ro, 0, 4, 1⟩
def BUF.BANK_STAT.ACC_K : Field := ⟨0x84, 0, 24, .ro, 0, 4, 1⟩
def BUF.BADFREE_HANDLE.HANDLE : Field := ⟨0x88, 0, 32, .ro, 0, 4, 1⟩
def BUF.BADFREE_INFO.SRC : Field := ⟨0x8c, 22, 10, .ro, 0, 4, 1⟩
def BUF.BADFREE_INFO.CAUSE : Field := ⟨0x8c, 20, 2, .ro, 0, 4, 1⟩
def BUF.BADFREE_INFO.STORED_OWNER : Field := ⟨0x8c, 13, 7, .ro, 0, 4, 1⟩
def BUF.BADFREE_INFO.STORED_GEN : Field := ⟨0x8c, 7, 6, .ro, 0, 4, 1⟩
def BUF.BADFREE_INFO.CLAIMED_OWNER : Field := ⟨0x8c, 0, 7, .ro, 0, 4, 1⟩

/-! ### The VOQ page (05_buffers_and_queues.md) -/

def VOQ.INT_RAW.FLUSH_DONE : Field := ⟨0x10, 2, 1, .w1c, 0, 4, 1⟩
def VOQ.INT_RAW.SPILL_LOST : Field := ⟨0x10, 1, 1, .w1c, 0, 4, 1⟩
def VOQ.INT_RAW.SPILL_REFUSED : Field := ⟨0x10, 0, 1, .w1c, 0, 4, 1⟩
def VOQ.VOQ_SEL.INDEX : Field := ⟨0x40, 0, 15, .rw, 0, 4, 1⟩
def VOQ.VOQ_DEPTH.BYTES : Field := ⟨0x44, 0, 27, .ro, 0, 4, 1⟩
def VOQ.VOQ_FRAMES.HELD : Field := ⟨0x48, 31, 1, .ro, 0, 4, 1⟩
def VOQ.VOQ_FRAMES.SPILLING : Field := ⟨0x48, 30, 1, .ro, 0, 4, 1⟩
def VOQ.VOQ_FRAMES.FRAMES : Field := ⟨0x48, 0, 18, .ro, 0, 4, 1⟩
def VOQ.VOQ_SPILL.LINES : Field := ⟨0x4c, 0, 27, .ro, 0, 4, 1⟩
def VOQ.SPILL_CFG.EN : Field := ⟨0x50, 28, 4, .sh, 15, 4, 1⟩
def VOQ.SPILL_CFG.SPILL_LVL : Field := ⟨0x50, 16, 12, .sh, 256, 4, 1⟩
def VOQ.SPILL_CFG.REFILL_LVL : Field := ⟨0x50, 8, 8, .sh, 64, 4, 1⟩
def VOQ.SPILL_LIM.INPUT_MAX_MIB : Field := ⟨0x54, 0, 13, .sh, 128, 4, 1⟩
def VOQ.SPILL_STAT.REFUSING : Field := ⟨0x58, 31, 1, .ro, 0, 4, 1⟩
def VOQ.SPILL_STAT.NOT_READY : Field := ⟨0x58, 30, 1, .ro, 1, 4, 1⟩
def VOQ.SPILL_STAT.USED : Field := ⟨0x58, 0, 16, .ro, 0, 4, 1⟩
def VOQ.FLUSH_CMD.BUSY : Field := ⟨0x5c, 31, 1, .ro, 0, 4, 1⟩
def VOQ.FLUSH_CMD.SCOPE : Field := ⟨0x5c, 22, 2, .wo, 0, 4, 1⟩
def VOQ.FLUSH_CMD.EP : Field := ⟨0x5c, 0, 6, .wo, 0, 4, 1⟩

/-! ### The SCH page (06_egress_scheduling.md) -/

def SCH.INT_RAW.VERIFY_FAIL : Field := ⟨0x10, 3, 1, .w1c, 0, 4, 1⟩
def SCH.INT_RAW.CT_ABORT : Field := ⟨0x10, 2, 1, .w1c, 0, 4, 1⟩
def SCH.INT_RAW.TC6_OVERSIZE : Field := ⟨0x10, 1, 1, .w1c, 0, 4, 1⟩
def SCH.INT_RAW.TX_ABORT : Field := ⟨0x10, 0, 1, .w1c, 0, 4, 1⟩
def SCH.SCH_CFG.HWM_EN : Field := ⟨0x40, 1, 1, .sh, 1, 4, 1⟩
def SCH.SCH_CFG.CT_EN : Field := ⟨0x40, 0, 1, .sh, 1, 4, 1⟩
def SCH.PORT_SEL.EP : Field := ⟨0x44, 0, 6, .rw, 0, 4, 1⟩
def SCH.PORT_SCH.LEN_OVH : Field := ⟨0x48, 18, 7, .sh, 20, 4, 1⟩
def SCH.PORT_SCH.TC6_MAX : Field := ⟨0x48, 2, 14, .sh, 127, 4, 1⟩
def SCH.PORT_SCH.CT_EN : Field := ⟨0x48, 0, 1, .sh, 1, 4, 1⟩
def SCH.PORT_PREEMPT.VERIFY_MS : Field := ⟨0x4c, 8, 8, .sh, 10, 4, 1⟩
def SCH.PORT_PREEMPT.ADD_FRAG : Field := ⟨0x4c, 6, 2, .sh, 0, 4, 1⟩
def SCH.PORT_PREEMPT.VERIFY_DIS : Field := ⟨0x4c, 4, 1, .sh, 0, 4, 1⟩
def SCH.PORT_PREEMPT.PREEMPT_EN : Field := ⟨0x4c, 0, 1, .sh, 0, 4, 1⟩
def SCH.PORT_STAT.PREEMPT_ACT : Field := ⟨0x50, 31, 1, .ro, 0, 4, 1⟩
def SCH.PORT_STAT.VERIFY_STATE : Field := ⟨0x50, 28, 3, .ro, 0, 4, 1⟩
def SCH.PORT_STAT.P_FRAG : Field := ⟨0x50, 0, 16, .ro, 0, 4, 1⟩
def SCH.ENTRY_ADDR.TABLE : Field := ⟨0x54, 28, 4, .rw, 0, 4, 1⟩
def SCH.ENTRY_ADDR.WORD : Field := ⟨0x54, 25, 3, .rw, 0, 4, 1⟩
def SCH.ENTRY_ADDR.INDEX : Field := ⟨0x54, 0, 15, .rw, 0, 4, 1⟩
def SCH.ENTRY_LO.DATA_LO : Field := ⟨0x58, 0, 32, .rw, 0, 4, 1⟩
def SCH.ENTRY_MID.DATA_MID : Field := ⟨0x5c, 0, 32, .rw, 0, 4, 1⟩
def SCH.ENTRY_HI.ECC : Field := ⟨0x60, 0, 8, .ro, 0, 4, 1⟩
def SCH.ENTRY_CMD.BUSY : Field := ⟨0x64, 31, 1, .ro, 0, 4, 1⟩
def SCH.ENTRY_CMD.RESULT : Field := ⟨0x64, 28, 3, .ro, 0, 4, 1⟩
def SCH.ENTRY_CMD.OP : Field := ⟨0x64, 0, 4, .wo, 0, 4, 1⟩

/-! ### The BLK page (07_scheduled_traffic_and_blocker.md) -/

def BLK.INT_RAW.RATE_MISMATCH : Field := ⟨0x10, 2, 1, .w1c, 0, 4, 1⟩
def BLK.INT_RAW.REPLACE_FAIL : Field := ⟨0x10, 1, 1, .w1c, 0, 4, 1⟩
def BLK.INT_RAW.RSP_READY : Field := ⟨0x10, 0, 1, .w1c, 0, 4, 1⟩
def BLK.BLK_CFG.LEAD_US : Field := ⟨0x40, 20, 12, .sh, 500, 4, 1⟩
def BLK.BLK_CFG.GRAIN : Field := ⟨0x40, 16, 3, .sh, 1, 4, 1⟩
def BLK.BLK_CFG.RES_MIN_NS : Field := ⟨0x40, 0, 16, .sh, 500, 4, 1⟩
def BLK.BLK_CYCLE.CYCLE_NS : Field := ⟨0x44, 0, 30, .sh, 1000000, 4, 1⟩
def BLK.BLK_STAT.BUSY : Field := ⟨0x48, 31, 1, .ro, 0, 4, 1⟩
def BLK.BLK_STAT.REPLACE_BUSY : Field := ⟨0x48, 30, 1, .ro, 0, 4, 1⟩
def BLK.BLK_STAT.LAST_STATUS : Field := ⟨0x48, 26, 4, .ro, 0, 4, 1⟩
def BLK.BLK_STAT.HELD : Field := ⟨0x48, 0, 13, .ro, 0, 4, 1⟩
def BLK.PORT_SEL.PORT : Field := ⟨0x4c, 0, 6, .rw, 0, 4, 1⟩
def BLK.BLK_PORT.ALLOW : Field := ⟨0x50, 31, 1, .sh, 1, 4, 1⟩
def BLK.BLK_PORT.RATE : Field := ⟨0x50, 28, 3, .sh, 5, 4, 1⟩
def BLK.BLK_PORT.FATE : Field := ⟨0x50, 24, 4, .sh, 0, 4, 1⟩
def BLK.BLK_TC7.TC7_BYTES : Field := ⟨0x54, 17, 15, .sh, 0, 4, 1⟩
def BLK.BLK_TC7.TC7_RATE : Field := ⟨0x54, 0, 17, .sh, 0, 4, 1⟩
def BLK.REQ_ADDR.WORD : Field := ⟨0x58, 0, 2, .rw, 0, 4, 1⟩
def BLK.REQ_LO.DATA_LO : Field := ⟨0x5c, 0, 32, .rw, 0, 4, 1⟩
def BLK.REQ_MID.DATA_MID : Field := ⟨0x60, 0, 32, .rw, 0, 4, 1⟩
def BLK.REQ_CMD.FULL : Field := ⟨0x64, 31, 1, .ro, 0, 4, 1⟩
def BLK.REQ_CMD.RESULT : Field := ⟨0x64, 28, 3, .ro, 0, 4, 1⟩
def BLK.REQ_CMD.FILL : Field := ⟨0x64, 16, 9, .ro, 0, 4, 1⟩
def BLK.REQ_CMD.PUSH : Field := ⟨0x64, 0, 1, .w1s, 0, 4, 1⟩
def BLK.RSP_ADDR.WORD : Field := ⟨0x68, 0, 2, .rw, 0, 4, 1⟩
def BLK.RSP_LO.DATA_LO : Field := ⟨0x6c, 0, 32, .ro, 0, 4, 1⟩
def BLK.RSP_MID.DATA_MID : Field := ⟨0x70, 0, 32, .ro, 0, 4, 1⟩
def BLK.RSP_CMD.VALID : Field := ⟨0x74, 31, 1, .ro, 0, 4, 1⟩
def BLK.RSP_CMD.COUNT : Field := ⟨0x74, 16, 9, .ro, 0, 4, 1⟩
def BLK.RSP_CMD.POP : Field := ⟨0x74, 0, 1, .w1s, 0, 4, 1⟩
def BLK.ENTRY_ADDR.TABLE : Field := ⟨0x78, 28, 4, .rw, 0, 4, 1⟩
def BLK.ENTRY_ADDR.WORD : Field := ⟨0x78, 25, 3, .rw, 0, 4, 1⟩
def BLK.ENTRY_ADDR.INDEX : Field := ⟨0x78, 0, 14, .rw, 0, 4, 1⟩
def BLK.ENTRY_LO.DATA_LO : Field := ⟨0x7c, 0, 32, .rw, 0, 4, 1⟩
def BLK.ENTRY_MID.DATA_MID : Field := ⟨0x80, 0, 32, .rw, 0, 4, 1⟩
def BLK.ENTRY_HI.ECC : Field := ⟨0x84, 0, 8, .ro, 0, 4, 1⟩
def BLK.ENTRY_CMD.BUSY : Field := ⟨0x88, 31, 1, .ro, 0, 4, 1⟩
def BLK.ENTRY_CMD.RESULT : Field := ⟨0x88, 28, 3, .ro, 0, 4, 1⟩
def BLK.ENTRY_CMD.OP : Field := ⟨0x88, 0, 4, .wo, 0, 4, 1⟩

/-! ### The TAL page (17_tally_recorder_and_test.md) -/

def TAL.INT_RAW.SMP_MISS : Field := ⟨0x10, 1, 1, .w1c, 0, 4, 1⟩
def TAL.INT_RAW.SNAP_DONE : Field := ⟨0x10, 0, 1, .w1c, 0, 4, 1⟩
def TAL.CNT_SEL.INDEX : Field := ⟨0x40, 0, 12, .rw, 0, 4, 1⟩
def TAL.CNT_LO.COUNT_LO : Field := ⟨0x44, 0, 32, .ro, 0, 4, 1⟩
def TAL.CNT_HI.COUNT_HI : Field := ⟨0x48, 0, 16, .ro, 0, 4, 1⟩
def TAL.FRZ_CFG.ARM : Field := ⟨0x4c, 31, 1, .sh, 0, 4, 1⟩
def TAL.FRZ_CFG.TIMED : Field := ⟨0x4c, 30, 1, .sh, 0, 4, 1⟩
def TAL.FRZ_CFG.CANCEL : Field := ⟨0x4c, 29, 1, .sh, 0, 4, 1⟩
def TAL.FRZ_SEC.SEC : Field := ⟨0x50, 0, 32, .sh, 0, 4, 1⟩
def TAL.FRZ_NS.NS : Field := ⟨0x54, 0, 30, .sh, 0, 4, 1⟩
def TAL.SNAP_STAT.VALID : Field := ⟨0x58, 31, 1, .ro, 0, 4, 1⟩
def TAL.SNAP_STAT.ARMED : Field := ⟨0x58, 30, 1, .ro, 0, 4, 1⟩
def TAL.SNAP_STAT.UNTRACE : Field := ⟨0x58, 29, 1, .ro, 0, 4, 1⟩
def TAL.SNAP_STAT.INCOMPLETE : Field := ⟨0x58, 28, 1, .ro, 0, 4, 1⟩
def TAL.SNAP_STAT.SEQ : Field := ⟨0x58, 0, 16, .ro, 0, 4, 1⟩
def TAL.SNAP_SEC.SEC : Field := ⟨0x5c, 0, 32, .ro, 0, 4, 1⟩
def TAL.SNAP_NS.NS : Field := ⟨0x60, 0, 30, .ro, 0, 4, 1⟩
def TAL.SNAP_LO.COUNT_LO : Field := ⟨0x64, 0, 32, .ro, 0, 4, 1⟩
def TAL.SNAP_HI.COUNT_HI : Field := ⟨0x68, 0, 16, .ro, 0, 4, 1⟩
def TAL.SMP_SEL.SMP : Field := ⟨0x6c, 0, 2, .rw, 0, 4, 1⟩
def TAL.SMP_CFG.EN : Field := ⟨0x70, 31, 1, .sh, 0, 4, 1⟩
def TAL.SMP_CFG.CORE : Field := ⟨0x70, 28, 3, .sh, 0, 4, 1⟩
def TAL.SMP_CFG.INDEX : Field := ⟨0x70, 0, 12, .sh, 0, 4, 1⟩
def TAL.SMP_PERIOD.N : Field := ⟨0x74, 0, 32, .sh, 1000000, 4, 1⟩
def TAL.SMP_STAT.PENDING : Field := ⟨0x78, 31, 1, .ro, 0, 4, 1⟩
def TAL.SMP_STAT.MISSED : Field := ⟨0x78, 0, 16, .ro, 0, 4, 1⟩
def TAL.WATCH_SEL.SET : Field := ⟨0x7c, 0, 7, .rw, 0, 4, 1⟩
def TAL.WATCH_CFG.VALID : Field := ⟨0x80, 31, 1, .sh, 0, 4, 1⟩
def TAL.WATCH_CFG.HANDLE : Field := ⟨0x80, 0, 14, .sh, 0, 4, 1⟩
def TAL.SW_INC.AMOUNT : Field := ⟨0x84, 16, 16, .wo, 0, 4, 1⟩
def TAL.SW_INC.INDEX : Field := ⟨0x84, 0, 12, .wo, 0, 4, 1⟩

/-! ### The LOG page (17_tally_recorder_and_test.md) -/

def LOG.INT_RAW.STOPPED : Field := ⟨0x10, 2, 1, .w1c, 0, 4, 1⟩
def LOG.INT_RAW.LOST : Field := ⟨0x10, 1, 1, .w1c, 0, 4, 1⟩
def LOG.INT_RAW.WRAPPED : Field := ⟨0x10, 0, 1, .w1c, 0, 4, 1⟩
def LOG.LOG_CFG.EN : Field := ⟨0x40, 31, 1, .sh, 1, 4, 1⟩
def LOG.LOG_CFG.STOP_FULL : Field := ⟨0x40, 30, 1, .sh, 0, 4, 1⟩
def LOG.LOG_CFG.SIZE : Field := ⟨0x40, 28, 2, .sh, 3, 4, 1⟩
def LOG.LOG_STAT.DRAM_OK : Field := ⟨0x44, 31, 1, .ro, 0, 4, 1⟩
def LOG.LOG_STAT.WRAPPED : Field := ⟨0x44, 30, 1, .ro, 0, 4, 1⟩
def LOG.LOG_STAT.STOPPED : Field := ⟨0x44, 29, 1, .ro, 0, 4, 1⟩
def LOG.WR_IDX.IDX : Field := ⟨0x48, 0, 23, .ro, 0, 4, 1⟩
def LOG.OLDEST_IDX.IDX : Field := ⟨0x4c, 0, 23, .ro, 0, 4, 1⟩
def LOG.LOST_CNT.COUNT : Field := ⟨0x50, 0, 32, .ro, 0, 4, 1⟩
def LOG.LOG_CMD.CLEAR : Field := ⟨0x54, 0, 1, .w1s, 0, 4, 1⟩

/-! ### The TMB page (09_time_base_and_stamps.md) -/

def TMB.INT_RAW.COPY_ERR : Field := ⟨0x10, 5, 1, .w1c, 0, 4, 1⟩
def TMB.INT_RAW.BACKUP_ON : Field := ⟨0x10, 4, 1, .w1c, 0, 4, 1⟩
def TMB.INT_RAW.BACKUP_OFF : Field := ⟨0x10, 3, 1, .w1c, 0, 4, 1⟩
def TMB.INT_RAW.STEP_DONE : Field := ⟨0x10, 2, 1, .w1c, 0, 4, 1⟩
def TMB.INT_RAW.SLEW_DONE : Field := ⟨0x10, 1, 1, .w1c, 0, 4, 1⟩
def TMB.INT_RAW.TRACE_LOST : Field := ⟨0x10, 0, 1, .w1c, 0, 4, 1⟩
def TMB.TMB_CFG.SLEW_RATE : Field := ⟨0x40, 0, 16, .sh, 1000, 4, 1⟩
def TMB.INC_LO.INC_LO : Field := ⟨0x44, 0, 32, .sh, 2576980378, 4, 1⟩
def TMB.INC_HI.INC_HI : Field := ⟨0x48, 0, 16, .sh, 409, 4, 1⟩
def TMB.STEP_NS.NS : Field := ⟨0x4c, 0, 32, .sh, 0, 4, 1⟩
def TMB.STEP_FRAC.STEP_EN : Field := ⟨0x50, 31, 1, .sh, 0, 4, 1⟩
def TMB.STEP_FRAC.FRAC : Field := ⟨0x50, 0, 16, .sh, 0, 4, 1⟩
def TMB.SET_SEC_HI.SET_EN : Field := ⟨0x54, 31, 1, .sh, 0, 4, 1⟩
def TMB.SET_SEC_HI.SEC_HI : Field := ⟨0x54, 0, 16, .sh, 0, 4, 1⟩
def TMB.SET_SEC_LO.SEC_LO : Field := ⟨0x58, 0, 32, .sh, 0, 4, 1⟩
def TMB.SET_NS.NS : Field := ⟨0x5c, 0, 30, .sh, 0, 4, 1⟩
def TMB.SET_FRAC.FRAC : Field := ⟨0x60, 0, 16, .sh, 0, 4, 1⟩
def TMB.SLEW_ADD.NS : Field := ⟨0x64, 0, 32, .sh, 0, 4, 1⟩
def TMB.SLEW_REM.NS : Field := ⟨0x68, 0, 32, .ro, 0, 4, 1⟩
def TMB.TIME_CMD.SNAP : Field := ⟨0x6c, 0, 1, .w1s, 0, 4, 1⟩
def TMB.TIME_SEC_HI.UNTRACE : Field := ⟨0x70, 31, 1, .ro, 1, 4, 1⟩
def TMB.TIME_SEC_HI.SEC_HI : Field := ⟨0x70, 0, 16, .ro, 0, 4, 1⟩
def TMB.TIME_SEC_LO.SEC_LO : Field := ⟨0x74, 0, 32, .ro, 0, 4, 1⟩
def TMB.TIME_NS.NS : Field := ⟨0x78, 0, 30, .ro, 0, 4, 1⟩
def TMB.TIME_FRAC.FRAC : Field := ⟨0x7c, 0, 16, .ro, 0, 4, 1⟩
def TMB.TMB_STAT.TRACEABLE : Field := ⟨0x80, 31, 1, .ro, 0, 4, 1⟩
def TMB.TMB_STAT.BACKUP : Field := ⟨0x80, 30, 1, .ro, 0, 4, 1⟩
def TMB.TMB_STAT.NEG_STEP : Field := ⟨0x80, 29, 1, .ro, 0, 4, 1⟩
def TMB.TMB_STAT.SLEW_ACT : Field := ⟨0x80, 28, 1, .ro, 0, 4, 1⟩
def TMB.TMB_STAT.STEP_CNT : Field := ⟨0x80, 0, 16, .ro, 0, 4, 1⟩
def TMB.TRACE_CMD.CLR : Field := ⟨0x84, 1, 1, .w1s, 0, 4, 1⟩
def TMB.TRACE_CMD.SET : Field := ⟨0x84, 0, 1, .w1s, 0, 4, 1⟩
def TMB.COPY_STAT.LAST_LANE : Field := ⟨0x88, 16, 6, .ro, 0, 4, 1⟩
def TMB.COPY_STAT.RELOADS : Field := ⟨0x88, 0, 16, .ro, 0, 4, 1⟩

/-! ### The REF page (10_references_and_holdover.md) -/

def REF.INT_RAW.MAJ_OUT : Field := ⟨0x10, 7, 1, .w1c, 0, 4, 1⟩
def REF.INT_RAW.DRIFT_WARN : Field := ⟨0x10, 6, 1, .w1c, 0, 4, 1⟩
def REF.INT_RAW.DISQUAL : Field := ⟨0x10, 5, 1, .w1c, 0, 4, 1⟩
def REF.INT_RAW.LOCKED : Field := ⟨0x10, 4, 1, .w1c, 0, 4, 1⟩
def REF.INT_RAW.HOLDOVER_OFF : Field := ⟨0x10, 3, 1, .w1c, 0, 4, 1⟩
def REF.INT_RAW.HOLDOVER_ON : Field := ⟨0x10, 2, 1, .w1c, 0, 4, 1⟩
def REF.INT_RAW.SWITCH_DONE : Field := ⟨0x10, 1, 1, .w1c, 0, 4, 1⟩
def REF.INT_RAW.SWITCH_START : Field := ⟨0x10, 0, 1, .w1c, 0, 4, 1⟩
def REF.REF_CFG.REVERTIVE : Field := ⟨0x40, 31, 1, .sh, 1, 4, 1⟩
def REF.REF_CFG.QL_MODE : Field := ⟨0x40, 30, 1, .sh, 0, 4, 1⟩
def REF.REF_CFG.MAJ_ACT : Field := ⟨0x40, 29, 1, .sh, 1, 4, 1⟩
def REF.REF_CFG.LOCK_NS : Field := ⟨0x40, 16, 12, .sh, 100, 4, 1⟩
def REF.REF_CFG.WTR_S : Field := ⟨0x40, 0, 16, .sh, 300, 4, 1⟩
def REF.REF_TIME.QUAL_S : Field := ⟨0x44, 24, 8, .sh, 10, 4, 1⟩
def REF.REF_TIME.MAJ_DWELL_S : Field := ⟨0x44, 16, 8, .sh, 10, 4, 1⟩
def REF.REF_TIME.LOCK_S : Field := ⟨0x44, 8, 8, .sh, 10, 4, 1⟩
def REF.REF_TIME.PTP_TMO_S : Field := ⟨0x44, 0, 8, .sh, 3, 4, 1⟩
def REF.SWITCH_CMD.MODE : Field := ⟨0x48, 30, 2, .sh, 0, 4, 1⟩
def REF.SWITCH_CMD.CLR_WTR : Field := ⟨0x48, 29, 1, .sh, 0, 4, 1⟩
def REF.SWITCH_CMD.ABS_CLR : Field := ⟨0x48, 28, 1, .sh, 0, 4, 1⟩
def REF.SWITCH_CMD.SLOT : Field := ⟨0x48, 0, 4, .sh, 0, 4, 1⟩
def REF.REF_STAT.STATE : Field := ⟨0x4c, 29, 3, .ro, 0, 4, 1⟩
def REF.REF_STAT.SWITCHING : Field := ⟨0x4c, 28, 1, .ro, 0, 4, 1⟩
def REF.REF_STAT.CMD_PENDING : Field := ⟨0x4c, 27, 1, .ro, 0, 4, 1⟩
def REF.REF_STAT.HO_READY : Field := ⟨0x4c, 26, 1, .ro, 0, 4, 1⟩
def REF.REF_STAT.TIME_SEL : Field := ⟨0x4c, 25, 1, .ro, 0, 4, 1⟩
def REF.REF_STAT.SEL_VALID : Field := ⟨0x4c, 24, 1, .ro, 0, 4, 1⟩
def REF.REF_STAT.SELECTED : Field := ⟨0x4c, 0, 4, .ro, 0, 4, 1⟩
def REF.SLOT_SEL.SLOT : Field := ⟨0x50, 0, 4, .rw, 0, 4, 1⟩
def REF.SLOT_CFG.ENABLE : Field := ⟨0x54, 31, 1, .sh, 0, 4, 1⟩
def REF.SLOT_CFG.TYPE : Field := ⟨0x54, 28, 3, .sh, 0, 4, 1⟩
def REF.SLOT_CFG.INDEX : Field := ⟨0x54, 22, 6, .sh, 0, 4, 1⟩
def REF.SLOT_CFG.DRIFT_LIM : Field := ⟨0x54, 12, 10, .sh, 50, 4, 1⟩
def REF.SLOT_CFG.DWELL_S : Field := ⟨0x54, 4, 8, .sh, 30, 4, 1⟩
def REF.SLOT_FW.QL : Field := ⟨0x58, 28, 4, .rw, 0, 4, 1⟩
def REF.SLOT_FW.PTP_VALID : Field := ⟨0x58, 27, 1, .rw, 0, 4, 1⟩
def REF.SLOT_STAT.STATE : Field := ⟨0x5c, 29, 3, .ro, 0, 4, 1⟩
def REF.SLOT_STAT.CAUSE : Field := ⟨0x5c, 25, 4, .ro, 0, 4, 1⟩
def REF.SLOT_STAT.DRIFT_WARN : Field := ⟨0x5c, 24, 1, .ro, 0, 4, 1⟩
def REF.SLOT_STAT.MAJ_OUT : Field := ⟨0x5c, 23, 1, .ro, 0, 4, 1⟩
def REF.SLOT_STAT.TIMER_S : Field := ⟨0x5c, 0, 16, .ro, 0, 4, 1⟩
def REF.SLOT_FREQ.PPT : Field := ⟨0x60, 0, 32, .ro, 0, 4, 1⟩
def REF.SLOT_DRIFT.PPT : Field := ⟨0x64, 0, 32, .ro, 0, 4, 1⟩
def REF.PHASE_ERR.PS : Field := ⟨0x68, 0, 32, .ro, 0, 4, 1⟩
def REF.ABS_NS.NS : Field := ⟨0x6c, 0, 32, .ro, 0, 4, 1⟩
def REF.ABS_FRAC.FRAC : Field := ⟨0x70, 0, 16, .ro, 0, 4, 1⟩
def REF.HO_CFG.TEMP_SRC : Field := ⟨0x74, 31, 1, .sh, 0, 4, 1⟩
def REF.HO_CFG.MODEL_EN : Field := ⟨0x74, 30, 1, .sh, 1, 4, 1⟩
def REF.HO_CFG.AVG_S : Field := ⟨0x74, 16, 12, .sh, 100, 4, 1⟩
def REF.HO_CFG.T0 : Field := ⟨0x74, 0, 16, .sh, 400, 4, 1⟩
def REF.HO_C1.C1 : Field := ⟨0x78, 0, 32, .sh, 0, 4, 1⟩
def REF.HO_C2.C2 : Field := ⟨0x7c, 0, 32, .sh, 0, 4, 1⟩
def REF.HO_C3.C3 : Field := ⟨0x80, 0, 32, .sh, 0, 4, 1⟩
def REF.HO_AGE.AGE : Field := ⟨0x84, 0, 32, .sh, 0, 4, 1⟩
def REF.HO_TEMP.TEMP : Field := ⟨0x88, 0, 16, .rw, 0, 4, 1⟩
def REF.HO_STAT.TEMP_STALE : Field := ⟨0x8c, 31, 1, .ro, 0, 4, 1⟩
def REF.HO_STAT.ACTIVE : Field := ⟨0x8c, 30, 1, .ro, 0, 4, 1⟩
def REF.HO_STAT.TEMP : Field := ⟨0x8c, 0, 16, .ro, 0, 4, 1⟩
def REF.HO_CORR.CORR : Field := ⟨0x90, 0, 32, .ro, 0, 4, 1⟩
def REF.REFIN_FREQ.HZ : Field := ⟨0x94, 0, 32, .sh, 10000000, 4, 4⟩
def REF.PTP_OFS.PS : Field := ⟨0xa4, 0, 32, .rw, 0, 4, 1⟩

/-! ### The EVT page (12_event_inputs_and_interval_measurement.md) -/

def EVT.INT_RAW.CAL_FAIL : Field := ⟨0x10, 24, 8, .w1c, 0, 4, 1⟩
def EVT.INT_RAW.MEAS_DONE : Field := ⟨0x10, 16, 8, .w1c, 0, 4, 1⟩
def EVT.INT_RAW.FIFO_LOST : Field := ⟨0x10, 8, 8, .w1c, 0, 4, 1⟩
def EVT.INT_RAW.FIFO_NE : Field := ⟨0x10, 0, 8, .w1c, 0, 4, 1⟩
def EVT.EVT_SEL.EVT : Field := ⟨0x40, 0, 3, .rw, 0, 4, 1⟩
def EVT.EVT_CFG.ENABLE : Field := ⟨0x44, 31, 1, .sh, 0, 4, 1⟩
def EVT.EVT_CFG.FIFO_EN : Field := ⟨0x44, 30, 1, .sh, 1, 4, 1⟩
def EVT.EVT_CFG.SLOPE : Field := ⟨0x44, 28, 2, .sh, 0, 4, 1⟩
def EVT.EVT_CFG.TERM : Field := ⟨0x44, 27, 1, .sh, 0, 4, 1⟩
def EVT.EVT_CFG.HYST : Field := ⟨0x44, 25, 2, .sh, 1, 4, 1⟩
def EVT.EVT_CFG.THRESH : Field := ⟨0x44, 0, 10, .sh, 413, 4, 1⟩
def EVT.EVT_PRESCALE.N : Field := ⟨0x48, 0, 24, .sh, 1, 4, 1⟩
def EVT.EVT_DELAY.DELAY_PS : Field := ⟨0x4c, 0, 32, .sh, 0, 4, 1⟩
def EVT.FIFO_STAT.MISSED : Field := ⟨0x50, 24, 8, .ro, 0, 4, 1⟩
def EVT.FIFO_STAT.LOST_CNT : Field := ⟨0x50, 9, 15, .ro, 0, 4, 1⟩
def EVT.FIFO_STAT.FILL : Field := ⟨0x50, 0, 9, .ro, 0, 4, 1⟩
def EVT.FIFO_CMD.CLR : Field := ⟨0x54, 1, 1, .w1s, 0, 4, 1⟩
def EVT.FIFO_CMD.POP : Field := ⟨0x54, 0, 1, .w1s, 0, 4, 1⟩
def EVT.FIFO_HEAD.VALID : Field := ⟨0x58, 31, 1, .ro, 0, 4, 1⟩
def EVT.FIFO_HEAD.EDGE : Field := ⟨0x58, 30, 1, .ro, 0, 4, 1⟩
def EVT.FIFO_HEAD.UNTRACE : Field := ⟨0x58, 29, 1, .ro, 0, 4, 1⟩
def EVT.FIFO_HEAD.LOST_BEFORE : Field := ⟨0x58, 28, 1, .ro, 0, 4, 1⟩
def EVT.FIFO_HEAD.CNT_LO : Field := ⟨0x58, 0, 16, .ro, 0, 4, 1⟩
def EVT.FIFO_SEC_HI.SEC_HI : Field := ⟨0x5c, 0, 16, .ro, 0, 4, 1⟩
def EVT.FIFO_SEC_LO.SEC_LO : Field := ⟨0x60, 0, 32, .ro, 0, 4, 1⟩
def EVT.FIFO_NS.NS : Field := ⟨0x64, 0, 30, .ro, 0, 4, 1⟩
def EVT.FIFO_FRAC.FRAC : Field := ⟨0x68, 0, 16, .ro, 0, 4, 1⟩
def EVT.MEAS_CFG.START : Field := ⟨0x6c, 31, 1, .sh, 0, 4, 1⟩
def EVT.MEAS_CFG.ABORT : Field := ⟨0x6c, 30, 1, .sh, 0, 4, 1⟩
def EVT.MEAS_CFG.TIMED : Field := ⟨0x6c, 29, 1, .sh, 0, 4, 1⟩
def EVT.MEAS_CFG.GATE_MS : Field := ⟨0x6c, 0, 20, .sh, 1000, 4, 1⟩
def EVT.MEAS_START_SEC.SEC : Field := ⟨0x70, 0, 32, .sh, 0, 4, 1⟩
def EVT.MEAS_START_NS.NS : Field := ⟨0x74, 0, 30, .sh, 0, 4, 1⟩
def EVT.MEAS_STAT.BUSY : Field := ⟨0x78, 31, 1, .ro, 0, 4, 1⟩
def EVT.MEAS_STAT.RESULT : Field := ⟨0x78, 28, 3, .ro, 0, 4, 1⟩
def EVT.MEAS_STAT.SHORT : Field := ⟨0x78, 27, 1, .ro, 0, 4, 1⟩
def EVT.MEAS_STAT.REF_CHG : Field := ⟨0x78, 26, 1, .ro, 0, 4, 1⟩
def EVT.MEAS_STAT.SLEWED : Field := ⟨0x78, 25, 1, .ro, 0, 4, 1⟩
def EVT.MEAS_STAT.UNTRACE : Field := ⟨0x78, 24, 1, .ro, 0, 4, 1⟩
def EVT.MEAS_STAT.REF_OPEN : Field := ⟨0x78, 21, 3, .ro, 0, 4, 1⟩
def EVT.MEAS_STAT.REF_CLOSE : Field := ⟨0x78, 18, 3, .ro, 0, 4, 1⟩
def EVT.MEAS_N.N : Field := ⟨0x7c, 0, 21, .ro, 0, 4, 1⟩
def EVT.FREQ_INT.HZ : Field := ⟨0x80, 0, 32, .ro, 0, 4, 1⟩
def EVT.FREQ_FRAC.FRAC : Field := ⟨0x84, 0, 32, .ro, 0, 4, 1⟩
def EVT.RES_RMS.FS : Field := ⟨0x88, 0, 24, .ro, 0, 4, 1⟩
def EVT.RES_UNC.E18 : Field := ⟨0x8c, 0, 32, .ro, 0, 4, 1⟩
def EVT.EDGE_CNT.COUNT : Field := ⟨0x90, 0, 32, .ro, 0, 4, 1⟩
def EVT.CAL_STAT.RECAL : Field := ⟨0x94, 31, 1, .w1s, 0, 4, 1⟩
def EVT.CAL_STAT.FAIL : Field := ⟨0x94, 30, 1, .ro, 0, 4, 1⟩
def EVT.CAL_STAT.ACTIVE_IP : Field := ⟨0x94, 29, 1, .ro, 0, 4, 1⟩
def EVT.CAL_STAT.CAL_CNT : Field := ⟨0x94, 0, 16, .ro, 0, 4, 1⟩

/-! ### The DBL page (13_doublet_redundancy.md) -/

def DBL.INT_RAW.LATE_APPLY : Field := ⟨0x10, 11, 1, .w1c, 0, 4, 1⟩
def DBL.INT_RAW.SEQ_SKEW : Field := ⟨0x10, 10, 1, .w1c, 0, 4, 1⟩
def DBL.INT_RAW.DIGEST : Field := ⟨0x10, 9, 1, .w1c, 0, 4, 1⟩
def DBL.INT_RAW.READY_ON : Field := ⟨0x10, 8, 1, .w1c, 0, 4, 1⟩
def DBL.INT_RAW.STALE : Field := ⟨0x10, 7, 1, .w1c, 0, 4, 1⟩
def DBL.INT_RAW.COPY_ERR : Field := ⟨0x10, 6, 1, .w1c, 0, 4, 1⟩
def DBL.INT_RAW.DUAL_OWN : Field := ⟨0x10, 5, 1, .w1c, 0, 4, 1⟩
def DBL.INT_RAW.INTERLOCK_FAULT : Field := ⟨0x10, 4, 1, .w1c, 0, 4, 1⟩
def DBL.INT_RAW.CONTEND : Field := ⟨0x10, 3, 1, .w1c, 0, 4, 1⟩
def DBL.INT_RAW.HB_LOST : Field := ⟨0x10, 2, 1, .w1c, 0, 4, 1⟩
def DBL.INT_RAW.RELEASED : Field := ⟨0x10, 1, 1, .w1c, 0, 4, 1⟩
def DBL.INT_RAW.TAKEOVER : Field := ⟨0x10, 0, 1, .w1c, 0, 4, 1⟩
def DBL.DBL_CFG.ENABLE : Field := ⟨0x40, 31, 1, .sh, 0, 4, 1⟩
def DBL.DBL_CFG.CYCLE : Field := ⟨0x40, 28, 3, .sh, 2, 4, 1⟩
def DBL.DBL_CFG.COPY : Field := ⟨0x40, 23, 5, .sh, 31, 4, 1⟩
def DBL.DBL_CFG.HOLD_UNTIL_READY : Field := ⟨0x40, 22, 1, .sh, 1, 4, 1⟩
def DBL.DBL_CFG.AUTO_CLAIM : Field := ⟨0x40, 21, 1, .sh, 1, 4, 1⟩
def DBL.DBL_CFG.CLAIM_WAIT_MS : Field := ⟨0x40, 13, 8, .sh, 10, 4, 1⟩
def DBL.DBL_STAT.SIDE : Field := ⟨0x44, 31, 1, .ro, 0, 4, 1⟩
def DBL.DBL_STAT.OWNER : Field := ⟨0x44, 30, 1, .ro, 0, 4, 1⟩
def DBL.DBL_STAT.OWN_IN : Field := ⟨0x44, 29, 1, .ro, 0, 4, 1⟩
def DBL.DBL_STAT.HB_OK : Field := ⟨0x44, 28, 1, .ro, 0, 4, 1⟩
def DBL.DBL_STAT.DL0_UP : Field := ⟨0x44, 27, 1, .ro, 0, 4, 1⟩
def DBL.DBL_STAT.DL1_UP : Field := ⟨0x44, 26, 1, .ro, 0, 4, 1⟩
def DBL.DBL_STAT.READY : Field := ⟨0x44, 25, 1, .ro, 0, 4, 1⟩
def DBL.DBL_STAT.TWIN_READY : Field := ⟨0x44, 24, 1, .ro, 0, 4, 1⟩
def DBL.DBL_STAT.STALE : Field := ⟨0x44, 23, 1, .ro, 0, 4, 1⟩
def DBL.DBL_STAT.FULL_COPY : Field := ⟨0x44, 22, 1, .ro, 0, 4, 1⟩
def DBL.DBL_STAT.HANDOVER_PEND : Field := ⟨0x44, 21, 1, .ro, 0, 4, 1⟩
def DBL.DBL_STAT.FOLLOW : Field := ⟨0x44, 20, 1, .ro, 0, 4, 1⟩
def DBL.DBL_STAT.INTERLOCK_FAULT : Field := ⟨0x44, 19, 1, .ro, 0, 4, 1⟩
def DBL.DBL_CMD.FULL_COPY : Field := ⟨0x48, 2, 1, .w1s, 0, 4, 1⟩
def DBL.DBL_CMD.CANCEL : Field := ⟨0x48, 1, 1, .w1s, 0, 4, 1⟩
def DBL.DBL_CMD.HANDOVER : Field := ⟨0x48, 0, 1, .w1s, 0, 4, 1⟩
def DBL.COPY_STAT.LAST_KIB : Field := ⟨0x4c, 22, 10, .ro, 0, 4, 1⟩
def DBL.COPY_STAT.BACKLOG_KIB : Field := ⟨0x4c, 0, 22, .ro, 0, 4, 1⟩
def DBL.COPY_ERR.CRC_CNT : Field := ⟨0x50, 24, 8, .ro, 0, 4, 1⟩
def DBL.COPY_ERR.ACK_MISS_CNT : Field := ⟨0x50, 16, 8, .ro, 0, 4, 1⟩
def DBL.COPY_ERR.DIGEST_CNT : Field := ⟨0x50, 8, 8, .ro, 0, 4, 1⟩
def DBL.COPY_ERR.SKEW_CNT : Field := ⟨0x50, 0, 8, .ro, 0, 4, 1⟩
def DBL.DL_ASYM_PS.ASYM : Field := ⟨0x54, 0, 32, .sh, 0, 4, 1⟩
def DBL.TWIN_OFS.PS : Field := ⟨0x58, 0, 32, .ro, 0, 4, 1⟩
def DBL.OWN_CHG_SEC.SEC : Field := ⟨0x5c, 0, 32, .ro, 0, 4, 1⟩
def DBL.OWN_CHG_NS.DIR : Field := ⟨0x60, 31, 1, .ro, 0, 4, 1⟩
def DBL.OWN_CHG_NS.NS : Field := ⟨0x60, 0, 30, .ro, 0, 4, 1⟩
def DBL.RED_SEL.PAIR : Field := ⟨0x64, 0, 2, .rw, 0, 4, 1⟩
def DBL.RED_CFG.MODE : Field := ⟨0x68, 30, 2, .sh, 0, 4, 1⟩
def DBL.RED_CFG.PORT_A : Field := ⟨0x68, 24, 6, .sh, 0, 4, 1⟩
def DBL.RED_CFG.PORT_B : Field := ⟨0x68, 18, 6, .sh, 0, 4, 1⟩
def DBL.ENTRY_ADDR.TABLE : Field := ⟨0x6c, 28, 4, .rw, 0, 4, 1⟩
def DBL.ENTRY_ADDR.INDEX : Field := ⟨0x6c, 0, 14, .rw, 0, 4, 1⟩
def DBL.ENTRY_LO.DATA_LO : Field := ⟨0x70, 0, 32, .rw, 0, 4, 1⟩
def DBL.ENTRY_MID.DATA_MID : Field := ⟨0x74, 0, 32, .rw, 0, 4, 1⟩
def DBL.ENTRY_HI.ECC : Field := ⟨0x78, 0, 8, .ro, 0, 4, 1⟩
def DBL.ENTRY_CMD.BUSY : Field := ⟨0x7c, 31, 1, .ro, 0, 4, 1⟩
def DBL.ENTRY_CMD.RESULT : Field := ⟨0x7c, 28, 3, .ro, 0, 4, 1⟩
def DBL.ENTRY_CMD.OP : Field := ⟨0x7c, 0, 4, .wo, 0, 4, 1⟩

/-! ### The SYN page (11_synthesizers_and_outputs.md) -/

def SYN.INT_RAW.LSY_UNLOCK : Field := ⟨0x10, 13, 1, .w1c, 0, 4, 1⟩
def SYN.INT_RAW.LSY_PPM : Field := ⟨0x10, 12, 1, .w1c, 0, 4, 1⟩
def SYN.INT_RAW.TUNE_LIMIT : Field := ⟨0x10, 8, 4, .w1c, 0, 4, 1⟩
def SYN.INT_RAW.UNLOCK : Field := ⟨0x10, 4, 4, .w1c, 0, 4, 1⟩
def SYN.INT_RAW.HOP_DONE : Field := ⟨0x10, 0, 4, .w1c, 0, 4, 1⟩
def SYN.SYN_SEL.SYN : Field := ⟨0x40, 0, 2, .rw, 0, 4, 1⟩
def SYN.SYN_CFG.ENABLE : Field := ⟨0x44, 31, 1, .sh, 1, 4, 1⟩
def SYN.SYN_CFG.DITHER_AMP : Field := ⟨0x44, 29, 2, .sh, 1, 4, 1⟩
def SYN.SYN_CFG.ACTIVE : Field := ⟨0x44, 24, 3, .sh, 0, 4, 1⟩
def SYN.SYN_CFG.SEED : Field := ⟨0x44, 0, 24, .sh, 0, 4, 1⟩
def SYN.PLAN_SEL.PLAN : Field := ⟨0x48, 0, 3, .rw, 0, 4, 1⟩
def SYN.PLAN_N.BAND_VALID : Field := ⟨0x4c, 31, 1, .ro, 0, 4, 1⟩
def SYN.PLAN_N.BAND : Field := ⟨0x4c, 19, 6, .ro, 0, 4, 1⟩
def SYN.PLAN_N.N_INT : Field := ⟨0x4c, 0, 4, .sh, 0, 4, 1⟩
def SYN.PLAN_NUM.NUM : Field := ⟨0x50, 0, 24, .sh, 0, 4, 1⟩
def SYN.PLAN_DEN.DEN : Field := ⟨0x54, 0, 24, .sh, 1, 4, 1⟩
def SYN.SYN_CMD.SEARCH : Field := ⟨0x58, 1, 1, .w1s, 0, 4, 1⟩
def SYN.SYN_CMD.FORGET : Field := ⟨0x58, 0, 1, .w1s, 0, 4, 1⟩
def SYN.SYN_STAT.LOCK : Field := ⟨0x5c, 31, 1, .ro, 0, 4, 1⟩
def SYN.SYN_STAT.HOPPING : Field := ⟨0x5c, 30, 1, .ro, 0, 4, 1⟩
def SYN.SYN_STAT.SEARCHING : Field := ⟨0x5c, 29, 1, .ro, 0, 4, 1⟩
def SYN.SYN_STAT.TUNE_LIMIT : Field := ⟨0x5c, 28, 1, .ro, 0, 4, 1⟩
def SYN.SYN_STAT.ACTIVE_NOW : Field := ⟨0x5c, 24, 3, .ro, 0, 4, 1⟩
def SYN.SYN_STAT.BAND_NOW : Field := ⟨0x5c, 18, 6, .ro, 0, 4, 1⟩
def SYN.SYN_STAT.BAND_VALID : Field := ⟨0x5c, 0, 8, .ro, 0, 4, 1⟩
def SYN.SYN_TUNE.TUNE : Field := ⟨0x60, 0, 16, .ro, 0, 4, 1⟩
def SYN.LSY_STAT.LOCK : Field := ⟨0x64, 31, 1, .ro, 0, 4, 1⟩
def SYN.LSY_STAT.PPM_OUT : Field := ⟨0x64, 30, 1, .ro, 0, 4, 1⟩
def SYN.LSY_STAT.OFS_PPB : Field := ⟨0x64, 0, 24, .ro, 0, 4, 1⟩

/-! ### The OUT page (11_synthesizers_and_outputs.md) -/

def OUT.INT_RAW.EXCL_OFF : Field := ⟨0x10, 3, 1, .w1c, 0, 4, 1⟩
def OUT.INT_RAW.EXCL_ON : Field := ⟨0x10, 2, 1, .w1c, 0, 4, 1⟩
def OUT.INT_RAW.ALIGN_LOST : Field := ⟨0x10, 1, 1, .w1c, 0, 4, 1⟩
def OUT.INT_RAW.ALIGN_DONE : Field := ⟨0x10, 0, 1, .w1c, 0, 4, 1⟩
def OUT.OUT_SEL.OUT : Field := ⟨0x40, 0, 4, .rw, 0, 4, 1⟩
def OUT.OUT_CFG.ENABLE : Field := ⟨0x44, 31, 1, .sh, 0, 4, 1⟩
def OUT.OUT_CFG.EXCL : Field := ⟨0x44, 30, 1, .sh, 0, 4, 1⟩
def OUT.OUT_CFG.SRC : Field := ⟨0x44, 27, 3, .sh, 0, 4, 1⟩
def OUT.OUT_CFG.FMT : Field := ⟨0x44, 24, 3, .sh, 0, 4, 1⟩
def OUT.OUT_CFG.SWING : Field := ⟨0x44, 20, 4, .sh, 8, 4, 1⟩
def OUT.OUT_CFG.P_V33 : Field := ⟨0x44, 19, 1, .sh, 0, 4, 1⟩
def OUT.OUT_CFG.N_V33 : Field := ⟨0x44, 18, 1, .sh, 0, 4, 1⟩
def OUT.OUT_CFG.N_LEG : Field := ⟨0x44, 16, 2, .sh, 2, 4, 1⟩
def OUT.OUT_CFG.IDLE : Field := ⟨0x44, 15, 1, .sh, 0, 4, 1⟩
def OUT.OUT_CFG.SQUELCH : Field := ⟨0x44, 14, 1, .sh, 1, 4, 1⟩
def OUT.OUT_DIV.D : Field := ⟨0x48, 0, 32, .sh, 16, 4, 1⟩
def OUT.OUT_SKEW.SKEW : Field := ⟨0x4c, 0, 10, .sh, 0, 4, 1⟩
def OUT.OUT_PHASE.PHASE_NS : Field := ⟨0x50, 0, 30, .sh, 0, 4, 1⟩
def OUT.PULSE_PERIOD.PERIOD_NS : Field := ⟨0x54, 0, 30, .sh, 1000000000, 4, 1⟩
def OUT.PULSE_WIDTH.WIDTH_NS : Field := ⟨0x58, 0, 30, .sh, 100000000, 4, 1⟩
def OUT.OUT_ALIGN.ALIGN : Field := ⟨0x5c, 31, 1, .sh, 0, 4, 1⟩
def OUT.OUT_ALIGN.WALK : Field := ⟨0x5c, 30, 1, .sh, 0, 4, 1⟩
def OUT.OUT_ALIGN.CANCEL : Field := ⟨0x5c, 29, 1, .sh, 0, 4, 1⟩
def OUT.OUT_STAT.DRIVING : Field := ⟨0x60, 31, 1, .ro, 0, 4, 1⟩
def OUT.OUT_STAT.ALIGNED : Field := ⟨0x60, 30, 1, .ro, 0, 4, 1⟩
def OUT.OUT_STAT.ALIGN_PENDING : Field := ⟨0x60, 29, 1, .ro, 0, 4, 1⟩
def OUT.OUT_STAT.HELD_EXCL : Field := ⟨0x60, 28, 1, .ro, 0, 4, 1⟩
def OUT.OUT_STAT.WAIT_SRC : Field := ⟨0x60, 27, 1, .ro, 0, 4, 1⟩
def OUT.OUT_STAT.REPEAT_S : Field := ⟨0x60, 16, 7, .ro, 1, 4, 1⟩
def OUT.ALIGN_ERR.PS : Field := ⟨0x64, 0, 32, .ro, 0, 4, 1⟩
def OUT.ALIGN_SEC.SEC : Field := ⟨0x68, 0, 32, .ro, 0, 4, 1⟩
def OUT.ALIGN_NS.NS : Field := ⟨0x6c, 0, 30, .ro, 0, 4, 1⟩

/-! ### The DRM page (17_tally_recorder_and_test.md) -/

def DRM.INT_RAW.TEST_DONE : Field := ⟨0x10, 2, 1, .w1c, 0, 4, 1⟩
def DRM.INT_RAW.UNCORR : Field := ⟨0x10, 1, 1, .w1c, 0, 4, 1⟩
def DRM.INT_RAW.CORR : Field := ⟨0x10, 0, 1, .w1c, 0, 4, 1⟩
def DRM.DRM_STAT.TRAINED : Field := ⟨0x40, 31, 1, .ro, 0, 4, 1⟩
def DRM.DRM_STAT.SELF_REFRESH : Field := ⟨0x40, 30, 1, .ro, 0, 4, 1⟩
def DRM.DRM_STAT.TRAIN_TRY : Field := ⟨0x40, 28, 2, .ro, 0, 4, 1⟩
def DRM.DRM_STAT.RATE_MTS : Field := ⟨0x40, 0, 16, .ro, 0, 4, 1⟩
def DRM.ECC_STAT.CORR : Field := ⟨0x44, 16, 16, .ro, 0, 4, 1⟩
def DRM.ECC_STAT.UNCORR : Field := ⟨0x44, 0, 16, .ro, 0, 4, 1⟩
def DRM.ECC_ADDR.LINE : Field := ⟨0x48, 0, 27, .ro, 0, 4, 1⟩
def DRM.TEST_CFG.FULL : Field := ⟨0x4c, 31, 1, .sh, 0, 4, 1⟩
def DRM.TEST_CFG.PATTERN : Field := ⟨0x4c, 0, 3, .sh, 1, 4, 1⟩
def DRM.TEST_CMD.ABORT : Field := ⟨0x50, 1, 1, .w1s, 0, 4, 1⟩
def DRM.TEST_CMD.START : Field := ⟨0x50, 0, 1, .w1s, 0, 4, 1⟩
def DRM.TEST_STAT.BUSY : Field := ⟨0x54, 31, 1, .ro, 0, 4, 1⟩
def DRM.TEST_STAT.PASS : Field := ⟨0x54, 30, 1, .ro, 0, 4, 1⟩
def DRM.TEST_STAT.FAIL : Field := ⟨0x54, 29, 1, .ro, 0, 4, 1⟩
def DRM.TEST_STAT.ERR_CNT : Field := ⟨0x54, 0, 16, .ro, 0, 4, 1⟩
def DRM.TEST_ERR.LINE : Field := ⟨0x58, 0, 27, .ro, 0, 4, 1⟩

/-! ### The LNK page (02_lanes_and_port_datapath.md) -/

def LNK.INT_RAW.CAL_LIMIT : Field := ⟨0x10, 7, 1, .w1c, 0, 4, 1⟩
def LNK.INT_RAW.PRBS_ERR : Field := ⟨0x10, 6, 1, .w1c, 0, 4, 1⟩
def LNK.INT_RAW.IDLE_FAIL : Field := ⟨0x10, 5, 1, .w1c, 0, 4, 1⟩
def LNK.INT_RAW.LAT_NEW : Field := ⟨0x10, 4, 1, .w1c, 0, 4, 1⟩
def LNK.INT_RAW.LINK_DOWN : Field := ⟨0x10, 3, 1, .w1c, 0, 4, 1⟩
def LNK.INT_RAW.LINK_UP : Field := ⟨0x10, 2, 1, .w1c, 0, 4, 1⟩
def LNK.INT_RAW.LOL_CHG : Field := ⟨0x10, 1, 1, .w1c, 0, 4, 1⟩
def LNK.INT_RAW.LOS_CHG : Field := ⟨0x10, 0, 1, .w1c, 0, 4, 1⟩
def LNK.LNK_CFG.RATE : Field := ⟨0x40, 12, 4, .sh, 15, 4, 1⟩
def LNK.LNK_CFG.FEC : Field := ⟨0x40, 10, 2, .sh, 0, 4, 1⟩
def LNK.LNK_CFG.MEDIA : Field := ⟨0x40, 8, 2, .sh, 1, 4, 1⟩
def LNK.LNK_CFG.ENABLE : Field := ⟨0x40, 0, 1, .sh, 1, 4, 1⟩
def LNK.LNK_STATE.RETRAIN_CNT : Field := ⟨0x44, 24, 8, .ro, 0, 4, 1⟩
def LNK.LNK_STATE.RATE_ACT : Field := ⟨0x44, 20, 4, .ro, 0, 4, 1⟩
def LNK.LNK_STATE.FEC_ACT : Field := ⟨0x44, 18, 2, .ro, 0, 4, 1⟩
def LNK.LNK_STATE.IDLE_ACT : Field := ⟨0x44, 16, 2, .ro, 0, 4, 1⟩
def LNK.LNK_STATE.LAT_VALID : Field := ⟨0x44, 8, 1, .ro, 0, 4, 1⟩
def LNK.LNK_STATE.FEC_LOCK : Field := ⟨0x44, 7, 1, .ro, 0, 4, 1⟩
def LNK.LNK_STATE.PCS_LOCK : Field := ⟨0x44, 6, 1, .ro, 0, 4, 1⟩
def LNK.LNK_STATE.LOL : Field := ⟨0x44, 5, 1, .ro, 0, 4, 1⟩
def LNK.LNK_STATE.LOS : Field := ⟨0x44, 4, 1, .ro, 1, 4, 1⟩
def LNK.LNK_STATE.STATE : Field := ⟨0x44, 0, 4, .ro, 0, 4, 1⟩
def LNK.RX_LAT.VALID : Field := ⟨0x48, 31, 1, .ro, 0, 4, 1⟩
def LNK.RX_LAT.SEQ : Field := ⟨0x48, 24, 7, .ro, 0, 4, 1⟩
def LNK.RX_LAT.LAT_PS : Field := ⟨0x48, 0, 24, .ro, 0, 4, 1⟩
def LNK.TX_LAT.VALID : Field := ⟨0x4c, 31, 1, .ro, 0, 4, 1⟩
def LNK.TX_LAT.SEQ : Field := ⟨0x4c, 24, 7, .ro, 0, 4, 1⟩
def LNK.TX_LAT.LAT_PS : Field := ⟨0x4c, 0, 24, .ro, 0, 4, 1⟩
def LNK.LAT_DETAIL.GB_RX : Field := ⟨0x50, 24, 8, .ro, 0, 4, 1⟩
def LNK.LAT_DETAIL.GB_TX : Field := ⟨0x50, 16, 8, .ro, 0, 4, 1⟩
def LNK.LAT_DETAIL.A_RX_PS : Field := ⟨0x50, 8, 8, .ro, 0, 4, 1⟩
def LNK.LAT_DETAIL.A_TX_PS : Field := ⟨0x50, 0, 8, .ro, 0, 4, 1⟩
def LNK.LOS_CFG.ASSERT_LVL : Field := ⟨0x54, 11, 5, .sh, 6, 4, 1⟩
def LNK.LOS_CFG.DEASSERT_LVL : Field := ⟨0x54, 6, 5, .sh, 8, 4, 1⟩
def LNK.LOS_CFG.ASSERT_TIME : Field := ⟨0x54, 4, 2, .sh, 1, 4, 1⟩
def LNK.LOS_CFG.DEASSERT_TIME : Field := ⟨0x54, 2, 2, .sh, 1, 4, 1⟩
def LNK.LOL_CFG.UNLOCK_PPM : Field := ⟨0x58, 12, 10, .sh, 250, 4, 1⟩
def LNK.LOL_CFG.RELOCK_PPM : Field := ⟨0x58, 2, 10, .sh, 150, 4, 1⟩
def LNK.EYE.WIDTH : Field := ⟨0x5c, 24, 8, .ro, 0, 4, 1⟩
def LNK.EYE.HEIGHT : Field := ⟨0x5c, 14, 10, .ro, 0, 4, 1⟩
def LNK.EYE.WORST_EYE : Field := ⟨0x5c, 12, 2, .ro, 0, 4, 1⟩
def LNK.EYE.REFRESH : Field := ⟨0x5c, 0, 12, .ro, 0, 4, 1⟩
def LNK.ADAPT_CTRL.RETRAIN : Field := ⟨0x60, 3, 1, .w1s, 0, 4, 1⟩
def LNK.ADAPT_CTRL.CAL_FREEZE : Field := ⟨0x60, 2, 1, .rw, 0, 4, 1⟩
def LNK.ADAPT_CTRL.CTLE_FREEZE : Field := ⟨0x60, 1, 1, .rw, 0, 4, 1⟩
def LNK.ADAPT_CTRL.DFE_FREEZE : Field := ⟨0x60, 0, 1, .rw, 0, 4, 1⟩
def LNK.DFE_TAP.TAP_D : Field := ⟨0x64, 24, 8, .ro, 0, 4, 3⟩
def LNK.DFE_TAP.TAP_C : Field := ⟨0x64, 16, 8, .ro, 0, 4, 3⟩
def LNK.DFE_TAP.TAP_B : Field := ⟨0x64, 8, 8, .ro, 0, 4, 3⟩
def LNK.DFE_TAP.TAP_A : Field := ⟨0x64, 0, 8, .ro, 0, 4, 3⟩
def LNK.TRIM_SEL.INDEX : Field := ⟨0x70, 0, 8, .rw, 0, 4, 1⟩
def LNK.TRIM_VAL.OVERRIDE : Field := ⟨0x74, 31, 1, .rw, 0, 4, 1⟩
def LNK.TRIM_VAL.VALUE : Field := ⟨0x74, 0, 16, .rw, 0, 4, 1⟩
def LNK.TX_EQ.PRE : Field := ⟨0x78, 16, 5, .sh, 4, 4, 1⟩
def LNK.TX_EQ.MAIN : Field := ⟨0x78, 8, 7, .sh, 52, 4, 1⟩
def LNK.TX_EQ.POST : Field := ⟨0x78, 0, 5, .sh, 8, 4, 1⟩
def LNK.IDLE_CFG.MODE : Field := ⟨0x7c, 16, 2, .sh, 0, 4, 1⟩
def LNK.IDLE_CFG.ENTRY_DELAY : Field := ⟨0x7c, 0, 16, .sh, 100, 4, 1⟩
def LNK.LOOP_CFG.MODE : Field := ⟨0x80, 0, 3, .sh, 0, 4, 1⟩
def LNK.PRBS_CFG.CLR : Field := ⟨0x84, 7, 1, .w1s, 0, 4, 1⟩
def LNK.PRBS_CFG.ERR_INJECT : Field := ⟨0x84, 6, 1, .w1s, 0, 4, 1⟩
def LNK.PRBS_CFG.INVERT : Field := ⟨0x84, 5, 1, .rw, 0, 4, 1⟩
def LNK.PRBS_CFG.PATTERN : Field := ⟨0x84, 2, 3, .rw, 0, 4, 1⟩
def LNK.PRBS_CFG.CHK_EN : Field := ⟨0x84, 1, 1, .rw, 0, 4, 1⟩
def LNK.PRBS_CFG.GEN_EN : Field := ⟨0x84, 0, 1, .rw, 0, 4, 1⟩
def LNK.PRBS_STAT.SAT : Field := ⟨0x88, 1, 1, .ro, 0, 4, 1⟩
def LNK.PRBS_STAT.LOCK : Field := ⟨0x88, 0, 1, .ro, 0, 4, 1⟩
def LNK.PRBS_ERR.ERR_CNT : Field := ⟨0x8c, 0, 32, .ro, 0, 4, 1⟩
def LNK.PRBS_BITS.BIT_CNT : Field := ⟨0x90, 0, 32, .ro, 0, 4, 1⟩
def LNK.PD_PHASE.PHASE : Field := ⟨0x94, 0, 16, .ro, 0, 4, 1⟩

/-! ### The PRT page (02_lanes_and_port_datapath.md) -/

def PRT.INT_RAW.IDLE_BLOCKED_CHG : Field := ⟨0x10, 3, 1, .w1c, 0, 4, 1⟩
def PRT.INT_RAW.SOFT_CHG : Field := ⟨0x10, 2, 1, .w1c, 0, 4, 1⟩
def PRT.INT_RAW.LINK_DOWN : Field := ⟨0x10, 1, 1, .w1c, 0, 4, 1⟩
def PRT.INT_RAW.LINK_UP : Field := ⟨0x10, 0, 1, .w1c, 0, 4, 1⟩
def PRT.PORT_CFG.MAX_FRAME : Field := ⟨0x40, 18, 14, .sh, 9728, 4, 1⟩
def PRT.PORT_CFG.PFC_EN : Field := ⟨0x40, 10, 8, .sh, 0, 4, 1⟩
def PRT.PORT_CFG.FC_MODE : Field := ⟨0x40, 8, 2, .sh, 1, 4, 1⟩
def PRT.PORT_CFG.TC7_EN : Field := ⟨0x40, 7, 1, .sh, 0, 4, 1⟩
def PRT.PORT_CFG.ENABLE : Field := ⟨0x40, 6, 1, .sh, 1, 4, 1⟩
def PRT.PORT_STAT.RATE : Field := ⟨0x44, 24, 4, .ro, 0, 4, 1⟩
def PRT.PORT_STAT.LINK_UP : Field := ⟨0x44, 23, 1, .ro, 0, 4, 1⟩
def PRT.PORT_STAT.TEST : Field := ⟨0x44, 22, 1, .ro, 0, 4, 1⟩
def PRT.PORT_STAT.SOFT_STAMPS : Field := ⟨0x44, 21, 1, .ro, 1, 4, 1⟩
def PRT.PORT_STAT.HOLD : Field := ⟨0x44, 20, 1, .ro, 0, 4, 1⟩
def PRT.PORT_STAT.IDLE_BLOCKED : Field := ⟨0x44, 19, 1, .ro, 0, 4, 1⟩
def PRT.PORT_STAT.PAUSED : Field := ⟨0x44, 18, 1, .ro, 0, 4, 1⟩
def PRT.PORT_STAT.PFC_RX : Field := ⟨0x44, 10, 8, .ro, 0, 4, 1⟩
def PRT.LINK_CHG_SEC.SEC : Field := ⟨0x48, 0, 32, .ro, 0, 4, 1⟩
def PRT.LINK_CHG_NS.DIR : Field := ⟨0x4c, 31, 1, .ro, 0, 4, 1⟩
def PRT.LINK_CHG_NS.NS : Field := ⟨0x4c, 0, 30, .ro, 0, 4, 1⟩

/-! ### The GCL page (07_scheduled_traffic_and_blocker.md) -/

def GCL.INT_RAW.OVERSIZE : Field := ⟨0x10, 3, 1, .w1c, 0, 4, 1⟩
def GCL.INT_RAW.LATE : Field := ⟨0x10, 2, 1, .w1c, 0, 4, 1⟩
def GCL.INT_RAW.SUPERSEDED : Field := ⟨0x10, 1, 1, .w1c, 0, 4, 1⟩
def GCL.INT_RAW.SWAP_DONE : Field := ⟨0x10, 0, 1, .w1c, 0, 4, 1⟩
def GCL.GCL_CFG.ENABLE : Field := ⟨0x40, 0, 1, .sh, 0, 4, 1⟩
def GCL.GCL_STAT.ACTIVE : Field := ⟨0x44, 31, 1, .ro, 0, 4, 1⟩
def GCL.GCL_STAT.SWAP_PENDING : Field := ⟨0x44, 30, 1, .ro, 0, 4, 1⟩
def GCL.GCL_STAT.BLOCKER_OWN : Field := ⟨0x44, 29, 1, .ro, 0, 4, 1⟩
def GCL.GCL_STAT.MAC_HOLD : Field := ⟨0x44, 28, 1, .ro, 0, 4, 1⟩
def GCL.GCL_STAT.GATES : Field := ⟨0x44, 21, 7, .ro, 127, 4, 1⟩
def GCL.GCL_STAT.ENTRY : Field := ⟨0x44, 0, 10, .ro, 0, 4, 1⟩
def GCL.BANK_SEL.BANK : Field := ⟨0x48, 0, 1, .rw, 0, 4, 1⟩
def GCL.BANK_CYCLE.CYCLE_NS : Field := ⟨0x4c, 0, 30, .rw, 1000000, 4, 1⟩
def GCL.BANK_PHASE.PHASE_NS : Field := ⟨0x50, 0, 30, .rw, 0, 4, 1⟩
def GCL.BANK_LEN.LEN : Field := ⟨0x54, 0, 11, .rw, 1, 4, 1⟩
def GCL.SWAP_SEC.SEC : Field := ⟨0x58, 0, 32, .sh, 0, 4, 1⟩
def GCL.SWAP_NS.NS : Field := ⟨0x5c, 0, 30, .sh, 0, 4, 1⟩
def GCL.SWAP_CTRL.CANCEL : Field := ⟨0x60, 1, 1, .sh, 0, 4, 1⟩
def GCL.SWAP_CTRL.SWAP : Field := ⟨0x60, 0, 1, .sh, 0, 4, 1⟩
def GCL.LAST_SWAP_SEC.SEC : Field := ⟨0x64, 0, 32, .ro, 0, 4, 1⟩
def GCL.LAST_SWAP_NS.NS : Field := ⟨0x68, 0, 30, .ro, 0, 4, 1⟩
def GCL.LAUNCH_CFG.LATE_MAX_NS : Field := ⟨0x6c, 0, 16, .sh, 500, 4, 1⟩
def GCL.LAUNCH_STAT.HWM_CLR : Field := ⟨0x70, 31, 1, .w1s, 0, 4, 1⟩
def GCL.LAUNCH_STAT.HWM : Field := ⟨0x70, 8, 7, .ro, 0, 4, 1⟩
def GCL.LAUNCH_STAT.PENDING : Field := ⟨0x70, 0, 7, .ro, 0, 4, 1⟩
def GCL.WINMAX_SEL.CLASS : Field := ⟨0x74, 0, 3, .rw, 0, 4, 1⟩
def GCL.WINMAX.WIN_NS : Field := ⟨0x78, 0, 30, .ro, 1073741823, 4, 1⟩
def GCL.ENTRY_ADDR.BANK : Field := ⟨0x7c, 10, 1, .rw, 0, 4, 1⟩
def GCL.ENTRY_ADDR.INDEX : Field := ⟨0x7c, 0, 10, .rw, 0, 4, 1⟩
def GCL.ENTRY_LO.DATA_LO : Field := ⟨0x80, 0, 32, .rw, 0, 4, 1⟩
def GCL.ENTRY_MID.DATA_MID : Field := ⟨0x84, 0, 32, .rw, 0, 4, 1⟩
def GCL.ENTRY_HI.ECC : Field := ⟨0x88, 0, 8, .ro, 0, 4, 1⟩
def GCL.ENTRY_CMD.BUSY : Field := ⟨0x8c, 31, 1, .ro, 0, 4, 1⟩
def GCL.ENTRY_CMD.RESULT : Field := ⟨0x8c, 28, 3, .ro, 0, 4, 1⟩
def GCL.ENTRY_CMD.OP : Field := ⟨0x8c, 0, 4, .wo, 0, 4, 1⟩

/-! ### The TSU page (09_time_base_and_stamps.md) -/

def TSU.INT_RAW.TC_SKIP : Field := ⟨0x10, 2, 1, .w1c, 0, 4, 1⟩
def TSU.INT_RAW.TXF_LOST : Field := ⟨0x10, 1, 1, .w1c, 0, 4, 1⟩
def TSU.INT_RAW.TXF_NE : Field := ⟨0x10, 0, 1, .w1c, 0, 4, 1⟩
def TSU.TSU_CFG.SOFT_TC : Field := ⟨0x40, 2, 1, .sh, 1, 4, 1⟩
def TSU.TSU_CFG.ONE_STEP_EN : Field := ⟨0x40, 1, 1, .sh, 1, 4, 1⟩
def TSU.TSU_CFG.TC_EN : Field := ⟨0x40, 0, 1, .sh, 1, 4, 1⟩
def TSU.ASYM_PS.ASYM : Field := ⟨0x44, 0, 32, .sh, 0, 4, 1⟩
def TSU.TXF_STAT.LOST_CNT : Field := ⟨0x48, 8, 16, .ro, 0, 4, 1⟩
def TSU.TXF_STAT.FILL : Field := ⟨0x48, 0, 7, .ro, 0, 4, 1⟩
def TSU.TXF_CMD.CLR : Field := ⟨0x4c, 1, 1, .w1s, 0, 4, 1⟩
def TSU.TXF_CMD.POP : Field := ⟨0x4c, 0, 1, .w1s, 0, 4, 1⟩
def TSU.TXF_TAG.VALID : Field := ⟨0x50, 19, 1, .ro, 0, 4, 1⟩
def TSU.TXF_TAG.SOFT : Field := ⟨0x50, 18, 1, .ro, 0, 4, 1⟩
def TSU.TXF_TAG.UNTRACE : Field := ⟨0x50, 17, 1, .ro, 0, 4, 1⟩
def TSU.TXF_TAG.LOST_BEFORE : Field := ⟨0x50, 16, 1, .ro, 0, 4, 1⟩
def TSU.TXF_TAG.TAG : Field := ⟨0x50, 0, 16, .ro, 0, 4, 1⟩
def TSU.TXF_SEC_HI.SEC_HI : Field := ⟨0x54, 0, 16, .ro, 0, 4, 1⟩
def TSU.TXF_SEC_LO.SEC_LO : Field := ⟨0x58, 0, 32, .ro, 0, 4, 1⟩
def TSU.TXF_NS.NS : Field := ⟨0x5c, 0, 30, .ro, 0, 4, 1⟩
def TSU.TXF_FRAC.FRAC : Field := ⟨0x60, 0, 16, .ro, 0, 4, 1⟩
def TSU.TC_SKIP.COUNT : Field := ⟨0x64, 0, 32, .ro, 0, 4, 1⟩

/-! ### The fields of each page above the common part -/

/-- The block registers of the GLB page, field by field. -/
def GLB.layout : List Field := [
  GLB.GLB_ID.PART, GLB.GLB_ID.STEP, GLB.PWR_CFG.TARGET, GLB.PWR_CFG.FORCE,
  GLB.PWR_CFG.WAKE_N_EN, GLB.PWR_CFG.WAKE_TIME_EN, GLB.PWR_STAT.STATE, GLB.PWR_STAT.CHANGING,
  GLB.PWR_STAT.LAST_WAKE, GLB.DOZE_LANES_LO.LANES, GLB.DOZE_LANES_HI.LANES, GLB.WAKE_SEC.SEC,
  GLB.WAKE_NS.NS, GLB.RESTORE_SEL.PAGE, GLB.RESTORE_STAT.SOURCE, GLB.JUNCTION.TEMP]

/-- The block registers of the RST page, field by field. -/
def RST.layout : List Field := [
  RST.RST_CAUSE.CAUSE, RST.RST_CAUSE.DETAIL, RST.RST_CAUSE.TIME_VALID, RST.CAUSE_SEC.SEC,
  RST.CAUSE_NS.NS, RST.RST_CMD.KEY, RST.RST_CMD.WARM, RST.WDOG_CFG.EN,
  RST.WDOG_CFG.TIMEOUT_MS, RST.WDOG_KICK.KICK, RST.SEQ_STAT.STEP, RST.SEQ_STAT.PACE_TRY,
  RST.SEQ_STAT.DRAM_FAIL, RST.SEQ_STAT.PACE_FAIL, RST.SEQ_STAT.XO_ABSENT, RST.SEQ_STAT.RELEASE_MS,
  RST.CLK_GOOD.GOOD, RST.FORCE_CFG.FORCE]

/-- The block registers of the OPT page, field by field. -/
def OPT.layout : List Field := [
  OPT.OPT_STAT.VALID, OPT.OPT_STAT.ACTIVE, OPT.OPT_STAT.RES_A, OPT.OPT_STAT.RES_B,
  OPT.OPT_STAT.LAST_WRITE, OPT.OPT_STAT.LOADING, OPT.OPT_STAT.WRITING, OPT.OPT_STAT.BAD_REC,
  OPT.GEN_A.GEN, OPT.GEN_B.GEN, OPT.OPT_CMD.BUSY, OPT.OPT_CMD.WRITE,
  OPT.OPT_SRC.OFS, OPT.OPT_LEN.BYTES, OPT.OPT_WEAR.WRITES_B, OPT.OPT_WEAR.WRITES_A]

/-- The block registers of the SEC page, field by field. -/
def SEC.layout : List Field := [
  SEC.SEC_STAT.KEY_FUSED, SEC.SEC_STAT.DEBUG_LOCKED, SEC.SEC_STAT.BOOT_OK, SEC.MIN_VER.MAJOR,
  SEC.MIN_VER.MINOR, SEC.MIN_VER.BUILD, SEC.KEYHASH_SEL.WORD, SEC.KEYHASH.HASH]

/-- The block registers of the SVC page, field by field. -/
def SVC.layout : List Field := [
  SVC.FW_STAT.IMAGE, SVC.FW_STAT.STATE, SVC.FW_STAT.TRIAL, SVC.FW_STAT.FAIL_A,
  SVC.FW_STAT.FAIL_B, SVC.FW_VER.MAJOR, SVC.FW_VER.MINOR, SVC.FW_VER.BUILD,
  SVC.UPD_STAT.STATE, SVC.UPD_STAT.TARGET, SVC.UPD_STAT.RX_KIB, SVC.PLACE_CFG.AUTO,
  SVC.PLACE_CFG.HI, SVC.PLACE_CFG.LO, SVC.PLACE_CFG.PERIOD_MS, SVC.SVC_SEL.SVC,
  SVC.SVC_CFG.ENABLE, SVC.SVC_CFG.PIN, SVC.SVC_CFG.CORE, SVC.SVC_STAT.RUNNING,
  SVC.SVC_STAT.DEGRADED, SVC.SVC_STAT.CORE_NOW, SVC.SVC_STAT.ON_SEC, SVC.SVC_STAT.LOAD,
  SVC.SVC_STAT.MOVES, SVC.CORE_LOAD.SC3, SVC.CORE_LOAD.SC2, SVC.CORE_LOAD.SC1,
  SVC.CORE_LOAD.SC0, SVC.HEARTBEAT.COUNT, SVC.OWN_TAKEN.PAGE, SVC.RESTART_CMD.RESTART]

/-- The block registers of the MBX page, field by field. -/
def MBX.layout : List Field := [
  MBX.MB_CROSSED.CROSSED, MBX.FULL_SUM.FROMFW_FULL, MBX.FULL_SUM.TOFW_FULL, MBX.TOFW_LO.DATA_LO,
  MBX.TOFW_MID.DATA_MID, MBX.FROMFW_LO.DATA_LO, MBX.FROMFW_MID.DATA_MID, MBX.CH_STAT.TOFW_FULL,
  MBX.CH_STAT.FROMFW_FULL, MBX.CH_STAT.TOFW_WAIT, MBX.CH_STAT.FROMFW_WAIT, MBX.CH_STAT.CROSSED,
  MBX.CH_STAT.TOFW_ECC, MBX.CH_STAT.FROMFW_ECC, MBX.CH_STAT.LINK, MBX.CH_STAT.TOFW_LAST,
  MBX.CH_STAT.FROMFW_LAST, MBX.CH_CTRL.WAIT_CLR, MBX.CH_CTRL.WAIT_SET, MBX.CH_CNT.CROSSED_CNT,
  MBX.CH_CNT.REFUSED_CNT, MBX.CH_CNT.SENT_CNT, MBX.CH_ECC.FROMFW_ECC, MBX.CH_ECC.TOFW_ECC]

/-- The block registers of the PCI page, field by field. -/
def PCI.layout : List Field := [
  PCI.PCI_ID.DEVICE, PCI.PCI_ID.VENDOR, PCI.PCI_STAT.LINK_UP, PCI.PCI_STAT.SPEED,
  PCI.PCI_STAT.WIDTH, PCI.PCI_STAT.W2_READY, PCI.RING_SEL.RING, PCI.RING_BASE_LO.BASE_LO,
  PCI.RING_BASE_HI.BASE_HI, PCI.RING_CFG.ENABLE, PCI.RING_CFG.SIZE, PCI.RING_CFG.COAL_US,
  PCI.RING_CFG.COAL_CNT, PCI.RING_STAT.ERR, PCI.RING_STAT.HEAD, PCI.DMA_ERR.RING,
  PCI.DMA_ERR.CAUSE, PCI.DMA_ERR.INDEX, PCI.RING_DB.TAIL]

/-- The block registers of the CRN page, field by field. -/
def CRN.layout : List Field := [
  CRN.CRN_CFG.ENABLE, CRN.CRN_CFG.CTL_WR, CRN.CRN_CFG.WAIT_MAX, CRN.CRN_STAT.CLK_OK,
  CRN.CRN_STAT.TMO_CNT, CRN.CRN_STAT.BAD_CNT, CRN.TRIP_SEL.FLAG, CRN.TRIP_MAP.VALID,
  CRN.TRIP_MAP.HANDLE, CRN.TRIP_FLAGS.FLAGS, CRN.CTL_MSG.DATA, CRN.HOST_MSG.DATA,
  CRN.LAUNCH_STAT.ACCEPTED, CRN.LAUNCH_STAT.REFUSED, CRN.ENTRY_ADDR.TPL, CRN.ENTRY_ADDR.WORD,
  CRN.ENTRY_LO.DATA_LO, CRN.ENTRY_MID.DATA_MID, CRN.ENTRY_HI.ECC, CRN.ENTRY_CMD.BUSY,
  CRN.ENTRY_CMD.RESULT, CRN.ENTRY_CMD.OP]

/-- The block registers of the FAB page, field by field. -/
def FAB.layout : List Field := [
  FAB.PACE_CFG.HYST, FAB.PACE_CFG.TARGET, FAB.PACE_CFG.FLOOR, FAB.AVS_CFG.MODE,
  FAB.AVS_CFG.PMB_ADDR, FAB.AVS_CFG.PERIOD, FAB.AVS_CFG.STEP, FAB.AVS_LIMIT.VMAX,
  FAB.AVS_LIMIT.VMIN, FAB.AVS_STAT.FAIL, FAB.AVS_STAT.AT_VMAX, FAB.AVS_STAT.AT_VMIN,
  FAB.AVS_STAT.EMERG, FAB.AVS_STAT.VOUT, FAB.PACE_STAT.UNDER, FAB.PACE_STAT.LOW_CLR,
  FAB.PACE_STAT.LOW, FAB.PACE_STAT.MIN_IDX, FAB.PACE_STAT.MIN, FAB.PACE.PACE_ODD,
  FAB.PACE.PACE_EVEN, FAB.XING_CFG.TMO, FAB.XING_CFG.COMPAT, FAB.XING_SEL.INDEX,
  FAB.XING_STAT.STATE, FAB.XING_STAT.CLK_STOP, FAB.XING_STAT.RESYNC_CNT, FAB.XING_STAT.TMO_CNT,
  FAB.XING_HELD0.NOT_OPEN, FAB.XING_HELD1.NOT_OPEN]

/-- The block registers of the LKP page, field by field. -/
def LKP.layout : List Field := [
  LKP.LKP_CFG.AGE_TIME, LKP.LKP_CFG.LEARN_EN, LKP.LKP_CFG.FLOOD_UNK_UC, LKP.LKP_CFG.FLOOD_UNK_MC,
  LKP.LKP_CFG.EPASH_UDP, LKP.EPOCH_STAT.CUR, LKP.EPOCH_STAT.PENDING, LKP.EPOCH_STAT.OUTSTANDING,
  LKP.EPOCH_AGED.AGED_EPOCHS, LKP.EPOCH_AGED.AGED_FRAMES, LKP.STAGE_STAT.FULL, LKP.STAGE_STAT.COUNT,
  LKP.LEARN_STAT.FDB_USED, LKP.ENTRY_ADDR.TABLE, LKP.ENTRY_ADDR.WORD, LKP.ENTRY_ADDR.INDEX,
  LKP.ENTRY_LO.DATA_LO, LKP.ENTRY_MID.DATA_MID, LKP.ENTRY_HI.ECC, LKP.ENTRY_CMD.BUSY,
  LKP.ENTRY_CMD.RESULT, LKP.ENTRY_CMD.OP, LKP.ENTRY_AUX.TARGET, LKP.ENTRY_AUX.STATIC,
  LKP.ENTRY_AUX.MCAST, LKP.ENTRY_AUX.DROP_SA, LKP.ENTRY_AUX.PUNT, LKP.ENTRY_AUX.DEST,
  LKP.PROF.TAG_MODE, LKP.PROF.ACL_KEY, LKP.PROF.L3, LKP.PROF.L4,
  LKP.PROF.PTP_L2, LKP.PROF.PTP_UDP, LKP.PROF.RTAG, LKP.PROF.HSR,
  LKP.PROF.PRP, LKP.PROF.EPASH]

/-- The block registers of the MTR page, field by field. -/
def MTR.layout : List Field := [
  MTR.MTR_CFG.LEN_ADJ, MTR.ENTRY_ADDR.TABLE, MTR.ENTRY_ADDR.WORD, MTR.ENTRY_ADDR.INDEX,
  MTR.ENTRY_LO.DATA_LO, MTR.ENTRY_MID.DATA_MID, MTR.ENTRY_HI.ECC, MTR.ENTRY_CMD.BUSY,
  MTR.ENTRY_CMD.RESULT, MTR.ENTRY_CMD.OP, MTR.TC7_LAST.VALID, MTR.TC7_LAST.INDEX]

/-- The block registers of the BUF page, field by field. -/
def BUF.layout : List Field := [
  BUF.MGR_CTRL.HALTED, BUF.MGR_CTRL.EMPTY, BUF.MGR_CTRL.HALT, BUF.POOL_SEL.POOL,
  BUF.POOL_CFG.WARN_LVL, BUF.POOL_CFG.PRESS_LVL, BUF.POOL_CFG.RSV_LVL, BUF.POOL_CFG.HYST,
  BUF.POOL_SIZE.LINES, BUF.POOL_SIZE.COUNT, BUF.POOL_STAT.LEVEL, BUF.POOL_STAT.FREE,
  BUF.POOL_LOW.CLR, BUF.POOL_LOW.LOW, BUF.TC7_CFG.RSV_BUF, BUF.TC7_STAT.FREE,
  BUF.MIN_RSV.KIB, BUF.INPUT_SEL.EP, BUF.INPUT_STAT.BP_TC, BUF.INPUT_STAT.BELOW_MIN,
  BUF.INPUT_STAT.USAGE_KIB, BUF.BP_CFG.SEND_XON, BUF.BP_CFG.REFRESH_US, BUF.HOLD_CFG.HOLD_MS,
  BUF.HASH_CFG.AUTO, BUF.HASH_CFG.RATIO, BUF.HASH_CFG.DWELL, BUF.HASH_CFG.WINDOW,
  BUF.HASH_CFG.HOLDOFF_MS, BUF.HASH_CMD.REROLL, BUF.HASH_STAT.KEY_GEN, BUF.HASH_STAT.PENDING,
  BUF.HASH_STAT.HOT_BANK, BUF.HASH_STAT.OLD_GROUPS, BUF.BANK_SEL.BANK, BUF.BANK_STAT.LOAD,
  BUF.BANK_STAT.ACC_K, BUF.BADFREE_HANDLE.HANDLE, BUF.BADFREE_INFO.SRC, BUF.BADFREE_INFO.CAUSE,
  BUF.BADFREE_INFO.STORED_OWNER, BUF.BADFREE_INFO.STORED_GEN, BUF.BADFREE_INFO.CLAIMED_OWNER]

/-- The block registers of the VOQ page, field by field. -/
def VOQ.layout : List Field := [
  VOQ.VOQ_SEL.INDEX, VOQ.VOQ_DEPTH.BYTES, VOQ.VOQ_FRAMES.HELD, VOQ.VOQ_FRAMES.SPILLING,
  VOQ.VOQ_FRAMES.FRAMES, VOQ.VOQ_SPILL.LINES, VOQ.SPILL_CFG.EN, VOQ.SPILL_CFG.SPILL_LVL,
  VOQ.SPILL_CFG.REFILL_LVL, VOQ.SPILL_LIM.INPUT_MAX_MIB, VOQ.SPILL_STAT.REFUSING, VOQ.SPILL_STAT.NOT_READY,
  VOQ.SPILL_STAT.USED, VOQ.FLUSH_CMD.BUSY, VOQ.FLUSH_CMD.SCOPE, VOQ.FLUSH_CMD.EP]

/-- The block registers of the SCH page, field by field. -/
def SCH.layout : List Field := [
  SCH.SCH_CFG.HWM_EN, SCH.SCH_CFG.CT_EN, SCH.PORT_SEL.EP, SCH.PORT_SCH.LEN_OVH,
  SCH.PORT_SCH.TC6_MAX, SCH.PORT_SCH.CT_EN, SCH.PORT_PREEMPT.VERIFY_MS, SCH.PORT_PREEMPT.ADD_FRAG,
  SCH.PORT_PREEMPT.VERIFY_DIS, SCH.PORT_PREEMPT.PREEMPT_EN, SCH.PORT_STAT.PREEMPT_ACT, SCH.PORT_STAT.VERIFY_STATE,
  SCH.PORT_STAT.P_FRAG, SCH.ENTRY_ADDR.TABLE, SCH.ENTRY_ADDR.WORD, SCH.ENTRY_ADDR.INDEX,
  SCH.ENTRY_LO.DATA_LO, SCH.ENTRY_MID.DATA_MID, SCH.ENTRY_HI.ECC, SCH.ENTRY_CMD.BUSY,
  SCH.ENTRY_CMD.RESULT, SCH.ENTRY_CMD.OP]

/-- The block registers of the BLK page, field by field. -/
def BLK.layout : List Field := [
  BLK.BLK_CFG.LEAD_US, BLK.BLK_CFG.GRAIN, BLK.BLK_CFG.RES_MIN_NS, BLK.BLK_CYCLE.CYCLE_NS,
  BLK.BLK_STAT.BUSY, BLK.BLK_STAT.REPLACE_BUSY, BLK.BLK_STAT.LAST_STATUS, BLK.BLK_STAT.HELD,
  BLK.PORT_SEL.PORT, BLK.BLK_PORT.ALLOW, BLK.BLK_PORT.RATE, BLK.BLK_PORT.FATE,
  BLK.BLK_TC7.TC7_BYTES, BLK.BLK_TC7.TC7_RATE, BLK.REQ_ADDR.WORD, BLK.REQ_LO.DATA_LO,
  BLK.REQ_MID.DATA_MID, BLK.REQ_CMD.FULL, BLK.REQ_CMD.RESULT, BLK.REQ_CMD.FILL,
  BLK.REQ_CMD.PUSH, BLK.RSP_ADDR.WORD, BLK.RSP_LO.DATA_LO, BLK.RSP_MID.DATA_MID,
  BLK.RSP_CMD.VALID, BLK.RSP_CMD.COUNT, BLK.RSP_CMD.POP, BLK.ENTRY_ADDR.TABLE,
  BLK.ENTRY_ADDR.WORD, BLK.ENTRY_ADDR.INDEX, BLK.ENTRY_LO.DATA_LO, BLK.ENTRY_MID.DATA_MID,
  BLK.ENTRY_HI.ECC, BLK.ENTRY_CMD.BUSY, BLK.ENTRY_CMD.RESULT, BLK.ENTRY_CMD.OP]

/-- The block registers of the TAL page, field by field. -/
def TAL.layout : List Field := [
  TAL.CNT_SEL.INDEX, TAL.CNT_LO.COUNT_LO, TAL.CNT_HI.COUNT_HI, TAL.FRZ_CFG.ARM,
  TAL.FRZ_CFG.TIMED, TAL.FRZ_CFG.CANCEL, TAL.FRZ_SEC.SEC, TAL.FRZ_NS.NS,
  TAL.SNAP_STAT.VALID, TAL.SNAP_STAT.ARMED, TAL.SNAP_STAT.UNTRACE, TAL.SNAP_STAT.INCOMPLETE,
  TAL.SNAP_STAT.SEQ, TAL.SNAP_SEC.SEC, TAL.SNAP_NS.NS, TAL.SNAP_LO.COUNT_LO,
  TAL.SNAP_HI.COUNT_HI, TAL.SMP_SEL.SMP, TAL.SMP_CFG.EN, TAL.SMP_CFG.CORE,
  TAL.SMP_CFG.INDEX, TAL.SMP_PERIOD.N, TAL.SMP_STAT.PENDING, TAL.SMP_STAT.MISSED,
  TAL.WATCH_SEL.SET, TAL.WATCH_CFG.VALID, TAL.WATCH_CFG.HANDLE, TAL.SW_INC.AMOUNT,
  TAL.SW_INC.INDEX]

/-- The block registers of the LOG page, field by field. -/
def LOG.layout : List Field := [
  LOG.LOG_CFG.EN, LOG.LOG_CFG.STOP_FULL, LOG.LOG_CFG.SIZE, LOG.LOG_STAT.DRAM_OK,
  LOG.LOG_STAT.WRAPPED, LOG.LOG_STAT.STOPPED, LOG.WR_IDX.IDX, LOG.OLDEST_IDX.IDX,
  LOG.LOST_CNT.COUNT, LOG.LOG_CMD.CLEAR]

/-- The block registers of the TMB page, field by field. -/
def TMB.layout : List Field := [
  TMB.TMB_CFG.SLEW_RATE, TMB.INC_LO.INC_LO, TMB.INC_HI.INC_HI, TMB.STEP_NS.NS,
  TMB.STEP_FRAC.STEP_EN, TMB.STEP_FRAC.FRAC, TMB.SET_SEC_HI.SET_EN, TMB.SET_SEC_HI.SEC_HI,
  TMB.SET_SEC_LO.SEC_LO, TMB.SET_NS.NS, TMB.SET_FRAC.FRAC, TMB.SLEW_ADD.NS,
  TMB.SLEW_REM.NS, TMB.TIME_CMD.SNAP, TMB.TIME_SEC_HI.UNTRACE, TMB.TIME_SEC_HI.SEC_HI,
  TMB.TIME_SEC_LO.SEC_LO, TMB.TIME_NS.NS, TMB.TIME_FRAC.FRAC, TMB.TMB_STAT.TRACEABLE,
  TMB.TMB_STAT.BACKUP, TMB.TMB_STAT.NEG_STEP, TMB.TMB_STAT.SLEW_ACT, TMB.TMB_STAT.STEP_CNT,
  TMB.TRACE_CMD.CLR, TMB.TRACE_CMD.SET, TMB.COPY_STAT.LAST_LANE, TMB.COPY_STAT.RELOADS]

/-- The block registers of the REF page, field by field. -/
def REF.layout : List Field := [
  REF.REF_CFG.REVERTIVE, REF.REF_CFG.QL_MODE, REF.REF_CFG.MAJ_ACT, REF.REF_CFG.LOCK_NS,
  REF.REF_CFG.WTR_S, REF.REF_TIME.QUAL_S, REF.REF_TIME.MAJ_DWELL_S, REF.REF_TIME.LOCK_S,
  REF.REF_TIME.PTP_TMO_S, REF.SWITCH_CMD.MODE, REF.SWITCH_CMD.CLR_WTR, REF.SWITCH_CMD.ABS_CLR,
  REF.SWITCH_CMD.SLOT, REF.REF_STAT.STATE, REF.REF_STAT.SWITCHING, REF.REF_STAT.CMD_PENDING,
  REF.REF_STAT.HO_READY, REF.REF_STAT.TIME_SEL, REF.REF_STAT.SEL_VALID, REF.REF_STAT.SELECTED,
  REF.SLOT_SEL.SLOT, REF.SLOT_CFG.ENABLE, REF.SLOT_CFG.TYPE, REF.SLOT_CFG.INDEX,
  REF.SLOT_CFG.DRIFT_LIM, REF.SLOT_CFG.DWELL_S, REF.SLOT_FW.QL, REF.SLOT_FW.PTP_VALID,
  REF.SLOT_STAT.STATE, REF.SLOT_STAT.CAUSE, REF.SLOT_STAT.DRIFT_WARN, REF.SLOT_STAT.MAJ_OUT,
  REF.SLOT_STAT.TIMER_S, REF.SLOT_FREQ.PPT, REF.SLOT_DRIFT.PPT, REF.PHASE_ERR.PS,
  REF.ABS_NS.NS, REF.ABS_FRAC.FRAC, REF.HO_CFG.TEMP_SRC, REF.HO_CFG.MODEL_EN,
  REF.HO_CFG.AVG_S, REF.HO_CFG.T0, REF.HO_C1.C1, REF.HO_C2.C2,
  REF.HO_C3.C3, REF.HO_AGE.AGE, REF.HO_TEMP.TEMP, REF.HO_STAT.TEMP_STALE,
  REF.HO_STAT.ACTIVE, REF.HO_STAT.TEMP, REF.HO_CORR.CORR, REF.REFIN_FREQ.HZ,
  REF.PTP_OFS.PS]

/-- The block registers of the EVT page, field by field. -/
def EVT.layout : List Field := [
  EVT.EVT_SEL.EVT, EVT.EVT_CFG.ENABLE, EVT.EVT_CFG.FIFO_EN, EVT.EVT_CFG.SLOPE,
  EVT.EVT_CFG.TERM, EVT.EVT_CFG.HYST, EVT.EVT_CFG.THRESH, EVT.EVT_PRESCALE.N,
  EVT.EVT_DELAY.DELAY_PS, EVT.FIFO_STAT.MISSED, EVT.FIFO_STAT.LOST_CNT, EVT.FIFO_STAT.FILL,
  EVT.FIFO_CMD.CLR, EVT.FIFO_CMD.POP, EVT.FIFO_HEAD.VALID, EVT.FIFO_HEAD.EDGE,
  EVT.FIFO_HEAD.UNTRACE, EVT.FIFO_HEAD.LOST_BEFORE, EVT.FIFO_HEAD.CNT_LO, EVT.FIFO_SEC_HI.SEC_HI,
  EVT.FIFO_SEC_LO.SEC_LO, EVT.FIFO_NS.NS, EVT.FIFO_FRAC.FRAC, EVT.MEAS_CFG.START,
  EVT.MEAS_CFG.ABORT, EVT.MEAS_CFG.TIMED, EVT.MEAS_CFG.GATE_MS, EVT.MEAS_START_SEC.SEC,
  EVT.MEAS_START_NS.NS, EVT.MEAS_STAT.BUSY, EVT.MEAS_STAT.RESULT, EVT.MEAS_STAT.SHORT,
  EVT.MEAS_STAT.REF_CHG, EVT.MEAS_STAT.SLEWED, EVT.MEAS_STAT.UNTRACE, EVT.MEAS_STAT.REF_OPEN,
  EVT.MEAS_STAT.REF_CLOSE, EVT.MEAS_N.N, EVT.FREQ_INT.HZ, EVT.FREQ_FRAC.FRAC,
  EVT.RES_RMS.FS, EVT.RES_UNC.E18, EVT.EDGE_CNT.COUNT, EVT.CAL_STAT.RECAL,
  EVT.CAL_STAT.FAIL, EVT.CAL_STAT.ACTIVE_IP, EVT.CAL_STAT.CAL_CNT]

/-- The block registers of the DBL page, field by field. -/
def DBL.layout : List Field := [
  DBL.DBL_CFG.ENABLE, DBL.DBL_CFG.CYCLE, DBL.DBL_CFG.COPY, DBL.DBL_CFG.HOLD_UNTIL_READY,
  DBL.DBL_CFG.AUTO_CLAIM, DBL.DBL_CFG.CLAIM_WAIT_MS, DBL.DBL_STAT.SIDE, DBL.DBL_STAT.OWNER,
  DBL.DBL_STAT.OWN_IN, DBL.DBL_STAT.HB_OK, DBL.DBL_STAT.DL0_UP, DBL.DBL_STAT.DL1_UP,
  DBL.DBL_STAT.READY, DBL.DBL_STAT.TWIN_READY, DBL.DBL_STAT.STALE, DBL.DBL_STAT.FULL_COPY,
  DBL.DBL_STAT.HANDOVER_PEND, DBL.DBL_STAT.FOLLOW, DBL.DBL_STAT.INTERLOCK_FAULT, DBL.DBL_CMD.FULL_COPY,
  DBL.DBL_CMD.CANCEL, DBL.DBL_CMD.HANDOVER, DBL.COPY_STAT.LAST_KIB, DBL.COPY_STAT.BACKLOG_KIB,
  DBL.COPY_ERR.CRC_CNT, DBL.COPY_ERR.ACK_MISS_CNT, DBL.COPY_ERR.DIGEST_CNT, DBL.COPY_ERR.SKEW_CNT,
  DBL.DL_ASYM_PS.ASYM, DBL.TWIN_OFS.PS, DBL.OWN_CHG_SEC.SEC, DBL.OWN_CHG_NS.DIR,
  DBL.OWN_CHG_NS.NS, DBL.RED_SEL.PAIR, DBL.RED_CFG.MODE, DBL.RED_CFG.PORT_A,
  DBL.RED_CFG.PORT_B, DBL.ENTRY_ADDR.TABLE, DBL.ENTRY_ADDR.INDEX, DBL.ENTRY_LO.DATA_LO,
  DBL.ENTRY_MID.DATA_MID, DBL.ENTRY_HI.ECC, DBL.ENTRY_CMD.BUSY, DBL.ENTRY_CMD.RESULT,
  DBL.ENTRY_CMD.OP]

/-- The block registers of the SYN page, field by field. -/
def SYN.layout : List Field := [
  SYN.SYN_SEL.SYN, SYN.SYN_CFG.ENABLE, SYN.SYN_CFG.DITHER_AMP, SYN.SYN_CFG.ACTIVE,
  SYN.SYN_CFG.SEED, SYN.PLAN_SEL.PLAN, SYN.PLAN_N.BAND_VALID, SYN.PLAN_N.BAND,
  SYN.PLAN_N.N_INT, SYN.PLAN_NUM.NUM, SYN.PLAN_DEN.DEN, SYN.SYN_CMD.SEARCH,
  SYN.SYN_CMD.FORGET, SYN.SYN_STAT.LOCK, SYN.SYN_STAT.HOPPING, SYN.SYN_STAT.SEARCHING,
  SYN.SYN_STAT.TUNE_LIMIT, SYN.SYN_STAT.ACTIVE_NOW, SYN.SYN_STAT.BAND_NOW, SYN.SYN_STAT.BAND_VALID,
  SYN.SYN_TUNE.TUNE, SYN.LSY_STAT.LOCK, SYN.LSY_STAT.PPM_OUT, SYN.LSY_STAT.OFS_PPB]

/-- The block registers of the OUT page, field by field. -/
def OUT.layout : List Field := [
  OUT.OUT_SEL.OUT, OUT.OUT_CFG.ENABLE, OUT.OUT_CFG.EXCL, OUT.OUT_CFG.SRC,
  OUT.OUT_CFG.FMT, OUT.OUT_CFG.SWING, OUT.OUT_CFG.P_V33, OUT.OUT_CFG.N_V33,
  OUT.OUT_CFG.N_LEG, OUT.OUT_CFG.IDLE, OUT.OUT_CFG.SQUELCH, OUT.OUT_DIV.D,
  OUT.OUT_SKEW.SKEW, OUT.OUT_PHASE.PHASE_NS, OUT.PULSE_PERIOD.PERIOD_NS, OUT.PULSE_WIDTH.WIDTH_NS,
  OUT.OUT_ALIGN.ALIGN, OUT.OUT_ALIGN.WALK, OUT.OUT_ALIGN.CANCEL, OUT.OUT_STAT.DRIVING,
  OUT.OUT_STAT.ALIGNED, OUT.OUT_STAT.ALIGN_PENDING, OUT.OUT_STAT.HELD_EXCL, OUT.OUT_STAT.WAIT_SRC,
  OUT.OUT_STAT.REPEAT_S, OUT.ALIGN_ERR.PS, OUT.ALIGN_SEC.SEC, OUT.ALIGN_NS.NS]

/-- The block registers of the DRM page, field by field. -/
def DRM.layout : List Field := [
  DRM.DRM_STAT.TRAINED, DRM.DRM_STAT.SELF_REFRESH, DRM.DRM_STAT.TRAIN_TRY, DRM.DRM_STAT.RATE_MTS,
  DRM.ECC_STAT.CORR, DRM.ECC_STAT.UNCORR, DRM.ECC_ADDR.LINE, DRM.TEST_CFG.FULL,
  DRM.TEST_CFG.PATTERN, DRM.TEST_CMD.ABORT, DRM.TEST_CMD.START, DRM.TEST_STAT.BUSY,
  DRM.TEST_STAT.PASS, DRM.TEST_STAT.FAIL, DRM.TEST_STAT.ERR_CNT, DRM.TEST_ERR.LINE]

/-- The block registers of the LNK page, field by field. -/
def LNK.layout : List Field := [
  LNK.LNK_CFG.RATE, LNK.LNK_CFG.FEC, LNK.LNK_CFG.MEDIA, LNK.LNK_CFG.ENABLE,
  LNK.LNK_STATE.RETRAIN_CNT, LNK.LNK_STATE.RATE_ACT, LNK.LNK_STATE.FEC_ACT, LNK.LNK_STATE.IDLE_ACT,
  LNK.LNK_STATE.LAT_VALID, LNK.LNK_STATE.FEC_LOCK, LNK.LNK_STATE.PCS_LOCK, LNK.LNK_STATE.LOL,
  LNK.LNK_STATE.LOS, LNK.LNK_STATE.STATE, LNK.RX_LAT.VALID, LNK.RX_LAT.SEQ,
  LNK.RX_LAT.LAT_PS, LNK.TX_LAT.VALID, LNK.TX_LAT.SEQ, LNK.TX_LAT.LAT_PS,
  LNK.LAT_DETAIL.GB_RX, LNK.LAT_DETAIL.GB_TX, LNK.LAT_DETAIL.A_RX_PS, LNK.LAT_DETAIL.A_TX_PS,
  LNK.LOS_CFG.ASSERT_LVL, LNK.LOS_CFG.DEASSERT_LVL, LNK.LOS_CFG.ASSERT_TIME, LNK.LOS_CFG.DEASSERT_TIME,
  LNK.LOL_CFG.UNLOCK_PPM, LNK.LOL_CFG.RELOCK_PPM, LNK.EYE.WIDTH, LNK.EYE.HEIGHT,
  LNK.EYE.WORST_EYE, LNK.EYE.REFRESH, LNK.ADAPT_CTRL.RETRAIN, LNK.ADAPT_CTRL.CAL_FREEZE,
  LNK.ADAPT_CTRL.CTLE_FREEZE, LNK.ADAPT_CTRL.DFE_FREEZE, LNK.DFE_TAP.TAP_D, LNK.DFE_TAP.TAP_C,
  LNK.DFE_TAP.TAP_B, LNK.DFE_TAP.TAP_A, LNK.TRIM_SEL.INDEX, LNK.TRIM_VAL.OVERRIDE,
  LNK.TRIM_VAL.VALUE, LNK.TX_EQ.PRE, LNK.TX_EQ.MAIN, LNK.TX_EQ.POST,
  LNK.IDLE_CFG.MODE, LNK.IDLE_CFG.ENTRY_DELAY, LNK.LOOP_CFG.MODE, LNK.PRBS_CFG.CLR,
  LNK.PRBS_CFG.ERR_INJECT, LNK.PRBS_CFG.INVERT, LNK.PRBS_CFG.PATTERN, LNK.PRBS_CFG.CHK_EN,
  LNK.PRBS_CFG.GEN_EN, LNK.PRBS_STAT.SAT, LNK.PRBS_STAT.LOCK, LNK.PRBS_ERR.ERR_CNT,
  LNK.PRBS_BITS.BIT_CNT, LNK.PD_PHASE.PHASE]

/-- The block registers of the PRT page, field by field. -/
def PRT.layout : List Field := [
  PRT.PORT_CFG.MAX_FRAME, PRT.PORT_CFG.PFC_EN, PRT.PORT_CFG.FC_MODE, PRT.PORT_CFG.TC7_EN,
  PRT.PORT_CFG.ENABLE, PRT.PORT_STAT.RATE, PRT.PORT_STAT.LINK_UP, PRT.PORT_STAT.TEST,
  PRT.PORT_STAT.SOFT_STAMPS, PRT.PORT_STAT.HOLD, PRT.PORT_STAT.IDLE_BLOCKED, PRT.PORT_STAT.PAUSED,
  PRT.PORT_STAT.PFC_RX, PRT.LINK_CHG_SEC.SEC, PRT.LINK_CHG_NS.DIR, PRT.LINK_CHG_NS.NS]

/-- The block registers of the GCL page, field by field. -/
def GCL.layout : List Field := [
  GCL.GCL_CFG.ENABLE, GCL.GCL_STAT.ACTIVE, GCL.GCL_STAT.SWAP_PENDING, GCL.GCL_STAT.BLOCKER_OWN,
  GCL.GCL_STAT.MAC_HOLD, GCL.GCL_STAT.GATES, GCL.GCL_STAT.ENTRY, GCL.BANK_SEL.BANK,
  GCL.BANK_CYCLE.CYCLE_NS, GCL.BANK_PHASE.PHASE_NS, GCL.BANK_LEN.LEN, GCL.SWAP_SEC.SEC,
  GCL.SWAP_NS.NS, GCL.SWAP_CTRL.CANCEL, GCL.SWAP_CTRL.SWAP, GCL.LAST_SWAP_SEC.SEC,
  GCL.LAST_SWAP_NS.NS, GCL.LAUNCH_CFG.LATE_MAX_NS, GCL.LAUNCH_STAT.HWM_CLR, GCL.LAUNCH_STAT.HWM,
  GCL.LAUNCH_STAT.PENDING, GCL.WINMAX_SEL.CLASS, GCL.WINMAX.WIN_NS, GCL.ENTRY_ADDR.BANK,
  GCL.ENTRY_ADDR.INDEX, GCL.ENTRY_LO.DATA_LO, GCL.ENTRY_MID.DATA_MID, GCL.ENTRY_HI.ECC,
  GCL.ENTRY_CMD.BUSY, GCL.ENTRY_CMD.RESULT, GCL.ENTRY_CMD.OP]

/-- The block registers of the TSU page, field by field. -/
def TSU.layout : List Field := [
  TSU.TSU_CFG.SOFT_TC, TSU.TSU_CFG.ONE_STEP_EN, TSU.TSU_CFG.TC_EN, TSU.ASYM_PS.ASYM,
  TSU.TXF_STAT.LOST_CNT, TSU.TXF_STAT.FILL, TSU.TXF_CMD.CLR, TSU.TXF_CMD.POP,
  TSU.TXF_TAG.VALID, TSU.TXF_TAG.SOFT, TSU.TXF_TAG.UNTRACE, TSU.TXF_TAG.LOST_BEFORE,
  TSU.TXF_TAG.TAG, TSU.TXF_SEC_HI.SEC_HI, TSU.TXF_SEC_LO.SEC_LO, TSU.TXF_NS.NS,
  TSU.TXF_FRAC.FRAC, TSU.TC_SKIP.COUNT]

/-- The fields of a page type (R402: no page has others). -/
def layoutOf : PageType → List Field
  | .glb => GLB.layout
  | .rst => RST.layout
  | .opt => OPT.layout
  | .sec => SEC.layout
  | .svc => SVC.layout
  | .mbx => MBX.layout
  | .pci => PCI.layout
  | .crn => CRN.layout
  | .fab => FAB.layout
  | .lkp => LKP.layout
  | .mtr => MTR.layout
  | .buf => BUF.layout
  | .voq => VOQ.layout
  | .sch => SCH.layout
  | .blk => BLK.layout
  | .tal => TAL.layout
  | .log => LOG.layout
  | .tmb => TMB.layout
  | .ref => REF.layout
  | .evt => EVT.layout
  | .dbl => DBL.layout
  | .syn => SYN.layout
  | .out => OUT.layout
  | .drm => DRM.layout
  | .lnk => LNK.layout
  | .prt => PRT.layout
  | .gcl => GCL.layout
  | .tsu => TSU.layout

/-- The page type's number in PAGE_ID.TYPE (R393). -/
def PageType.num : PageType → Nat
  | .glb => 0x1
  | .rst => 0x2
  | .opt => 0x3
  | .sec => 0x1c
  | .svc => 0x16
  | .mbx => 0x15
  | .pci => 0x17
  | .crn => 0x18
  | .fab => 0x6
  | .lkp => 0x7
  | .mtr => 0x8
  | .buf => 0x9
  | .voq => 0xa
  | .sch => 0xb
  | .blk => 0xd
  | .tal => 0x19
  | .log => 0x1a
  | .tmb => 0xe
  | .ref => 0x10
  | .evt => 0x13
  | .dbl => 0x14
  | .syn => 0x11
  | .out => 0x12
  | .drm => 0x1b
  | .lnk => 0x4
  | .prt => 0x5
  | .gcl => 0xc
  | .tsu => 0xf

/-- The page number of instance 0 (R393). -/
def PageType.base : PageType → Nat
  | .glb => 0x0
  | .rst => 0x1
  | .opt => 0x2
  | .sec => 0x3
  | .svc => 0x8
  | .mbx => 0x9
  | .pci => 0xc
  | .crn => 0xd
  | .fab => 0x10
  | .lkp => 0x11
  | .mtr => 0x12
  | .buf => 0x13
  | .voq => 0x14
  | .sch => 0x15
  | .blk => 0x16
  | .tal => 0x17
  | .log => 0x18
  | .tmb => 0x20
  | .ref => 0x21
  | .evt => 0x22
  | .dbl => 0x23
  | .syn => 0x24
  | .out => 0x25
  | .drm => 0x26
  | .lnk => 0x40
  | .prt => 0x80
  | .gcl => 0xc0
  | .tsu => 0x100

/-- The number of instances (R393). -/
def PageType.instances : PageType → Nat
  | .glb => 1
  | .rst => 1
  | .opt => 1
  | .sec => 1
  | .svc => 1
  | .mbx => 2
  | .pci => 1
  | .crn => 1
  | .fab => 1
  | .lkp => 1
  | .mtr => 1
  | .buf => 1
  | .voq => 1
  | .sch => 1
  | .blk => 1
  | .tal => 1
  | .log => 1
  | .tmb => 1
  | .ref => 1
  | .evt => 1
  | .dbl => 1
  | .syn => 1
  | .out => 1
  | .drm => 1
  | .lnk => 51
  | .prt => 48
  | .gcl => 48
  | .tsu => 49

/-- PAGE_CAPS.ISLAND (R394): 0 always-on, 1 keep-alive, 2 time base, 3 lane, 4 Felt, 5 PCIe, 6 service cores, 7 Crown.
-/
def PageType.island : PageType → Nat
  | .glb => 0
  | .rst => 0
  | .opt => 0
  | .sec => 0
  | .svc => 6
  | .mbx => 6
  | .pci => 5
  | .crn => 7
  | .fab => 4
  | .lkp => 4
  | .mtr => 4
  | .buf => 4
  | .voq => 4
  | .sch => 4
  | .blk => 4
  | .tal => 4
  | .log => 4
  | .tmb => 2
  | .ref => 2
  | .evt => 2
  | .dbl => 2
  | .syn => 1
  | .out => 1
  | .drm => 1
  | .lnk => 3
  | .prt => 3
  | .gcl => 3
  | .tsu => 3

/-- Every page type, in the order of the page index (R393). -/
def PageType.all : List PageType :=
  [.glb, .rst, .opt, .sec, .svc, .mbx, .pci, .crn, .fab, .lkp,
   .mtr, .buf, .voq, .sch, .blk, .tal, .log, .tmb, .ref, .evt,
   .dbl, .syn, .out, .drm, .lnk, .prt, .gcl, .tsu]

/-- The page of a number (R393), with its instance; none for a number the index does not list. -/
def pageOf (n : Nat) : Option (PageType × Nat) :=
  go n PageType.all
where
  go (n : Nat) : List PageType → Option (PageType × Nat)
    | [] => none
    | t :: ts => if t.base ≤ n ∧ n < t.base + t.instances then some (t, n - t.base) else go n ts

/-- Page number of GLB. -/
abbrev GLB.page : Nat := 0x0
/-- Page number of RST. -/
abbrev RST.page : Nat := 0x1
/-- Page number of OPT. -/
abbrev OPT.page : Nat := 0x2
/-- Page number of SEC. -/
abbrev SEC.page : Nat := 0x3
/-- Page number of SVC. -/
abbrev SVC.page : Nat := 0x8
/-- Page number of MBX[i]. -/
abbrev MBX.page (i : Nat) : Nat := 0x9 + i
/-- Page number of PCI. -/
abbrev PCI.page : Nat := 0xc
/-- Page number of CRN. -/
abbrev CRN.page : Nat := 0xd
/-- Page number of FAB. -/
abbrev FAB.page : Nat := 0x10
/-- Page number of LKP. -/
abbrev LKP.page : Nat := 0x11
/-- Page number of MTR. -/
abbrev MTR.page : Nat := 0x12
/-- Page number of BUF. -/
abbrev BUF.page : Nat := 0x13
/-- Page number of VOQ. -/
abbrev VOQ.page : Nat := 0x14
/-- Page number of SCH. -/
abbrev SCH.page : Nat := 0x15
/-- Page number of BLK. -/
abbrev BLK.page : Nat := 0x16
/-- Page number of TAL. -/
abbrev TAL.page : Nat := 0x17
/-- Page number of LOG. -/
abbrev LOG.page : Nat := 0x18
/-- Page number of TMB. -/
abbrev TMB.page : Nat := 0x20
/-- Page number of REF. -/
abbrev REF.page : Nat := 0x21
/-- Page number of EVT. -/
abbrev EVT.page : Nat := 0x22
/-- Page number of DBL. -/
abbrev DBL.page : Nat := 0x23
/-- Page number of SYN. -/
abbrev SYN.page : Nat := 0x24
/-- Page number of OUT. -/
abbrev OUT.page : Nat := 0x25
/-- Page number of DRM. -/
abbrev DRM.page : Nat := 0x26
/-- Page number of LNK[i]. -/
abbrev LNK.page (i : Nat) : Nat := 0x40 + i
/-- Page number of PRT[i]. -/
abbrev PRT.page (i : Nat) : Nat := 0x80 + i
/-- Page number of GCL[i]. -/
abbrev GCL.page (i : Nat) : Nat := 0xc0 + i
/-- Page number of TSU[i]. -/
abbrev TSU.page (i : Nat) : Nat := 0x100 + i

end Sys2Proof.Machine
end

