-- ==== Sys2Proof/Machine/State.lean ====
section
/-!
DEFINITION. Machine/State.lean: everything the spec gives the machine, as plain data.
Registers live in one sparse table (`regs`), each field in one home; what a chapter names that no register shows
(queues, frames, tables, images, interlocks) stands in the structures below, chapter by chapter. Every table is sparse:
what an unlisted key holds is said once, where the table is read (Machine/Regs.lean and the family files).
-/
namespace Sys2Proof.Machine

/-- No command stops the machine: the spec gives every command an effect and records errors in registers (R399).
`noFault` is raised by no definition (safe). -/
inductive Fault where
  | noFault
  deriving DecidableEq, Repr

/-- `notModelled` is the dispatcher's answer for a command without a meaning (safe: it claims nothing). -/
inductive Refusal where
  | notModelled (mnemonic : String)
  deriving DecidableEq, Repr

/-- What leaves the device at its pins, links and buses (DESIGN CHOICE, log entry 5: the model keeps the list; the
device only emits). -/
inductive Output where
  /-- a frame, or its part, that an output sends: endpoint, class, length, header as sent, FCS inverted, time -/
  | frame (ep tc len : Nat) (hdr : List (BitVec 8)) (badFcs : Bool) (time : Nat)
  /-- XOFF, PAUSE or XON of a port: priorities or classes named, and quanta -/
  | pause (port : Nat) (pfc : Bool) (mask quanta : Nat)
  /-- ordered sets, bursts and other line signals of a lane -/
  | line (lane : Nat) (what : String) (value : Nat)
  /-- an interrupt vector of a PCIe function, or a core interrupt -/
  | vector (fn vec : Nat)
  | coreInt (core : Nat) (what : String)
  /-- a voltage commanded of the core regulator, in units of 0.01 mV (R73): by AVSBus to a rail, or by PMBus to an
  address in the regulator's VOUT_MODE format -/
  | regulator (pmbus : Bool) (dest format mv : Nat)
  /-- a clock or pulse output's driver going on or off; off, its idle state is low or high impedance (R260) -/
  | driver (output : Nat) (on hiZ : Bool)
  /-- a pin: name and level -/
  | pin (name : String) (level : Bool)
  /-- received data that a far-end loop-back of a lane sends on (R60): 0 LINE, 1 PCS-far -/
  | looped (lane far : Nat) (bytes : List (BitVec 8))
  /-- data written to the host's memory -/
  | hostMem (addr : Nat) (bytes : List (BitVec 8))
  /-- a value returned to an accessor or a bus master -/
  | reply (dest : String) (words : List Nat)
  /-- what the Doublet link carries beside the copy: mailbox notices, digests -/
  | doublet (what : String) (words : List Nat)
  /-- a Doublet copy, or an acknowledgement -/
  | copy (lane : Nat) (ack : Bool) (hdr : TwinHeader) (items : List CopyItem)
  deriving DecidableEq, Repr

/-- A control transfer waiting at a crossing whose island clock has stopped (R78, R80). -/
structure Held where
  island : Nat
  acc : Accessor
  page : Nat
  off : Nat
  value : Word
  write : Bool
  /-- a read by the I2C bus (R337), which takes no notice from a mailbox -/
  bus : Bool
  /-- what the sender of a mailbox notice has written where the notice points (R313) -/
  payload : List (BitVec 8)
  deriving DecidableEq, Repr

/-- What a lane's state machine remembers beside its registers (R41, R433, R57, R58, R62). -/
structure Lane where
  /-- position in the search order of R41 -/
  tryIdx : Nat
  /-- the state was entered from the search (R41) -/
  fromSearch : Bool
  /-- LOL has been found clear since the entry to CDR_ACQUIRE (R433) -/
  lolOk : Bool
  /-- an idle-entry request was sent and its reply is awaited: the kind asked for (0 none, 1 FAST, 2 DEEP) -/
  reqSent : Nat
  /-- the idle kind entered -/
  idleKind : Nat
  /-- the last refresh burst, or the entry to idle (R58) -/
  refreshAt : Nat
  /-- compared bits below 2^20 that BIT_CNT does not show yet (R62) -/
  prbsBits : Nat
  deriving DecidableEq, Repr

/-- The pace monitors' counters and the supply loop (R71-R75). -/
structure Pace where
  /-- time of the first of the consecutive readings below FLOOR (R202) -/
  lowAt : Nat
  /-- consecutive readings below FLOOR, and at or above FLOOR + 5 -/
  low : Nat
  ok : Nat
  /-- lowest MIN during the loop period -/
  periodMin : Option Nat
  /-- commanded voltage in units of 0.01 mV -/
  v : Nat
  /-- last acknowledged voltage in the same units (R74) -/
  acked : Nat
  /-- a regulator write waits for its acknowledgement -/
  waiting : Bool
  /-- the regulator's VOUT_MODE, as read at the loop's start (R73) -/
  voutMode : Nat
  /-- consecutive readings at or above TARGET, up to the 100 that the pace check asks for (R75) -/
  good : Nat
  deriving DecidableEq, Repr

/-- One meter's state (R105, R107): both buckets in 2^-20 byte, the last time, the counts of frames. -/
structure Meter where
  tc : Nat
  tp : Nat
  last : Nat
  green : Nat
  yellow : Nat
  red : Nat
  deriving DecidableEq, Repr

/-- What runs of a stream gate beside its entry (R109, R110): the entry it still runs and until when, the octets passed,
the entry and cycle start they were passed in, and the latest time at which the gate has run. -/
structure GateRun where
  old : Option (BitVec 64 × Nat)
  octets : Int
  entry : Nat
  cycle : Nat
  seen : Nat
  deriving DecidableEq, Repr

/-- A punt policer (R112): frames held, in units of a frame divided by the units of one second, and the last time. -/
structure PuntBucket where
  level : Nat
  last : Nat
  deriving DecidableEq, Repr

/-- A staged operation (R113, R431): table number, index, the words to be written, and whether it is a keyed insert,
whose way is reserved, or a delete. -/
structure StageOp where
  table : Nat
  index : Nat
  words : List (BitVec 64)
  insert : Bool
  delete : Bool
  deriving DecidableEq, Repr

/-- A range of indices of a table that is retired while any epoch of `mask` has not drained (R115). -/
structure Retired where
  table : Nat
  lo : Nat
  len : Nat
  mask : Nat
  deriving DecidableEq, Repr

/-- A learn request (R101). -/
structure LearnReq where
  fid : Nat
  mac : Nat
  ep : Nat
  deriving DecidableEq, Repr

/-- What an accessor's entry window holds beside its registers (R400): the words captured by a read, and the words
collected for a multi-word write. -/
structure WinBuf where
  captured : List Native
  parts : Tbl Data
  deriving DecidableEq, Repr

/-- A buffer handle (R121) without its owner, which the record holds. -/
structure Handle where
  pool : Nat
  index : Nat
  gen : Nat
  owner : Nat
  deriving DecidableEq, Repr

/-- The buffer manager's record of one buffer (R121, R122): generation, owner (0x7F free), whether it was taken from
the TC7 reserve (R128), and whether its handle was lost with its ring slot (R129). -/
structure BufRec where
  gen : Nat
  owner : Nat
  tc7 : Bool
  lost : Bool
  deriving DecidableEq, Repr

/-- A charge made when a frame passed a meter or a gate, to be refunded at its end (R108). -/
structure Charge where
  index : Nat
  amount : Int
  /-- meter: green (took from both buckets); gate: unused -/
  both : Bool
  /-- gate: the list entry and the cycle's start in which the charge was made -/
  entry : Nat
  cycle : Nat
  deriving DecidableEq, Repr

/-- One frame inside the device with its descriptor (R131, R221, R114). -/
structure Frame where
  /-- input endpoint (R7); 0x3C stands for a Crown template launch (R122) -/
  input : Nat
  /-- the bytes received so far, without the FCS -/
  hdr : List (BitVec 8)
  /-- bytes received so far; the frame's length, FCS included, once `ended` (R5) -/
  len : Nat
  ended : Bool
  /-- the length the buffer was chosen for (R125), when the frame had not ended -/
  hint : Option Nat
  tc : Nat
  colour : Nat
  /-- VLAN, PCP and DEI of the frame, and whether it came with a tag that its profile parsed -/
  vid : Nat
  pcp : Nat
  dei : Bool
  tagged : Bool
  /-- TPID of the tag it has or is given -/
  tpid : Nat
  handle : Option Nat
  /-- number taken at ingress (R293) and its encoding: 0 R-tag, 1 HSR tag, 2 PRP trailer -/
  number : Option (Nat × Nat)
  /-- offsets of the R-tag and the HSR tag it came with, and whether a PRP trailer ends it -/
  rtagAt : Option Nat
  hsrAt : Option Nat
  prpTail : Bool
  /-- the recovery entry removes tag or trailer (R294 STRIP) -/
  strip : Bool
  epoch : Nat
  aged : Bool
  /-- descriptor stamp (R221): full time, UNTRACE and source number -/
  stamp : Nat
  untrace : Bool
  src : Nat
  /-- soft receive stamp (R220) -/
  soft : Bool
  /-- residual destinations (R134) with the class each is queued in (R112) -/
  dests : List (Nat × Nat)
  mcast : Bool
  /-- destinations it leaves to without, and with, its tag (R435); at the others it is unchanged -/
  untag : List Nat
  retag : List Nat
  /-- punt reasons it is delivered under, with the endpoint (R112) -/
  reasons : List (Nat × Nat)
  buf : Option Handle
  startBank : Nat
  spilled : Bool
  /-- launch time in units of 2^-40 ns (R170), given as the frame reaches its launch queue -/
  launch : Option Nat
  /-- the launch time its request named: low 32 bits of the seconds, nanoseconds (R169, R429) -/
  launchReq : Option (Nat × Nat)
  /-- PTP event message (R89): its transport (0 none, 2 Layer 2, 4 IPv4, 6 IPv6) and the offset of its header -/
  ptp : Nat
  ptpOfs : Nat
  /-- the request of EP48 or EP49 (R223, R334): tag, stamp wanted, one-step wanted -/
  txTag : Nat
  txStamp : Bool
  oneStep : Bool
  /-- ports at which DEFERRED has been counted for it (R180) -/
  deferred : List Nat
  deriving DecidableEq, Repr

/-- A frame that an input is receiving (R97, R108, R342): its number while it is in the device, the bytes so far, the
charges to refund, the handle that passed step 10, the limit of its filter, and the handle whose recovery entry waits
for the trailer at the frame's end (R294). -/
structure Rx where
  frame : Option Nat
  bytes : Nat
  meter : Option Charge
  gate : Option Charge
  trip : Option Nat
  filter : Option Nat
  maxSdu : Nat
  judge : Option Nat
  stamp : Nat
  deriving DecidableEq, Repr

/-- One virtual output queue (R134, R140): frame numbers in SRAM and in the DRAM tail, oldest first. -/
structure Voq where
  sram : List Nat
  tail : List Nat
  spilling : Bool
  /-- frames in SRAM that the spill engine is copying (R140) -/
  copying : List Nat
  deriving DecidableEq, Repr

/-- One pool (R129): handles in the cache, handles in flight from the ring, and the levels that stand (R136). -/
structure Pool where
  cached : Nat
  inFlight : Nat
  warn : Bool
  press : Bool
  stop : Bool
  deriving DecidableEq, Repr

/-- A frame in transmission at an output (R147): since when its present fragment, bytes sent in earlier fragments, ended
bad (R165), the transmit stamp of its first bit (R216), and whether that stamp is soft (R220) and untraceable (R25). -/
structure Tx where
  frame : Nat
  tc : Nat
  cutThrough : Bool
  start : Nat
  sent : Nat
  bad : Bool
  stamp : Nat
  soft : Bool
  untrace : Bool
  deriving DecidableEq, Repr

/-- One output (R147, R159). -/
structure Output_ where
  tx : Option Tx
  preempted : Option Tx
  verifyTries : Nat
  deriving DecidableEq, Repr


/-- What a node of the hierarchy or a VOQ holds for its shaper and its share (R153 to R155): credit in bytes / (8000 ×
2^40), tag and virtual time of 40 bits, backlogged, and free of shaper, gate, pause and hold when last looked at,
output. -/
structure Node where
  credit : Int
  tag : Nat
  v : Nat
  backlog : Bool
  elig : Bool
  out : Nat
  deriving DecidableEq, Repr
/-- What a port's gate control unit holds beside its registers (R176 to R178): the instant from which a pending swap is
taken, the ENABLE that waits with it, whether the Blocker asked for it, whether it releases the port, and whether the
active bank is executed. -/
structure GclPort where
  swapAt : Option Nat
  waitEnable : Option Bool
  blocker : Bool
  release : Bool
  on : Bool
  deriving DecidableEq, Repr

/-- One entry of a transmit timestamp FIFO (R223). -/
structure TxfEntry where
  tag : Nat
  time : Nat
  soft : Bool
  untrace : Bool
  lostBefore : Bool
  deriving DecidableEq, Repr

/-- The Crown time capture (R226): the capture, what a read of the nanoseconds latched, and the last captured edge. -/
structure Capture where
  time : Nat
  seq : Nat
  untrace : Bool
  overrun : Bool
  ignored : Nat
  latchedTime : Nat
  latchedSeq : Nat
  lastEdge : Option Nat
  deriving DecidableEq, Repr

/-- What the selector keeps of a slot beside its registers (R230, R231): the failure conditions that stand, one bit
per CAUSE; whether the next qualification is a first one; the last 1 s value in ppt; the filtered value in 2^-16 ppt;
whether a value has been measured; the filtered drift in 2^-16 ppt, once there is a prediction clock. -/
structure Slot where
  causes : Nat
  first : Bool
  y : Int
  filt : Int
  measured : Bool
  drift : Option Int
  deriving DecidableEq, Repr

/-- A switch command (R235, R241). -/
structure RefCmd where
  mode : Nat
  slot : Nat
  clrWtr : Bool
  absClr : Bool
  deriving DecidableEq, Repr

/-- A set of holdover coefficients as the HO registers code them (R243), with the fit's residual. -/
structure HoSet where
  t0 : Int
  c1 : Int
  c2 : Int
  c3 : Int
  age : Int
  residual : Nat
  deriving DecidableEq, Repr

/-- One entry of an event input's FIFO (R272): its stamp with the input's source number (R269), and what goes with it.
-/
structure EvtEntry where
  time : Nat
  src : Nat
  rising : Bool
  cnt : Nat
  untrace : Bool
  lostBefore : Bool
  deriving DecidableEq, Repr

/-- A measurement (R274, R275): opening, whether the gate has opened and closed, its length in units of 2^-40 ns, the
first stamp in 2^-16 ns and its count, and the sums of the fit relative to them. -/
structure Meas where
  openAt : Nat
  opened : Bool
  closed : Bool
  gate : Nat
  t0 : Int
  k0 : Nat
  n : Nat
  sk : Int
  skk : Int
  st : Int
  skt : Int
  stt : Int
  deriving DecidableEq, Repr

/-- An event input beside its registers (R268 to R274): edges counted since enable, the last stamped edge, blanking, the
FIFO, whether a stamp was discarded since the last entry, the measurement. -/
structure EvtIn where
  count : Nat
  lastStamped : Option Nat
  /-- the stamp that edge took (R269) -/
  lastStamp : Option Nat
  blankTo : Option Nat
  fifo : List EvtEntry
  lost : Bool
  meas : Option Meas
  deriving DecidableEq, Repr

/-- A handover in progress on the owner (R298): the cycle end E1 that carried the notice, and whether it was accepted.
-/
structure Handover where
  e1 : Option Nat
  accepted : Bool
  deriving DecidableEq, Repr

/-- What the Doublet controller keeps beside its registers (R280 to R299). -/
structure Dbl where
  /-- level of DBL_HB_OUT -/
  hbOut : Bool
  /-- the last edge on DBL_HB_IN -/
  hbLast : Nat
  /-- the heartbeat is known absent: 2 µs without an edge have passed -/
  hbAbsent : Bool
  /-- since when the claim row of R282 has held -/
  claimSince : Option Nat
  /-- handover accepted as standby: the cycle end E1 of its notice -/
  accepted : Option Nat
  /-- handover pending as owner -/
  hand : Option Handover
  /-- the twin reported the same side (R280) -/
  sameSide : Bool
  /-- the twin reported OWNER = 1 while this device owns (R284) -/
  dual : Bool
  /-- owner: content waiting to be sent, what the last copy carried, whether it awaits its acknowledgement -/
  queue : List CopyItem
  sent : List CopyItem
  awaiting : Bool
  /-- owner: the end of the last cycle, the Blocker content last queued, and what it was before the commits of an
  instant -/
  lastEnd : Nat
  blkSent : Option CopyItem
  blkBefore : Option (Nat × CopyItem)
  /-- standby: a good copy came in this cycle, cycle ends without one, a full copy has been completed -/
  got : Bool
  missed : Nat
  complete : Bool
  /-- standby: the last copy ended within an item -/
  part : Bool
  /-- standby: TABLES and BLK items that wait for a cycle end, and FRER items to compare -/
  waiting : List CopyItem
  frer : List CopyItem
  /-- standby: the mirror of the owner's REF state -/
  mirror : Option CopyItem
  /-- stamps of R290: t2 and t3 here, t1 and t4 as owner -/
  t2 : Nat
  t3 : Nat
  t1 : Nat
  t4 : Nat
  /-- owner: a full copy has been asked for by the link's return and not yet queued (R291) -/
  needFull : Bool
  /-- no full copy has been sent since the controller's reset (R291) -/
  fresh : Bool
  /-- owner, a full copy asked for: what the staged tables held before the commits of an instant (R33) -/
  tabBefore : Option (Nat × CopyItem)
  /-- standby: the cycle whose copy was taken last (R285) -/
  taken : Option Nat
  /-- standby: the state of the twin's firmware servo (R288) -/
  servo : Nat
  /-- until when a soft reset stops the heartbeat (R283) -/
  hbFrom : Nat
  deriving DecidableEq, Repr

/-- What firmware has still to send on a mailbox channel (R313): the notice, and its payload's bytes. -/
structure FwMsg where
  notice : Data
  payload : List (BitVec 8)
  deriving DecidableEq, Repr

/-- A Blocker request (R182): its four words, and, of one that came by mailbox, the channel and the command's notice. -/
structure BlkReq where
  words : List Data
  origin : Option (Nat × Data)
  deriving DecidableEq, Repr

/-- Where a reservation was placed (R185): the slot's start before reduction, each port with its window's length, the
launch offset, and the instant of the swap. -/
structure Place where
  s : Nat
  ports : List (Nat × Nat)
  ofs : Nat
  swap : Nat
  deriving DecidableEq, Repr

/-- An image in a flash slot (R323): its bytes, its version as FW_VER has it, whether its CRC and its signature check,
whether it has been confirmed. The format of its continuity record (R325) is one of Config. -/
structure FlashImage where
  data : List (BitVec 8)
  version : Word
  crcOk : Bool
  sigOk : Bool
  confirmed : Bool
  deriving DecidableEq, Repr

/-- What an update and a restart keep beside the SVC registers (R323 to R326): the size that BEGIN gave, the bytes
received, the image verified and staged, the slot the cores start next (0 boot ROM, 1 A, 2 B) and whether as a trial,
the confirmation time asked for in s, when it ends, when the services must run, the slot that ran before the trial, and
the bytes of the image that wrote the continuity record (R325), whose format the next one restores or not. -/
structure Update where
  size : Nat
  data : List (BitVec 8)
  staged : Option FlashImage
  target : Nat
  trial : Bool
  confirmS : Nat
  confirmBy : Option Nat
  startBy : Option Nat
  prev : Nat
  record : List (BitVec 8)
  deriving DecidableEq, Repr

/-- What a DMA ring keeps beside its registers (R332, R333): write-backs since the last vector, and the time of the
first of them. -/
structure Ring where
  unsignalled : Nat
  since : Option Nat
  deriving DecidableEq, Repr

/-- A transmit descriptor that the device has taken and not yet written back (R333, R334): its ring (16 for one of a
ring enabled anew since), the frame that it waits for or the STATUS it has, its word 1 and where that stands. -/
structure TxTaken where
  ring : Nat
  frame : Option Nat
  status : Nat
  w1 : Data
  addr : Nat
  deriving DecidableEq, Repr

/-- A launch in the Crown island's queue (R343): the template's bytes, filter and destinations at the edge, the edge's
time and whether it was untraceable. -/
structure Launch where
  bytes : List (BitVec 8)
  filter : Nat
  dest : Nat
  stamp : Nat
  untrace : Bool
  deriving DecidableEq, Repr

/-- A wait access in progress, and when it began (R339, R345). -/
structure CrownWait where
  write : Bool
  page : Nat
  off : Nat
  value : Word
  since : Nat
  deriving DecidableEq, Repr

/-- The Crown island beside the CRN page (R341, R343): PAGE_SEL, the launch queue, the wait access, and TPL_STAT's
accepted and refused counts, last cause and last template. -/
structure Crown where
  pageSel : Nat
  launches : List Launch
  wait : Option CrownWait
  accepted : Nat
  refused : Nat
  cause : Nat
  last : Nat
  deriving DecidableEq, Repr

/-- An image of the option store (R362): whether its header checks, whether its body was read against its CRC and found
bad (R364), its generation, the records of its body. -/
structure OptImage where
  header : Bool
  bodyBad : Bool
  gen : Nat
  body : List Data
  deriving DecidableEq, Repr

/-- An option store write in progress (R365): target (0 A, 1 B), generation, body. -/
structure OptWrite where
  target : Nat
  gen : Nat
  body : List Data
  deriving DecidableEq, Repr

/-- The reset sequencer (R348, R351 to R353): the class of the release in progress (0 none, 1 warm, 2 clock failure,
3 cold, 4 KEEP exit), its t0, whether the option load has completed, whether its images are used (step 3 of R355), and
whether supplies removed in KEEP still hold it (R407). -/
structure Seq where
  cls : Nat
  t0 : Nat
  loaded : Bool
  images : Bool
  supplies : Bool
  deriving DecidableEq, Repr

/-- A flight recorder record before it is written (R379): time of the event in units of 2^-40 ns, source number, type,
UNTRACE and LATE bits, data. -/
structure LogRec where
  time : Nat
  src : Nat
  typ : Nat
  untrace : Bool
  late : Bool
  data : Data
  deriving DecidableEq, Repr

/-- The Epash agent's last reply to a requester (R386). -/
structure EpashReply where
  requester : Nat
  seq : Nat
  op : Nat
  reply : List Nat
  deriving DecidableEq, Repr

/-- Part of the device: registers, crossings, islands and entry windows. -/
structure Control where
  /-- live register contents by key (Regs.lean); an unlisted key holds the reset value -/
  regs : Tbl Word
  /-- SH bits written and not yet committed (R397) -/
  shadow : Tbl Word
  /-- model's own: how many free values have been taken (Config.freeNat) -/
  freeCtr : Nat
  /-- model's own: what has left the device, newest first -/
  out : List Output
  /-- islands released from reset (R351): 1 keep-alive, 2 time base, 4 Felt, 5 PCIe, 6 service cores, 7 Crown, 53
  DRAM, 64 + lane index; unlisted: in reset -/
  rel : Tbl Bool
  /-- control transfers held at stopped crossings (R78), oldest first -/
  held : List Held
  /-- ACC_STAT of the summary area (R401) -/
  accStat : Nat
  /-- resynchronization of each crossing (R83): 0 none, 1 flag toggled, 2 flag seen, 3 acknowledgement seen -/
  xphase : Tbl Nat
  /-- AVS_CFG has been written since the last COMMIT (R74) -/
  avsWritten : Bool
  /-- entry windows by page and accessor (R400) -/
  wins : Tbl WinBuf
  /-- the latest time-base value that Felt has read through the time crossing (R76) -/
  felt : Nat
  deriving DecidableEq, Repr

/-- Part of the device: the time base, stamps, outputs and event inputs. -/
structure Clocks where
  /-- the time base (R206), in units of 2^-40 ns -/
  now : Nat
  /-- how far each lane island's copy of the time base (R213) stands from the master, by lane index -/
  copyOfs : Tbl Int
  /-- SLEW_REM (R211), in units of 2^-40 ns -/
  slewRem : Int
  /-- a slew is in progress whose end has not been reported (R211) -/
  slewOn : Bool
  /-- what a negative step still withholds (R210), in units of 2^-40 ns -/
  deficit : Nat
  /-- a negative step is being absorbed and its end not yet reported (R210) -/
  negOn : Bool
  /-- transmit timestamp FIFOs by TSU instance (R223), oldest first -/
  txf : Tbl (List TxfEntry)
  /-- a stamp was discarded since the last entry stored (R223) -/
  txfLost : Tbl Bool
  /-- Crown time capture (R226) -/
  cap : Capture
  /-- the absorbed offset not yet slewed (R239), in units of 2^-40 ns -/
  absOfs : Int
  /-- firmware's soft message times by port (R220) -/
  softMsg : Tbl Nat
  /-- since when a port whose flag still says SOFT has had what hardware stamps need (R220) -/
  hardFrom : Tbl (Option Nat)
  /-- the instant from which each output's pending alignment may happen: its commit + 2 µs (R263) -/
  outFrom : Tbl (Option Nat)
  /-- an output has not yet started since the cold reset, from which it starts aligned (R266); unlisted: true -/
  outStart : Tbl Bool
  /-- an output's phase runs (R260, R265) -/
  outRuns : Tbl Bool
  /-- when an output's driver last went on, with the output low (R260, R265), less `deficit` -/
  driveFrom : Tbl Int
  /-- the end of the high phase that an output which stops still completes (R260), less `deficit` -/
  outStop : Tbl (Option Int)
  /-- how far an output's edges stand from its grid (R250, R262), less `deficit`, in units of 2^-40 ns -/
  outErr : Tbl Int
  /-- where the walk of an output's skew began, in units of 10 ps, and when (R259), less `deficit` -/
  skewFrom : Tbl (Nat × Int)
  /-- from when on the steps of an output's walk are still to be added to `outErr` (R263), less `deficit` -/
  outWalk : Tbl (Option Int)
  /-- the seed each synthesizer's LFSR last restarted from, and when (R255) -/
  lfsr : Tbl (Nat × Nat)
  /-- the loop state stored with each plan's band (R253): the fine-tuning word the plan was left with -/
  bandTune : Tbl Nat
  /-- event inputs (R268 to R274) -/
  evts : Tbl EvtIn
  deriving DecidableEq, Repr

/-- Part of the device: the reference selector and the holdover engine. -/
structure References where
  /-- reference slots (R231) -/
  slots : Tbl Slot
  /-- the switch mode in force (R235) -/
  refMode : Nat
  /-- the slot a manual or forced mode names (R235) -/
  refSlot : Nat
  /-- the commands that wait for a switch to end, in order (R240) -/
  refPend : List RefCmd
  /-- the slot a switch in progress goes to (R238) -/
  refTarget : Option Nat
  /-- the phase taken as zero of a selected frequency reference (R239), in ps -/
  refZero : Int
  /-- INC + HO_CORR of the seconds of LOCKED that INC_avg covers, newest first (R242) -/
  hoHist : List Nat
  /-- the average is frozen (R242); no LOCKED has begun -/
  hoFrozen : Bool
  /-- temperature and time at the entry of the holdover or bridge (R242) -/
  hoEntry : Option (Int × Nat)
  /-- a bridge has ended and the next INC commit sets HO_CORR to 0 (R244) -/
  hoBridge : Bool
  /-- the learning samples of R246: offset in ppt, temperature, time -/
  learn : List (Int × Int × Nat)
  /-- a fitted set that waits for a REF COMMIT (R246) -/
  hoNext : Option HoSet
  /-- fit residual in ppt and temperature span in °C × 16 of the model last fitted (R246, R321) -/
  hoFit : Nat × Nat
  deriving DecidableEq, Repr

/-- Part of the device: the Tally counters, the flight recorder, the Epash agent and the tests. -/
structure Records where
  /-- Tally counters (R367), 48 bits -/
  tally : Tbl Nat
  /-- the snapshot bank (R373) -/
  snap : Tbl Nat
  /-- what the counters have counted since an armed freeze's instant, which its snapshot leaves out (R373) -/
  snapLate : Tbl Nat
  /-- the armed freeze instant (R373) -/
  freezeAt : Option Nat
  /-- a snapshot is being collected (R373) -/
  collecting : Bool
  /-- a crossing was held or in reset during the collection (R373) -/
  snapHeld : Bool
  /-- events each sampler has counted since its last sample (R375) -/
  smpCount : Tbl Nat
  /-- records the writer holds (R381), in arrival order -/
  logHeld : List LogRec
  /-- records discarded since the previous LOST record (R382) -/
  logLost : Nat
  /-- seconds of the last SECOND record since release (R379, R382) -/
  logSec : Option Nat
  /-- records in the ring, up to its size (R378) -/
  logFill : Nat
  /-- records the sequencer keeps until Felt release (R381) -/
  lockSites : List LogRec
  /-- last replies to the last 8 requesters (R386), newest first -/
  epash : List EpashReply
  /-- a DRAM test runs (R389) -/
  dramTest : Bool
  /-- JTAG test mode (R387, R389) -/
  testMode : Bool
  deriving DecidableEq, Repr

/-- Part of the device: lanes, schedules, shapers and outputs. -/
structure Ports where
  /-- lane state machines (R42) -/
  lanes : Tbl Lane
  /-- pace alarm counters and supply loop (R71 to R75) -/
  pace : Pace
  /-- ends of the partner's pauses (R430) by 16 × port + priority; priority 8 stands for PAUSE -/
  pauses : Tbl (Option Nat)
  /-- launch queues by port (R173): frames in order of launch time, then of stamp -/
  launchQ : Tbl (List Nat)
  /-- what a port's gate control unit holds beside its registers (R176) -/
  gclPorts : Tbl GclPort
  /-- launch table entries that wait for a Blocker swap (R188): instant, handle, words -/
  blkStage : List (Nat × Nat × Data × Data)
  /-- nodes and VOQs of the hierarchy (R153 to R155): subscriber nodes at 0, service nodes at 4,096, port nodes at
  4,496, VOQs at 8,192 -/
  nodes : Tbl Node
  /-- outputs: frame in transmission, preempted frame (R147, R159) -/
  outputs : Tbl Output_
  /-- the port's hold was started by a loop-back (R142) -/
  holdLoop : Tbl Bool
  /-- when a port's hold started (R142, R144) -/
  holdFrom : Tbl Nat
  deriving DecidableEq, Repr

/-- Part of the device: frames, buffers and queues. -/
structure Frames where
  /-- frames inside the device, by number -/
  frames : Tbl (Option Frame)
  /-- number the next frame takes (model's own name for a frame) -/
  nextFrame : Nat
  /-- virtual output queues (R134) -/
  voqs : Tbl Voq
  /-- buffer records (R123) by pool and index -/
  bufs : Tbl BufRec
  /-- pools (R129) -/
  pools : Tbl Pool
  /-- frames waiting in each input's holding area (R124), oldest first -/
  holding : Tbl (List Nat)
  /-- inputs whose holding area waits for a handle, in the order in which they began to wait (R84, R124) -/
  waitQ : List Nat
  /-- the frame each input is receiving, by 2 × input + 1 for a preemptable one (R158) -/
  rxNow : Tbl (Option Rx)
  /-- 64-byte lines each input holds in the spill area (R141) -/
  spillLines : Tbl Nat
  /-- when a spill of an input's class, at 8 × input + class, was last refused with none copied since (R141) -/
  refusedAt : Tbl (Option Nat)
  /-- the hash key that each line group in use took its rotation from (R130); none: the group is empty -/
  groupKey : Tbl (Option Nat)
  /-- the hash key in force, as the free value it was drawn with (R130, R132) -/
  hashKey : Nat
  /-- line accesses of each bank in the running window (R132) -/
  bankCount : Tbl Nat
  /-- when the Reroll that is due fell due (R117, R132) -/
  rerollAt : Nat
  /-- consecutive windows over RATIO (R132) -/
  hashOver : Nat
  /-- end of the hold-off after a Reroll (R132) -/
  hashHoldoff : Option Nat
  /-- VOQs of a running software flush -/
  flushing : List Nat
  deriving DecidableEq, Repr

/-- Part of the device: tables, staging, policing. -/
structure Lookup where
  /-- the data bits of every table word (R91, R150 and so on); an unlisted word holds its reset contents -/
  tables : Tbl Data
  /-- bits of a table word that have flipped since it was written (R428): the stored word is the encoded data
  exclusive-or these -/
  flips : Tbl Native
  /-- shadow words of the scheduler's node tables (R151) and of the Crown templates (R344) -/
  tabShadow : Tbl Data
  /-- meter states (R107) by index; an unlisted meter is full with counts 0 -/
  meters : Tbl Meter
  /-- what runs of each stream gate (R109, R110) -/
  gates : Tbl GateRun
  /-- punt policers (R112) by reason; none: full -/
  puntBuckets : Tbl (Option PuntBucket)
  /-- the staging list of the LKP and MTR pages (R113), oldest first -/
  staging : List StageOp
  /-- table indices retired by a commit, with the epochs that must drain (R115) -/
  retired : List Retired
  /-- the page whose COMMIT waits (R117) -/
  commitPage : Nat
  /-- the commit that waits is the device's own, of an empty list (R117) -/
  commitDevice : Bool
  /-- the last ageing sweep, or Felt's release (R103) -/
  sweptAt : Nat
  /-- when each superseded epoch was superseded (R116) -/
  epochSince : Tbl Nat
  /-- secret key of the FDB, as drawn (R94) -/
  fdbKey : Nat
  /-- secret key of the stream identification table, as drawn (R96) -/
  sidKey : Nat
  /-- learn requests that wait (R102), oldest first -/
  learnQ : List LearnReq
  /-- when each generation entry numbered its last frame (R296) -/
  genLast : Tbl Nat
  /-- when each recovery entry passed its last frame (R294) -/
  recLast : Tbl Nat
  /-- Crown trip counts by flag (R341), 8 bits -/
  tripCnt : Tbl Nat
  /-- shadows of the COMMIT that waits (R117) -/
  waitShadow : Tbl Word
  /-- filter and gate words whose latch the device has set (R97, R110), as they were last written (R357) -/
  written : Tbl (Option Data)
  deriving DecidableEq, Repr

/-- Part of the device: the Blocker and the Doublet. -/
structure Pairing where
  /-- the Blocker's reservations by ID (R187); their request words stand in the reservation table -/
  resv : Tbl (Option Place)
  /-- Blocker requests, the one being placed first (R187) -/
  reqQueue : List BlkReq
  /-- Blocker responses, oldest first (R183) -/
  rspQueue : List (List Data)
  /-- responses of a REPLACE_ALL that wait for room (R187) -/
  rspWait : List (List Data)
  /-- the request at the head waits for a pending swap (R188) -/
  blkWaits : Bool
  /-- the placements of a re-placement that a COMMIT started and that waits for a pending swap (R188, R189), by ID -/
  blkPlan : Option (List (Nat × Place))
  /-- staging lists the owner has committed and not yet copied (R288), as its twin can place them, with the instant of
  the commit (R33), oldest first -/
  dblTables : List (Nat × List StageOp)
  /-- the Doublet controller beside its registers (R280 to R299) -/
  dbl : Dbl
  /-- level of the ball DBL_OWN_IN (R281) -/
  pinOwnIn : Bool
  /-- level of the strap DBL_SIDE (R280): high is side B -/
  pinSideB : Bool
  deriving DecidableEq, Repr

/-- Part of the device: mailboxes and firmware. -/
structure Services where
  /-- the LO half each accessor has written of each mailbox direction (R314), by (2 × channel + direction) × 8 +
  accessor -/
  mbxLo : Tbl Word
  /-- notices firmware has read and not yet answered, by channel, oldest first (R320) -/
  fwCmds : Tbl (List Data)
  /-- notices firmware has to send while the direction is full, by channel, oldest first -/
  fwOut : Tbl (List FwMsg)
  /-- chassis IDs that firmware has learned by LLDP, by port (R186, R302); empty: none -/
  neigh : Tbl (List (BitVec 8))
  /-- pages that the host holds with PAGE HOLD (R311), and when the hold ends -/
  pageHolds : Tbl (Option Nat)
  /-- writes that firmware queues while a page is held (R311), oldest first -/
  fwLater : List Held
  /-- PTP instances (R305, R321): word 0 of the last PTP INSTANCE command -/
  ptpInst : Tbl Nat
  /-- ports of PTP instances (R305, R321): word 0 of the last PTP PORT command -/
  ptpPort : Tbl Nat
  /-- LLDP of each port (R321): word 0 of the last LLDP PORT command -/
  lldpPort : Tbl Nat
  /-- consecutive placement periods that each core has stayed above HI (R303) -/
  hiRuns : Tbl Nat
  /-- latent error detection of each handle (R321): word 0 of the last RED LATENT command -/
  latent : Tbl Nat
  /-- when the twin last reported RESTARTING over MB30 and nothing since (R326) -/
  twinRestart : Option Nat
  /-- word 0 of the last EPASH CFG command (R321) -/
  epashCfg : Nat
  /-- flash slots (R323): 0 A, 1 B -/
  flash : Tbl (Option FlashImage)
  /-- the update and restart in progress (R324 to R326) -/
  upd : Update
  /-- EP49 is treated as a port that is down (R325) -/
  fwDown : Bool
  /-- EP49's port-down hold runs (R142, R325) -/
  fwHold : Bool
  deriving DecidableEq, Repr

/-- Part of the device: the host, the Crown bus, the option store and the reset sequencer. -/
structure Attached where
  /-- DMA rings (R333): 0 to 7 TX, 8 to 15 RX -/
  rings : Tbl Ring
  /-- transmit descriptors taken and not yet written back, oldest first (R334) -/
  txWait : List TxTaken
  /-- PCIe functions in D3hot (R328) -/
  pciD3 : Tbl Bool
  /-- the Crown island (R341, R343) -/
  crown : Crown
  /-- option store image A (R362) -/
  optA : OptImage
  /-- option store image B (R362) -/
  optB : OptImage
  /-- records of the option image applied at the last load, in order (R363) -/
  optRecs : List Data
  /-- trims of the option image applied (R363), in ps, by OFFSET -/
  trims : Tbl Int
  /-- the option store write in progress (R365) -/
  optWrite : Option OptWrite
  /-- the reset sequencer -/
  seqr : Seq
  /-- level of RESET_N (R346) -/
  pinResetN : Bool
  /-- level of PERST_N (R351) -/
  pinPerstN : Bool
  /-- XO_IN is clock-good (R29) -/
  xoOk : Bool
  /-- the watchdog has passed half its time-out since its last reload (R350) -/
  wdogWarned : Bool
  /-- the watchdog's last reload (R350) -/
  wdogFrom : Nat
  /-- the instant that WAKE_SEC and WAKE_NS named at the COMMIT that took them (R361, R429) -/
  wakeAt : Option Nat
  deriving DecidableEq, Repr

/-- The device: everything but the DRAM bytes and the queue of commands. -/
structure Dev extends Control, Clocks, References, Records, Ports, Frames, Lookup, Pairing, Services, Attached where
  deriving DecidableEq, Repr

/-- The device at a cold reset (R346, R357): every register at its reset value, every queue and table empty, every
island in reset, the time base at 0 s 0 ns. -/
def Dev.reset : Dev where
  regs := []
  shadow := []
  freeCtr := 0
  out := []
  rel := []
  held := []
  accStat := 0
  now := 0
  copyOfs := []
  slewRem := 0
  slewOn := false
  deficit := 0
  negOn := false
  txf := []
  txfLost := []
  cap := ⟨0, 0, false, false, 0, 0, 0, none⟩
  tally := []
  snap := []
  snapLate := []
  freezeAt := none
  collecting := false
  snapHeld := false
  smpCount := []
  logHeld := []
  logLost := 0
  logSec := none
  logFill := 0
  lockSites := []
  epash := []
  dramTest := false
  testMode := false
  lanes := []
  pace := ⟨0, 0, 0, none, 75000, 75000, false, 0, 0⟩
  frames := []
  nextFrame := 0
  voqs := []
  bufs := []
  pools := []
  holding := []
  waitQ := []
  rxNow := []
  spillLines := []
  refusedAt := []
  groupKey := []
  hashKey := 0
  bankCount := []
  rerollAt := 0
  hashOver := 0
  hashHoldoff := none
  flushing := []
  outputs := []
  tables := []
  flips := []
  tabShadow := []
  holdLoop := []
  holdFrom := []
  wins := []
  felt := 0
  absOfs := 0
  softMsg := []
  hardFrom := []
  slots := []
  refMode := 0
  refSlot := 0
  refPend := []
  refTarget := none
  refZero := 0
  hoHist := []
  hoFrozen := true
  hoEntry := none
  hoBridge := false
  learn := []
  hoNext := none
  launchQ := []
  gclPorts := []
  blkStage := []
  pauses := []
  xphase := []
  avsWritten := false
  meters := []
  gates := []
  puntBuckets := []
  staging := []
  retired := []
  commitPage := 0
  commitDevice := false
  sweptAt := 0
  epochSince := []
  fdbKey := 0
  sidKey := 0
  learnQ := []
  genLast := []
  recLast := []
  tripCnt := []
  waitShadow := []
  dblTables := []
  nodes := []
  mbxLo := []
  fwCmds := []
  fwOut := []
  resv := []
  reqQueue := []
  rspQueue := []
  rspWait := []
  blkWaits := false
  blkPlan := none
  neigh := []
  outFrom := []
  outStart := []
  outRuns := []
  driveFrom := []
  outStop := []
  outErr := []
  skewFrom := []
  outWalk := []
  lfsr := []
  bandTune := []
  evts := []
  dbl := ⟨false, 0, false, none, none, none, false, false, [], [], false, 0, none, none, false, 0, false, false, [], [], none,
    0, 0, 0, 0, false, true, none, none, 0, 0⟩
  pinOwnIn := false
  pinSideB := false
  pageHolds := []
  fwLater := []
  ptpInst := []
  ptpPort := []
  lldpPort := []
  hiRuns := []
  latent := []
  twinRestart := none
  epashCfg := 0
  hoFit := (0, 0)
  flash := []
  upd := ⟨0, [], none, 0, false, 0, none, none, 0, []⟩
  fwDown := false
  fwHold := false
  rings := []
  txWait := []
  pciD3 := []
  crown := ⟨0, [], none, 0, 0, 0, 0⟩
  optA := ⟨false, false, 0, []⟩
  optB := ⟨false, false, 0, []⟩
  optRecs := []
  trims := []
  optWrite := none
  seqr := ⟨3, 0, false, false, false⟩
  pinResetN := false
  pinPerstN := false
  xoOk := false
  wdogWarned := false
  wdogFrom := 0
  wakeAt := none
  written := []

/-- The machine: the device, the DRAM stack's bytes (R377), and the commands that wait, first in first out. -/
structure State where
  dev : Dev
  dram : List Host.Cell
  pending : List Instr
  deriving DecidableEq, Repr

/-- Right after a cold reset: nothing in DRAM, no command waiting. -/
def State.reset : State where
  dev := Dev.reset
  dram := []
  pending := []

end Sys2Proof.Machine
end

