-- ==== Sys2Proof/Machine/Tbl.lean ====
section
/-!
DEFINITION. Machine/Tbl.lean: reading and writing a sparse table. A table is read and written with the function that
says what an unlisted key holds, so equal contents are equal lists: a write of that value removes the entry.
-/
namespace Sys2Proof.Machine

/-- What a table holds at a key; `dflt` says what an unlisted key holds. -/
def tget {V : Type} (dflt : Nat → V) : Tbl V → Nat → V
  | [], k => dflt k
  | (j, v) :: rest, k => if k = j then v else tget dflt rest k

/-- The table without the entry of a key. -/
def terase {V : Type} (k : Nat) : Tbl V → Tbl V
  | [] => []
  | (j, v) :: rest => if k = j then terase k rest else (j, v) :: terase k rest

/-- The table with an entry put at its place in key order. -/
def tinsert {V : Type} (k : Nat) (v : V) : Tbl V → Tbl V
  | [] => [(k, v)]
  | (j, w) :: rest => if k < j then (k, v) :: (j, w) :: rest else (j, w) :: tinsert k v rest

/-- The table with a key set to a value. -/
def tset {V : Type} [DecidableEq V] (dflt : Nat → V) (t : Tbl V) (k : Nat) (v : V) : Tbl V :=
  if v = dflt k then terase k t else tinsert k v (terase k t)

/-- The table with the value at a key changed. -/
def tmod {V : Type} [DecidableEq V] (dflt : Nat → V) (t : Tbl V) (k : Nat) (f : V → V) : Tbl V :=
  tset dflt t k (f (tget dflt t k))

/-- The entries whose key passes a test. -/
def tkeep {V : Type} (p : Nat → Bool) (t : Tbl V) : Tbl V := t.filter (fun e => p e.1)

/-- The canonical form: keys strictly rising, no entry equal to the default. -/
def twf {V : Type} [DecidableEq V] (dflt : Nat → V) : Tbl V → Bool
  | [] => true
  | [(k, v)] => decide (v ≠ dflt k)
  | (k, v) :: (j, w) :: rest => decide (v ≠ dflt k) && decide (k < j) && twf dflt ((j, w) :: rest)

end Sys2Proof.Machine
end

