-- ==== Sys2Proof/Machine/Regs.lean ====
section
/-!
DEFINITION. Machine/Regs.lean: the register file. One live word for each page, offset and selected instance (R397:
pools, slots, outputs and so on each have their own), one shadow word for the SH bits that are written and not yet
committed, the reset word of each register, and the instance that an accessor's selectors choose (R308).
-/
namespace Sys2Proof.Machine

/-- The key of a register: page number, offset in the page, selected instance or accessor. -/
def rkey (page off sel : Nat) : Nat := (page * 4096 + off) * 65536 + sel

def rkeyPage (k : Nat) : Nat := k / 268435456
def rkeyOff (k : Nat) : Nat := k / 65536 % 4096
def rkeySel (k : Nat) : Nat := k % 65536

/-- The bits of a field. -/
def getBits (w : Word) (lo wd : Nat) : Nat := w.toNat / 2 ^ lo % 2 ^ wd

/-- A word with a field replaced; the value is cut to the field's width. -/
def setBits (w : Word) (lo wd v : Nat) : Word :=
  BitVec.ofNat 32 (w.toNat - getBits w lo wd * 2 ^ lo + v % 2 ^ wd * 2 ^ lo)

/-- The mask of a field. -/
def Field.mask (f : Field) : Word := BitVec.ofNat 32 ((2 ^ f.wd - 1) * 2 ^ f.lo)

/-- The i-th copy of a field whose register stands several times in the page. -/
def Field.nth (f : Field) (i : Nat) : Field := { f with off := f.off + f.stride * i }

/-- Whether the register at an offset carries the field. -/
def Field.covers (f : Field) (off : Nat) : Bool :=
  f.off ≤ off && (off - f.off) % f.stride == 0 && (off - f.off) / f.stride < f.count

/-- The fields of the register at an offset of a page type, above the common part. -/
def fieldsAt (t : PageType) (off : Nat) : List Field := (layoutOf t).filter (·.covers off)

/-- Whether a page type has a field of an access code in its table. -/
def hasShadow (t : PageType) : Bool := (layoutOf t).any (fun f => f.acc == .sh)

/-- R394: the page has an indirect entry window. -/
def hasEntry : PageType → Bool
  | .lkp | .mtr | .sch | .blk | .gcl | .dbl | .crn => true
  | _ => false

/-- R396: CTRL.SOFT_RST is accepted on every page but these. -/
def softRstOk : PageType → Bool
  | .glb | .rst | .opt | .sec | .tmb | .syn | .out | .drm | .mbx => false
  | _ => true

/-- R394: OWNER cannot be written on SEC, OPT and MBX. -/
def ownerFixed : PageType → Bool
  | .sec | .opt | .mbx => true
  | _ => false

/-- R310, R394: CTRL.OWNER after a cold reset: FIRMWARE, but SECURE on SEC and OPT, and 0b11 on MBX. -/
def coldOwner : PageType → Nat
  | .sec | .opt => 2
  | .mbx => 3
  | _ => 1

/-- The reset word of the registers of the common part (R394). -/
def commonReset (t : PageType) (i off : Nat) : Word :=
  if off = 0 then BitVec.ofNat 32 (t.num * 2 ^ 24 + i % 256 * 2 ^ 16 + 2 ^ 8)
  else if off = 4 then
    BitVec.ofNat 32 ((if hasShadow t then 2 ^ 31 else 0) + (if hasEntry t then 2 ^ 30 else 0)
      + (if softRstOk t then 2 ^ 29 else 0) + (if ownerFixed t then 2 ^ 28 else 0) + t.island * 2 ^ 24)
  else if off = 8 then BitVec.ofNat 32 (coldOwner t)
  else 0

/-- The table's reset word of a register: each of its fields at its reset value. -/
def tableReset (t : PageType) (off : Nat) : Word :=
  (fieldsAt t off).foldl (fun w f => setBits w f.lo f.wd f.rst) 0

/-- Reset words that the tables give per instance, per selected item or per part: fuses (Config), LNK_CFG of the
Doublet and management lanes, POOL_SIZE of the four pools (R119), the pinned service and the service cores of R302,
SYN0's plan and the seeds of the four synthesizers, CLKOUT0 and CLKOUT1 (R266), and the power-on cause (R346). -/
def specialReset (t : PageType) (i off sel : Nat) : Option Word :=
  match t with
  | .glb => if off = 0x40 then some (setBits (tableReset .glb 0x40) 12 4 Config.siliconStep.toNat) else none
  | .rst => if off = 0x40 then some (BitVec.ofNat 32 (2 ^ 28)) else none
  | .sec =>
    if off = 0x40 then some (BitVec.ofNat 32 ((if Config.keyFused then 2 ^ 31 else 0)
      + (if Config.debugLocked then 2 ^ 30 else 0)))
    else if off = 0x44 then some Config.minVersion
    else if off = 0x4C ∧ sel < 12 then some (Config.keyHash sel)
    else none
  | .pci => if off = 0x40 then
      some (BitVec.ofNat 32 ((if sel = 1 then 0x4897 else 0x4896) * 2 ^ 16 + Config.vendorId.toNat)) else none
  | .lnk =>
    if off = 0x40 ∧ (i = 48 ∨ i = 49) then some (BitVec.ofNat 32 (5 * 2 ^ 12 + 3 * 2 ^ 10 + 1 * 2 ^ 8))
    else if off = 0x40 ∧ i = 50 then some (BitVec.ofNat 32 (2 * 2 ^ 12 + 1 * 2 ^ 8))
    else none
  | .buf =>
    if off = 0x4C then
      some (BitVec.ofNat 32 (match sel with
        | 0 => 4 * 2 ^ 24 + 131072 | 1 => 10 * 2 ^ 24 + 65536
        | 2 => 25 * 2 ^ 24 + 32768 | _ => 152 * 2 ^ 24 + 2304))
    else none
  | .svc =>
    if off = SVC.SVC_CFG.PIN.off then
      some (setBits (setBits (tableReset .svc off) SVC.SVC_CFG.PIN.lo 1 (if sel = 0 then 1 else 0))
        SVC.SVC_CFG.CORE.lo SVC.SVC_CFG.CORE.wd (sel / 2))
    else none
  | .syn =>
    if off = SYN.SYN_CFG.ENABLE.off then
      some (setBits (setBits (tableReset .syn off) SYN.SYN_CFG.ENABLE.lo 1 (if sel = 0 then 1 else 0))
        SYN.SYN_CFG.SEED.lo SYN.SYN_CFG.SEED.wd
        (match sel with | 0 => 0x5A17C3 | 1 => 0x3C9E21 | 2 => 0x71D04B | _ => 0x2B8F65))
    else if off = SYN.PLAN_N.N_INT.off then
      some (setBits (tableReset .syn off) SYN.PLAN_N.N_INT.lo SYN.PLAN_N.N_INT.wd (if sel = 0 then 4 else 0))
    else none
  | .out =>
    if off = OUT.OUT_CFG.ENABLE.off ∧ sel ≤ 1 then
      let w := setBits (tableReset .out off) OUT.OUT_CFG.ENABLE.lo 1 1
      let w := setBits w OUT.OUT_CFG.SRC.lo OUT.OUT_CFG.SRC.wd (if sel = 0 then 5 else 0)
      let w := setBits w OUT.OUT_CFG.FMT.lo OUT.OUT_CFG.FMT.wd 3
      some (setBits (setBits w OUT.OUT_CFG.P_V33.lo 1 1) OUT.OUT_CFG.N_LEG.lo 2 0)
    else if off = OUT.OUT_DIV.D.off ∧ sel = 1 then some 250
    else none
  | _ => none

/-- What a register holds after a cold reset; an offset that no table names holds 0 (R20). -/
def resetWord (t : PageType) (i off sel : Nat) : Word :=
  if off < 0x40 then (if off = 8 ∧ sel ≠ 0 then 0 else commonReset t i off)
  else (specialReset t i off sel).getD (tableReset t off)

/-- The reset contents of the whole register file. -/
def resetReg (k : Nat) : Word :=
  match pageOf (rkeyPage k) with
  | some (t, i) => resetWord t i (rkeyOff k) (rkeySel k)
  | none => 0

/-- The live word of a register. -/
def Dev.rd (d : Dev) (page off : Nat) (sel : Nat := 0) : Word := tget resetReg d.regs (rkey page off sel)

/-- The device with a live word written. -/
def Dev.wr (d : Dev) (page off : Nat) (w : Word) (sel : Nat := 0) : Dev :=
  { d with regs := tset resetReg d.regs (rkey page off sel) w }

/-- A field's live value. -/
def Dev.get (d : Dev) (page : Nat) (f : Field) (sel : Nat := 0) : Nat := getBits (d.rd page f.off sel) f.lo f.wd

/-- A one-bit field's live value. -/
def Dev.flag (d : Dev) (page : Nat) (f : Field) (sel : Nat := 0) : Bool := d.get page f sel != 0

/-- The device with a field's live value written, cut to its width. -/
def Dev.set (d : Dev) (page : Nat) (f : Field) (v : Nat) (sel : Nat := 0) : Dev :=
  d.wr page f.off (setBits (d.rd page f.off sel) f.lo f.wd v) sel

/-- A one-bit field written from a truth value. -/
def Dev.setFlag (d : Dev) (page : Nat) (f : Field) (b : Bool) (sel : Nat := 0) : Dev :=
  d.set page f (if b then 1 else 0) sel

/-- A counting field advanced, saturating at its largest value. -/
def Dev.incSat (d : Dev) (page : Nat) (f : Field) (sel : Nat := 0) (n : Nat := 1) : Dev :=
  d.set page f (min (d.get page f sel + n) (2 ^ f.wd - 1)) sel

/-- A counting field advanced, wrapping. -/
def Dev.incWrap (d : Dev) (page : Nat) (f : Field) (sel : Nat := 0) (n : Nat := 1) : Dev :=
  d.set page f (d.get page f sel + n) sel

/-- A field read as two's complement. -/
def Dev.getInt (d : Dev) (page : Nat) (f : Field) (sel : Nat := 0) : Int :=
  let v := d.get page f sel
  if v < 2 ^ (f.wd - 1) then v else (v : Int) - 2 ^ f.wd

/-- A number as the two's complement of a width. -/
def toField (wd : Nat) (v : Int) : Nat := (v % (2 ^ wd : Int)).toNat

/-! ### Shadows (R397) -/

/-- The SH bits of a register. -/
def shMask (t : PageType) (off : Nat) : Word :=
  ((fieldsAt t off).filter (fun f => f.acc == .sh)).foldl (fun w f => w ||| f.mask) 0

/-- The word an SH read with VIEW = 1 shows: the written SH bits over the live word. -/
def Dev.rdShadow (d : Dev) (t : PageType) (page off sel : Nat) : Word :=
  let m := shMask t off
  let live := d.rd page off sel
  (live &&& ~~~m) ||| (tget (fun _ => live &&& m) d.shadow (rkey page off sel) &&& m)

/-- A field as its shadow stands: what a COMMIT would make it. -/
def Dev.getSh (d : Dev) (t : PageType) (page : Nat) (f : Field) (sel : Nat := 0) : Nat :=
  getBits (d.rdShadow t page f.off sel) f.lo f.wd

def Dev.getShInt (d : Dev) (t : PageType) (page : Nat) (f : Field) (sel : Nat := 0) : Int :=
  let v := d.getSh t page f sel
  if v < 2 ^ (f.wd - 1) then v else (v : Int) - 2 ^ f.wd

/-- The SH bits of a register's shadow written. -/
def Dev.wrShadow (d : Dev) (t : PageType) (page off sel : Nat) (w : Word) : Dev :=
  let m := shMask t off
  { d with shadow := tset (fun _ => d.rd page off sel &&& m) d.shadow (rkey page off sel) (w &&& m) }

/-- A field's shadow written. -/
def Dev.setSh (d : Dev) (t : PageType) (page : Nat) (f : Field) (v : Nat) (sel : Nat := 0) : Dev :=
  d.wrShadow t page f.off sel (setBits (d.rdShadow t page f.off sel) f.lo f.wd v)

/-- The registers of a page whose shadow holds something else than the committed value. -/
def Dev.dirtyKeys (d : Dev) (page : Nat) : List Nat :=
  match pageOf page with
  | none => []
  | some (t, _) =>
    (d.shadow.filter (fun e => rkeyPage e.1 == page
      && e.2 != (d.rd page (rkeyOff e.1) (rkeySel e.1) &&& shMask t (rkeyOff e.1)))).map Prod.fst

/-- The selected instances of a register that a commit must look at beside those of the live table: the ones a shadow
names. -/
def Dev.shadowSels (d : Dev) (page off : Nat) : List Nat :=
  (d.shadow.filter (fun e => rkeyPage e.1 == page && rkeyOff e.1 == off)).map (fun e => rkeySel e.1)

/-- Whether a commit would change a register (any of its SH bits). -/
def Dev.changes (d : Dev) (page off : Nat) (sel : Nat := 0) : Bool :=
  d.dirtyKeys page |>.contains (rkey page off sel)

/-- Every shadow of a page made live. -/
def Dev.applyShadows (d : Dev) (page : Nat) : Dev :=
  match pageOf page with
  | none => d
  | some (t, _) =>
    let mine := d.shadow.filter (fun e => rkeyPage e.1 == page)
    let d := mine.foldl (fun d e =>
      d.wr page (rkeyOff e.1) (d.rdShadow t page (rkeyOff e.1) (rkeySel e.1)) (rkeySel e.1)) d
    { d with shadow := d.shadow.filter (fun e => rkeyPage e.1 != page) }

/-- Every shadow of a page reloaded from the committed values (R398). -/
def Dev.dropShadows (d : Dev) (page : Nat) : Dev :=
  { d with shadow := d.shadow.filter (fun e => rkeyPage e.1 != page) }

/-! ### Selectors (R308) -/

/-- Whether the register at an offset exists once for each accessor (R308): selectors, the entry window, and the
Blocker's request and response address and data words. -/
def perAccessor (t : PageType) (off : Nat) : Bool :=
  match t with
  | .glb => off == GLB.RESTORE_SEL.PAGE.off
  | .sec => off == SEC.KEYHASH_SEL.WORD.off
  | .svc => off == SVC.SVC_SEL.SVC.off
  | .pci => off == PCI.RING_SEL.RING.off
  | .crn => off == CRN.TRIP_SEL.FLAG.off || (0x60 ≤ off && off ≤ 0x70)
  | .fab => off == FAB.XING_SEL.INDEX.off
  | .lkp => 0x54 ≤ off && off ≤ 0x68
  | .mtr => 0x44 ≤ off && off ≤ 0x54
  | .buf => off == BUF.POOL_SEL.POOL.off || off == BUF.INPUT_SEL.EP.off || off == BUF.BANK_SEL.BANK.off
  | .voq => off == VOQ.VOQ_SEL.INDEX.off
  | .sch => off == SCH.PORT_SEL.EP.off || (0x54 ≤ off && off ≤ 0x64)
  | .blk => off == BLK.PORT_SEL.PORT.off || off == BLK.REQ_ADDR.WORD.off || off == BLK.RSP_ADDR.WORD.off
      || (0x78 ≤ off && off ≤ 0x88)
  | .tal => off == TAL.CNT_SEL.INDEX.off || off == TAL.SMP_SEL.SMP.off || off == TAL.WATCH_SEL.SET.off
      || off == TAL.CNT_HI.COUNT_HI.off
  | .ref => off == REF.SLOT_SEL.SLOT.off
  | .evt => off == EVT.EVT_SEL.EVT.off
  | .dbl => off == DBL.RED_SEL.PAIR.off || (0x6C ≤ off && off ≤ 0x7C)
  | .syn => off == SYN.SYN_SEL.SYN.off || off == SYN.PLAN_SEL.PLAN.off
  | .out => off == OUT.OUT_SEL.OUT.off
  | .lnk => off == LNK.TRIM_SEL.INDEX.off
  | .gcl => off == GCL.BANK_SEL.BANK.off || off == GCL.WINMAX_SEL.CLASS.off || (0x7C ≤ off && off ≤ 0x8C)
  | _ => false

end Sys2Proof.Machine
end

