-- ==== Sys2Proof/Machine/Ops.lean ====
section
/-!
DEFINITION. Machine/Ops.lean: the named operations that every family shares: raising interrupts (R395, R401), capturing
errors (R394, R399), counting (R367, R375), recording (R379, R382), time values (R206, R429), free values, who may
write a page (R306, R307), which island a page lies in (R392, R77), native words of the tables (R21, R428), and DRAM
bytes (R377).
-/
namespace Sys2Proof.Machine

/-! ### Lifting to the machine -/

/-- A command that changes the device only. -/
def onDev (f : Dev → Dev) (s : State) : Host.Outcome State Fault Refusal := .next { s with dev := f s.dev }

/-- A command that also reads or writes DRAM bytes. -/
def onMem (f : Dev → List Host.Cell → Dev × List Host.Cell) (s : State) : Host.Outcome State Fault Refusal :=
  let r := f s.dev s.dram
  .next { s with dev := r.1, dram := r.2 }

/-- An event that cannot occur in the present state changes nothing (DESIGN CHOICE, log entry 6). -/
def Dev.when (d : Dev) (c : Bool) (f : Dev → Dev) : Dev := if c then f d else d

/-- Something leaves the device (log entry 5). -/
def Dev.emit (d : Dev) (o : Output) : Dev := { d with out := o :: d.out }

/-- A free value and the device that has taken it (log entry 2). -/
def Dev.free (d : Dev) : Nat × Dev := (Config.freeNat d.freeCtr, { d with freeCtr := d.freeCtr + 1 })

/-! ### Time values (R206) -/

/-- One nanosecond in units of 2^-40 ns. -/
abbrev nsU : Nat := 1099511627776

/-- One second in units of 2^-40 ns. -/
abbrev secU : Nat := 1000000000 * nsU

/-- The time at which the 48-bit seconds wrap. -/
abbrev timeWrap : Nat := 2 ^ 48 * secU

def secOf (t : Nat) : Nat := t / secU % 2 ^ 48
def nsOf (t : Nat) : Nat := t % secU / nsU
/-- The visible fraction, in 2^-16 ns. -/
def fracOf (t : Nat) : Nat := t % nsU / 2 ^ 24

def mkTime (sec ns frac16 : Nat) : Nat := sec * secU + ns * nsU + frac16 * 2 ^ 24

/-- R429: the instant whose seconds have the given low 32 bits, nearest to `now`; of two equally near, the later
(DEDUCED, log entry 7). -/
def nearest (now sec32 ns : Nat) : Nat :=
  let m := 2 ^ 32 * secU
  let base := now / m * m + sec32 % 2 ^ 32 * secU + ns * nsU
  if base + m / 2 ≤ now then base + m
  else if now + m / 2 < base ∧ m ≤ base then base - m
  else base

def Dev.untrace (d : Dev) : Bool := !d.flag TMB.page TMB.TMB_STAT.TRACEABLE

/-! ### Interrupts (R395, R401) -/

/-- A page's owner field (R306). -/
def Dev.owner (d : Dev) (page : Nat) : Nat := d.get page COM.CTRL.OWNER

def Dev.intPend (d : Dev) (page : Nat) : Word := d.rd page 0x10 &&& d.rd page 0x14

/-- Where a page's INT_PEND is delivered: function 0 takes HOST and SHARED pages and MBX[0], function 1 SECURE pages
and MBX[1]. -/
def Dev.deliversTo (d : Dev) (fn page : Nat) : Bool :=
  match pageOf page with
  | some (.mbx, i) => fn == i
  | some _ => if fn = 0 then d.owner page == 0 || d.owner page == 3 else d.owner page == 2
  | none => false

/-- Whether a page asserts its interrupt: INT_PEND, or a CROSSED channel whatever INT_EN shows (R318). -/
def Dev.asserted (d : Dev) (page : Nat) : Bool :=
  d.intPend page != 0 || ((page == MBX.page 0 || page == MBX.page 1) && d.rd page MBX.MB_CROSSED.CROSSED.off != 0)

/-- The summary bit of a page as one function sees it. -/
def Dev.summaryBit (d : Dev) (fn page : Nat) : Bool := d.deliversTo fn page && d.asserted page

/-- The vectors a page's pending interrupt sends: 16 of function 0, the only one of function 1, and the cores' own
for FIRMWARE and SHARED pages (R401, R332). -/
def Dev.sendSummary (d : Dev) (page : Nat) : Dev :=
  let d := if d.summaryBit 0 page then d.emit (.vector 0 16) else d
  let d := if d.summaryBit 1 page then d.emit (.vector 1 0) else d
  if d.asserted page && (d.owner page == 1 || d.owner page == 3) then d.emit (.coreInt 0 "page") else d

/-- INT_RAW bits raised by an event; a summary bit that goes from 0 to 1 sends its vector. -/
def Dev.raiseBits (d : Dev) (page : Nat) (bits : Word) : Dev :=
  let before := d.asserted page
  let d := d.wr page 0x10 (d.rd page 0x10 ||| bits)
  if !before && d.asserted page then d.sendSummary page else d

/-- One INT_RAW bit raised; `n` is the offset inside a field of several bits. -/
def Dev.raise (d : Dev) (page : Nat) (f : Field) (n : Nat := 0) : Dev :=
  d.raiseBits page (BitVec.ofNat 32 (2 ^ (f.lo + n)))

/-! ### Errors (R394, R399) -/

/-- R332: vector 17 of function 0 tells of an error on the PCI page. -/
def Dev.pciError (d : Dev) (page : Nat) : Dev := if page = PCI.page then d.emit (.vector 0 17) else d

/-- An error captured: CODE, DETAIL and the time are overwritten and COUNT advances, saturating at 15. -/
def Dev.err (d : Dev) (page code detail : Nat) : Dev :=
  let d := d.set page COM.ERR_INFO.VALID 1
  let d := d.set page COM.ERR_INFO.CODE code
  let d := d.incSat page COM.ERR_INFO.COUNT
  let d := d.set page COM.ERR_INFO.DETAIL detail
  let d := d.set page COM.ERR_TIME_NS.NS (nsOf d.now)
  let d := d.set page COM.ERR_TIME_FRAC.SEC_LO (secOf d.now)
  (d.set page COM.ERR_TIME_FRAC.FRAC (fracOf d.now)).pciError page

/-! ### Tally counters and samplers (R367, R375) -/

/-- The counters of the cores' own execution (R370), whose values are free (log entry 127). -/
def coreCounter (i : Nat) : Bool := decide (0xF00 ≤ i) && decide (i ≤ 0xF27)

/-- What a counter has counted. -/
def Dev.counter (d : Dev) (i : Nat) : Nat := tget (fun _ => 0) d.tally i

/-- A counter as it reads. -/
def Dev.countShown (d : Dev) (i : Nat) : Nat := if coreCounter i then (Config.coreCount i d.now).toNat else d.counter i

/-- Whether sampler `k` watches counter `i`. -/
def Dev.samples (d : Dev) (i k : Nat) : Bool :=
  d.flag TAL.page TAL.SMP_CFG.EN k && d.get TAL.page TAL.SMP_CFG.INDEX k == i

/-- Source numbers (R224) of receive, transmit and soft stamps by lane index. -/
def rxSrc (lane : Nat) : Nat := if lane < 48 then 0x040 + lane else 0x070 + (lane - 48)
def txSrc (lane : Nat) : Nat := if lane < 48 then 0x080 + lane else 0x0B0 + (lane - 48)
def softSrc (lane : Nat) : Nat := if lane < 48 then 0x100 + lane else 0x132

/-- The source number of the block that counts an event (R371, R224); which block counts what is DEDUCED from the
names of R368 to R370 (log entry 124). -/
def countSrc (i : Nat) : Nat :=
  if i < 0x660 then
    let lane := i / 32
    let n := i % 32
    if n ≤ 7 ∨ (24 ≤ n ∧ n ≤ 30) then rxSrc lane
    else if n ≤ 14 ∨ n = 31 then txSrc lane
    else if n ≤ 19 then 0x0C0 + lane
    else if n = 20 then 0x024
    else if n = 23 then 0x023 else 0x022
  else if i < 0x700 then (if i = 0x678 then 0x021 else 0x020)
  else if i < 0x780 then (if 0x710 ≤ i ∧ i ≤ 0x713 then 0x023 else 0x022)
  else if i < 0x800 then (if 0x790 ≤ i then 0x025 else 0x026)
  else if i < 0xB20 then 0x024
  else if i < 0xD20 then 0x020
  else if i < 0xD30 then 0x000
  else if i < 0xD48 then 0x001
  else if i < 0xD60 then 0x006 + i % 4
  else if i < 0xD80 then 0x018 + i % 8
  else if i < 0xE00 then 0x002
  else if i < 0xF40 then 0x034
  else if i < 0xF80 then 0x032
  else if i < 0xF90 then 0x031
  else if i = 0xF90 then 0x003 else 0x004

/-- Whether an event goes before the freeze (R373, R225), ordered at its instant with source 0x027: the armed one, or
one that a COMMIT may make at this tick. -/
def Dev.beforeFreeze (d : Dev) (t src : Nat) : Bool :=
  let f := d.freezeAt.getD d.now
  decide (t < f) || (t == f && decide (src < 0x027))

/-- A counter advanced, wrapping at 2^48, with the samplers that watch it. The event's time and source decide whether
it falls in a snapshot (R371): one that reaches Tally while the snapshot is collected is added to it, one that lies
past the instant of an armed freeze, or comes after one that this tick can bring, is kept apart. -/
def Dev.countAt (d : Dev) (i n t src : Nat) : Dev :=
  let early := d.beforeFreeze t src
  let d := { d with
    tally := tset (fun _ => 0) d.tally i ((d.counter i + n) % 2 ^ 48)
    snap := if d.collecting && early then tset (fun _ => 0) d.snap i ((tget (fun _ => 0) d.snap i + n) % 2 ^ 48) else d.snap
    snapLate := if d.collecting || early then d.snapLate
      else tset (fun _ => 0) d.snapLate i (tget (fun _ => 0) d.snapLate i + n) }
  [0, 1, 2, 3].foldl (fun d k =>
    if d.samples i k then { d with smpCount := tset (fun _ => 0) d.smpCount k (tget (fun _ => 0) d.smpCount k + n) }
    else d) d

/-- An event counted where and when it occurs. -/
def Dev.count (d : Dev) (i : Nat) (n : Nat := 1) : Dev := d.countAt i n d.now (countSrc i)

/-- The counter of event `n` of R369 of a lane index (R77, R368). -/
def laneCounter (lane n : Nat) : Nat := (if lane < 48 then 32 * lane else 0x600 + 32 * (lane - 48)) + n

def Dev.countLane (d : Dev) (lane n : Nat) (k : Nat := 1) : Dev := d.count (laneCounter lane n) k

/-- A frame's event counted at its stamp (R371). -/
def Dev.countFrame (d : Dev) (lane n k stamp : Nat) : Dev :=
  d.countAt (laneCounter lane n) k stamp (countSrc (laneCounter lane n))

/-! ### Islands (R351, R392, R77) -/

def Dev.released (d : Dev) (unit : Nat) : Bool := tget (fun _ => false) d.rel unit

def Dev.setReleased (d : Dev) (unit : Nat) (b : Bool) : Dev :=
  { d with rel := tset (fun _ => false) d.rel unit b }

/-- Felt's unit number in `rel`. -/
abbrev unitFelt : Nat := 4

/-- A lane index's unit number in `rel`. -/
abbrev unitLane (lane : Nat) : Nat := 64 + lane

/-- The lane index of a page in a lane island; TSU[48] is ML's (R393). -/
def laneOfPage (t : PageType) (i : Nat) : Nat := if t = .tsu ∧ i = 48 then 50 else i

/-- Whether the island of a page is out of reset (R392); the always-on logic always is. -/
def Dev.pageUp (d : Dev) (page : Nat) : Bool :=
  match pageOf page with
  | none => true
  | some (t, i) =>
    match t.island with
    | 0 => true
    | 3 => d.released (unitLane (laneOfPage t i))
    | n => d.released n

/-- The crossing index (R77) that an access to a page goes through; none inside Felt and the always-on logic. -/
def crossingOf (page : Nat) : Option Nat :=
  match pageOf page with
  | none => none
  | some (t, i) =>
    match t.island with
    | 1 => if t = .drm then some 53 else none
    | 2 => some 51
    | 3 => some (laneOfPage t i)
    | 5 => some 52
    | 6 => some 54
    | 7 => some 55
    | _ => none

/-- The state of a crossing (R83): 0 OPEN, 1 HELD, 2 RESYNC, 3 RESET. -/
def Dev.xing (d : Dev) (i : Nat) : Nat := d.get FAB.page FAB.XING_STAT.STATE i

/-- Whether a page's island clock has stopped (R78), so that control transfers wait. -/
def Dev.pageHeld (d : Dev) (page : Nat) : Bool :=
  match crossingOf page with
  | some i => d.flag FAB.page FAB.XING_STAT.CLK_STOP i
  | none => false

/-! ### The flight recorder's writer (R381, R382) -/

/-- The crossing that a source's records come through (R224, R77): the time-base island, PCIe, DRAM, the service cores,
the Crown island, a lane; none of a block in Felt or in the keep-alive domain. -/
def srcCrossing (src : Nat) : Option Nat :=
  if src ≤ 0x002 ∨ (0x018 ≤ src ∧ src ≤ 0x01F) then some 51
  else if src = 0x032 then some 52
  else if src = 0x033 then some 53
  else if 0x034 ≤ src ∧ src ≤ 0x038 then some 54
  else if src = 0x030 ∨ src = 0x031 then some 55
  else if 0x0C0 ≤ src ∧ src ≤ 0x0EF then some (src - 0x0C0)
  else none

/-- A record offered to the writer by a block's source number, LATE when its island's crossing is not open. Beyond
4,096 held records the newest is discarded and counted. -/
def Dev.record (d : Dev) (src typ : Nat) (data : Nat) (late : Bool := false) (time : Nat := d.now) : Dev :=
  if !(d.released unitFelt && d.flag LOG.page LOG.LOG_CFG.EN) then d
  else if 4096 ≤ d.logHeld.length then
    let d := { d with logLost := d.logLost + 1 }
    (d.incSat LOG.page LOG.LOST_CNT.COUNT).raise LOG.page LOG.INT_RAW.LOST
  else
    let late := late || (match srcCrossing src with | some i => d.xing i != 0 | none => false)
    { d with logHeld := d.logHeld ++ [⟨time, src, typ, d.untrace, late, BitVec.ofNat 64 data⟩] }

/-- A record the sequencer keeps in the always-on logic and delivers at Felt release (R381). -/
def Dev.recordAlwaysOn (d : Dev) (typ data : Nat) : Dev :=
  { d with lockSites := d.lockSites ++ [⟨d.now, 0x003, typ, d.untrace, true, BitVec.ofNat 64 data⟩] }

/-! ### Who may write (R306, R307, R345) -/

/-- Whether a page's owner field makes an accessor its owner. The controller's writes count as host writes; on a
SECURE page the secure core and PCIe function 1 are the owner. -/
def Dev.owns (d : Dev) (acc : Accessor) (page : Nat) : Bool :=
  match pageOf page with
  | some (.mbx, i) => acc != .host0 || i == 0
  | none => true
  | some _ =>
    match d.owner page, acc with
    | 0, .host0 => true
    | 0, .controller => true
    | 1, .firmware => true
    | 1, .sec => true
    | 2, .host1 => true
    | 2, .sec => true
    | 3, .host0 => true
    | 3, .controller => true
    | 3, .firmware => true
    | 3, .sec => true
    | _, _ => false

/-- A write by a non-owner: discarded, counted and captured with 0x0E and the register's offset (R307). -/
def Dev.refuseWrite (d : Dev) (page off : Nat) : Dev := (d.count 0xF42).err page 0x0E off

/-- An access to a page whose island is held in reset completes at once and is counted (R392). -/
def Dev.accessInReset (d : Dev) (page : Nat) : Dev :=
  { d with accStat := (min (d.accStat / 65536 + 1) 65535) * 65536 + page % 65536 }

/-- A control transfer waits at the stopped crossing of its page (R78, R80). -/
def Dev.holdTransfer (d : Dev) (acc : Accessor) (page : Nat) (writes : List (Nat × Word)) : Dev :=
  { d with held := d.held ++ writes.map (fun w => ⟨(crossingOf page).getD 0, acc, page, w.1, w.2, true, false, []⟩) }

/-- Whether the host holds a page with PAGE HOLD (R311). -/
def Dev.hostHolds (d : Dev) (page : Nat) : Bool := (tget (fun _ => none) d.pageHolds page).isSome

/-- The registers of a page's entry window. -/
structure EntryWin where
  page : Nat
  table : Option Field
  word : Option Field
  index : Field
  lo : Field
  mid : Field
  ecc : Field
  result : Field

def lkpWin : EntryWin := ⟨LKP.page, some LKP.ENTRY_ADDR.TABLE, some LKP.ENTRY_ADDR.WORD, LKP.ENTRY_ADDR.INDEX,
  LKP.ENTRY_LO.DATA_LO, LKP.ENTRY_MID.DATA_MID, LKP.ENTRY_HI.ECC, LKP.ENTRY_CMD.RESULT⟩
def mtrWin : EntryWin := ⟨MTR.page, some MTR.ENTRY_ADDR.TABLE, some MTR.ENTRY_ADDR.WORD, MTR.ENTRY_ADDR.INDEX,
  MTR.ENTRY_LO.DATA_LO, MTR.ENTRY_MID.DATA_MID, MTR.ENTRY_HI.ECC, MTR.ENTRY_CMD.RESULT⟩
def schWin : EntryWin := ⟨SCH.page, some SCH.ENTRY_ADDR.TABLE, some SCH.ENTRY_ADDR.WORD, SCH.ENTRY_ADDR.INDEX,
  SCH.ENTRY_LO.DATA_LO, SCH.ENTRY_MID.DATA_MID, SCH.ENTRY_HI.ECC, SCH.ENTRY_CMD.RESULT⟩
def blkWin : EntryWin := ⟨BLK.page, some BLK.ENTRY_ADDR.TABLE, some BLK.ENTRY_ADDR.WORD, BLK.ENTRY_ADDR.INDEX,
  BLK.ENTRY_LO.DATA_LO, BLK.ENTRY_MID.DATA_MID, BLK.ENTRY_HI.ECC, BLK.ENTRY_CMD.RESULT⟩
def dblWin : EntryWin := ⟨DBL.page, some DBL.ENTRY_ADDR.TABLE, none, DBL.ENTRY_ADDR.INDEX,
  DBL.ENTRY_LO.DATA_LO, DBL.ENTRY_MID.DATA_MID, DBL.ENTRY_HI.ECC, DBL.ENTRY_CMD.RESULT⟩
def crnWin : EntryWin := ⟨CRN.page, some CRN.ENTRY_ADDR.TPL, some CRN.ENTRY_ADDR.WORD, CRN.ENTRY_ADDR.TPL,
  CRN.ENTRY_LO.DATA_LO, CRN.ENTRY_MID.DATA_MID, CRN.ENTRY_HI.ECC, CRN.ENTRY_CMD.RESULT⟩
def gclWin (port : Nat) : EntryWin := ⟨GCL.page port, some GCL.ENTRY_ADDR.BANK, none, GCL.ENTRY_ADDR.INDEX,
  GCL.ENTRY_LO.DATA_LO, GCL.ENTRY_MID.DATA_MID, GCL.ENTRY_HI.ECC, GCL.ENTRY_CMD.RESULT⟩

/-- The window of a page type's instance. -/
def winOf (t : PageType) (i : Nat) : Option EntryWin :=
  match t with
  | .lkp => some lkpWin | .mtr => some mtrWin | .sch => some schWin | .blk => some blkWin
  | .dbl => some dblWin | .crn => some crnWin | .gcl => some (gclWin i) | _ => none

def winKey (page : Nat) (acc : Accessor) : Nat := page * 8 + acc.idx

/-- What an accessor's window holds beside its registers. -/
def Dev.winBuf (d : Dev) (page : Nat) (acc : Accessor) : WinBuf := tget (fun _ => ⟨[], []⟩) d.wins (winKey page acc)

/-- The writes that put an accessor's selectors and windows of a page as they stand, the commands among their registers
left out: the words collected for an entry, a Blocker request's words, the selectors. -/
def Dev.windowWrites (d : Dev) (acc : Accessor) (page : Nat) : List (Nat × Word) :=
  match pageOf page with
  | none => []
  | some (t, i) =>
    let own (f : Field) : Nat × Word := (f.off, d.rd page f.off acc.idx)
    let entry := match winOf t i with
      | none => []
      | some w =>
        let addr := d.rd page w.index.off acc.idx
        let part (k : Nat) (v : Data) : List (Nat × Word) :=
          [(w.index.off, match w.word with | some f => setBits addr f.lo f.wd k | none => addr),
            (w.lo.off, v.truncate 32), (w.mid.off, (v >>> 32).truncate 32)]
        ((d.winBuf page acc).parts.map (fun e => part e.1 e.2)).flatten ++ [own w.index, own w.lo, own w.mid]
    let request := if t != .blk then [] else ((List.range 4).map (fun k =>
        let sel := acc.idx * 4 + k
        [(BLK.REQ_ADDR.WORD.off, BLK.REQ_ADDR.WORD.mask &&& BitVec.ofNat 32 (k * 2 ^ BLK.REQ_ADDR.WORD.lo)),
          (BLK.REQ_LO.DATA_LO.off, d.rd page BLK.REQ_LO.DATA_LO.off sel),
          (BLK.REQ_MID.DATA_MID.off, d.rd page BLK.REQ_MID.DATA_MID.off sel)])).flatten
    let skip : List Nat := match winOf t i with
      | some w => [w.index.off, w.lo.off, w.mid.off, w.ecc.off, w.result.off]
      | none => []
    let sels := ((layoutOf t).filter (fun f => perAccessor t f.off && !skip.contains f.off)).map own
    request ++ sels ++ entry

/-- Firmware queues its own changes of a page that the host holds (R311), each with the selectors and the window that
it was made with. -/
def Dev.fwDefer (d : Dev) (acc : Accessor) (page : Nat) (writes : List (Nat × Word)) : Dev :=
  { d with fwLater := d.fwLater ++ (d.windowWrites acc page ++ writes).map (fun w => ⟨0, acc, page, w.1, w.2, true, false, []⟩) }

/-- What an accessor may do with a page is done, or refused as a non-owner's write; an access to a page whose island
is in reset is discarded and counted (R392); at a stopped crossing the register writes that the command stands for
wait (R80). -/
def Dev.asOwner (d : Dev) (acc : Accessor) (page off : Nat) (f : Dev → Dev) (writes : List (Nat × Word) := []) : Dev :=
  if !d.pageUp page then d.accessInReset page
  else if d.pageHeld page then d.holdTransfer acc page writes
  else if acc.isFw && d.hostHolds page then d.fwDefer acc page writes
  else if d.owns acc page then f d
  else d.refuseWrite page off

/-- An access that every accessor may make (R307): it completes at once where the island is in reset (R392) and waits
at a stopped crossing (R80). -/
def Dev.asAny (d : Dev) (acc : Accessor) (page : Nat) (f : Dev → Dev) (writes : List (Nat × Word) := []) : Dev :=
  if !d.pageUp page then d.accessInReset page
  else if d.pageHeld page then d.holdTransfer acc page writes
  else f d

/-- The one write that sets a command bit. -/
def Field.strike (f : Field) : List (Nat × Word) := [(f.off, f.mask)]

/-- The write of COMMIT.GO that ends a list of shadow writes. -/
def thenCommit (writes : List (Nat × Word)) : List (Nat × Word) := writes ++ COM.COMMIT.GO.strike

/-! ### DRAM bytes (R377, R378) -/

/-- What a byte of DRAM reads as (log entry 4): what was last written, or 0. -/
def memByte (m : List Host.Cell) (a : Nat) : BitVec 8 := tget (fun _ => 0) m a

def memSetByte (m : List Host.Cell) (a : Nat) (b : BitVec 8) : List Host.Cell := tset (fun _ => 0) m a b

/-- Bytes stored upwards from an address. -/
def memWrite : List Host.Cell → Nat → List (BitVec 8) → List Host.Cell
  | m, _, [] => m
  | m, a, b :: bs => memWrite (memSetByte m a b) (a + 1) bs

/-- `n` bytes read upwards from an address. -/
def memRead (m : List Host.Cell) (a : Nat) : Nat → List (BitVec 8)
  | 0 => []
  | n + 1 => memByte m a :: memRead m (a + 1) n

/-- A word's bytes, least significant first (R313). -/
def bytesLE : Nat → Nat → List (BitVec 8)
  | 0, _ => []
  | n + 1, x => BitVec.ofNat 8 x :: bytesLE n (x / 256)

/-- The number that bytes spell, least significant first. -/
def ofBytesLE : List (BitVec 8) → Nat
  | [] => 0
  | b :: bs => b.toNat + 256 * ofBytesLE bs

/-- The number that bytes spell, most significant first (R22). -/
def ofBytesBE (bs : List (BitVec 8)) : Nat := bs.foldl (fun n b => n * 256 + b.toNat) 0

def bytesBE (n x : Nat) : List (BitVec 8) := (bytesLE n x).reverse

/-- The bytes of a range erased: they read 0 again. -/
def memZero (m : List Host.Cell) (lo len : Nat) : List Host.Cell := tkeep (fun a => a < lo || lo + len ≤ a) m

/-- The canonical form of memory: addresses strictly rising, no entry equal to what an unlisted address reads as. -/
abbrev Memory.wf (m : List Host.Cell) : Bool := twf (fun _ => 0) m

end Sys2Proof.Machine
end

