-- ==== Sys2Proof/Machine/Tables.lean ====
section
/-!
DEFINITION. Machine/Tables.lean: the entry tables, held as native words (R21, R91, R150): their numbering in State,
their reset contents, reading a word through its check byte (R428), and bit fields of words.
-/
namespace Sys2Proof.Machine

/-- The tables State holds. -/
inductive TableId where
  | port | vlan | fdb | mcast | sid | filter | aclKey | aclAct | gate | gateList | punt
  | meterCfg
  | voqAttach | subNode | svcNode | portNode | voqHwm | portHwm
  | gcl | launch | reservation | gen | recv | template | notice
  deriving DecidableEq, Repr

def TableId.num : TableId → Nat
  | .port => 0 | .vlan => 1 | .fdb => 2 | .mcast => 3 | .sid => 4 | .filter => 5 | .aclKey => 6 | .aclAct => 7
  | .gate => 8 | .gateList => 9 | .punt => 10
  | .meterCfg => 16
  | .voqAttach => 32 | .subNode => 33 | .svcNode => 34 | .portNode => 35 | .voqHwm => 36 | .portHwm => 37
  | .gcl => 48 | .launch => 49 | .reservation => 50 | .gen => 51 | .recv => 52 | .template => 53 | .notice => 54

/-- The key of a word of a table. A gate control list entry is numbered (port × 2 + bank) × 1,024 + entry, a template's
words run through one entry of 64, a held notice is numbered 2 × channel + direction. -/
def tkey (t : TableId) (index word : Nat) : Nat := (t.num * 1048576 + index) * 64 + word

/-- Bits [hi:lo] of a word, as a number. -/
def bitsOf (w : Data) (hi lo : Nat) : Nat := w.toNat / 2 ^ lo % 2 ^ (hi + 1 - lo)

def bitOf (w : Data) (i : Nat) : Bool := w.toNat.testBit i

/-- A word with bits [hi:lo] replaced. -/
def putBits (w : Data) (hi lo v : Nat) : Data :=
  BitVec.ofNat 64 (w.toNat - bitsOf w hi lo * 2 ^ lo + v % 2 ^ (hi + 1 - lo) * 2 ^ lo)

/-- The bits [hi:lo] of a word. -/
def onesOf (hi lo : Nat) : Data := BitVec.ofNat 64 (2 ^ (hi + 1) - 2 ^ lo)

/-- The bits of a table's word that its chapter gives a meaning; the others are reserved, read 0 and drop what is
written to them (R20): R92 to R100, R104, R112, R150's tables, R172, R174, R293, R344. -/
def tableMask (t : TableId) (w : Nat) : Data :=
  match t with
  | .port => onesOf 51 29 ||| onesOf 23 0
  | .vlan => if w = 0 then onesOf 61 0 else onesOf 50 0
  | .fdb => ~~~onesOf 45 45
  | .mcast => onesOf 63 63 ||| onesOf 49 0
  | .filter => onesOf 63 15
  | .aclKey => if w % 3 = 0 then ~~~onesOf 40 40 else onesOf 63 0
  | .aclAct => onesOf 63 32
  | .gate => onesOf 63 4
  | .gateList => onesOf 63 4
  | .punt => onesOf 63 21
  | .meterCfg => if w = 0 then onesOf 63 10 else onesOf 63 16
  | .voqAttach => onesOf 19 0
  | .subNode => if w = 0 then onesOf 63 23 else onesOf 63 40
  | .svcNode => if w = 0 then onesOf 63 35 else onesOf 63 40
  | .portNode => if w = 0 then onesOf 63 47 else onesOf 63 40
  | .gcl => onesOf 63 55 ||| onesOf 53 11
  | .launch => if w = 0 then onesOf 63 31 else onesOf 63 4
  | .gen => onesOf 63 45
  | .template => if w = 0 then onesOf 63 31 else if w = 1 then onesOf 47 0 else onesOf 63 0
  | .sid => onesOf 63 0
  | .recv => onesOf 63 0
  | .voqHwm => onesOf 63 0
  | .portHwm => onesOf 63 0
  | .reservation => onesOf 63 0
  | .notice => onesOf 63 0

/-- The words of an entry without their reserved bits; in an ACL key and its mask those of the entry's key type too
(R98). -/
def maskWords (t : TableId) (ws : List Data) : List Data :=
  let kind := bitsOf (ws.headD 0) 63 62
  ws.zipIdx.map (fun x =>
    let v := x.1 &&& tableMask t x.2
    if t == .aclKey && x.2 % 3 == 2 then
      (if kind = 0 then v &&& onesOf 63 56 else if kind = 1 then v &&& ~~~onesOf 48 48 else v)
    else v)

/-- Reset contents of the port table (R92). -/
def resetPortEntry : Data := BitVec.ofNat 64 (1 * 2 ^ 40 + 2 ^ 31 + 2 ^ 30 + 0xB6C688)

/-- Reset contents of the VLAN table (R91): VLAN 1 with members P00–P47 and EP48, untagged P00–P47, FID 1. -/
def resetVlan (vid word : Nat) : Data :=
  if vid = 1 then
    (if word = 0 then BitVec.ofNat 64 (1 * 2 ^ 50 + (2 ^ 49 - 1)) else BitVec.ofNat 64 (2 ^ 50 + (2 ^ 48 - 1)))
  else 0

/-- Reset contents of the punt policers (R112): rate, burst and class of reasons 0x01 to 0x09. -/
def resetPunt (reason : Nat) : Data :=
  let e (rate burst tc : Nat) : Data := BitVec.ofNat 64 (rate * 2 ^ 40 + burst * 2 ^ 24 + tc * 2 ^ 21)
  match reason with
  | 1 => e 100000 256 5 | 2 => e 50000 256 4 | 3 => e 10000 64 4 | 4 => e 10000 64 4 | 5 => e 20000 128 4
  | 6 => e 10000 64 4 | 7 => e 100000 256 4 | 8 => e 1000000 1024 4 | 9 => e 10000 64 4
  | _ => 0

/-- Reset contents of the hierarchy (R150): strict priority from TC5 down to TC0 at every output. -/
def resetSch (t : TableId) (i w : Nat) : Data :=
  match t with
  | .voqAttach =>
    let cls := i % 8
    let out := i / 8 % 50
    if cls < 6 ∧ i < 20000 ∧ w = 0 then BitVec.ofNat 64 (16 * 2 ^ 12 + (out * 6 + cls)) else 0
  | .subNode =>
    if i < 300 then
      if w = 0 then BitVec.ofNat 64 (2 ^ 63 + i / 6 * 2 ^ 57 + i % 6 * 2 ^ 54 + i % 6 * 2 ^ 51 + 16 * 2 ^ 40)
      else if w = 1 then BitVec.ofNat 64 (16384 * 2 ^ 40) else 0
    else 0
  | .svcNode =>
    if i < 400 ∧ i % 8 < 6 then
      if w = 0 then BitVec.ofNat 64 (2 ^ 63 + i % 8 * 2 ^ 60 + 16 * 2 ^ 52)
      else if w = 1 then BitVec.ofNat 64 (16384 * 2 ^ 40) else 0
    else 0
  | .portNode => if i < 50 ∧ w = 1 then BitVec.ofNat 64 (16384 * 2 ^ 40) else 0
  | _ => 0

/-- The reset contents of a table word. -/
def resetEntry (t : TableId) (i w : Nat) : Data :=
  match t with
  | .port => if i < 50 ∧ w = 0 then resetPortEntry else 0
  | .vlan => resetVlan i w
  | .punt => if w = 0 then resetPunt i else 0
  | .voqAttach => resetSch .voqAttach i w
  | .subNode => resetSch .subNode i w
  | .svcNode => resetSch .svcNode i w
  | .portNode => resetSch .portNode i w
  | .gcl => if i % 1024 = 0 ∧ w = 0 then BitVec.ofNat 64 (0x7F * 2 ^ 55 + 1000000 * 2 ^ 24) else 0
  | _ => 0

def tableIds : List TableId :=
  [.port, .vlan, .fdb, .mcast, .sid, .filter, .aclKey, .aclAct, .gate, .gateList, .punt, .meterCfg, .voqAttach,
   .subNode, .svcNode, .portNode, .voqHwm, .portHwm, .gcl, .launch, .reservation, .gen, .recv, .template, .notice]

/-- The reset contents by key. -/
def resetTable (k : Nat) : Data :=
  match tableIds.find? (fun t => t.num == k / 67108864) with
  | some t => resetEntry t (k / 64 % 1048576) (k % 64)
  | none => 0

/-- The data bits of a table word as they were written. -/
def Dev.entry (d : Dev) (t : TableId) (i : Nat) (w : Nat := 0) : Data :=
  tget (fun _ => resetEntry t i w) d.tables (tkey t i w)

/-- A table word written: the device computes a new check byte (R400), so no flipped bit remains. -/
def Dev.setEntry (d : Dev) (t : TableId) (i : Nat) (v : Data) (w : Nat := 0) : Dev :=
  { d with
    tables := tset (fun _ => resetEntry t i w) d.tables (tkey t i w) v
    flips := tset (fun _ => 0) d.flips (tkey t i w) 0 }

/-- A latch that the device sets in a word: the word as software last wrote it is remembered (R357). -/
def Dev.deviceMark (d : Dev) (t : TableId) (i : Nat) (v : Data) : Dev :=
  let k := tkey t i 0
  let old := (tget (fun _ => none) d.written k).getD (d.entry t i)
  let d := d.setEntry t i v
  { d with written := tset (fun _ => none) d.written k (some old) }

/-- The 72 bits of a table word as they are stored (R428). -/
def Dev.stored (d : Dev) (t : TableId) (i : Nat) (w : Nat := 0) : Native :=
  encodeNative (d.entry t i w) ^^^ tget (fun _ => 0) d.flips (tkey t i w)

/-- What a read of a table word finds (R428). -/
def Dev.readNative (d : Dev) (t : TableId) (i : Nat) (w : Nat := 0) : EccResult :=
  if tget (fun _ => 0) d.flips (tkey t i w) = 0 then .clean (d.entry t i w)
  else decodeNative (d.stored t i w)

/-- The data a lookup uses: the corrected word, and nothing of an uncorrectable one (it reads as an entry that is not
valid: DESIGN CHOICE, log entry 8). -/
def Dev.lookupWord (d : Dev) (t : TableId) (i : Nat) (w : Nat := 0) : Data :=
  match d.readNative t i w with
  | .clean v => v
  | .corrected v => v
  | .uncorrectable => 0

/-- A table word that the device reads counts where it is corrected or uncorrectable (R428, R370); that these counters
cover the words of the tables is DEDUCED (log entry 99). -/
def Dev.seen (d : Dev) (t : TableId) (i : Nat) (w : Nat := 0) : Dev :=
  match d.readNative t i w with
  | .clean _ => d
  | .corrected _ => d.count 0x707
  | .uncorrectable => d.count 0x708

/-- Words of an entry that the device reads. -/
def Dev.seenWords (d : Dev) (t : TableId) (i words : Nat) : Dev := (List.range words).foldl (fun d w => d.seen t i w) d

/-- Every word of an entry at its reset contents. -/
def Dev.resetEntryWords (d : Dev) (t : TableId) (i words : Nat) : Dev :=
  (List.range words).foldl (fun d w => d.setEntry t i (resetEntry t i w) w) d

/-- Every word of an entry zero. -/
def Dev.zeroEntry (d : Dev) (t : TableId) (i words : Nat) : Dev :=
  (List.range words).foldl (fun d w => d.setEntry t i 0 w) d

/-- The class of a PCP by an endpoint's port entry (R92). -/
def Dev.pcpTc (d : Dev) (ep pcp : Nat) : Nat := (d.lookupWord .port ep).toNat / 2 ^ (3 * pcp) % 8

end Sys2Proof.Machine
end

