-- ==== Sys2Proof/Machine/Buffers.lean ====
section
/-!
DEFINITION. Machine/Buffers.lean: pools, handles and ownership, line groups, virtual output queues, thresholds and
back-pressure, spill, port-down hold (chapter 05, R118 to R146), as operations and as the commands of that chapter.
-/
namespace Sys2Proof.Machine

/-! ### Reading the tables of State -/

def voq0 : Voq := ⟨[], [], false, []⟩
def pool0 : Pool := ⟨0, 0, false, false, false⟩
def bufRec0 : BufRec := ⟨0, 0x7F, false, false⟩
def output0 : Output_ := ⟨none, none, 0⟩

def Dev.voq (d : Dev) (v : Nat) : Voq := tget (fun _ => voq0) d.voqs v
def Dev.setVoq (d : Dev) (v : Nat) (q : Voq) : Dev := { d with voqs := tset (fun _ => voq0) d.voqs v q }
def Dev.pool (d : Dev) (p : Nat) : Pool := tget (fun _ => pool0) d.pools p
def Dev.setPool (d : Dev) (p : Nat) (q : Pool) : Dev := { d with pools := tset (fun _ => pool0) d.pools p q }
def Dev.frame (d : Dev) (n : Nat) : Option Frame := tget (fun _ => none) d.frames n
def Dev.setFrame (d : Dev) (n : Nat) (f : Option Frame) : Dev := { d with frames := tset (fun _ => none) d.frames n f }
def Dev.modFrame (d : Dev) (n : Nat) (g : Frame → Frame) : Dev :=
  match d.frame n with
  | some f => d.setFrame n (some (g f))
  | none => d
def Dev.output (d : Dev) (o : Nat) : Output_ := tget (fun _ => output0) d.outputs o
def Dev.setOutput (d : Dev) (o : Nat) (x : Output_) : Dev := { d with outputs := tset (fun _ => output0) d.outputs o x }
def Dev.hold (d : Dev) (input : Nat) : List Nat := tget (fun _ => []) d.holding input
def Dev.setHold (d : Dev) (input : Nat) (l : List Nat) : Dev :=
  { d with holding := tset (fun _ => []) d.holding input l }

/-- R8. -/
def voqNo (input output tc : Nat) : Nat := (input * 50 + output) * 8 + tc
def voqInput (v : Nat) : Nat := v / 400
def voqOutput (v : Nat) : Nat := v / 8 % 50
def voqTc (v : Nat) : Nat := v % 8

/-- The queue's head that can be served: the SRAM part's, or, once the DRAM tail is empty, the first frame that a
spill left in SRAM (R140). -/
def Voq.head? (q : Voq) : Option Nat :=
  match q.sram with
  | n :: _ => some n
  | [] => if q.tail.isEmpty then q.copying.head? else none

/-- Every frame of the queue, oldest first. -/
def Voq.all (q : Voq) : List Nat := q.sram ++ q.tail ++ q.copying

def Voq.remove (q : Voq) (n : Nat) : Voq :=
  { q with sram := q.sram.filter (· != n), tail := q.tail.filter (· != n), copying := q.copying.filter (· != n) }

/-! ### Pools (R119, R121, R129) -/

def Dev.poolLines (d : Dev) (p : Nat) : Nat := d.get BUF.page BUF.POOL_SIZE.LINES p
def Dev.poolCount (d : Dev) (p : Nat) : Nat := d.get BUF.page BUF.POOL_SIZE.COUNT p
def Dev.bufSize (d : Dev) (p : Nat) : Nat := 64 * d.poolLines p
def Dev.rsvBuf (d : Dev) : Nat := d.get BUF.page BUF.TC7_CFG.RSV_BUF

/-- The pool's shared buffers (R119): all but POOL0's TC7 reserve. -/
def Dev.shared (d : Dev) (p : Nat) : Nat := if p = 0 then d.poolCount 0 - d.rsvBuf else d.poolCount p

def bkey (pool index : Nat) : Nat := pool * 131072 + index

def Dev.bufRec (d : Dev) (pool index : Nat) : BufRec := tget (fun _ => bufRec0) d.bufs (bkey pool index)
def Dev.setBufRec (d : Dev) (pool index : Nat) (r : BufRec) : Dev :=
  { d with bufs := tset (fun _ => bufRec0) d.bufs (bkey pool index) r }

/-- The indices of a pool that are not free to be taken, ascending. -/
def Dev.busyIdx (d : Dev) (p : Nat) : List Nat :=
  (d.bufs.filter (fun e => e.1 / 131072 == p && (e.2.owner != 0x7F || e.2.lost))).map (fun e => e.1 % 131072)

def Dev.allocated (d : Dev) (p : Nat) (tc7 : Bool) : Nat :=
  (d.bufs.filter (fun e => e.1 / 131072 == p && e.2.owner != 0x7F && e.2.tc7 == tc7)).length

def Dev.lostHandles (d : Dev) (p : Nat) : Nat :=
  (d.bufs.filter (fun e => e.1 / 131072 == p && e.2.lost)).length

/-- Free shared buffers (POOL_STAT.FREE). -/
def Dev.poolFree (d : Dev) (p : Nat) : Nat :=
  if d.released unitFelt then d.shared p - d.allocated p false - d.lostHandles p else 0

def Dev.tc7Free (d : Dev) : Nat := if d.released unitFelt then d.rsvBuf - d.allocated 0 true else 0

/-- The k-th index that is not in an ascending list of busy ones. -/
def kthFree : List Nat → Nat → Nat
  | [], k => k
  | b :: bs, k => if b ≤ k then kthFree bs (k + 1) else k

/-- Usage of an input (R135): the sizes of the shared buffers charged to it. -/
def Dev.usage (d : Dev) (input : Nat) : Nat :=
  ((d.bufs.filter (fun e => e.2.owner == input && !e.2.tc7)).map (fun e => d.bufSize (e.1 / 131072))).sum

def Dev.belowMin (d : Dev) (input : Nat) : Bool := d.usage input < 1024 * d.get BUF.page BUF.MIN_RSV.KIB

/-- A level of a pool in buffers (R136). -/
def Dev.level (d : Dev) (p : Nat) (f : Field) : Nat := d.shared p * d.get BUF.page f p / 256

/-- The manager reads batches of 64 handles from the ring while cached and in-flight handles are 448 or fewer (R129). -/
def Dev.refillPool (d : Dev) (p : Nat) : Dev :=
  let q := d.pool p
  let ring := d.poolFree p - q.cached - q.inFlight
  let want := if q.cached + q.inFlight ≤ 448 then (448 - (q.cached + q.inFlight)) / 64 + 1 else 0
  let n := min want (ring / 64) * 64
  let n := if n = 0 ∧ want ≠ 0 then min ring 64 else n
  d.setPool p { q with inFlight := q.inFlight + n }

/-! ### Levels and back-pressure (R135 to R138) -/

/-- One level's flag: reached when FREE is at or below it, left when FREE exceeds it by the hysteresis. -/
def levelFlag (now : Bool) (free level hyst : Nat) : Bool :=
  if free ≤ level then true else if level + hyst ≤ free then false else now

/-- A pool's status after its free count changed: FREE, LOW, the levels and their interrupts (R136). The hysteresis is
rounded down as a level is (DESIGN CHOICE, log entry 139). -/
def Dev.poolStatus (d : Dev) (p : Nat) : Dev :=
  let free := d.poolFree p
  let q := d.pool p
  let hyst := d.level p BUF.POOL_CFG.HYST
  let w := levelFlag q.warn free (d.level p BUF.POOL_CFG.WARN_LVL) hyst
  let pr := levelFlag q.press free (d.level p BUF.POOL_CFG.PRESS_LVL) hyst
  let st := levelFlag q.stop free (d.level p BUF.POOL_CFG.RSV_LVL) hyst
  let d := d.setPool p { q with warn := w, press := pr, stop := st }
  let d := d.set BUF.page BUF.POOL_STAT.FREE free p
  let d := d.set BUF.page BUF.POOL_STAT.LEVEL
    (if free = 0 then 4 else if st then 3 else if pr then 2 else if w then 1 else 0) p
  let d := if free < d.get BUF.page BUF.POOL_LOW.LOW p then d.set BUF.page BUF.POOL_LOW.LOW free p else d
  let d := if w && !q.warn then d.raise BUF.page BUF.INT_RAW.WARN else d
  let d := if pr && !q.press then d.raise BUF.page BUF.INT_RAW.PRESS else d
  if st && !q.stop then d.raise BUF.page BUF.INT_RAW.STOP else d

/-- Whether an input holds a shared buffer of a pool. -/
def Dev.holdsPool (d : Dev) (input p : Nat) : Bool :=
  d.bufs.any (fun e => e.1 / 131072 == p && e.2.owner == input && !e.2.tc7)

/-- The key in State of an input's class's last refused spill; the last key is that of any (SPILL_STAT.REFUSING). -/
def spillKey (input tc : Nat) : Nat := 8 * input + tc
abbrev spillAny : Nat := 400

def Dev.lastRefused (d : Dev) (k : Nat) : Option Nat := tget (fun _ => none) d.refusedAt k
def Dev.setRefused (d : Dev) (k : Nat) (t : Option Nat) : Dev :=
  { d with refusedAt := tset (fun _ => none) d.refusedAt k t }

/-- Whether a refusal lies within the last 1 ms (SPILL_STAT.REFUSING); an input's class counts as refused as long (R136;
DESIGN CHOICE, log entry 100). -/
def Dev.refusing (d : Dev) (k : Nat) : Bool :=
  match d.lastRefused k with
  | some t => decide (d.now < t + 1000000 * nsU)
  | none => false

/-- A class of an input that cannot spill (R136): TC0 to TC3 with SPILL_CFG.EN clear, or while its spills are refused.
-/
def Dev.cannotSpill (d : Dev) (input tc : Nat) : Bool :=
  !(d.get VOQ.page VOQ.SPILL_CFG.EN).testBit tc || d.refusing (spillKey input tc)

/-- The classes of an input that the levels of one pool back-pressure (R136). -/
def Dev.bpOfPool (d : Dev) (input p : Nat) : Nat :=
  let q := d.pool p
  let above := !d.belowMin input
  let press := if q.press && above && d.holdsPool input p then
    ([0, 1, 2, 3].filter (d.cannotSpill input)).foldl (fun m c => m ||| 2 ^ c) 0 else 0
  let stop := if q.stop && above && d.holdsPool input p then 0x7F else 0
  press ||| stop

/-- The length a buffer is chosen for (R125): the actual length of a frame that has ended, else its L3 hint, else
2,048 bytes received take a POOL3 buffer. A hint above POOL3's size takes a POOL3 buffer too (DESIGN CHOICE, log entry
101). -/
def Frame.bufLen (f : Frame) (pool3 : Nat) : Option Nat :=
  if f.ended then some f.len
  else match f.hint with
    | some h => some (min h pool3)
    | none => if 2048 ≤ f.len then some pool3 else none

/-- The class of the frame at the head of an input's holding area while it waits for a buffer (R124); one whose length
is not yet known waits for its length, not for a buffer (R125). -/
def Dev.waitingTc (d : Dev) (input : Nat) : Nat :=
  match d.hold input with
  | [] => 0
  | n :: _ => match d.frame n with
    | some f => if f.tc < 7 && (f.bufLen 0).isSome then 2 ^ f.tc else 0
    | none => 0

/-- An input's back-pressure: the union over the pools and its waiting frame (R124, R136). -/
def Dev.bpOf (d : Dev) (input : Nat) : Nat :=
  d.bpOfPool input 0 ||| d.bpOfPool input 1 ||| d.bpOfPool input 2 ||| d.bpOfPool input 3 ||| d.waitingTc input

/-- The priorities whose class is in a mask and may be sent PFC (R138). -/
def Dev.pfcPriorities (d : Dev) (port mask : Nat) : Nat :=
  (List.range 8).foldl (fun m p =>
    let c := d.pcpTc port p
    if mask.testBit c && (d.get (PRT.page port) PRT.PORT_CFG.PFC_EN).testBit c then m ||| 2 ^ p else m) 0

/-- The loop-back of a port's lane (R60). -/
def Dev.loopMode (d : Dev) (o : Nat) : Nat := if o < 48 then d.get (LNK.page o) LNK.LOOP_CFG.MODE else 0

/-- Nominal rate in Gbit/s. -/
def rateGbit (rate : Nat) : Nat := match rate with | 1 => 1 | 2 => 10 | 3 => 25 | 4 => 50 | 5 => 100 | _ => 1

def Dev.rateAct (d : Dev) (l : Nat) : Nat := d.get (LNK.page l) LNK.LNK_STATE.RATE_ACT

/-! ### Pauses (R430, R138, R60) -/

def Dev.pauseEnd (d : Dev) (port p : Nat) : Option Nat := tget (fun _ => none) d.pauses (16 * port + p)
def Dev.setPause (d : Dev) (port p : Nat) (e : Option Nat) : Dev :=
  { d with pauses := tset (fun _ => none) d.pauses (16 * port + p) e }

/-- PAUSED and PFC_RX from the pauses that stand. -/
def Dev.refreshPause (d : Dev) (port : Nat) : Dev :=
  let pg := PRT.page port
  let classes := (List.range 8).foldl (fun m p => match d.pauseEnd port p with
    | some _ => m ||| 2 ^ d.pcpTc port p
    | none => m) 0
  (d.set pg PRT.PORT_STAT.PFC_RX classes).setFlag pg PRT.PORT_STAT.PAUSED (d.pauseEnd port 8).isSome

def Dev.clearPauses (d : Dev) (port : Nat) : Dev :=
  ((List.range 9).foldl (fun d p => d.setPause port p none) d).refreshPause port

/-- A pause of `q` quanta: it ends `q` × 512 bit times from now; 0 ends it at once. -/
def Dev.pauseFor (d : Dev) (port p q : Nat) : Dev :=
  d.setPause port p (if q = 0 then none else some (d.now + q * 512 * nsU / rateGbit (d.rateAct port)))

/-- A PAUSE or PFC frame that a MAC consumes (R430): `enables` are the priorities that a PFC frame sets, `quanta` the
value of each, a PAUSE frame's being that of priority 0. -/
def Dev.pauseIn (d : Dev) (port : Nat) (pfc : Bool) (enables : Nat) (quanta : Nat → Nat) : Dev :=
  let d := d.countLane port 5
  let mode := d.get (PRT.page port) PRT.PORT_CFG.FC_MODE
  let en := d.get (PRT.page port) PRT.PORT_CFG.PFC_EN
  if pfc && mode == 2 then
    ((List.range 8).foldl (fun d p =>
      if enables.testBit p && en.testBit (d.pcpTc port p) then d.pauseFor port p (quanta p) else d) d).refreshPause port
  else if !pfc && mode == 1 then (d.pauseFor port 8 (quanta 0)).refreshPause port
  else d

/-- A PAUSE or PFC frame that a MAC sends, counted as event `n` of R369: to the line, or, in a near-end loop-back that
turns round what the MAC sends, to itself; the other loop-backs let no frame of the port out (R60). -/
def Dev.sendPause (d : Dev) (port : Nat) (pfc : Bool) (enables quanta n : Nat) : Dev :=
  let m := d.loopMode port
  if m = 0 then (d.emit (.pause port pfc enables quanta)).countLane port n
  else if m < 5 then (d.countLane port n).pauseIn port pfc enables (fun _ => quanta)
  else d

/-- The signal a port sends when its back-pressure changes (R138): XOFF or PAUSE with quanta 0xFFFF for what became
back-pressured, XON for what was released if SEND_XON = 1. -/
def Dev.signalBp (d : Dev) (port old new : Nat) : Dev :=
  let xon := d.flag BUF.page BUF.BP_CFG.SEND_XON
  match d.get (PRT.page port) PRT.PORT_CFG.FC_MODE with
  | 2 =>
    let up := d.pfcPriorities port (new &&& (new ^^^ old))
    let down := d.pfcPriorities port (old &&& (new ^^^ old))
    let d := if up ≠ 0 then d.sendPause port true up 0xFFFF 10 else d
    if down ≠ 0 ∧ xon then d.sendPause port true down 0 11 else d
  | 1 =>
    if old = 0 ∧ new ≠ 0 then d.sendPause port false 0x7F 0xFFFF 10
    else if old ≠ 0 ∧ new = 0 ∧ xon then d.sendPause port false 0x7F 0 11
    else d
  | _ => d

/-- One input's back-pressure brought up to date with the pools (BACKPRESSURE_ASSERT, BACKPRESSURE_RELEASE). -/
def Dev.updateInput (d : Dev) (input : Nat) : Dev :=
  let old := d.get BUF.page BUF.INPUT_STAT.BP_TC input
  let new := d.bpOf input
  let d := d.set BUF.page BUF.INPUT_STAT.BP_TC new input
  let d := d.setFlag BUF.page BUF.INPUT_STAT.BELOW_MIN (d.belowMin input) input
  let d := d.set BUF.page BUF.INPUT_STAT.USAGE_KIB ((d.usage input + 1023) / 1024) input
  if old ≠ new ∧ input < 48 then d.signalBp input old new else d

/-- The inputs whose back-pressure can differ from none: those that hold buffers, wait, or are back-pressured. -/
def Dev.activeInputs (d : Dev) : List Nat :=
  (List.range 50).filter (fun i => d.bufs.any (fun e => e.2.owner == i) || !(d.hold i).isEmpty
    || d.get BUF.page BUF.INPUT_STAT.BP_TC i != 0 || !d.flag BUF.page BUF.INPUT_STAT.BELOW_MIN i
    || d.get BUF.page BUF.INPUT_STAT.USAGE_KIB i != 0)

/-- The smallest pool that holds a length, whether or not it has a handle. -/
def Dev.fittingPool (d : Dev) (len : Nat) : Option Nat := [0, 1, 2, 3].find? (fun p => len ≤ d.bufSize p)

/-- The pool a frame lies in, or, of one that lies in DRAM, the pool that holds its length. -/
def Dev.framePool (d : Dev) (n : Nat) : Nat :=
  match d.frame n with
  | some f => (match f.buf with | some h => h.pool | none => (d.fittingPool f.len).getD 3)
  | none => 0

/-- The pool whose level a queue's spilling follows (R140): that of the oldest frame it holds; of an empty queue the
lowest pool that stands at WARN, if one does. -/
def Dev.spillPool (d : Dev) (q : Voq) : Nat :=
  match q.all with
  | n :: _ => d.framePool n
  | [] => ([0, 1, 2, 3].find? (fun p => (d.pool p).warn)).getD 0

/-- A queue stops spilling once its DRAM tail is empty and the pool is above WARN (R140). -/
def Dev.spillEnd (d : Dev) (p : Nat) (q : Voq) : Voq :=
  if q.tail.isEmpty && !(d.pool p).warn then { q with spilling := false, sram := q.sram ++ q.copying, copying := [] } else q

/-- The queues that spill, after a level has changed. -/
def Dev.spillLevels (d : Dev) : Dev :=
  { d with voqs := d.voqs.foldl (fun t e =>
      if e.2.spilling then tset (fun _ => voq0) t e.1 (d.spillEnd (d.spillPool e.2) e.2) else t) d.voqs }

/-- Levels and back-pressure brought up to date. -/
def Dev.rebalance (d : Dev) : Dev :=
  let d := ([0, 1, 2, 3].foldl Dev.poolStatus d).spillLevels
  let d := d.set BUF.page BUF.TC7_STAT.FREE d.tc7Free
  let d := d.setFlag BUF.page BUF.MGR_CTRL.EMPTY (!d.bufs.any (fun e => e.2.owner != 0x7F))
  let d := d.setFlag VOQ.page VOQ.SPILL_STAT.REFUSING (d.refusing spillAny)
  d.activeInputs.foldl Dev.updateInput d

/-! ### Line groups (R130) -/

def Dev.groupBuffers (d : Dev) (p : Nat) : Nat := 96 / Nat.gcd 96 (d.poolLines p)

def gkey (pool group : Nat) : Nat := pool * 131072 + group

def Dev.groupKeyOf (d : Dev) (pool group : Nat) : Option Nat := tget (fun _ => none) d.groupKey (gkey pool group)

/-- Groups still on an earlier key, shown in HASH_STAT.OLD_GROUPS. -/
def Dev.oldGroups (d : Dev) : Nat := (d.groupKey.filter (fun e => e.2 != some d.hashKey)).length

def Dev.refreshGroups (d : Dev) : Dev := d.set BUF.page BUF.HASH_STAT.OLD_GROUPS (min d.oldGroups 65535)

/-- The start bank of a buffer, and the device with its group in use: an empty group takes the current key. -/
def Dev.placeBuffer (d : Dev) (pool index : Nat) : Nat × Dev :=
  let g := index / d.groupBuffers pool
  let i := index % d.groupBuffers pool
  let key := (d.groupKeyOf pool g).getD d.hashKey
  let d := { d with groupKey := tset (fun _ => none) d.groupKey (gkey pool g) (some key) }
  ((i * d.poolLines pool % 96 + Config.bankHash key pool g % 96) % 96, d)

/-- A group that has become empty draws its rotation again the next time it is used (GROUP_ROTATION_REDRAW). -/
def Dev.releaseGroup (d : Dev) (pool index : Nat) : Dev :=
  let g := index / d.groupBuffers pool
  let busy := d.bufs.any (fun e => e.1 / 131072 == pool && e.1 % 131072 / d.groupBuffers pool == g && e.2.owner != 0x7F)
  if busy then d
  else ({ d with groupKey := tset (fun _ => none) d.groupKey (gkey pool g) none }).refreshGroups

/-! ### Taking and freeing a buffer (R121 to R128) -/

/-- A buffer of a pool given to an owner: which free index is taken the spec does not say (a free value, log entry 9).
A shared handle comes from the cache (R129). -/
def Dev.takeBuffer (d : Dev) (p owner : Nat) (tc7 : Bool) : (Handle × Nat) × Dev :=
  let busy := d.busyIdx p
  let (k, d) := d.free
  let idx := kthFree busy (k % (d.poolCount p - busy.length))
  let gen := (d.bufRec p idx).gen
  let d := d.setBufRec p idx ⟨gen, owner, tc7, false⟩
  let d := if tc7 then d else
    let q := d.pool p
    (d.setPool p { q with cached := q.cached - 1 }).refillPool p
  let (bank, d) := d.placeBuffer p idx
  ((⟨p, idx, gen, owner⟩, bank), d.rebalance)

/-- Whether the thresholds let an input take a shared handle of a pool (R136): at STOP only one below its guarantee. -/
def Dev.allowed (d : Dev) (input p : Nat) : Bool := !((d.pool p).stop && !d.belowMin input)

/-- Queue references in use (R134): a frame in the DRAM tail keeps its own, as its descriptor stays in the device
(DESIGN CHOICE, log entry 138). -/
def Dev.queueRefs (d : Dev) : Nat := (d.voqs.map (fun e => e.2.all.length)).sum

/-- Whether a TC7 frame waits in some holding area for queue references (R134). -/
def Dev.tc7Waits (d : Dev) : Bool :=
  d.holding.any (fun e => e.2.any (fun n => match d.frame n with | some f => f.tc == 7 | none => false))

/-- Whether too few queue references are free for a multicast frame (R134); one that is not TC7 waits behind TC7
(R85). -/
def Dev.refsShort (d : Dev) (f : Frame) : Bool :=
  f.mcast && (decide (262144 < d.queueRefs + f.dests.length) || (f.tc != 7 && d.tc7Waits))

/-- Whether the frame at the head of an input's holding area waits for a handle that a pool could give it; a multicast
frame without references is treated as at STOP (R134), and a TC7 frame takes no shared handle. -/
def Dev.wantsPool (d : Dev) (input p : Nat) : Bool :=
  d.allowed input p && (match d.hold input with
    | [] => false
    | n :: _ => match d.frame n with
      | some f => f.tc != 7 && !d.refsShort f && (match f.bufLen (d.bufSize 3) with | some len => decide (len ≤ d.bufSize p) | none => false)
      | none => false)

/-- Handles of a pool that inputs which began to wait earlier win first (R84, R124). -/
def Dev.claims (d : Dev) (input p : Nat) : Nat :=
  ((d.waitQ.takeWhile (· != input)).filter (fun j => d.wantsPool j p)).length

/-- Whether an input may take a shared handle of a pool now (R126, R136): one is cached that no earlier waiter wins
(R84, R124), and the thresholds let it. -/
def Dev.mayTake (d : Dev) (input p : Nat) : Bool :=
  decide (d.claims input p < (d.pool p).cached) && d.poolFree p != 0 && d.allowed input p

/-- The pool a frame of a length goes to: the smallest that holds it and has a handle for the input (R126); none when
it must wait. -/
def Dev.choosePool (d : Dev) (input len : Nat) : Option Nat :=
  [0, 1, 2, 3].find? (fun p => len ≤ d.bufSize p && d.mayTake input p)

/-- A handle as R121 codes it. -/
def Handle.word (h : Handle) : Nat := h.pool * 2 ^ 30 + h.index % 2 ^ 17 * 2 ^ 13 + h.gen % 64 * 2 ^ 7 + h.owner % 128

/-- BAD_FREE (R123): the free is rejected, captured, recorded and counted; the record stays. For CAUSE 3 no record
exists and STORED_OWNER and STORED_GEN are written 0 (DESIGN CHOICE, log entry 102). -/
def Dev.badFree (d : Dev) (h : Handle) (src cause : Nat) : Dev :=
  let r := d.bufRec h.pool h.index
  let word := h.word
  let d := d.wr BUF.page BUF.BADFREE_HANDLE.HANDLE.off (BitVec.ofNat 32 word)
  let d := d.set BUF.page BUF.BADFREE_INFO.SRC src
  let d := d.set BUF.page BUF.BADFREE_INFO.CAUSE cause
  let d := d.set BUF.page BUF.BADFREE_INFO.STORED_OWNER (if cause = 3 then 0 else r.owner)
  let d := d.set BUF.page BUF.BADFREE_INFO.STORED_GEN (if cause = 3 then 0 else r.gen)
  let d := d.set BUF.page BUF.BADFREE_INFO.CLAIMED_OWNER h.owner
  let d := (d.err BUF.page 0x20 BUF.BADFREE_HANDLE.HANDLE.off).raise BUF.page BUF.INT_RAW.BAD_FREE
  (d.record 0x022 0x05 (word * 2 ^ 32 + src * 2 ^ 22 + cause * 2 ^ 20)).count 0x702

/-- The check of R123, in the order its causes are tested. -/
def Dev.freeCause (d : Dev) (h : Handle) : Option Nat :=
  let r := d.bufRec h.pool h.index
  if d.poolCount h.pool ≤ h.index then some 3
  else if r.owner = 0x7F then some 2
  else if r.gen ≠ h.gen then some 0
  else if r.owner ≠ h.owner then some 1
  else none

/-- BUFFER_FREE (R123, R129): the generation advances, the owner becomes free, the handle returns to the cache, which
writes 64 handles back to the ring when it holds 512 (CACHE_WRITEBACK). -/
def Dev.freeBuffer (d : Dev) (h : Handle) (src : Nat) : Dev :=
  match d.freeCause h with
  | some c => d.badFree h src c
  | none =>
    let r := d.bufRec h.pool h.index
    let d := d.setBufRec h.pool h.index ⟨(r.gen + 1) % 64, 0x7F, false, false⟩
    let d := if r.tc7 then d else
      let q := d.pool h.pool
      let cached := if 512 ≤ q.cached then q.cached - 64 else q.cached
      d.setPool h.pool { q with cached := cached + 1 }
    (d.releaseGroup h.pool h.index).rebalance

/-! ### Frames leaving the device (R114, R116, R134) -/

/-- Frames of an epoch that still count for it. -/
def Dev.epochFrames (d : Dev) (e : Nat) : Nat :=
  (d.frames.filter (fun x => match x.2 with | some f => f.epoch == e && !f.aged | none => false)).length

def Dev.agedFrames (d : Dev) : Nat :=
  (d.frames.filter (fun x => match x.2 with | some f => f.aged | none => false)).length

/-- An epoch has drained: it is no longer outstanding, and no index waits for it (R115, R116). -/
def Dev.drainEpoch (d : Dev) (e : Nat) : Dev :=
  let out := d.get LKP.page LKP.EPOCH_STAT.OUTSTANDING
  let d := d.set LKP.page LKP.EPOCH_STAT.OUTSTANDING (if out.testBit e then out - 2 ^ e else out)
  let less (m : Nat) : Nat := if m.testBit e then m - 2 ^ e else m
  { d with retired := (d.retired.map (fun r => { r with mask := less r.mask })).filter (fun r => r.mask != 0) }

/-- OUTSTANDING and AGED_FRAMES after a frame of an epoch has gone (R116): an epoch that is not CUR and has no frame has
drained. -/
def Dev.refreshEpoch (d : Dev) (e : Nat) : Dev :=
  let out := d.get LKP.page LKP.EPOCH_STAT.OUTSTANDING
  let d := d.set LKP.page LKP.EPOCH_AGED.AGED_FRAMES d.agedFrames
  if e ≠ d.get LKP.page LKP.EPOCH_STAT.CUR ∧ d.epochFrames e = 0 ∧ out.testBit e then d.drainEpoch e else d

/-- A frame leaves the device: its buffer is freed on behalf of its input, its epoch may drain. -/
def Dev.dropFrame (d : Dev) (n src : Nat) : Dev :=
  match d.frame n with
  | none => d
  | some f =>
    let d := match f.buf with
      | some h => d.freeBuffer h src
      | none => d
    (d.setFrame n none).refreshEpoch f.epoch

/-- One destination of a frame is done with it; the last one frees it (R134). A frame still arriving without
destinations left is freed when it ends. -/
def Dev.clearDest (d : Dev) (n ep src : Nat) : Dev :=
  match d.frame n with
  | none => d
  | some f =>
    let rest := f.dests.filter (fun x => x.1 != ep)
    let d := d.setFrame n (some { f with dests := rest })
    if rest.isEmpty then d.dropFrame n src else d

/-- Lines a frame occupies. -/
def linesOf (len : Nat) : Nat := (len + 63) / 64

def Dev.frameLen (d : Dev) (n : Nat) : Nat := match d.frame n with | some f => f.len | none => 0

/-- Frame bytes of a queue's SRAM part (VOQ_DEPTH). -/
def Dev.voqBytes (d : Dev) (v : Nat) : Nat :=
  let q := d.voq v
  ((q.sram ++ q.copying).map d.frameLen).sum

def Dev.voqLines (d : Dev) (v : Nat) : Nat := ((d.voq v).all.map (fun n => linesOf (d.frameLen n))).sum

/-- 64-byte lines an input holds in the spill area (R141). -/
def Dev.spillOf (d : Dev) (input : Nat) : Nat := tget (fun _ => 0) d.spillLines input

def Dev.setSpill (d : Dev) (input n : Nat) : Dev := { d with spillLines := tset (fun _ => 0) d.spillLines input n }

/-- A frame taken out of a queue; spilled lines it held are given back. -/
def Dev.unqueue (d : Dev) (v n : Nat) : Dev :=
  let q := d.voq v
  let d := if q.tail.contains n then d.setSpill (voqInput v) (d.spillOf (voqInput v) - linesOf (d.frameLen n)) else d
  d.setVoq v (d.spillEnd (d.framePool n) (q.remove n))

/-- Spill area in use in 128 KiB units (SPILL_STAT.USED). -/
def Dev.spillUsedLines (d : Dev) : Nat := (d.spillLines.map Prod.snd).sum

def Dev.refreshSpill (d : Dev) : Dev :=
  let d := d.set VOQ.page VOQ.SPILL_STAT.USED ((d.spillUsedLines + 2047) / 2048)
  d.setFlag VOQ.page VOQ.SPILL_STAT.NOT_READY (!d.flag DRM.page DRM.DRM_STAT.TRAINED)

/-- A frame of a queue discarded; a hold or stale flush is counted by its output and class (R368) and by an event of its
output port (R369). -/
def Dev.flushFrame (d : Dev) (v n : Nat) (portEvent : Option Nat) : Dev :=
  let o := voqOutput v
  let d := d.unqueue v n
  let d := match portEvent with
    | some e => (if o < 48 then d.countLane o e else d).count (0x990 + 8 * o + voqTc v)
    | none => d
  (d.clearDest n o 0x023).refreshSpill

def Dev.flushVoq (d : Dev) (v : Nat) (portEvent : Option Nat) : Dev :=
  (d.voq v).all.foldl (fun d n => d.flushFrame v n portEvent) d

/-- The queues of an output that hold frames. -/
def Dev.voqsTo (d : Dev) (o : Nat) : List Nat := (d.voqs.map Prod.fst).filter (fun v => voqOutput v == o)

def Dev.voqsFrom (d : Dev) (i : Nat) : List Nat := (d.voqs.map Prod.fst).filter (fun v => voqInput v == i)

/-! ### The port-down hold (R142 to R144) -/

/-- A port is up to bridging: link up, enabled, no loop-back. EP49 is unless its cores restart (R325), EP48 always. -/
def Dev.portUp (d : Dev) (o : Nat) : Bool :=
  if o < 48 then
    d.flag (PRT.page o) PRT.PORT_STAT.LINK_UP && d.flag (PRT.page o) PRT.PORT_CFG.ENABLE
      && !d.flag (PRT.page o) PRT.PORT_STAT.TEST
  else !(o == 49 && d.fwDown)

/-- Whether an endpoint's port-down hold runs. -/
def Dev.holdOn (d : Dev) (o : Nat) : Bool :=
  if o < 48 then d.flag (PRT.page o) PRT.PORT_STAT.HOLD else o == 49 && d.fwHold

def Dev.setHoldOn (d : Dev) (o : Nat) (b : Bool) : Dev :=
  if o < 48 then d.setFlag (PRT.page o) PRT.PORT_STAT.HOLD b else { d with fwHold := b }

/-- Whether a queue is held (R142): its output's hold runs, and it is not one that a loop-back leaves open. -/
def Dev.voqHeld (d : Dev) (v : Nat) : Bool :=
  let o := voqOutput v
  d.holdOn o && !(tget (fun _ => false) d.holdLoop o && 48 ≤ voqInput v)

/-- TX_ABORT (R163): a frame in transmission, or preempted and waiting, is lost and counted when the port leaves
LINK_UP. -/
def Dev.txAbort (d : Dev) (o : Nat) : Dev :=
  let x := d.output o
  let lose (d : Dev) (t : Option Tx) : Dev :=
    match t with
    | none => d
    | some t =>
      let d := (if o < 48 then d.countFrame o 13 1 t.stamp else d).count (0x990 + 8 * o + t.tc)
      (d.clearDest t.frame o 0x024).raise SCH.page SCH.INT_RAW.TX_ABORT
  let d := d.setOutput o { x with tx := none, preempted := none }
  lose (lose d x.tx) x.preempted

/-- A port's launch queue (R173). -/
def Dev.launchOf (d : Dev) (o : Nat) : List Nat := tget (fun _ => []) d.launchQ o

/-- The launch queue replaced; LAUNCH_STAT shows its fill and high-water mark. -/
def Dev.setLaunch (d : Dev) (o : Nat) (q : List Nat) : Dev :=
  let d := { d with launchQ := tset (fun _ => []) d.launchQ o q }
  let d := d.set (GCL.page o) GCL.LAUNCH_STAT.PENDING q.length
  if d.get (GCL.page o) GCL.LAUNCH_STAT.HWM < q.length then d.set (GCL.page o) GCL.LAUNCH_STAT.HWM q.length else d

/-- Every frame queued for a port flushed at the hold's end (R144), the hold over, back-pressure re-evaluated; the
recorder gets the number of frames. -/
def Dev.holdEnd (d : Dev) (o : Nat) : Dev :=
  let vs := d.voqsTo o
  let timed := if o < 48 then d.launchOf o else []
  let frames := (vs.map (fun v => (d.voq v).all.length)).sum + timed.length
  let d := vs.foldl (fun d v => d.flushVoq v (some 22)) d
  let d := timed.foldl (fun d n => ((d.countLane o 22).count (0x990 + 8 * o + 6)).clearDest n o 0x023)
    (if o < 48 then d.setLaunch o [] else d)
  let d := d.setHoldOn o false
  (d.record 0x022 0x12 (frames % 2 ^ 24 * 2 ^ 8 + o)).rebalance

/-- When a port's hold expires (R144). -/
def Dev.holdUntil (d : Dev) (o : Nat) : Nat :=
  tget (fun _ => 0) d.holdFrom o + d.get BUF.page BUF.HOLD_CFG.HOLD_MS * 1000000 * nsU

/-- Whether a port's hold runs and its time is up (R144). -/
def Dev.holdDue (d : Dev) (o : Nat) : Bool := d.holdOn o && decide (d.holdUntil o ≤ d.now)

/-- PORT_DOWN_HOLD_START (R142): HOLD = 1 and the TC7 frames queued for the port are flushed as stale; with HOLD_MS = 0
the flush happens at once (R144). A hold that runs already goes on to its expiry (DESIGN CHOICE, log entry 103). -/
def Dev.holdStart (d : Dev) (o : Nat) (loop : Bool) : Dev :=
  if o = 48 then d else
  let d := if d.holdOn o then d else { d with holdFrom := tset (fun _ => 0) d.holdFrom o d.now }
  let d := d.setHoldOn o true
  let d := { d with holdLoop := tset (fun _ => false) d.holdLoop o loop }
  let d := ((d.voqsTo o).filter (fun v => voqTc v == 7)).foldl (fun d v => d.flushVoq v (some 21)) d
  if d.get BUF.page BUF.HOLD_CFG.HOLD_MS = 0 then d.holdEnd o else d

/-! ### The descriptor (R131) -/

/-- Descriptor word 0 of a frame, a native word with its check byte (R131, R428). -/
def Frame.word0 (f : Frame) : Native :=
  encodeNative (BitVec.ofNat 64 ((match f.buf with | some h => h.word | none => 0) * 2 ^ 32 + f.startBank % 128 * 2 ^ 25
    + f.len % 2 ^ 14 * 2 ^ 11 + f.epoch % 16 * 2 ^ 7 + f.tc % 8 * 2 ^ 4 + f.colour % 4 * 2 ^ 2
    + (if f.mcast then 2 else 0) + (if f.spilled then 1 else 0)))

/-! ### Queueing (R134, R140, R144, R167) -/

/-- The depth high-water marks after an enqueue (HWM_UPDATE, R167). -/
def Dev.hwmDepth (d : Dev) (v : Nat) : Dev :=
  if !d.flag SCH.page SCH.SCH_CFG.HWM_EN then d else
  let o := voqOutput v
  let c := voqTc v
  let depth := min (d.voqLines v) (2 ^ 32 - 1)
  let d := (d.seen .voqHwm v).seen .portHwm (o * 8 + c)
  let e := d.lookupWord .voqHwm v
  let d := if bitsOf e 31 0 < depth then d.setEntry .voqHwm v (putBits e 31 0 depth) else d
  let sum := min ((((d.voqsTo o).filter (fun w => voqTc w == c)).map d.voqLines).sum) (2 ^ 32 - 1)
  let e := d.lookupWord .portHwm (o * 8 + c)
  if bitsOf e 31 0 < sum then d.setEntry .portHwm (o * 8 + c) (putBits e 31 0 sum) else d

/-- Whether a unicast arrival of a class spills (R140): the VOQ is spilling, or it starts because the frame's pool is at
WARN and the SRAM part holds SPILL_LVL (SPILL_START). -/
def Dev.spills (d : Dev) (v : Nat) (f : Frame) : Bool :=
  let c := voqTc v
  let q := d.voq v
  let p := match f.buf with | some h => h.pool | none => 0
  c < 4 && !f.mcast && (d.get VOQ.page VOQ.SPILL_CFG.EN).testBit c &&
    (!q.tail.isEmpty || (q.spilling && (!q.copying.isEmpty || (d.pool p).warn))
      || ((d.pool p).warn && 1024 * d.get VOQ.page VOQ.SPILL_CFG.SPILL_LVL ≤ d.voqBytes v))

/-- Whether a frame's handle has a valid launch entry of the Blocker's (R172, R181). -/
def Dev.blockerLaunch (d : Dev) (f : Frame) : Bool :=
  match f.handle with
  | some h => let w := d.lookupWord .launch h; bitOf w 63 && bitOf w 61
  | none => false

/-- The launch time of R172 for a stamp: relative, or the first instant of the slot at or after it. -/
def launchTime (stamp : Nat) (w0 w1 : Data) : Nat :=
  let base := (stamp + bitsOf w0 60 31 * nsU + nsU - 1) / nsU * nsU
  if bitOf w0 62 then
    let period := bitsOf w1 63 34
    let k := base % secU / nsU % period
    base + (bitsOf w1 33 4 + period - k) % period * nsU
  else base

/-- The launch time given to a TC6 frame when it is enqueued (R169, R172): from the valid entry of its handle, else the
one its request carried. -/
def Dev.giveLaunch (d : Dev) (f : Frame) : Frame :=
  match f.handle with
  | some h =>
    let w0 := d.lookupWord .launch h
    if f.dests.any (fun x => x.2 == 6 && x.1 < 48) && bitOf w0 63 then
      { f with launch := some (launchTime f.stamp w0 (d.lookupWord .launch h 1)) }
    else f
  | none => f

/-- A frame joins the queue of one destination: a TC6 frame that the Blocker's port does not expect is dropped (R181);
dropped and counted at a port that is down with no hold running (R144), or for EP48 when the receive ring of its class
is disabled (R335), else queued behind the rest, towards the spill engine when the VOQ spills (R140). -/
def Dev.enqueueAt (d : Dev) (n ep tc : Nat) : Dev :=
  match d.frame n with
  | none => d
  | some f =>
    let open_ := d.portUp ep || (48 ≤ f.input && ep < 48 && d.flag (PRT.page ep) PRT.PORT_STAT.TEST)
    if !open_ && !d.holdOn ep then
      (if ep < 48 then d.countLane ep 23 else d.count (0x990 + 8 * ep + tc)).clearDest n ep 0x023
    else if ep == 48 && !d.flag PCI.page PCI.RING_CFG.ENABLE (8 + tc) then
      (d.count (0x990 + 8 * 48 + tc)).clearDest n ep 0x032
    else if ep < 48 && tc == 6 && d.flag (GCL.page ep) GCL.GCL_STAT.BLOCKER_OWN && !d.blockerLaunch f then
      (d.countLane ep 19).clearDest n ep 0x0C0
    else
      let v := voqNo f.input ep tc
      let q := d.voq v
      let d := if d.spills v f then d.setVoq v { q with spilling := true, copying := q.copying ++ [n] }
        else if q.tail.isEmpty && q.copying.isEmpty then d.setVoq v { q with sram := q.sram ++ [n] }
        else d.setVoq v { q with copying := q.copying ++ [n] }
      d.hwmDepth v

/-- A frame joins the queue of each of its destinations. -/
def Dev.enqueue (d : Dev) (n : Nat) : Dev :=
  match d.frame n with
  | none => d
  | some f =>
    let f := d.giveLaunch f
    f.dests.foldl (fun d x => d.enqueueAt n x.1 x.2) (d.setFrame n (some f))

/-! ### Transmit descriptors (R332 to R334) -/

def ring0 : Ring := ⟨0, none⟩
def Dev.ring (d : Dev) (r : Nat) : Ring := tget (fun _ => ring0) d.rings r
def Dev.setRing (d : Dev) (r : Nat) (x : Ring) : Dev := { d with rings := tset (fun _ => ring0) d.rings r x }

def Dev.ringHead (d : Dev) (r : Nat) : Nat := d.get PCI.page PCI.RING_STAT.HEAD r
def Dev.ringTail (d : Dev) (r : Nat) : Nat := d.get PCI.page (PCI.RING_DB.TAIL.nth r)
def Dev.ringSize (d : Dev) (r : Nat) : Nat := 2 ^ d.get PCI.page PCI.RING_CFG.SIZE r
def Dev.ringBase (d : Dev) (r : Nat) : Nat :=
  d.get PCI.page PCI.RING_BASE_HI.BASE_HI r * 2 ^ 32 + d.get PCI.page PCI.RING_BASE_LO.BASE_LO r * 64

/-- A ring's vector (R332). -/
def Dev.ringVector (d : Dev) (r : Nat) : Dev := (d.setRing r ring0).emit (.vector 0 r)

/-- Descriptors written back: HEAD advances, the vector goes at COAL_CNT write-backs, or at once with COAL_US = 0. -/
def Dev.ringAdvance (d : Dev) (r n : Nat) : Dev :=
  let d := d.set PCI.page PCI.RING_STAT.HEAD ((d.ringHead r + n) % d.ringSize r) r
  let x := d.ring r
  let now := d.now
  let x : Ring := ⟨x.unsignalled + n, some (x.since.getD now)⟩
  let d := d.setRing r x
  if d.get PCI.page PCI.RING_CFG.COAL_CNT r ≤ x.unsignalled ∨ d.get PCI.page PCI.RING_CFG.COAL_US r = 0 then d.ringVector r
  else d

/-- Descriptors of a ring taken and not yet written back. -/
def Dev.txPending (d : Dev) (ring : Nat) : Nat := (d.txWait.filter (fun w => w.ring == ring)).length

/-- Whether a descriptor's frame still waits for its buffer. -/
def Dev.txWaits (d : Dev) (w : TxTaken) : Bool :=
  match w.frame with
  | some n => (match d.frame n with | some f => f.buf.isNone | none => false)
  | none => false

/-- A descriptor written back with OWN = 0 and its STATUS. HEAD moves with the write-back (DESIGN CHOICE, log entry
126). -/
def Dev.txWriteBack (d : Dev) (w : TxTaken) : Dev :=
  let d := d.emit (.hostMem w.addr (bytesLE 8 (putBits (putBits w.w1 49 49 0) 35 32 w.status).toNat))
  if w.ring < 8 then d.ringAdvance w.ring 1 else d

/-- Each ring's descriptors are written back in order, up to the first whose frame waits. -/
def Dev.txSettle (d : Dev) : Dev :=
  let x := d.txWait.foldl (fun (x : Dev × List TxTaken) w =>
    if x.2.any (fun v => v.ring == w.ring) || x.1.txWaits w then (x.1, x.2 ++ [w]) else (x.1.txWriteBack w, x.2)) (d, [])
  { x.1 with txWait := x.2 }

/-- A descriptor of a ring is taken: for the frame of a number, whose STATUS is 1 unless it comes to hold a buffer, or
with the STATUS that it has at once. -/
def Dev.txPut (d : Dev) (ring : Nat) (frame : Option Nat) (status : Nat) (w1 : Data) : Dev :=
  let at_ := (d.ringHead ring + d.txPending ring) % d.ringSize ring
  { d with txWait := d.txWait ++ [⟨ring, frame, status, w1, d.ringBase ring + 32 * at_ + 8⟩] }

def Dev.txTake (d : Dev) (ring status : Nat) (w1 : Data) : Dev := (d.txPut ring none status w1).txSettle

/-- A frame number that no frame took: its descriptor waits for none. -/
def Dev.txNoFrame (d : Dev) (n : Nat) : Dev :=
  { d with txWait := d.txWait.map (fun w => if w.frame = some n then { w with frame := none } else w) }

/-! ### Giving a frame its buffer (R124 to R128) -/

/-- NOBUF, HALT and BP_DROP: a frame that finds no buffer is dropped and counted (R127, R120, R138). -/
def Dev.noBuffer (d : Dev) (n idx : Nat) : Dev :=
  let d := if idx = 0x701 then d.raise BUF.page BUF.INT_RAW.TC7_NOBUF else d.raise BUF.page BUF.INT_RAW.NOBUF
  (d.count idx).dropFrame n 0x022

/-- A frame that has outgrown its buffer, or the buffer chosen for it, is discarded before it is queued (R125). -/
def Dev.hintDiscard (d : Dev) (n : Nat) : Dev := (d.count 0x703).dropFrame n 0x022

/-- The lines a frame occupies count as line accesses of its banks (R132). -/
def Dev.countLines (d : Dev) (n : Nat) : Dev :=
  match d.frame n with
  | none => d
  | some f => match f.buf with
    | none => d
    | some _ => { d with bankCount := (List.range (linesOf f.len)).foldl (fun t i =>
        tmod (fun _ => 0) t ((f.startBank + i) % 96) (· + 1)) d.bankCount }

/-- A descriptor whose frame holds a buffer takes STATUS 0, whatever becomes of the frame after (R334). -/
def Dev.txHolds (d : Dev) (n : Nat) : Dev :=
  { d with txWait := d.txWait.map (fun w => if w.frame = some n then { w with frame := none, status := 0 } else w) }

/-- A frame given a buffer and queued; one that has already outgrown the buffer's size is discarded (R125). -/
def Dev.fillBuffer (d : Dev) (n p : Nat) (tc7 : Bool) : Dev :=
  match d.frame n with
  | none => d
  | some f =>
    if !f.ended && decide (d.bufSize p < f.len) then d.hintDiscard n else
    let ((h, bank), d) := d.takeBuffer p f.input tc7
    let d := (d.setFrame n (some { f with buf := some h, startBank := bank })).txHolds n
    (if f.ended then d.countLines n else d).enqueue n

/-- The frame at the head of an input's holding area tries to take a buffer; `true` when it left the area. With HALT = 1
one whose buffer would be chosen now is dropped (R120). -/
def Dev.tryHead (d : Dev) (input n : Nat) : Dev × Bool :=
  let left := d.setHold input ((d.hold input).filter (· != n))
  match d.frame n with
  | none => (left, true)
  | some f =>
    if f.tc = 7 then
      if d.flag BUF.page BUF.MGR_CTRL.HALT then (left.noBuffer n 0x705, true)
      else if d.refsShort f then (d, false)
      else if d.tc7Free = 0 then (left.noBuffer n 0x701, true)
      else (left.fillBuffer n 0 true, true)
    else
    match f.bufLen (d.bufSize 3) with
    | none => (d, false)
    | some len =>
      if d.flag BUF.page BUF.MGR_CTRL.HALT then (left.noBuffer n 0x705, true)
      else if d.refsShort f then (d, false)
      else match d.choosePool input len with
        | none =>
          if input < 48 && d.get (PRT.page input) PRT.PORT_CFG.FC_MODE == 0 && !d.belowMin input
              && (match d.fittingPool len with | some p => (d.pool p).stop | none => false) then
            (left.noBuffer n 0x704, true)
          else (d, false)
        | some p =>
          let small := (d.fittingPool len).getD p
          ((if small ≠ p then left.count (0x70C + small) else left).fillBuffer n p false, true)

/-- An input that has won a handle contends for the next one behind those that lost (R84). -/
def Dev.requeueInput (d : Dev) (input : Nat) : Dev :=
  if d.waitQ.contains input then { d with waitQ := d.waitQ.filter (· != input) ++ [input] } else d

/-- The holding area served in arrival order until a frame must wait (R124); `fuel` is the number of frames in it. -/
def Dev.serveHolding (d : Dev) (input : Nat) : Nat → Dev
  | 0 => d
  | fuel + 1 =>
    match d.hold input with
    | [] => d
    | n :: _ =>
      let r := d.tryHead input n
      if r.2 then (r.1.requeueInput input).serveHolding input fuel else r.1

/-- Whether the frame at the head of an input's holding area waits for a buffer or for references, not for its length.
-/
def Dev.headWaits (d : Dev) (input : Nat) : Bool :=
  match d.hold input with
  | [] => false
  | n :: _ => match d.frame n with
    | some f => f.tc == 7 || (f.bufLen 0).isSome
    | none => false

/-- Whether an input's holding area is overfilled (R125). -/
def Dev.holdingFull (d : Dev) (input : Nat) : Bool := decide (2048 < ((d.hold input).map d.frameLen).sum)

/-- The holding area served; when it overfills while its head waits for a buffer, the waiting frame is dropped as NOBUF
(R124, R127). `fuel` is one more than the number of frames in it. -/
def Dev.serveInput (d : Dev) (input : Nat) : Nat → Dev
  | 0 => d
  | fuel + 1 =>
    let d := d.serveHolding input (d.hold input).length
    match d.hold input with
    | [] => d
    | n :: rest =>
      if !d.headWaits input || !d.holdingFull input then d
      else ((d.setHold input rest).noBuffer n 0x700).serveInput input fuel

/-- The order in which inputs wait for a handle, after something changed for one (R84, R124). -/
def Dev.noteWait (d : Dev) (input : Nat) : Dev :=
  if d.waitingTc input = 0 then { d with waitQ := d.waitQ.filter (· != input) }
  else if d.waitQ.contains input then d else { d with waitQ := d.waitQ ++ [input] }

/-- An input's holding area after something changed for it, and the levels, the back-pressure and the host's
descriptors with it. -/
def Dev.serveArea (d : Dev) (input : Nat) : Dev :=
  let d := ((d.serveInput input ((d.hold input).length + 1)).noteWait input).rebalance
  if input = 48 then d.txSettle else d

/-- A frame whose lookup is finished asks for its buffer (BUFFER_ALLOCATE, R124 to R128, R120). A TC7 frame never waits
behind others: a multicast one without queue references waits at the front of the holding area, behind TC7 frames alone
(R134; DESIGN CHOICE, log entry 104). -/
def Dev.allocate (d : Dev) (n : Nat) : Dev :=
  match d.frame n with
  | none => d
  | some f =>
    if f.tc = 7 && !d.refsShort f then
      if d.flag BUF.page BUF.MGR_CTRL.HALT then d.noBuffer n 0x705
      else if d.tc7Free = 0 then d.noBuffer n 0x701
      else d.fillBuffer n 0 true
    else
      let isTc7 (m : Nat) : Bool := match d.frame m with | some g => g.tc == 7 | none => false
      let q := d.hold f.input
      let q := if f.tc = 7 then q.takeWhile isTc7 ++ [n] ++ q.dropWhile isTc7 else q ++ [n]
      (d.setHold f.input q).serveArea f.input

/-! ### Reroll (R132) -/

/-- REROLL_APPLY: at an epoch boundary with a Reroll pending, a new key is drawn (a free value) and KEY_GEN advances;
requests are ignored for HOLDOFF_MS. -/
def Dev.rerollApply (d : Dev) : Dev :=
  if !d.flag BUF.page BUF.HASH_STAT.PENDING then d else
  let (k, d) := d.free
  let d := { d with hashKey := k, hashHoldoff := some (d.now + d.get BUF.page BUF.HASH_CFG.HOLDOFF_MS * 1000000 * nsU) }
  let d := d.incWrap BUF.page BUF.HASH_STAT.KEY_GEN
  let d := (d.set BUF.page BUF.HASH_STAT.PENDING 0).raise BUF.page BUF.INT_RAW.REROLL
  let d := d.record 0x022 0x04 (d.get BUF.page BUF.HASH_STAT.KEY_GEN)
  (d.count 0x709).refreshGroups

/-- A Reroll requested: ignored during the hold-off. -/
def Dev.rerollRequest (d : Dev) : Dev :=
  let held : Bool := match d.hashHoldoff with | some t => decide (d.now < t) | none => false
  if held || d.flag BUF.page BUF.HASH_STAT.PENDING then d
  else ({ d with rerollAt := d.now }).set BUF.page BUF.HASH_STAT.PENDING 1

/-! ### Felt release and reset (R146) -/

/-- RING_REBUILD: every buffer free with generation 0, no handle lost, the spill area released, the caches filling;
a discarded spill is reported. -/
def Dev.ringRebuild (d : Dev) : Dev :=
  let spilled := d.spillUsedLines != 0
  let d := { d with
    bufs := [], pools := [], frames := [], voqs := [], holding := [], waitQ := [], rxNow := [], spillLines := []
    refusedAt := []
    groupKey := [], outputs := [], flushing := [], launchQ := [] }
  let (k, d) := d.free
  let d := { d with hashKey := k }
  let d := [0, 1, 2, 3].foldl Dev.refillPool d
  let d := [0, 1, 2, 3].foldl (fun d p => d.set BUF.page BUF.POOL_LOW.LOW (d.poolFree p) p) d
  let d := d.rebalance.refreshSpill
  if spilled then d.raise VOQ.page VOQ.INT_RAW.SPILL_LOST else d

/-! ### Commands -/

/-- A frame of the holding area gets a buffer if it may (R124). -/
def execHoldingAreaGrant (input : Fin 50) (s : State) : Host.Outcome State Fault Refusal :=
  onDev (fun d => d.serveArea input) s

/-- The key of what an input receives: its express and its preemptable frame are apart (R158). -/
def rxKey (input : Nat) (pre : Bool) : Nat := 2 * input + if pre then 1 else 0

def Dev.rx (d : Dev) (k : Nat) : Option Rx := tget (fun _ => none) d.rxNow k
def Dev.setRx (d : Dev) (k : Nat) (r : Option Rx) : Dev := { d with rxNow := tset (fun _ => none) d.rxNow k r }

/-- More bytes of the frame that an input receives. -/
def Dev.arrive (d : Dev) (k : Nat) (more : List (BitVec 8)) : Dev :=
  match d.rx k with
  | none => d
  | some r =>
    let d := d.setRx k (some { r with bytes := r.bytes + more.length })
    match r.frame with
    | some n => d.modFrame n (fun f => { f with hdr := f.hdr ++ more, len := f.len + more.length })
    | none => d

/-- R125: a frame without a length hint ends or reaches 2,048 bytes and takes its buffer; `more` is what has arrived
since. -/
def execBufferAssignLate (input : Fin 50) (pre : Bool) (more : List (BitVec 8)) (s : State) :
    Host.Outcome State Fault Refusal :=
  onDev (fun d =>
    let d := d.arrive (rxKey input pre) more
    d.serveArea input) s

/-- A DRAM read that is uncorrectable (0xDD); which line it was the command does not say (a free value). -/
def Dev.dramUncorr (d : Dev) : Dev :=
  let (k, d) := d.free
  let d := (d.incSat DRM.page DRM.ECC_STAT.UNCORR).set DRM.page DRM.ECC_ADDR.LINE k
  (d.err DRM.page 0xDD DRM.ECC_ADDR.LINE.off).raise DRM.page DRM.INT_RAW.UNCORR

/-- Whether transfers cross between Felt and DRAM: the crossing is OPEN (R66, R78). -/
def Dev.dramOpen (d : Dev) : Bool := d.xing 53 == 0

/-- R129: a batch of 64 handles from the ring reaches the cache; `bad` of its slots read back uncorrectable and their
handles are lost until the next warm reset (RING_SLOT_UNCORRECTABLE). -/
def execCacheRefillDone (pool : Fin 4) (bad : Fin 65) (s : State) : Host.Outcome State Fault Refusal :=
  onDev (fun d =>
    let q := d.pool pool
    let n := min 64 q.inFlight
    if n = 0 ∨ !d.dramOpen then d else
    let bad := min bad.val n
    let d := d.setPool pool { q with inFlight := q.inFlight - n, cached := q.cached + (n - bad) }
    let d := (List.range bad).foldl (fun d _ =>
      let busy := d.busyIdx pool
      let (k, d) := d.free
      let i := kthFree busy (k % (d.poolCount pool - busy.length))
      let d := d.setBufRec pool i { d.bufRec pool i with lost := true }
      (((d.err BUF.page 0x21 BUF.POOL_STAT.FREE.off).raise BUF.page BUF.INT_RAW.RING_ECC).count 0x706).dramUncorr) d
    (d.refillPool pool).rebalance) s

/-- R132: a window ends. The monitor compares the busiest bank with the mean of all 96 and requests a Reroll after
DWELL windows over RATIO. The counts are those of the window just ended. -/
def execHashWindowEnd (s : State) : Host.Outcome State Fault Refusal :=
  onDev (fun d =>
    let cnt (b : Nat) : Nat := tget (fun _ => 0) d.bankCount b
    let total := ((List.range 96).map cnt).sum
    let hot := (List.range 96).foldl (fun h b => if cnt h < cnt b then b else h) 0
    let load (b : Nat) : Nat := if total = 0 then 0 else min (cnt b * 96 * 64 / total) 255
    let d := (List.range 96).foldl (fun d b =>
      let d := d.set BUF.page BUF.BANK_STAT.LOAD (load b) b
      d.set BUF.page BUF.BANK_STAT.ACC_K (cnt b / 1024) b) d
    let d := d.set BUF.page BUF.HASH_STAT.HOT_BANK hot
    let hotter : Bool := total * d.get BUF.page BUF.HASH_CFG.RATIO < cnt hot * 96 * 64
    let d : Dev := { d with bankCount := [], hashOver := if hotter then d.hashOver + 1 else 0 }
    if hotter && d.flag BUF.page BUF.HASH_CFG.AUTO && d.get BUF.page BUF.HASH_CFG.DWELL ≤ d.hashOver then
      d.rerollRequest
    else d) s

/-- R132: HASH_CMD.REROLL. -/
def execHashRerollRequest (acc : Accessor) (s : State) : Host.Outcome State Fault Refusal :=
  onDev (fun d => d.asOwner acc BUF.page BUF.HASH_CMD.REROLL.off Dev.rerollRequest BUF.HASH_CMD.REROLL.strike) s

/-- Whether a spill of a frame is refused (R141): the area is full, the input is at its limit, the engine's bandwidth is
in use, or DRAM is not trained. -/
def Dev.spillRefused (d : Dev) (input lines : Nat) (busy : Bool) : Bool :=
  busy || !d.flag DRM.page DRM.DRM_STAT.TRAINED
    || 100663296 < d.spillUsedLines + lines
    || 16384 * d.get VOQ.page VOQ.SPILL_LIM.INPUT_MAX_MIB < d.spillOf input + lines

/-- R140: the spill engine copies the next waiting arrival of a VOQ to the DRAM tail and frees its SRAM buffer, or is
refused (R141); `busy`: the engine's bandwidth is in use. -/
def execSpillCopyDone (voq : Fin 20000) (busy : Bool) (s : State) : Host.Outcome State Fault Refusal :=
  onDev (fun d => d.when d.dramOpen (fun d =>
    let q := d.voq voq
    match q.copying with
    | [] => d
    | n :: rest =>
      match d.frame n with
      | none => d.setVoq voq { q with copying := rest }
      | some f =>
        if !f.ended then d
        else if f.mcast then
          (if q.tail.isEmpty then d.setVoq voq { q with sram := q.sram ++ [n], copying := rest } else d)
        else if d.spillRefused (voqInput voq) (linesOf f.len) busy then
          let d := (d.setRefused (spillKey (voqInput voq) (voqTc voq)) (some d.now)).setRefused spillAny (some d.now)
          ((d.raise VOQ.page VOQ.INT_RAW.SPILL_REFUSED).count 0x712).rebalance
        else
          let d := (d.setRefused (spillKey (voqInput voq) (voqTc voq)) none).countLines n
          let d := d.setVoq voq { q with tail := q.tail ++ [n], copying := rest, spilling := true }
          let d := d.setSpill (voqInput voq) (d.spillOf (voqInput voq) + linesOf f.len)
          let d := match f.buf with
            | some h => d.freeBuffer h 0x023
            | none => d
          let d := d.setFrame n (some { f with buf := none, spilled := true })
          (d.count 0x710).refreshSpill)) s

/-- R140: the engine has read the oldest frame of a VOQ's tail back into a new buffer charged to the same input; a frame
that reads back uncorrectable is discarded (SPILL_READ_UNCORRECTABLE, R141). -/
def execSpillRefillDone (voq : Fin 20000) (uncorrectable : Bool) (s : State) : Host.Outcome State Fault Refusal :=
  onDev (fun d => d.when d.dramOpen (fun d =>
    let q := d.voq voq
    match q.tail with
    | [] => d
    | n :: rest =>
      match d.frame n with
      | none => d.setVoq voq { q with tail := rest }
      | some f =>
        let give (d : Dev) : Dev := d.setSpill (voqInput voq) (d.spillOf (voqInput voq) - linesOf f.len)
        if uncorrectable then
          let d := give d
          let d := d.setVoq voq (d.spillEnd (d.framePool n) { q with tail := rest })
          let d := (d.count 0x713).err VOQ.page 0x28 VOQ.VOQ_SPILL.LINES.off
          (d.clearDest n (voqOutput voq) 0x023).dramUncorr.refreshSpill
        else
          if d.flag BUF.page BUF.MGR_CTRL.HALT then d else
          let low := ((q.sram.map d.frameLen).sum) < 1024 * d.get VOQ.page VOQ.SPILL_CFG.REFILL_LVL
          match d.choosePool (voqInput voq) f.len with
          | none => d
          | some p =>
            if !low || (d.pool p).press then d else
            let d := give d
            let ((h, bank), d) := d.takeBuffer p (voqInput voq) false
            let d := (d.setFrame n (some { f with buf := some h, startBank := bank })).countLines n
            let q := d.spillEnd p { q with sram := q.sram ++ [n], tail := rest }
            ((d.setVoq voq q).count 0x711).refreshSpill)) s

/-- R144: HOLD_MS has run out; with no hold running, or before its time is up, nothing happens. -/
def execHoldExpiry (port : Fin 50) (s : State) : Host.Outcome State Fault Refusal :=
  onDev (fun d => d.when (d.holdDue port) (·.holdEnd port)) s

/-- HALT set: no buffer is granted any more, so the frames that wait for one are dropped (R120). -/
def Dev.halt (d : Dev) : Dev :=
  let d := d.set BUF.page BUF.MGR_CTRL.HALT 1
  (d.holding.map Prod.fst).foldl Dev.serveArea d

/-- R120: MGR_CTRL.HALT = 1. -/
def execMgrHalt (acc : Accessor) (s : State) : Host.Outcome State Fault Refusal :=
  onDev (fun d => d.asOwner acc BUF.page BUF.MGR_CTRL.HALT.off Dev.halt
    BUF.MGR_CTRL.HALT.strike) s

/-- R120: MGR_CTRL.HALT = 0; HALTED falls. -/
def execMgrResume (acc : Accessor) (s : State) : Host.Outcome State Fault Refusal :=
  onDev (fun d => d.asOwner acc BUF.page BUF.MGR_CTRL.HALT.off
    (fun d => (d.set BUF.page BUF.MGR_CTRL.HALT 0).set BUF.page BUF.MGR_CTRL.HALTED 0) [(BUF.MGR_CTRL.HALT.off, 0)]) s

/-- R120: every allocation granted has reached its VOQ; HALTED rises while HALT = 1. -/
def execMgrHalted (s : State) : Host.Outcome State Fault Refusal :=
  onDev (fun d => d.when (d.flag BUF.page BUF.MGR_CTRL.HALT) (·.set BUF.page BUF.MGR_CTRL.HALTED 1)) s

/-- R136: POOL_LOW.CLR sets the mark of the pool that the accessor's POOL_SEL names to its current FREE. -/
def execPoolLowClr (acc : Accessor) (s : State) : Host.Outcome State Fault Refusal :=
  onDev (fun d => d.asOwner acc BUF.page BUF.POOL_LOW.CLR.off (fun d =>
    let p := d.get BUF.page BUF.POOL_SEL.POOL acc.idx
    d.set BUF.page BUF.POOL_LOW.LOW (d.get BUF.page BUF.POOL_STAT.FREE p) p) BUF.POOL_LOW.CLR.strike) s

/-- The VOQs a FLUSH_CMD names (R144): one, all to an endpoint, or all from one. -/
def Dev.flushScope (d : Dev) (scope ep voq : Nat) : List Nat :=
  match scope with
  | 0 => [voq]
  | 1 => d.voqsTo ep
  | _ => d.voqsFrom ep

/-- FLUSH_CMD written: a reserved scope or an endpoint above 49 starts nothing and sets 0x08. -/
def Dev.flushStart (d : Dev) (acc : Accessor) (scope ep : Nat) : Dev :=
  if scope = 3 ∨ (scope ≠ 0 ∧ 49 < ep) then d.err VOQ.page 0x08 VOQ.FLUSH_CMD.SCOPE.off
  else if d.flag VOQ.page VOQ.FLUSH_CMD.BUSY then d
  else
    let v := d.get VOQ.page VOQ.VOQ_SEL.INDEX acc.idx
    let d := d.set VOQ.page VOQ.FLUSH_CMD.BUSY 1
    { d with flushing := d.flushScope scope ep v }

/-- R144: a FLUSH_CMD write. The frames go when the flush completes (VOQ_FLUSH_DONE), within 1 ms. -/
def execVoqFlushStart (acc : Accessor) (scope : BitVec 2) (ep : BitVec 6) (s : State) :
    Host.Outcome State Fault Refusal :=
  onDev (fun d => d.asOwner acc VOQ.page VOQ.FLUSH_CMD.SCOPE.off (·.flushStart acc scope.toNat ep.toNat)
    [(VOQ.FLUSH_CMD.SCOPE.off, setBits (ep.setWidth 32) VOQ.FLUSH_CMD.SCOPE.lo 2 scope.toNat)]) s

/-- R144: the software flush completes: its frames are freed and counted, BUSY clears, FLUSH_DONE is raised. -/
def execVoqFlushDone (s : State) : Host.Outcome State Fault Refusal :=
  onDev (fun d => d.when (d.flag VOQ.page VOQ.FLUSH_CMD.BUSY) (fun d =>
    let vs := d.flushing
    let n := (vs.map (fun v => (d.voq v).all.length)).sum
    let d := { d with flushing := [] }
    let d := vs.foldl (fun d v => d.flushVoq v none) d
    let d := (d.count 0x714 n).set VOQ.page VOQ.FLUSH_CMD.BUSY 0
    d.rebalance.raise VOQ.page VOQ.INT_RAW.FLUSH_DONE)) s

/-- R138: XOFF or PAUSE sent again for what is still back-pressured. -/
def execBpRefresh (port : Fin 48) (s : State) : Host.Outcome State Fault Refusal :=
  onDev (fun d =>
    let bp := d.get BUF.page BUF.INPUT_STAT.BP_TC port.val
    d.signalBp port 0 bp) s

end Sys2Proof.Machine
end

