-- ==== Sys2Proof/Machine/Pages.lean ====
section
/-!
DEFINITION. Machine/Pages.lean: what every page shares: the COMMIT of a page (R397, R398), its configuration image
(R354), who is the Doublet's standby (R289), and the entry window that each accessor has (R400).
-/
namespace Sys2Proof.Machine

/-! ### COMMIT (R397) -/

/-- One rule of a COMMIT: whether it is broken, the code it takes, the offset of the offending register. -/
abbrev Rule := Bool × Nat × Nat

/-- A COMMIT refused: nothing is applied, COMMIT_STAT and ERR_INFO say why. -/
def Dev.rejectCommit (d : Dev) (page code off : Nat) : Dev :=
  ((d.set page COM.COMMIT_STAT.REJECTED 1).set page COM.COMMIT_STAT.CODE code).err page code off

/-- Whether a page has a configuration image: it lies outside the keep-alive domain and the always-on logic. -/
def hasImage (page : Nat) : Bool :=
  match pageOf page with
  | some (t, _) => 1 < t.island
  | none => false

/-- The page's image written (R354): it equals the committed configuration, or is void while DRAM is not trained. -/
def Dev.writeImage (d : Dev) (page : Nat) : Dev :=
  if hasImage page then d.setFlag page COM.STAT.IMAGE_VOID (!d.flag DRM.page DRM.DRM_STAT.TRAINED) else d

/-- A COMMIT accepted: every shadow of the page is live, the image follows, ACCEPTED advances. -/
def Dev.acceptCommit (d : Dev) (page : Nat) : Dev :=
  let d := (d.applyShadows page).writeImage page
  let d := (d.set page COM.COMMIT_STAT.REJECTED 0).set page COM.COMMIT_STAT.CODE 0
  d.incWrap page COM.COMMIT_STAT.ACCEPTED

/-- A COMMIT of a page under its rules: the first broken rule refuses it, else it is applied and has its effect, which
sees the device before and after. -/
def Dev.commitBy (d : Dev) (page : Nat) (rules : List Rule) (effect : Dev → Dev → Dev) : Dev :=
  match rules.find? (·.1) with
  | some (_, code, off) => d.rejectCommit page code off
  | none => effect d (d.acceptCommit page)

/-- A rule about a field's shadow being in a range, with code 0x08 or the page's own. -/
def Dev.ruleRange (d : Dev) (t : PageType) (page : Nat) (f : Field) (lo hi : Nat) (code : Nat := 0x08) (sel : Nat := 0) :
    Rule :=
  let v := d.getSh t page f sel
  (v < lo || hi < v, code, f.off)

/-- The first rule broken for some of several instances. -/
def ruleAny (n : Nat) (r : Nat → Rule) : Rule :=
  match (List.range n).find? (fun i => (r i).1) with
  | some i => r i
  | none => (false, 0, 0)

/-! ### The Doublet's standby (R289) -/

/-- A class of the state copy that only the copy may change here: COPY bit 4 TIME, 3 REF, 2 TABLES, 1 BLK, 0 FRER. -/
def Dev.copied (d : Dev) (cls : Nat) : Bool :=
  d.flag DBL.page DBL.DBL_CFG.ENABLE && !d.flag DBL.page DBL.DBL_STAT.OWNER
    && (d.get DBL.page DBL.DBL_CFG.COPY).testBit cls

/-! ### Entry windows (R400) -/

def winTable (d : Dev) (w : EntryWin) (acc : Accessor) : Nat :=
  match w.table with | some f => d.get w.page f acc.idx | none => 0
def winWord (d : Dev) (w : EntryWin) (acc : Accessor) : Nat :=
  match w.word with | some f => d.get w.page f acc.idx | none => 0
def winIndex (d : Dev) (w : EntryWin) (acc : Accessor) : Nat := d.get w.page w.index acc.idx

/-- The 64 data bits an accessor has put into its window. -/
def winData (d : Dev) (w : EntryWin) (acc : Accessor) : Data :=
  BitVec.ofNat 64 (d.get w.page w.lo acc.idx + d.get w.page w.mid acc.idx * 2 ^ 32)

def Dev.setWinBuf (d : Dev) (page : Nat) (acc : Accessor) (b : WinBuf) : Dev :=
  { d with wins := tset (fun _ => ⟨[], []⟩) d.wins (winKey page acc) b }

/-- A native word shown in an accessor's window. -/
def Dev.winShow (d : Dev) (w : EntryWin) (acc : Accessor) (n : Native) : Dev :=
  let d := d.set w.page w.lo (n.toNat % 2 ^ 32) acc.idx
  let d := d.set w.page w.mid (n.toNat / 2 ^ 32 % 2 ^ 32) acc.idx
  d.set w.page w.ecc (n.toNat / 2 ^ 64) acc.idx

/-- ENTRY_CMD.RESULT of an operation. -/
def Dev.winResult (d : Dev) (w : EntryWin) (acc : Accessor) (r : Nat) : Dev := d.set w.page w.result r acc.idx

/-- The words of an entry captured at one instant; the accessor's WORD chooses the one shown. An uncorrectable word is
returned as stored, with ERR_INFO 0x04 and the low index bits (R400); a corrected one is returned corrected. Both are
counted (R428; log entry 99). -/
def Dev.winCapture (d : Dev) (w : EntryWin) (acc : Accessor) (words : List Native) : Dev :=
  let shown := words.map (fun n => match decodeNative n with
    | .corrected v => encodeNative v
    | _ => n)
  let d := d.setWinBuf w.page acc { d.winBuf w.page acc with captured := shown }
  let d := d.winShow w acc (shown.getD (winWord d w acc) 0)
  let d := words.foldl (fun (d : Dev) n => match decodeNative n with
    | .clean _ => d
    | .corrected _ => d.count 0x707
    | .uncorrectable => d.count 0x708) d
  let d := if words.any (fun n => decodeNative n == .uncorrectable) then
      d.err w.page 0x04 (winIndex d w acc % 65536) else d
  d.winResult w acc 0

/-- The word an operation names joins those collected; `some words` when it is the entry's last word: all of them in
order, a word not written since the entry was chosen at the reset value of ENTRY_LO and ENTRY_MID (DEDUCED, log entry
98). -/
def Dev.winCollect (d : Dev) (w : EntryWin) (acc : Accessor) (last : Nat) : Dev × Option (List Data) :=
  let i := winWord d w acc
  let b := d.winBuf w.page acc
  let parts := tset (fun _ => 0) b.parts i (winData d w acc)
  if i = last then
    (d.setWinBuf w.page acc { b with parts := [] }, some ((List.range (last + 1)).map (tget (fun _ => 0) parts)))
  else (d.setWinBuf w.page acc { b with parts := parts }, none)

/-- ENTRY_ADDR written by an accessor: a change of TABLE or INDEX discards the partial entry; a change of WORD alone
shows the captured word. -/
def Dev.winAddress (d : Dev) (w : EntryWin) (acc : Accessor) (v : Word) : Dev :=
  let t0 := winTable d w acc
  let i0 := winIndex d w acc
  let w0 := winWord d w acc
  let d := d.wr w.page w.index.off (v &&& (fieldsAt (match pageOf w.page with | some (t, _) => t | none => .glb)
    w.index.off).foldl (fun m f => m ||| f.mask) 0) acc.idx
  let b := d.winBuf w.page acc
  if t0 ≠ winTable d w acc ∨ i0 ≠ winIndex d w acc then d.setWinBuf w.page acc ⟨[], []⟩
  else if w0 = winWord d w acc then d
  else match b.captured[winWord d w acc]? with
    | some n => d.winShow w acc n
    | none => d

/-- ENTRY_LO or ENTRY_MID written by an accessor: the word WORD names collects in its window, in the
place of a captured one (R400); the device computes
ENTRY_HI on every write. -/
def Dev.winWriteData (d : Dev) (w : EntryWin) (acc : Accessor) (off : Nat) (v : Word) : Dev :=
  let d := d.wr w.page off v acc.idx
  let b := d.winBuf w.page acc
  let i := winWord d w acc
  let d := d.setWinBuf w.page acc { b with
    captured := b.captured.set i (encodeNative (winData d w acc)), parts := tset (fun _ => 0) b.parts i (winData d w acc) }
  d.set w.page w.ecc (eccByte (winData d w acc)).toNat acc.idx

end Sys2Proof.Machine
end

