-- ==== Sys2Proof/Machine/Shaper.lean ====
section
/-!
DEFINITION. Machine/Shaper.lean: credit shapers and shares of the hierarchy below TC6 (R150, R153 to R156). Credit is
held exactly, in units of a byte divided by 8,000 × 2^40; tags and virtual times are numbers of 40 bits, and a tag's step is
rounded down (DESIGN CHOICE, log entry 16).
-/
namespace Sys2Proof.Machine

/-! ### Nodes and their configuration (R150) -/

def nodeSub (n : Nat) : Nat := n
def nodeSvc (s : Nat) : Nat := 4096 + s
def nodePort (o : Nat) : Nat := 4496 + o
def nodeVoq (v : Nat) : Nat := 8192 + v

def node0 : Node := ⟨0, 0, 0, false, false, 0⟩
def Dev.node (d : Dev) (n : Nat) : Node := tget (fun _ => node0) d.nodes n
def Dev.setNode (d : Dev) (n : Nat) (x : Node) : Dev := { d with nodes := tset (fun _ => node0) d.nodes n x }

/-- A node's table and index. -/
def nodeEntry (n : Nat) : TableId × Nat :=
  if n < 4096 then (.subNode, n) else if n < 4496 then (.svcNode, n - 4096) else (.portNode, n - 4496)

/-- A node's configuration. -/
structure NodeCfg where
  valid : Bool
  prio : Nat
  weight : Nat
  rate : Nat
  hi : Nat
  out : Nat
  cls : Nat
  service : Nat

/-- A node's words as the spec's table of Chapter 06 lays them out. -/
def nodeCfgOf (n : Nat) (w0 w1 : Data) : NodeCfg :=
  let hi := bitsOf w1 63 40
  if n < 4096 then
    ⟨bitOf w0 63, bitsOf w0 50 48, bitsOf w0 47 40, bitsOf w0 39 23, hi, bitsOf w0 62 57, bitsOf w0 56 54, bitsOf w0 53 51⟩
  else if n < 4496 then
    ⟨bitOf w0 63, bitsOf w0 62 60, bitsOf w0 59 52, bitsOf w0 51 35, hi, (n - 4096) / 8, 8, 0⟩
  else ⟨true, 0, 1, bitsOf w0 63 47, hi, n - 4496, 8, 0⟩

def Dev.nodeCfg (d : Dev) (n : Nat) : NodeCfg :=
  let e := nodeEntry n
  nodeCfgOf n (d.lookupWord e.1 e.2 0) (d.lookupWord e.1 e.2 1)

/-- The subscriber node a VOQ is attached to, and its weight there. -/
def Dev.voqSub (d : Dev) (v : Nat) : Nat := bitsOf (d.lookupWord .voqAttach v) 11 0
def Dev.voqWeight (d : Dev) (v : Nat) : Nat := bitsOf (d.lookupWord .voqAttach v) 19 12

/-- The service node above a subscriber node. -/
def Dev.subSvc (d : Dev) (n : Nat) : Nat := let c := d.nodeCfg n; c.out * 8 + c.service

/-! ### Backlog and eligibility (R153) -/

/-- Whether a class is open at an output: its gate, the partner's pauses, the hold (that a loop-back leaves open to
EP48 and EP49). -/
def Dev.classOpen (d : Dev) (o c : Nat) : Bool :=
  (decide (48 ≤ o) && !d.holdOn o) ||
    (decide (o < 48) && (d.get (GCL.page o) GCL.GCL_STAT.GATES).testBit c
      && !(d.get (PRT.page o) PRT.PORT_STAT.PFC_RX).testBit c
      && !d.flag (PRT.page o) PRT.PORT_STAT.PAUSED
      && (!d.flag (PRT.page o) PRT.PORT_STAT.HOLD || tget (fun _ => false) d.holdLoop o))

/-- The VOQs of TC0 to TC5 of an output that hold frames. -/
def Dev.backlogged (d : Dev) (o : Nat) : List Nat :=
  (d.voqsTo o).filter (fun v => decide (voqTc v < 6) && !(d.voq v).all.isEmpty)

/-- The subscriber nodes above a list of VOQs, and the service nodes above a list of subscriber nodes. -/
def Dev.subsOf (d : Dev) (vs : List Nat) : List Nat := (vs.map d.voqSub).eraseDups
def Dev.svcsOf (d : Dev) (ns : List Nat) : List Nat := (ns.map d.subSvc).eraseDups

def Dev.creditOk (d : Dev) (n : Nat) : Bool := (d.nodeCfg n).rate == 0 || decide (0 ≤ (d.node n).credit)

def Dev.voqElig (d : Dev) (v : Nat) : Bool :=
  (d.voq v).head?.isSome && d.classOpen (voqOutput v) (voqTc v) && !d.voqHeld v

def Dev.subElig (d : Dev) (vs : List Nat) (n : Nat) : Bool :=
  d.creditOk n && vs.any (fun v => d.voqSub v == n && d.voqElig v)

def Dev.svcElig (d : Dev) (vs ns : List Nat) (s : Nat) : Bool :=
  d.creditOk (nodeSvc s) && ns.any (fun n => d.subSvc n == s && d.subElig vs n)

/-- Whether nothing holds a VOQ, a subscriber node or a service node out: no shaper, gate, pause or hold (R155). -/
def Dev.voqFree (d : Dev) (v : Nat) : Bool := d.classOpen (voqOutput v) (voqTc v) && !d.voqHeld v

def Dev.subFree (d : Dev) (vs : List Nat) (n : Nat) : Bool :=
  d.creditOk n && vs.any (fun v => d.voqSub v == n && d.voqFree v)

def Dev.svcFree (d : Dev) (vs ns : List Nat) (s : Nat) : Bool :=
  d.creditOk (nodeSvc s) && ns.any (fun n => d.subSvc n == s && d.subFree vs n)

/-! ### Credit (R154) -/

/-- Credit units in one byte. -/
abbrev creditU : Nat := 8000 * 1099511627776

/-- Nodes with a shaper: only listed entries can have a RATE. -/
def Dev.shaped (d : Dev) : List Nat :=
  let keys (t : TableId) (base : Nat) : List Nat :=
    (d.tables.filterMap (fun e => if e.1 / 67108864 = t.num then some (base + e.1 / 64 % 1048576) else none)).eraseDups
  (keys .subNode 0 ++ keys .svcNode 4096 ++ keys .portNode 4496).filter (fun n =>
    let c := d.nodeCfg n
    c.valid && c.rate != 0)

/-- The classes of the valid subscriber nodes below a service or port node. -/
def Dev.classesBelow (d : Dev) (n o : Nat) : List Nat :=
  let listed := d.tables.filterMap (fun e => if e.1 / 67108864 = TableId.subNode.num then some (e.1 / 64 % 1048576) else none)
  let subs := (listed ++ (List.range 6).map (o * 6 + ·)).filter (fun m =>
    let c := d.nodeCfg m
    c.valid && c.out == o && (decide (4496 ≤ n) || nodeSvc (d.subSvc m) == n))
  (subs.map (fun m => (d.nodeCfg m).cls)).eraseDups

/-- Whether a node is backlogged, and whether its class is closed (a service or port node is open while any class below
it is). -/
def Dev.nodeBusy (d : Dev) (n : Nat) : Bool × Bool :=
  let c := d.nodeCfg n
  let vs := (d.backlogged c.out).filter (fun v =>
    if n < 4096 then d.voqSub v == n else if n < 4496 then nodeSvc (d.subSvc (d.voqSub v)) == n else true)
  let closed := if n < 4096 then !d.classOpen c.out c.cls
    else !(d.classesBelow n c.out).any (d.classOpen c.out)
  (!vs.isEmpty, closed)

/-- The credit of every shaped node after `dt` units of 2^-40 ns. -/
def Dev.accrue (d : Dev) (dt : Nat) : Dev :=
  d.shaped.foldl (fun d n =>
    let c := d.nodeCfg n
    let x := d.node n
    let (busy, closed) := d.nodeBusy n
    let v := if !closed && (busy || decide (x.credit < 0)) then x.credit + (c.rate * dt : Nat) else x.credit
    let v := min v (c.hi * creditU : Nat)
    d.setNode n { x with credit := if !busy && decide (0 < v) then 0 else v, out := c.out }) d

/-! ### Tags (R155) -/

/-- How far a tag lies ahead of a virtual time, modulo 2^40. -/
def aheadOf (t v : Nat) : Nat := (t + 2 ^ 40 - v % 2 ^ 40) % 2 ^ 40

/-- The later of a tag and a virtual time, compared modulo 2^40. -/
def laterTag (t v : Nat) : Nat := if aheadOf t v < 2 ^ 39 then t else v

/-- A child brought up to date under its parent's virtual time: woken, or free again of shaper, gate, pause and hold; a
refill from DRAM alone does not move its tag. -/
def Dev.refreshChild (d : Dev) (n o : Nat) (v : Nat) (backlog elig : Bool) : Dev :=
  let x := d.node n
  let tag := if backlog && !x.backlog then v
    else if elig && !x.elig then laterTag x.tag v else x.tag
  let credit := if backlog && !x.backlog then min x.credit 0 else x.credit
  d.setNode n { x with tag := tag, credit := credit, backlog := backlog, elig := elig, out := o }

/-- Every child of an output's hierarchy brought up to date. -/
def Dev.refreshShares (d : Dev) (o : Nat) : Dev :=
  let vs := d.backlogged o
  let ns := d.subsOf vs
  let ss := d.svcsOf ns
  let live := vs.map nodeVoq ++ ns ++ ss.map nodeSvc
  let gone := (d.nodes.filter (fun e => e.2.out == o && e.2.backlog && !live.contains e.1 && !decide (4496 ≤ e.1 ∧ e.1 < 8192))).map Prod.fst
  let d := gone.foldl (fun d n => d.setNode n { d.node n with backlog := false, elig := false }) d
  let d := vs.foldl (fun d v => d.refreshChild (nodeVoq v) o (d.node (d.voqSub v)).v true (d.voqFree v)) d
  let d := ns.foldl (fun d n => d.refreshChild n o (d.node (nodeSvc (d.subSvc n))).v true (d.subFree vs n)) d
  ss.foldl (fun d s => d.refreshChild (nodeSvc s) o (d.node (nodePort o)).v true (d.svcFree vs ns s)) d

/-- Of the children that may go, the one with the highest PRIO, then the smallest tag, then the lowest index. -/
def pickChild (v : Nat) : List (Nat × Nat × Nat) → Option Nat
  | [] => none
  | (n, prio, tag) :: rest =>
    match pickBest v (n, prio, tag) rest with
    | (m, _, _) => some m
where
  pickBest (v : Nat) (best : Nat × Nat × Nat) : List (Nat × Nat × Nat) → Nat × Nat × Nat
    | [] => best
    | (n, prio, tag) :: rest =>
      let off (t : Nat) : Nat := aheadOf (t + 2 ^ 39) v
      let better := best.2.1 < prio ||
        (prio == best.2.1 && (decide (off tag < off best.2.2) || (tag == best.2.2 && n < best.1)))
      pickBest v (if better then (n, prio, tag) else best) rest

/-- Among VOQs that may send (`ok`), the selection of R155 from the port node down. -/
def Dev.pickVoq (d : Dev) (o : Nat) (ok : List Nat) : Option Nat :=
  let elig := ok.filter d.voqElig
  let ns := (d.subsOf elig).filter (fun n => d.creditOk n)
  let ss := (d.svcsOf ns).filter (fun s => d.creditOk (nodeSvc s))
  let cand (l : List Nat) (key : Nat → Nat) : List (Nat × Nat × Nat) :=
    l.map (fun n => (n, (d.nodeCfg (key n)).prio, (d.node (key n)).tag))
  if !d.creditOk (nodePort o) then none else
  match pickChild (d.node (nodePort o)).v (cand ss nodeSvc) with
  | none => none
  | some s =>
    match pickChild (d.node (nodeSvc s)).v (cand (ns.filter (fun n => d.subSvc n == s)) nodeSub) with
    | none => none
    | some n =>
      pickChild (d.node n).v ((elig.filter (fun v => d.voqSub v == n)).map (fun v => (v, 0, (d.node (nodeVoq v)).tag)))

/-- The selection's effect on virtual times, tags and credits when a VOQ's frame of shaping length `len` is dispatched
(R154, R155). -/
def Dev.charge (d : Dev) (v len : Nat) : Dev :=
  let o := voqOutput v
  let n := d.voqSub v
  let s := nodeSvc (d.subSvc n)
  let p := nodePort o
  let step (d : Dev) (parent child weight : Nat) : Dev :=
    let t := (d.node child).tag
    let d := d.setNode parent { d.node parent with v := laterTag (d.node parent).v t, out := o }
    d.setNode child { d.node child with tag := (t + len * 256 / weight) % 2 ^ 40 }
  let d := step d p s (d.nodeCfg s).weight
  let d := step d s n (d.nodeCfg n).weight
  let d := step d n (nodeVoq v) (d.voqWeight v)
  [n, s, p].foldl (fun d m =>
    if (d.nodeCfg m).rate = 0 then d
    else d.setNode m { d.node m with credit := (d.node m).credit - (len * creditU : Nat), out := o }) d

/-- Time passes at every shaper and share (R154). -/
def Dev.shaperTime (d : Dev) (dt : Nat) : Dev :=
  let d := d.accrue dt
  (((d.voqs.map (fun e => voqOutput e.1)).eraseDups)).foldl Dev.refreshShares d

end Sys2Proof.Machine
end

