-- ==== Sys2Proof/Machine/Time.lean ====
section
/-!
DEFINITION. Machine/Time.lean: the time base (R206 to R214), stamps (R215 to R225), the transmit timestamp FIFOs (R223)
and the Crown time capture (R226). The lane copies of R213 advance on the same ticks and take the same changes as the
master; State holds how far each stands from it, and what has gone wrong with one since the last check is what
LANE_COPY_CHECK brings (log entry 105).
-/
namespace Sys2Proof.Machine

/-! ### The increment and the slew (R207, R210, R211) -/

/-- INC in force. -/
def Dev.inc (d : Dev) : Nat := d.get TMB.page TMB.INC_HI.INC_HI * 2 ^ 32 + d.get TMB.page TMB.INC_LO.INC_LO

/-- The nominal increment, INC's reset value. -/
abbrev incNom : Nat := 0x01999999999A

def Dev.hoCorr (d : Dev) : Int := d.getInt REF.page REF.HO_CORR.CORR

/-- INC + HO_CORR. -/
def Dev.rate (d : Dev) : Nat := ((d.inc : Int) + d.hoCorr).toNat

/-- The rate's offset from nominal, in ppb. -/
def Dev.ratePpb (d : Dev) : Int := ((d.rate : Int) - incNom) * 1000000000 / incNom

/-- The time base as a lane island's copy has it (R213, R24). -/
def Dev.laneNow (d : Dev) (lane : Nat) : Nat := ((d.now : Int) + tget (fun _ => 0) d.copyOfs lane).toNat

def Dev.setCopyOfs (d : Dev) (lane : Nat) (v : Int) : Dev := { d with copyOfs := tset (fun _ => 0) d.copyOfs lane v }

/-- What a Felt consumer reads through the time crossing (R76): the counter's value at one tick, at most 7.2 ns old,
which is four ticks; how many is a free value. Earlier ticks are taken to lie one INC + HO_CORR apart (DESIGN CHOICE,
log entry 67). -/
def Dev.readTime (d : Dev) : Nat × Dev :=
  let (k, d) := d.free
  (d.now - k % 5 * d.rate, d)

/-- LSY_STAT after the rate changed (R251): PPM_OUT outside 100 ppm, raised when it begins. -/
def Dev.checkPpm (d : Dev) : Dev :=
  let out : Bool := incNom < ((d.rate : Int) - incNom).natAbs * 10000
  let was := d.flag SYN.page SYN.LSY_STAT.PPM_OUT
  let d := d.setFlag SYN.page SYN.LSY_STAT.PPM_OUT out
  let d := d.set SYN.page SYN.LSY_STAT.OFS_PPB (toField 24 d.ratePpb)
  if out && !was then d.raise SYN.page SYN.INT_RAW.LSY_PPM else d

/-- What the slew moves in one tick (R211): SLEW_RATE ps per second of nominal ticks, rounded down. -/
def Dev.slewTick (d : Dev) : Nat := d.get TMB.page TMB.TMB_CFG.SLEW_RATE * incNom / 1000000000000

/-- The slew's signed part of one tick: towards 0, never past it. -/
def Dev.slewStep (d : Dev) : Int :=
  if 0 < d.slewRem then min d.slewRem d.slewTick
  else if d.slewRem < 0 then max d.slewRem (-(d.slewTick : Int))
  else 0

/-- A number saturated to 32 bits two's complement, symmetric. -/
def sat31 (v : Int) : Int := max (-(2 ^ 31 - 1)) (min (2 ^ 31 - 1) v)

/-- Whole nanoseconds of a signed time in units of 2^-40 ns. -/
def nsOfInt (v : Int) : Int := v / (nsU : Int)

/-- SLEW_REM, SLEW_ACT, NEG_STEP and the absorbed offset as the registers show them. -/
def Dev.refreshTime (d : Dev) : Dev :=
  let d := d.set TMB.page TMB.SLEW_REM.NS (toField 32 (sat31 (nsOfInt d.slewRem)))
  let d := d.setFlag TMB.page TMB.TMB_STAT.SLEW_ACT (d.slewRem != 0)
  let d := d.setFlag TMB.page TMB.TMB_STAT.NEG_STEP d.negOn
  let d := d.set REF.page REF.ABS_NS.NS (toField 32 (nsOfInt d.absOfs))
  d.set REF.page REF.ABS_FRAC.FRAC (d.absOfs % (nsU : Int) / 2 ^ 24).toNat

def evtIn0 : EvtIn := ⟨0, none, none, none, [], false, none⟩
def Dev.evtIn (d : Dev) (e : Nat) : EvtIn := tget (fun _ => evtIn0) d.evts e
def Dev.setEvtIn (d : Dev) (e : Nat) (x : EvtIn) : Dev := { d with evts := tset (fun _ => evtIn0) d.evts e x }

/-- Whether a gate is open. -/
def EvtIn.open_ (x : EvtIn) : Bool := match x.meas with | some m => m.opened && !m.closed | none => false

/-- What open gates note of the slew (R277), and, where the reference starts a switch or changes its state, of it. -/
def Dev.noteGates (d : Dev) (ref : Bool := false) : Dev :=
  d.evts.foldl (fun d e =>
    if !e.2.open_ then d else
    let d := if ref then d.set EVT.page EVT.MEAS_STAT.REF_CHG 1 e.1 else d
    if d.slewRem != 0 then d.set EVT.page EVT.MEAS_STAT.SLEWED 1 e.1 else d) d

/-- An amount added to the pending slew (R211). -/
def Dev.addSlew (d : Dev) (v : Int) : Dev :=
  let d := { d with slewRem := d.slewRem + v }
  ({ d with slewOn := d.slewOn || v != 0 }).refreshTime.noteGates

/-- The absorbed part falls as the slew moves towards the reference (R239); it never grows. -/
def absAfter (a step : Int) : Int :=
  if 0 < a then max 0 (a - max step 0) else if a < 0 then min 0 (a - min step 0) else 0

/-- What one tick adds to the time base: INC + HO_CORR, or a sixteenth of it while a negative step is absorbed (never
withholding more than the deficit), and the slew term in full (R207, R210, R211). -/
def Dev.tickAdvance (d : Dev) : Int :=
  let full := d.rate
  let withheld := if d.negOn then min d.deficit (full - full / 16) else 0
  (full : Int) - withheld + d.slewStep

/-- R325: running firmware counts HEARTBEAT every 1 ms; the milliseconds are the time base's (DESIGN CHOICE, log
entry 24). -/
def Dev.heartbeat (d : Dev) (before : Nat) : Dev :=
  let k := d.get SVC.page SVC.FW_STAT.STATE
  let n := d.now / (1000000 * nsU) - before / (1000000 * nsU)
  if n = 0 ∨ !(k = 2 ∨ k = 4) then d else d.incWrap SVC.page SVC.HEARTBEAT.COUNT 0 n

/-- Felt's shapers and shares take the time that has passed between its readings (R154, R76): an earlier value after a
later one brings none. -/
def Dev.feltTick (d : Dev) : Dev :=
  let (t, d) := d.readTime
  ({ d with felt := max d.felt t }).shaperTime (t - d.felt)

/-- Launch table entries that the Blocker staged take effect at their instant (R188). -/
def Dev.applyStage (d : Dev) (upTo : Nat) : Dev :=
  let due := d.blkStage.filter (fun e => e.1 ≤ upTo)
  if due.isEmpty then d else
  let d := { d with blkStage := d.blkStage.filter (fun e => upTo < e.1) }
  due.foldl (fun d e => (d.setEntry .launch e.2.1 e.2.2.1 0).setEntry .launch e.2.1 e.2.2.2 1) d

/-- The clocks' own time, which a negative step does not withhold (R250): the time base less the deficit. -/
def Dev.clk (d : Dev) : Int := (d.now : Int) - d.deficit

/-- An output's driver goes on, with the output low (R260, R265). -/
def Dev.driverOn (d : Dev) (o : Nat) : Dev :=
  ({ d with driveFrom := tset (fun _ => 0) d.driveFrom o d.clk }.set OUT.page OUT.OUT_STAT.DRIVING 1 o).emit (.driver o true false)

/-- An output's driver goes to its idle state (R260). -/
def Dev.driverOff (d : Dev) (o : Nat) : Dev :=
  ({ d with outStop := tset (fun _ => none) d.outStop o none }.set OUT.page OUT.OUT_STAT.DRIVING 0 o).emit
    (.driver o false (d.flag OUT.page OUT.OUT_CFG.IDLE o))

/-- Outputs that stop and have completed their high phase go to their idle state; one that runs again meanwhile
restarts from there (R260). -/
def Dev.outStopsEnd (d : Dev) : Dev :=
  d.outStop.foldl (fun d e =>
    match e.2 with
    | none => d
    | some t =>
      if d.clk < t then d else
      let d := d.driverOff e.1
      d.when (tget (fun _ => false) d.outRuns e.1 && !d.flag OUT.page OUT.OUT_STAT.HELD_EXCL e.1) (·.driverOn e.1)) d

/-- What happens at instants of the time base that have come. -/
def Dev.instantsCome (d : Dev) : Dev := d.applyStage d.now

def Dev.tick (d : Dev) : Dev :=
  let before := d.now
  let adv := d.tickAdvance
  let step := d.slewStep
  let full := d.rate
  let withheld := if d.negOn then min d.deficit (full - full / 16) else 0
  let d := { d with now := ((d.now : Int) + adv).toNat % timeWrap }.feltTick
  ({ d with
    snapLate := if d.freezeAt.isNone then [] else d.snapLate
    slewRem := d.slewRem - step
    absOfs := absAfter d.absOfs step
    deficit := d.deficit - withheld }).refreshTime.noteGates.outStopsEnd.instantsCome.heartbeat before

/-! ### Stamps (R215 to R221) -/

/-- A value in 1/(1000 × 65,536) of 2^-40 ns, rounded to the nearest 2^-16 ns and wrapped into the time base's range. -/
def roundStamp (v : Int) : Nat :=
  let unit : Int := 1000 * 65536 * 16777216
  ((v + unit / 2) / unit * 16777216 % (timeWrap : Int)).toNat

/-- The TSU page of a lane index; the Doublet lanes have none (R393). -/
def tsuOf (lane : Nat) : Option Nat := if lane < 48 then some lane else if lane = 50 then some 48 else none

def Dev.asym (d : Dev) (lane : Nat) : Int :=
  match tsuOf lane with
  | some i => d.getInt (TSU.page i) TSU.ASYM_PS.ASYM
  | none => 0

/-- T_rx of R216: the time-base value at the last tick before the start-of-frame edge. -/
def Dev.edgeTick (d : Dev) (e : RxEdge) : Nat := d.now - e.back

/-- φ of R216 in INC / 65,536: the measured phase less the interpolator's position at the edge (R49). -/
def edgePhase (e : RxEdge) : Int := e.phase.toNat - e.interp.toInt

/-- The receive stamp of R216: the tick, the phase within it, less the receive latency and the asymmetry. -/
def Dev.rxStamp (d : Dev) (lane : Nat) (e : RxEdge) : Nat :=
  let lat := (d.get (LNK.page lane) LNK.RX_LAT.LAT_PS : Int) + d.asym lane
  roundStamp ((d.edgeTick e : Int) * 65536000 + edgePhase e * (d.inc * 1000 : Nat) - lat * nsU * 65536)

/-- The transmit stamp of R216 of a bit that leaves the MAC at `t`. -/
def Dev.txStampAt (d : Dev) (lane t : Nat) : Nat :=
  let lat := (d.get (LNK.page lane) LNK.TX_LAT.LAT_PS : Int) - d.asym lane
  roundStamp ((t : Int) * 65536000 + lat * nsU * 65536)

/-- A stamp taken on the tick alone (R220). -/
def softStamp (t : Nat) : Nat := roundStamp ((t : Int) * 65536000)

/-- Whether a port's stamps are SOFT (R26); ML's are while its latency is not valid. -/
def Dev.isSoft (d : Dev) (lane : Nat) : Bool :=
  if lane < 48 then d.flag (PRT.page lane) PRT.PORT_STAT.SOFT_STAMPS
  else !d.flag (LNK.page lane) LNK.LNK_STATE.LAT_VALID

/-- An event message's first bit at a port at `t`: the first that begins once the port has what hardware stamps need
returns it to them, one that began earlier is SOFT (R220). -/
def Dev.eventBegins (d : Dev) (port t : Nat) : Dev :=
  match tget (fun _ => none) d.hardFrom port with
  | some t0 =>
    if t0 ≤ t ∧ d.isSoft port = true then
      (d.set (PRT.page port) PRT.PORT_STAT.SOFT_STAMPS 0).raise (PRT.page port) PRT.INT_RAW.SOFT_CHG
    else d
  | none => d

/-- The data bits of the descriptor stamp word of R221. -/
def stampWord (t : Nat) (untrace : Bool) (src : Nat) : Data :=
  BitVec.ofNat 64 (secOf t % 256 * 2 ^ 56 + nsOf t * 2 ^ 26 + fracOf t * 2 ^ 10 + (if untrace then 2 ^ 9 else 0) + src % 512)

/-- The descriptor stamp as the native word it is (R221, R428). -/
def stampNative (t : Nat) (untrace : Bool) (src : Nat) : Native := encodeNative (stampWord t untrace src)

/-- R222: the full time of a descriptor stamp against `now`, from its low 8 bits of seconds. -/
def fullStamp (now secLo ns frac : Nat) : Int :=
  let s : Int := (secOf now : Int) - ((secOf now : Int) - secLo) % 256
  let t : Int := s * (secU : Int) + (ns * nsU + frac * 2 ^ 24 : Nat)
  if ((now / 2 ^ 24 * 2 ^ 24 : Nat) : Int) < t then t - 256 * (secU : Int) else t

/-! ### The transmit timestamp FIFO (R223) -/

def Dev.txfOf (d : Dev) (i : Nat) : List TxfEntry := tget (fun _ => []) d.txf i

/-- FILL and the head entry as the registers show them. -/
def Dev.txfShow (d : Dev) (i : Nat) : Dev :=
  let p := TSU.page i
  let q := d.txfOf i
  let d := d.set p TSU.TXF_STAT.FILL q.length
  match q with
  | [] =>
    let d := d.wr p TSU.TXF_TAG.TAG.off 0
    let d := (d.set p TSU.TXF_SEC_HI.SEC_HI 0).set p TSU.TXF_SEC_LO.SEC_LO 0
    (d.set p TSU.TXF_NS.NS 0).set p TSU.TXF_FRAC.FRAC 0
  | e :: _ =>
    let d := d.set p TSU.TXF_TAG.VALID 1
    let d := d.setFlag p TSU.TXF_TAG.SOFT e.soft
    let d := d.setFlag p TSU.TXF_TAG.UNTRACE e.untrace
    let d := d.setFlag p TSU.TXF_TAG.LOST_BEFORE e.lostBefore
    let d := d.set p TSU.TXF_TAG.TAG e.tag
    let d := d.set p TSU.TXF_SEC_HI.SEC_HI (secOf e.time / 2 ^ 32)
    let d := d.set p TSU.TXF_SEC_LO.SEC_LO (secOf e.time)
    (d.set p TSU.TXF_NS.NS (nsOf e.time)).set p TSU.TXF_FRAC.FRAC (fracOf e.time)

def Dev.setTxf (d : Dev) (i : Nat) (q : List TxfEntry) : Dev :=
  ({ d with txf := tset (fun _ => []) d.txf i q }).txfShow i

def Dev.setTxfLost (d : Dev) (i : Nat) (b : Bool) : Dev :=
  { d with txfLost := tset (fun _ => false) d.txfLost i b }

/-- TXF_ENTRY_WRITE: a stamp enters the FIFO of a TSU instance, or is lost and counted when 64 are held. -/
def Dev.txfPush (d : Dev) (i tag time : Nat) (soft untrace : Bool) : Dev :=
  let p := TSU.page i
  let q := d.txfOf i
  if 64 ≤ q.length then
    ((d.setTxfLost i true).incSat p TSU.TXF_STAT.LOST_CNT).raise p TSU.INT_RAW.TXF_LOST
  else
    let lost := tget (fun _ => false) d.txfLost i
    let d := (d.setTxfLost i false).setTxf i (q ++ [⟨tag % 65536, time, soft, untrace, lost⟩])
    d.raise p TSU.INT_RAW.TXF_NE

/-! ### Commands -/

/-- R211: SLEW_REM has reached 0. -/
def execSlewDone (s : State) : Host.Outcome State Fault Refusal :=
  onDev (fun d => d.when (d.slewOn && d.slewRem == 0) (fun d =>
    ({ d with slewOn := false }).raise TMB.page TMB.INT_RAW.SLEW_DONE)) s

/-- R210: the deficit of a negative step is used up. -/
def execNegStepDone (s : State) : Host.Outcome State Fault Refusal :=
  onDev (fun d => d.when (d.negOn && d.deficit == 0) (fun d =>
    ({ d with negOn := false }).refreshTime.raise TMB.page TMB.INT_RAW.STEP_DONE)) s

/-- TIME_CMD.SNAP (R25): the time base and its trace mark copied at one tick. -/
def Dev.snapshotTime (d : Dev) : Dev :=
  let d := d.setFlag TMB.page TMB.TIME_SEC_HI.UNTRACE d.untrace
  let d := d.set TMB.page TMB.TIME_SEC_HI.SEC_HI (secOf d.now / 2 ^ 32)
  let d := d.set TMB.page TMB.TIME_SEC_LO.SEC_LO (secOf d.now)
  let d := d.set TMB.page TMB.TIME_NS.NS (nsOf d.now)
  d.set TMB.page TMB.TIME_FRAC.FRAC (fracOf d.now)

/-- R25, R307: a snapshot, accepted from any accessor. -/
def execTimeSnapshot (acc : Accessor) (s : State) : Host.Outcome State Fault Refusal :=
  onDev (fun d => d.asAny acc TMB.page Dev.snapshotTime TMB.TIME_CMD.SNAP.strike) s

/-- TRACEABLE cleared, with TRACE_LOST when it was set (R208). -/
def Dev.traceClear (d : Dev) : Dev :=
  if d.untrace then d else (d.set TMB.page TMB.TMB_STAT.TRACEABLE 0).raise TMB.page TMB.INT_RAW.TRACE_LOST

/-- R208: TRACE_CMD.SET sets TRACEABLE unless the backup oscillator runs. -/
def execTraceSet (acc : Accessor) (s : State) : Host.Outcome State Fault Refusal :=
  onDev (fun d => d.asOwner acc TMB.page TMB.TRACE_CMD.SET.off (fun d =>
    if d.flag TMB.page TMB.TMB_STAT.BACKUP then d else d.set TMB.page TMB.TMB_STAT.TRACEABLE 1)
    TMB.TRACE_CMD.SET.strike) s

/-- R208: TRACE_CMD.CLR, with or without SET, clears TRACEABLE. -/
def execTraceClr (acc : Accessor) (s : State) : Host.Outcome State Fault Refusal :=
  onDev (fun d => d.asOwner acc TMB.page TMB.TRACE_CMD.CLR.off Dev.traceClear
    TMB.TRACE_CMD.CLR.strike) s

/-- R213: one lane's copy compared with the master and reloaded on a difference: one that stands in State, or that has
come since the last check (`differs`). -/
def execLaneCopyCheck (lane : Fin 51) (differs : Bool) (s : State) : Host.Outcome State Fault Refusal :=
  onDev (fun d => d.when (differs || d.laneNow lane != d.now) (fun d =>
    let d := (d.setCopyOfs lane 0).set TMB.page TMB.COPY_STAT.LAST_LANE lane
    ((d.incSat TMB.page TMB.COPY_STAT.RELOADS).count 0xD21).raise TMB.page TMB.INT_RAW.COPY_ERR)) s

/-- The time that firmware uses for an event message of a port, which a SOFT stamp leaves to its interrupt (R220). -/
def Dev.messageTime (d : Dev) (port time : Nat) (soft : Bool) : Nat := if soft then tget (fun _ => 0) d.softMsg port else time

/-- R220: at an event message's first bit on a SOFT port the lane strobes EP49; firmware reads the time base in its
handler and uses that value as the message time. -/
def execEventMsgStrobe (port : Fin 48) (s : State) : Host.Outcome State Fault Refusal :=
  onDev (fun d =>
    let d := d.eventBegins port d.now
    d.when (d.isSoft port) (fun d =>
    let d := { d with softMsg := tset (fun _ => 0) d.softMsg port d.now }
    d.emit (.coreInt 0 "strobe"))) s

/-- R223: TXF_CMD.POP; on an empty FIFO it does nothing. -/
def execTxfPop (acc : Accessor) (tsu : Fin 49) (s : State) : Host.Outcome State Fault Refusal :=
  onDev (fun d => d.asOwner acc (TSU.page tsu) TSU.TXF_CMD.POP.off (fun d => d.setTxf tsu (d.txfOf tsu).tail)
    TSU.TXF_CMD.POP.strike) s

/-- R223: TXF_CMD.CLR empties the FIFO and zeroes LOST_CNT. -/
def execTxfClear (acc : Accessor) (tsu : Fin 49) (s : State) : Host.Outcome State Fault Refusal :=
  onDev (fun d => d.asOwner acc (TSU.page tsu) TSU.TXF_CMD.CLR.off (fun d =>
    (d.setTxf tsu []).set (TSU.page tsu) TSU.TXF_STAT.LOST_CNT 0) TSU.TXF_CMD.CLR.strike) s

/-- R226: a rising edge on TCAP_IN, at a sixteenth of the tick; one less than 100 ns after the previous captured edge
is ignored, counted and flagged. -/
def execTcapEdge (sub : Fin 16) (s : State) : Host.Outcome State Fault Refusal :=
  onDev (fun d =>
    let t := d.now + sub * d.rate / 16
    let c := d.cap
    let soon : Bool := match c.lastEdge with | some l => t < l + 100 * nsU | none => false
    if soon then { d with cap := { c with overrun := true, ignored := c.ignored + 1 } }
    else { d with cap := { c with time := t, seq := (c.seq + 1) % 256, untrace := d.untrace, lastEdge := some t } }) s


end Sys2Proof.Machine
end

