-- ==== Sys2Proof/Machine/Ref.lean ====
section
/-!
DEFINITION. Machine/Ref.lean: the reference selector and the holdover engine (chapter 10, R227 to R248).
-/
namespace Sys2Proof.Machine

/-! ### Slots (R227, R231) -/

abbrev refSlots : List Nat := [0, 1, 2, 3, 4, 5, 6, 7, 8, 9, 10, 11, 12, 13, 14, 15]

/-- The codes of SLOT_STAT.STATE. -/
abbrev slotDisabled : Nat := 0
abbrev slotFailed : Nat := 1
abbrev slotQualifying : Nat := 2
abbrev slotWtr : Nat := 3
abbrev slotQualified : Nat := 4
abbrev slotSelected : Nat := 5

/-- The codes of REF_STAT.STATE (R237). -/
abbrev refFreerun : Nat := 0
abbrev refAcquiring : Nat := 1
abbrev refLocked : Nat := 2
abbrev refHoldover : Nat := 3

def slot0 : Slot := ⟨0, true, 0, 0, false, none⟩
def Dev.slot (d : Dev) (s : Nat) : Slot := tget (fun _ => slot0) d.slots s
def Dev.setSlot (d : Dev) (s : Nat) (x : Slot) : Dev := { d with slots := tset (fun _ => slot0) d.slots s x }

def Dev.slotState (d : Dev) (s : Nat) : Nat := d.get REF.page REF.SLOT_STAT.STATE s
def Dev.setSlotState (d : Dev) (s v : Nat) : Dev := d.set REF.page REF.SLOT_STAT.STATE v s
def Dev.slotType (d : Dev) (s : Nat) : Nat := d.get REF.page REF.SLOT_CFG.TYPE s
def Dev.slotIndex (d : Dev) (s : Nat) : Nat := d.get REF.page REF.SLOT_CFG.INDEX s

/-- Time references (R239): PTP, 1PPS, the twin. -/
def isTimeType (t : Nat) : Bool := t == 2 || t == 4 || t == 5

/-- How many sources a type has (R227); none for a reserved type. -/
def slotIndexes (t : Nat) : Nat := match t with | 1 => 48 | 2 => 48 | 3 => 4 | 4 => 8 | 5 => 1 | _ => 0

def Dev.refSelected (d : Dev) : Option Nat :=
  if d.flag REF.page REF.REF_STAT.SEL_VALID then some (d.get REF.page REF.REF_STAT.SELECTED) else none

/-! ### The holdover engine (R242 to R244) -/

/-- INC_avg: the average of INC + HO_CORR over the history of LOCKED. -/
def Dev.incAvg (d : Dev) : Option Rat :=
  if d.hoHist.isEmpty then none else some (((d.hoHist.sum : Nat) : Rat) / (d.hoHist.length : Nat))

/-- M(T, d) in ppb (R243); the temperature in sixteenths of a degree, the days as a fraction. -/
def Dev.hoModel (d : Dev) (t16 : Int) (days : Rat) : Rat :=
  let x : Rat := ((t16 - d.getInt REF.page REF.HO_CFG.T0 : Int) : Rat) / 16
  (d.getInt REF.page REF.HO_C1.C1 : Rat) / 65536 * x
    + (d.getInt REF.page REF.HO_C2.C2 : Rat) / 1048576 * (x * x)
    + (d.getInt REF.page REF.HO_C3.C3 : Rat) / 16777216 * (x * x * x)
    + (d.getInt REF.page REF.HO_AGE.AGE : Rat) / 1048576 * days

/-- The temperature in use, in sixteenths of a degree. -/
def Dev.hoTemp (d : Dev) : Int := d.getInt REF.page REF.HO_STAT.TEMP

/-- target = INC_avg × (1 − dm × 10^-9) (R242); dm is 0 with MODEL_EN = 0 and before an entry. -/
def Dev.hoTarget (d : Dev) : Option Rat :=
  match d.incAvg with
  | none => none
  | some avg =>
    let dm : Rat :=
      if d.flag REF.page REF.HO_CFG.MODEL_EN then
        match d.hoEntry with
        | some (t, at_) =>
          d.hoModel d.hoTemp (((d.now - at_ : Nat) : Rat) / ((86400 * secU : Nat) : Rat)) - d.hoModel t 0
        | none => 0
      else 0
    some (avg * (1 - dm / 1000000000))

/-- The nearest whole number, a tie upwards. -/
def ratRound (x : Rat) : Int := (x + 1 / 2).floor

/-- HO_CORR = round(target − INC) while the engine steers (R242). -/
def Dev.steer (d : Dev) : Dev :=
  if !d.flag REF.page REF.HO_STAT.ACTIVE then d else
  match d.hoTarget with
  | none => d
  | some t => (d.set REF.page REF.HO_CORR.CORR (toField 32 (ratRound (t - (d.inc : Rat))))).checkPpm

/-- The engine takes over the increment (R238): the temperature and time of entry are kept. -/
def Dev.hoEngage (d : Dev) : Dev :=
  if d.flag REF.page REF.HO_STAT.ACTIVE then d else
  (({ d with hoEntry := some (d.hoTemp, d.now), hoBridge := false }).set REF.page REF.HO_STAT.ACTIVE 1).steer

/-- The bridge or holdover ends at selection; HO_CORR stays until the next INC commit (R244). -/
def Dev.hoRelease (d : Dev) : Dev :=
  if d.flag REF.page REF.HO_STAT.ACTIVE then
    ({ d with hoEntry := none, hoBridge := true }).set REF.page REF.HO_STAT.ACTIVE 0
  else d

/-- The prediction clock's offset against the time base in ppt (R230), once HO_READY: the time base as it would run in
holdover from this instant. Outside a holdover or bridge the entry would be now, so dm is 0 and the average stands alone
(DEDUCED, log entry 10). -/
def Dev.predictPpt (d : Dev) : Option Int :=
  if !d.flag REF.page REF.REF_STAT.HO_READY then none else
  match d.hoTarget with
  | none => none
  | some t => if d.rate = 0 then none else some (ratRound ((t / (d.rate : Rat) - 1) * 1000000000000))

/-! ### State (R237) -/

def Dev.refState (d : Dev) : Nat := d.get REF.page REF.REF_STAT.STATE

/-- REF_STAT.STATE entered, with its interrupts and counts. -/
def Dev.setRefState (d : Dev) (new : Nat) : Dev :=
  let old := d.refState
  if old = new then d else
  let d := (d.set REF.page REF.REF_STAT.STATE new).noteGates true
  let d := if old = refHoldover then d.raise REF.page REF.INT_RAW.HOLDOVER_OFF else d
  let d := if new = refHoldover then (d.raise REF.page REF.INT_RAW.HOLDOVER_ON).count 0xD41 else d
  if new = refLocked then ({ d with hoFrozen := false }).raise REF.page REF.INT_RAW.LOCKED else d

/-! ### Selection (R234, R235, R290) -/

/-- Whether a slot can be the one to select in a mode: automatic and manual need QUALIFIED or SELECTED, forced also
takes QUALIFYING and WTR. -/
def slotFit (mode st : Nat) : Bool := st == 4 || st == 5 || (mode == 2 && (st == 2 || st == 3))

/-- The automatic candidate (R234): the fit slot of highest priority, with QL_MODE the best rank first; on a standby
that cannot follow the twin, of its own slots (R290). -/
def Dev.refCandidate (d : Dev) : Option Nat :=
  let fit := refSlots.filter (fun s => slotFit 0 (d.slotState s) && !(d.copied 4 && d.slotType s == 5))
  if d.flag REF.page REF.REF_CFG.QL_MODE then
    let rank (s : Nat) : Nat := d.get REF.page REF.SLOT_FW.QL s * 16 + s
    fit.foldl (fun b s => match b with
      | none => some s
      | some t => if rank s < rank t then some s else some t) none
  else fit.head?

/-- The twin's slot that the standby follows (R290): exactly one enabled slot of TYPE 0b101, qualified, READY, the
twin owner. -/
def Dev.followSlot (d : Dev) : Option Nat :=
  let twins := refSlots.filter (fun s => d.slotType s == 5 && d.flag REF.page REF.SLOT_CFG.ENABLE s)
  if d.copied 4 && d.flag DBL.page DBL.DBL_STAT.READY && d.flag DBL.page DBL.DBL_STAT.OWN_IN then
    match twins with
    | [s] => if slotFit 0 (d.slotState s) then some s else none
    | _ => none
  else none

/-- The slot the rules want selected, given the one now selected (or aimed at); a manual slot that has failed returns
the mode to automatic. A standby that cannot follow selects automatically, whatever the command (R290). -/
def Dev.refWanted (d : Dev) (cur : Option Nat) : Option Nat × Dev :=
  match d.followSlot with
  | some s => (some s, d.set DBL.page DBL.DBL_STAT.FOLLOW 1)
  | none =>
    let d := d.set DBL.page DBL.DBL_STAT.FOLLOW 0
    let auto := d.copied 4
    let manualLost : Bool := !auto && d.refMode == 1 && !slotFit 0 (d.slotState d.refSlot)
    let d := if manualLost then ({ d with refMode := 0 }).set REF.page REF.SWITCH_CMD.MODE 0 else d
    if !auto && d.refMode == 1 then (some d.refSlot, d)
    else if !auto && d.refMode == 2 then (if slotFit 2 (d.slotState d.refSlot) then some d.refSlot else none, d)
    else
      let keep : Bool := match cur with
        | some s => !d.flag REF.page REF.REF_CFG.REVERTIVE && slotFit 0 (d.slotState s) && !(auto && d.slotType s == 5)
        | none => false
      (if keep then cur else d.refCandidate, d)

/-- Whether the slot that was selected is so no longer, and no sequence of R238 has begun yet. -/
def Dev.lostSelection (d : Dev) : Bool :=
  d.refSelected.isNone && !d.flag REF.page REF.REF_STAT.SWITCHING
    && (d.refState == refAcquiring || d.refState == refLocked)

/-- No slot is selected (R237): HOLDOVER, in which the engine steers, or FREERUN. -/
def Dev.unselected (d : Dev) : Dev :=
  if d.flag REF.page REF.REF_STAT.HO_READY then d.hoEngage.setRefState refHoldover
  else (d.setRefState refFreerun).hoRelease

/-- The start of a switch at t0 (R238): the history freezes, the engine bridges, the recorder gets the cause. With no
slot left the sequence ends here in HOLDOVER or FREERUN, and a slot deselected while fit is QUALIFIED (R231). -/
def Dev.switchStart (d : Dev) (new : Option Nat) : Dev :=
  let old := d.get REF.page REF.REF_STAT.SELECTED
  let cause := if d.slotState old = slotFailed then d.get REF.page REF.SLOT_STAT.CAUSE old else 0
  let d := ({ d with hoFrozen := true, refTarget := new }).hoEngage
  let d := ((d.set REF.page REF.REF_STAT.SWITCHING 1).noteGates true).raise REF.page REF.INT_RAW.SWITCH_START
  let d := d.record 0x001 0x09 (cause * 256 + new.getD 15 * 16 + old)
  match new with
  | some _ => d
  | none =>
    let d := (d.set REF.page REF.REF_STAT.SWITCHING 0).set REF.page REF.REF_STAT.SEL_VALID 0
    let d := d.set REF.page REF.REF_STAT.TIME_SEL 0
    let d := refSlots.foldl (fun d i => if d.slotState i = slotSelected then d.setSlotState i slotQualified else d) d
    d.unselected

/-- HO_READY taken from the twin's copy (R288): STATE follows where no slot is selected (R237). -/
def Dev.copyReady (d : Dev) (ready : Bool) : Dev :=
  let d := d.setFlag REF.page REF.REF_STAT.HO_READY ready
  if d.refSelected.isSome || d.flag REF.page REF.REF_STAT.SWITCHING || d.refState == refAcquiring || d.refState == refLocked then d
  else d.unselected

/-- Selection judged once (R234 to R236, R240): a switch in progress goes on while its new slot is fit; a selected slot
that has been lost starts the sequence even where no other is fit. -/
def Dev.selectSlot (d : Dev) : Dev :=
  if d.flag REF.page REF.REF_STAT.SWITCHING then
    match d.refTarget with
    | some s =>
      if slotFit d.refMode (d.slotState s) then d else
      let (w, d) := d.refWanted none
      d.switchStart w
    | none => d
  else
    let cur := d.refSelected
    let (w, d) := d.refWanted cur
    if w = cur && !d.lostSelection then d else d.switchStart w

/-- A switch command takes effect (R235, R241). -/
def Dev.takeCommand (d : Dev) (c : RefCmd) : Dev :=
  let d := { d with refMode := c.mode, refSlot := c.slot }
  let d := if c.clrWtr && d.slotState c.slot == slotWtr then
      (d.setSlotState c.slot (if d.refSelected = some c.slot then slotSelected else slotQualified)).set REF.page
        REF.SLOT_STAT.TIMER_S 0 c.slot else d
  if c.absClr then
    let a := d.absOfs
    ({ d with absOfs := 0 }).addSlew (-a)
  else d

/-- The commands that waited for a switch to complete take effect, in the order in which they were accepted (R240). -/
def Dev.takePending (d : Dev) : Dev :=
  if d.flag REF.page REF.REF_STAT.SWITCHING || d.refPend.isEmpty then d else
  d.refPend.foldl Dev.takeCommand (({ d with refPend := [] }).set REF.page REF.REF_STAT.CMD_PENDING 0)

/-- Selection judged again after a slot, the mode or a command changed, with a command that waits taken once no switch
runs (R240). -/
def Dev.reselect (d : Dev) : Dev := d.takePending.selectSlot.takePending.selectSlot

/-! ### Failures (R231) -/

/-- A failure condition of a slot begins: the slot goes to FAILED, and a selected one starts a switch. -/
def Dev.slotFail (d : Dev) (s cause : Nat) : Dev :=
  let st := d.slotState s
  if st = slotDisabled then d else
  let x := d.slot s
  let d := d.setSlot s { x with causes := x.causes ||| 2 ^ cause }
  let d := if st = slotFailed then (if cause = 8 then d.set REF.page REF.SLOT_STAT.CAUSE 8 s else d) else
    let d := (d.setSlotState s slotFailed).set REF.page REF.SLOT_STAT.CAUSE cause s
    let d := (d.set REF.page REF.SLOT_STAT.TIMER_S 0 s).raise REF.page REF.INT_RAW.DISQUAL
    let d := d.count (0xD30 + s)
    if d.refSelected = some s then d.set REF.page REF.REF_STAT.SEL_VALID 0 else d
  d.reselect

/-- A slot enters QUALIFYING with its timer. -/
def Dev.slotQualify (d : Dev) (s : Nat) : Dev :=
  (d.setSlotState s slotQualifying).set REF.page REF.SLOT_STAT.TIMER_S (d.get REF.page REF.REF_TIME.QUAL_S) s

/-- A slot whose timers have run out is QUALIFIED, or SELECTED if a forced command has selected it before (R231,
R235). -/
def Dev.toQualified (d : Dev) (s : Nat) : Dev :=
  let d := (d.setSlotState s (if d.refSelected = some s then slotSelected else slotQualified)).set REF.page
    REF.SLOT_STAT.TIMER_S 0 s
  d.reselect

/-- A failure condition clears; with none left a FAILED slot qualifies again. -/
def Dev.slotClear (d : Dev) (s cause : Nat) : Dev :=
  let x := d.slot s
  let causes := if x.causes.testBit cause then x.causes - 2 ^ cause else x.causes
  let d := d.setSlot s { x with causes := causes }
  if causes = 0 ∧ d.slotState s = slotFailed then (d.slotQualify s).reselect else d

/-- The failure conditions that stand when a slot starts, as far as the device's own state shows them. -/
def Dev.standingCauses (d : Dev) (s : Nat) : List Nat :=
  let t := d.slotType s
  let i := d.slotIndex s
  let lane (f : Field) : Bool := d.flag (LNK.page i) f
  (if t == 1 && (lane LNK.LNK_STATE.LOS || lane LNK.LNK_STATE.LOL) then [5] else [])
    ++ (if t == 1 && !d.flag (PRT.page i) PRT.PORT_STAT.LINK_UP then [1] else [])
    ++ (if t == 4 && (!d.flag EVT.page EVT.EVT_CFG.ENABLE i || d.get EVT.page EVT.EVT_CFG.SLOPE i == 2) then [1] else [])
    ++ (if t == 5 && (!d.flag DBL.page DBL.DBL_STAT.DL0_UP || d.flag DBL.page DBL.DBL_STAT.STALE) then [1] else [])
    ++ (if t == 2 && !d.flag REF.page REF.SLOT_FW.PTP_VALID s then [6] else [])
    ++ (if d.get REF.page REF.SLOT_FW.QL s == 15 then [7] else [])
    ++ (if d.flag TMB.page TMB.TMB_STAT.BACKUP then [8] else [])

/-- A slot enabled, or its source changed (R228): a first qualification. -/
def Dev.slotStart (d : Dev) (s : Nat) : Dev :=
  let wasSelected : Bool := d.refSelected == some s
  let d := d.setSlot s slot0
  let d := (d.set REF.page REF.SLOT_FREQ.PPT 0 s).set REF.page REF.SLOT_DRIFT.PPT 0 s
  let d := (d.set REF.page REF.SLOT_STAT.DRIFT_WARN 0 s).set REF.page REF.SLOT_STAT.MAJ_OUT 0 s
  let d := d.slotQualify s
  let d := if wasSelected then d.set REF.page REF.REF_STAT.SEL_VALID 0 else d
  (d.standingCauses s).foldl (fun d c => d.slotFail s c) d

/-- A slot disabled. -/
def Dev.slotStop (d : Dev) (s : Nat) : Dev :=
  let wasSelected : Bool := d.refSelected == some s
  let d := d.setSlot s slot0
  let d := (d.setSlotState s slotDisabled).set REF.page REF.SLOT_STAT.TIMER_S 0 s
  let d := (d.set REF.page REF.SLOT_STAT.DRIFT_WARN 0 s).set REF.page REF.SLOT_STAT.MAJ_OUT 0 s
  if wasSelected then d.set REF.page REF.REF_STAT.SEL_VALID 0 else d

/-- BACKUP has returned to 0: CAUSE 8 clears and each slot qualifies as a first qualification (R231). -/
def Dev.backupOver (d : Dev) : Dev :=
  refSlots.foldl (fun d s =>
    if d.slotState s = slotDisabled then d
    else (d.setSlot s { d.slot s with first := true }).slotClear s 8) d

/-- The slots that take the recovered clock of a lane (R227 TYPE 0b001). -/
def Dev.slotsOfLane (d : Dev) (lane : Nat) : List Nat :=
  refSlots.filter (fun s => d.slotState s != slotDisabled && d.slotType s == 1 && d.slotIndex s == lane)

/-- RECOVERED_CLOCK_DISQUALIFY (R55): every slot that holds the lane's recovered clock fails. -/
def Dev.disqualifyLane (d : Dev) (lane cause : Nat) : Dev :=
  (d.slotsOfLane lane).foldl (fun d s => d.slotFail s cause) d

/-- A slot of a type and index loses or regains activity (EVT, the twin). -/
def Dev.slotsOf (d : Dev) (type index : Nat) : List Nat :=
  refSlots.filter (fun s => d.slotState s != slotDisabled && d.slotType s == type && d.slotIndex s == index)

/-- R59: PORT_STAT.IDLE_BLOCKED of a port, and its interrupt when it changes. The recovered clock or the PTP time of a
port that a slot uses bars both kinds; the Blocker's reservations bar IDLE-DEEP. -/
def Dev.refreshIdle (d : Dev) (port : Nat) : Dev :=
  let mode := d.get (LNK.page port) LNK.IDLE_CFG.MODE
  let ref := refSlots.any (fun s => d.flag REF.page REF.SLOT_CFG.ENABLE s
    && (d.slotType s == 1 || d.slotType s == 2) && d.slotIndex s == port)
  let own := d.flag (GCL.page port) GCL.GCL_STAT.BLOCKER_OWN
  let b := (mode == 1 && ref) || (mode == 2 && (ref || own))
  if d.flag (PRT.page port) PRT.PORT_STAT.IDLE_BLOCKED == b then d
  else (d.setFlag (PRT.page port) PRT.PORT_STAT.IDLE_BLOCKED b).raise (PRT.page port) PRT.INT_RAW.IDLE_BLOCKED_CHG

def Dev.refreshIdles (d : Dev) : Dev := (List.range 48).foldl Dev.refreshIdle d

/-! ### The COMMIT of the REF page (R228, R235) -/

def Dev.refRules (d : Dev) : List Rule :=
  let sh (f : Field) (s : Nat) : Nat := d.getSh .ref REF.page f s
  let enabled (s : Nat) : Bool := sh REF.SLOT_CFG.ENABLE s == 1
  let source (s : Nat) : Nat × Nat := (sh REF.SLOT_CFG.TYPE s, sh REF.SLOT_CFG.INDEX s)
  let mode := sh REF.SWITCH_CMD.MODE 0
  let st := d.slotState (sh REF.SWITCH_CMD.SLOT 0)
  [ d.ruleRange .ref REF.page REF.REF_CFG.LOCK_NS 1 4095 0x62,
    d.ruleRange .ref REF.page REF.REF_TIME.QUAL_S 1 255 0x62,
    d.ruleRange .ref REF.page REF.REF_TIME.MAJ_DWELL_S 1 255 0x62,
    d.ruleRange .ref REF.page REF.REF_TIME.LOCK_S 1 255 0x62,
    d.ruleRange .ref REF.page REF.REF_TIME.PTP_TMO_S 1 255 0x62,
    (mode == 3, 0x62, REF.SWITCH_CMD.MODE.off),
    (mode == 1 && !slotFit 1 st, 0x61, REF.SWITCH_CMD.MODE.off),
    (mode == 2 && !slotFit 2 st, 0x61, REF.SWITCH_CMD.MODE.off),
    ruleAny 16 (fun s => d.ruleRange .ref REF.page REF.SLOT_CFG.DRIFT_LIM 1 1000 0x62 s),
    ruleAny 16 (fun s => d.ruleRange .ref REF.page REF.SLOT_CFG.DWELL_S 1 255 0x62 s),
    (refSlots.any (fun s => enabled s && slotIndexes (source s).1 ≤ (source s).2), 0x60, REF.SLOT_CFG.TYPE.off),
    (refSlots.any (fun s => refSlots.any (fun t => s != t && enabled s && enabled t && source s == source t)),
      0x60, REF.SLOT_CFG.TYPE.off),
    d.ruleRange .ref REF.page REF.HO_CFG.AVG_S 10 4095 0x62,
    ruleAny 4 (fun i => d.ruleRange .ref REF.page (REF.REFIN_FREQ.HZ.nth i) 1000 800000000 0x62) ]

/-- The effects of an accepted REF COMMIT: SLOT_CONFIG_COMMIT (R228), then the command, which waits while a switch
runs (R240). A learned model set that was waiting for a COMMIT outside holdover and outside a switch is loaded (R246).
-/
def Dev.refEffect (before d : Dev) : Dev :=
  let d := refSlots.foldl (fun d s =>
    let was := before.flag REF.page REF.SLOT_CFG.ENABLE s
    let is := d.flag REF.page REF.SLOT_CFG.ENABLE s
    let moved : Bool := before.slotType s != d.slotType s || before.slotIndex s != d.slotIndex s
    if is && (!was || moved) then d.slotStart s
    else if was && !is then d.slotStop s
    else d) d
  let c : RefCmd := ⟨d.get REF.page REF.SWITCH_CMD.MODE, d.get REF.page REF.SWITCH_CMD.SLOT,
    d.flag REF.page REF.SWITCH_CMD.CLR_WTR, d.flag REF.page REF.SWITCH_CMD.ABS_CLR⟩
  let d := (d.set REF.page REF.SWITCH_CMD.CLR_WTR 0).set REF.page REF.SWITCH_CMD.ABS_CLR 0
  let last : Nat × Nat := match before.refPend.getLast? with | some p => (p.mode, p.slot) | none => (before.refMode, before.refSlot)
  let isCmd : Bool := (c.mode, c.slot) != last || c.clrWtr || c.absClr
  let switching := d.flag REF.page REF.REF_STAT.SWITCHING
  let d := match d.hoNext with
    | some m => if switching || d.refState == refHoldover then d else
        let d := (d.set REF.page REF.HO_CFG.T0 (toField 16 m.t0)).set REF.page REF.HO_C1.C1 (toField 32 m.c1)
        let d := (d.set REF.page REF.HO_C2.C2 (toField 32 m.c2)).set REF.page REF.HO_C3.C3 (toField 32 m.c3)
        { d.set REF.page REF.HO_AGE.AGE (toField 32 m.age) with hoNext := none }
    | none => d
  let d := d.refreshIdles
  if switching then
    (if isCmd then ({ d with refPend := d.refPend ++ [c] }).set REF.page REF.REF_STAT.CMD_PENDING 1 else d).reselect
  else (d.takeCommand c).reselect

def Dev.commitRef (d : Dev) : Dev := d.commitBy REF.page d.refRules Dev.refEffect

/-- SWITCH_CMD as its shadow stands, with some fields set. -/
def Dev.switchWord (d : Dev) (sets : List (Field × Nat)) : Word :=
  sets.foldl (fun w x => setBits w x.1.lo x.1.wd x.2) (d.rdShadow .ref REF.page REF.SWITCH_CMD.MODE.off 0)

/-- A command: SWITCH_CMD written by an accessor, and the page committed. -/
def Dev.switchCommand (d : Dev) (acc : Accessor) (sets : List (Field × Nat)) : Dev :=
  let w := d.switchWord sets
  d.asOwner acc REF.page COM.COMMIT.GO.off
    (fun d => (d.wrShadow .ref REF.page REF.SWITCH_CMD.MODE.off 0 w).commitRef)
    (thenCommit [(REF.SWITCH_CMD.MODE.off, w)])

/-- R235: a REF COMMIT with MODE manual and a slot. -/
def execSwitchManual (acc : Accessor) (slot : Fin 16) (s : State) : Host.Outcome State Fault Refusal :=
  onDev (·.switchCommand acc [(REF.SWITCH_CMD.MODE, 1), (REF.SWITCH_CMD.SLOT, slot)]) s

/-- R235: a REF COMMIT with MODE forced and a slot. -/
def execSwitchForced (acc : Accessor) (slot : Fin 16) (s : State) : Host.Outcome State Fault Refusal :=
  onDev (·.switchCommand acc [(REF.SWITCH_CMD.MODE, 2), (REF.SWITCH_CMD.SLOT, slot)]) s

/-- R235: a REF COMMIT with CLR_WTR and a slot. -/
def execClrWtr (acc : Accessor) (slot : Fin 16) (s : State) : Host.Outcome State Fault Refusal :=
  onDev (·.switchCommand acc [(REF.SWITCH_CMD.CLR_WTR, 1), (REF.SWITCH_CMD.SLOT, slot)]) s

/-- R241: a REF COMMIT with ABS_CLR. -/
def execAbsClr (acc : Accessor) (s : State) : Host.Outcome State Fault Refusal :=
  onDev (·.switchCommand acc [(REF.SWITCH_CMD.ABS_CLR, 1)]) s

/-! ### The measurement each second (R230 to R233) -/

/-- The period of a frequency reference in ps (R239): of a REFIN its nominal one; of a recovered clock the phase
detector's range, one nominal tick (DEDUCED, log entry 106). -/
def Dev.refPeriod (d : Dev) (s : Nat) : Nat :=
  if d.slotType s = 3 then 1000000000000 / max 1 (d.get REF.page (REF.REFIN_FREQ.HZ.nth (d.slotIndex s))) else 1600

/-- A number of ps brought within half a period of 0. -/
def withinHalf (v : Int) (period : Nat) : Int := (v + period / 2) % (max 1 period : Nat) - period / 2

/-- The reference's time less the time base in ps, as far as stamps in State give it (R227): of a 1PPS input from the
stamp of its last edge, within ±0.5 s; of the twin from TWIN_OFS (R290); of a PTP slot from its last sample. -/
def Dev.slotPhase (d : Dev) (s : Nat) : Option Int :=
  match d.slotType s with
  | 2 => some (-(d.getInt REF.page REF.PTP_OFS.PS s))
  | 4 => (d.evtIn (d.slotIndex s)).lastStamp.map (fun t => withinHalf (-((t % secU * 1000 / nsU : Nat) : Int)) 1000000000000)
  | 5 => some (d.getInt DBL.page DBL.TWIN_OFS.PS)
  | _ => none

/-- PHASE_ERR of the selected slot from a measured phase in ps (R239); held during a switch. A frequency reference's is
known modulo its period. -/
def Dev.setPhaseErr (d : Dev) (phase : Int) : Dev :=
  match d.refSelected with
  | none => d
  | some s =>
    if d.flag REF.page REF.REF_STAT.SWITCHING then d else
    let e := if isTimeType (d.slotType s) then phase - d.absOfs * 1000 / (nsU : Int)
      else withinHalf (phase - d.refZero) (d.refPeriod s)
    d.set REF.page REF.PHASE_ERR.PS (toField 32 (sat31 e))

/-- One slot's second: the 1 s value y in ppt, the filter of 10 s (R230; (y − f) / 11 each second lags a ramp by the
10 s of the worked example: DEDUCED, log entry 10), the hard limit, the drift and its warning (R231, R232). -/
def Dev.measureSlot (d : Dev) (pred : Option Int) (s : Nat) (y : Int) : Dev :=
  let x := d.slot s
  if d.slotState s = slotDisabled then d else
  let f := if x.measured then x.filt + (y * 65536 - x.filt) / 11 else y * 65536
  let fd : Option Int := match pred, x.drift with
    | none, _ => none
    | some p, none => some ((y - p) * 65536)
    | some p, some g => some (g + ((y - p) * 65536 - g) / 11)
  let d := d.setSlot s { x with y := y, filt := f, measured := true, drift := fd }
  let ppt := (f + 32768) / 65536
  let d := d.set REF.page REF.SLOT_FREQ.PPT (toField 32 ppt) s
  let lim : Int := d.get REF.page REF.SLOT_CFG.DRIFT_LIM s * 1000
  let drift := match fd with | some g => (g + 32768) / 65536 | none => 0
  let d := d.set REF.page REF.SLOT_DRIFT.PPT (toField 32 drift) s
  let warn := d.flag REF.page REF.SLOT_STAT.DRIFT_WARN s
  let d := if pred.isSome && !warn && decide (lim < 2 * drift.natAbs) then
      let d := (d.set REF.page REF.SLOT_STAT.DRIFT_WARN 1 s).raise REF.page REF.INT_RAW.DRIFT_WARN
      if d.refSelected = some s then { d with hoFrozen := true } else d
    else if warn && decide (8 * (drift.natAbs : Int) < 3 * lim) then d.set REF.page REF.SLOT_STAT.DRIFT_WARN 0 s
    else d
  let d := if (d.slot s).causes.testBit 3 && decide (2 * (drift.natAbs : Int) < lim) then d.slotClear s 3 else d
  if 9200000 < y.natAbs then d.slotFail s 2
  else if (d.slot s).causes.testBit 2 then d.slotClear s 2 else d

/-- Insertion into a rising list. -/
def insertInt (v : Int) : List Int → List Int
  | [] => [v]
  | w :: ws => if v ≤ w then v :: w :: ws else w :: insertInt v ws

/-- Twice the median of a list (R233): the mean of the two middle values when their number is even. -/
def twiceMedian (l : List Int) : Int :=
  let s := l.foldr insertInt []
  let n := s.length
  if n % 2 = 1 then 2 * s.getD (n / 2) 0 else s.getD (n / 2 - 1) 0 + s.getD (n / 2) 0

def Dev.slotPpt (d : Dev) (s : Nat) : Int := d.getInt REF.page REF.SLOT_FREQ.PPT s

/-- The slots compared (R233), and those outside the band: more than half their DRIFT_LIM from the median. -/
def Dev.compared (d : Dev) : List Nat :=
  refSlots.filter (fun s => slotFit 0 (d.slotState s) && (d.slot s).measured)

def Dev.outliers (d : Dev) : List Nat :=
  let c := d.compared
  if c.length < 3 then [] else
  let m2 := twiceMedian (c.map d.slotPpt)
  c.filter (fun s => decide ((d.get REF.page REF.SLOT_CFG.DRIFT_LIM s * 1000 : Int) < (2 * d.slotPpt s - m2).natAbs))

/-- MAJORITY_OUTLIER and the clearing of CAUSE 4. -/
def Dev.majority (d : Dev) : Dev :=
  let out := d.outliers
  let c := d.compared
  let m2 := twiceMedian (c.map d.slotPpt)
  refSlots.foldl (fun d s =>
    let was := d.flag REF.page REF.SLOT_STAT.MAJ_OUT s
    let d := d.setFlag REF.page REF.SLOT_STAT.MAJ_OUT (out.contains s) s
    let d := if out.contains s && !was then
        let d := d.raise REF.page REF.INT_RAW.MAJ_OUT
        if d.refSelected = some s then { d with hoFrozen := true } else d
      else d
    let back : Bool := c.length < 3
      || decide ((2 * (d.slot s).y - m2).natAbs < (d.get REF.page REF.SLOT_CFG.DRIFT_LIM s * 1000 : Int))
    if (d.slot s).causes.testBit 4 && back then d.slotClear s 4 else d) d

/-- Whether the selected slot shows lock now (R237). -/
def Dev.lockOk (d : Dev) : Bool :=
  match d.refSelected with
  | none => false
  | some s =>
    if isTimeType (d.slotType s) then
      decide ((d.getInt REF.page REF.PHASE_ERR.PS).natAbs ≤ 1000 * d.get REF.page REF.REF_CFG.LOCK_NS)
    else decide ((d.slotPpt s).natAbs ≤ 1000)

/-- R230: the once-per-second measurement. `ys` gives the measured 1 s offsets in ppt of the slots that have one,
`phase` the selected slot's phase in ps where no stamp in State gives it. During a switch PHASE_ERR and STATE hold.
Timers count down, the history of LOCKED grows, and lock is lost on a break. -/
def execRefSecondMeasure (ys : List (Fin 16 × Int)) (phase : Option Int) (s : State) :
    Host.Outcome State Fault Refusal :=
  onDev (fun d =>
    let pred := d.predictPpt
    let d := ys.foldl (fun d e => d.measureSlot pred e.1 e.2) d
    let d := d.majority
    let d := refSlots.foldl (fun d i =>
      d.set REF.page REF.SLOT_STAT.TIMER_S (d.get REF.page REF.SLOT_STAT.TIMER_S i - 1) i) d
    let known := match d.refSelected with | some k => d.slotPhase k | none => none
    let d := match known.or phase with | some p => d.setPhaseErr p | none => d
    if d.refState = refLocked && !d.flag REF.page REF.REF_STAT.SWITCHING then
      if d.lockOk then
        (if d.hoFrozen then d else { d with hoHist := (d.rate :: d.hoHist).take (d.get REF.page REF.HO_CFG.AVG_S) })
      else d.setRefState refAcquiring
    else d) s

/-- R232: |d| has exceeded DRIFT_LIM for DWELL_S seconds. -/
def execDriftDwellExpiry (slot : Fin 16) (s : State) : Host.Outcome State Fault Refusal :=
  onDev (fun d => d.when (decide ((d.get REF.page REF.SLOT_CFG.DRIFT_LIM slot * 1000 : Int)
      < (d.getInt REF.page REF.SLOT_DRIFT.PPT slot.val).natAbs)) (·.slotFail slot 3)) s

/-- R233: MAJ_OUT has stood for MAJ_DWELL_S; without a majority, or with MAJ_ACT = 0, no slot fails. -/
def execMajDwellExpiry (slot : Fin 16) (s : State) : Host.Outcome State Fault Refusal :=
  onDev (fun d => d.when (d.flag REF.page REF.SLOT_STAT.MAJ_OUT slot.val && d.flag REF.page REF.REF_CFG.MAJ_ACT
    && decide (2 * d.outliers.length ≤ d.compared.length)) (·.slotFail slot 4)) s

/-- R227: a slot's source loses activity; a PTP slot's failure is CAUSE 6. -/
def execSlotActivityFail (slot : Fin 16) (s : State) : Host.Outcome State Fault Refusal :=
  onDev (fun d => d.slotFail slot (if d.slotType slot.val = 2 then 6 else 1)) s

/-- R231: activity is present again, where nothing in State shows its absence: LOS, LOL or the link of a recovered
clock, an event input disabled or on both slopes (R273), the twin's link; the slot qualifies when no other failure
condition stands. -/
def execSlotActivityReturn (slot : Fin 16) (s : State) : Host.Outcome State Fault Refusal :=
  onDev (fun d =>
    let absent := (d.standingCauses slot.val).any (fun c => c == 1 || c == 5)
    if absent || d.slotType slot.val == 2 then d else (d.slotClear slot 1).slotClear slot 5) s

/-- R231: QUAL_S has passed without a failure: QUALIFIED on a first qualification or with WTR_S = 0, else WTR. -/
def execQualTimerExpiry (slot : Fin 16) (s : State) : Host.Outcome State Fault Refusal :=
  onDev (fun d => d.when (d.slotState slot.val == slotQualifying) (fun d =>
    let wtr := d.get REF.page REF.REF_CFG.WTR_S
    if !(d.slot slot).first && wtr != 0 then
      (d.setSlotState slot slotWtr).set REF.page REF.SLOT_STAT.TIMER_S wtr slot
    else (d.setSlot slot { d.slot slot with first := false }).toQualified slot)) s

/-- R236: WTR_S has passed; the slot is a candidate. -/
def execWtrExpiry (slot : Fin 16) (s : State) : Host.Outcome State Fault Refusal :=
  onDev (fun d => d.when (d.slotState slot.val == slotWtr) (·.toQualified slot)) s

/-! ### The switch's end (R238, R239) -/

/-- The new slot selected, the old one deselected while fit; a waiting command takes effect (R240). -/
def Dev.switchEnd (d : Dev) (new : Nat) : Dev :=
  let d := refSlots.foldl (fun d i => if d.slotState i = slotSelected ∧ i ≠ new then d.setSlotState i slotQualified else d) d
  let d := if d.slotState new = slotQualified then d.setSlotState new slotSelected else d
  let d := (d.set REF.page REF.REF_STAT.SELECTED new).set REF.page REF.REF_STAT.SEL_VALID 1
  let d := d.setFlag REF.page REF.REF_STAT.TIME_SEL (isTimeType (d.slotType new))
  let d := ({ d with refTarget := none }).set REF.page REF.REF_STAT.SWITCHING 0
  let d := (d.hoRelease.setRefState refAcquiring).raise REF.page REF.INT_RAW.SWITCH_DONE
  (d.count 0xD40).reselect

/-- R238: the measurement time has passed and the offset Δ, in 2^-16 ns, is captured and absorbed (R239): what the
stamps in State give, else `delta`. Δ joins SLEW_REM, and the absorbed part is Δ from now on, so that PHASE_ERR runs
from 0 (DEDUCED, log entry 107). -/
def execSwitchMeasureDone (delta : Int) (s : State) : Host.Outcome State Fault Refusal :=
  onDev (fun d =>
    match d.refTarget with
    | none => d
    | some n =>
      if !d.flag REF.page REF.REF_STAT.SWITCHING then d else
      let dl : Int := match d.slotPhase n with | some ps => ps * 65536 / 1000 | none => delta
      let d := if isTimeType (d.slotType n) then
          let a := dl * 2 ^ 24
          ({ d with absOfs := a, refZero := 0 }).addSlew a
        else { d with refZero := dl * 1000 / 65536 % (max 1 (d.refPeriod n) : Nat) }
      let d := d.set REF.page REF.PHASE_ERR.PS 0
      let d := d.record 0x001 0x0A (dl % (2 ^ 64 : Int)).toNat
      d.switchEnd n) s

/-- R237: lock has stood for LOCK_S. -/
def execLockDetected (s : State) : Host.Outcome State Fault Refusal :=
  onDev (fun d => d.when (d.refState == refAcquiring && d.lockOk && !d.flag REF.page REF.REF_STAT.SWITCHING)
    (·.setRefState refLocked)) s

/-- R237: 10 s of LOCKED. -/
def execHoReadySet (s : State) : Host.Outcome State Fault Refusal :=
  onDev (fun d => d.when (d.refState == refLocked) (·.set REF.page REF.REF_STAT.HO_READY 1)) s

/-- R242: the engine's update each second; `sensor` is the on-die sensor in sixteenths of a degree. -/
def execHoldoverUpdate (sensor : Int) (s : State) : Host.Outcome State Fault Refusal :=
  onDev (fun d =>
    let ext : Bool := d.flag REF.page REF.HO_CFG.TEMP_SRC && !d.flag REF.page REF.HO_STAT.TEMP_STALE
    let t := if ext then d.getInt REF.page REF.HO_TEMP.TEMP else sensor
    (d.set REF.page REF.HO_STAT.TEMP (toField 16 t)).steer) s

/-! ### What firmware writes (R227, R229, R243, R246) -/

/-- The registers of a slot that an accessor's SLOT_SEL chooses. -/
def Dev.slotSel (d : Dev) (acc : Accessor) : Nat := d.get REF.page REF.SLOT_SEL.SLOT acc.idx

/-- An offset sample: the register, PHASE_ERR if the slot is selected, CAUSE 6 cleared while PTP_VALID = 1. -/
def Dev.ptpSample (d : Dev) (slot : Nat) (v : BitVec 32) : Dev :=
  let d := d.wr REF.page REF.PTP_OFS.PS.off v slot
  if d.slotType slot ≠ 2 then d else
  let d := if d.refSelected = some slot then d.setPhaseErr (-v.toInt) else d
  if d.flag REF.page REF.SLOT_FW.PTP_VALID slot then d.slotClear slot 6 else d

/-- R227: PTP_OFS written for the slot that SLOT_SEL chooses. -/
def execPtpOfsWrite (acc : Accessor) (value : BitVec 32) (s : State) : Host.Outcome State Fault Refusal :=
  onDev (fun d => d.asOwner acc REF.page REF.PTP_OFS.PS.off (fun d => d.ptpSample (d.slotSel acc) value)
    [(REF.PTP_OFS.PS.off, value)]) s

/-- R227: no PTP_OFS write for PTP_TMO_S. -/
def execPtpOfsTimeout (slot : Fin 16) (s : State) : Host.Outcome State Fault Refusal :=
  onDev (fun d => d.when (d.slotType slot.val == 2) (·.slotFail slot 6)) s

/-- SLOT_FW of a slot written: rank 15 fails the slot with CAUSE 7, PTP_VALID = 0 a PTP slot with CAUSE 6; a rank below
15 clears CAUSE 7. -/
def Dev.slotFwWrite (d : Dev) (slot : Nat) (v : BitVec 32) : Dev :=
  let d := d.wr REF.page REF.SLOT_FW.QL.off (v &&& (REF.SLOT_FW.QL.mask ||| REF.SLOT_FW.PTP_VALID.mask)) slot
  let d := if d.get REF.page REF.SLOT_FW.QL slot = 15 then d.slotFail slot 7 else d.slotClear slot 7
  let d := if d.slotType slot = 2 ∧ !d.flag REF.page REF.SLOT_FW.PTP_VALID slot then d.slotFail slot 6 else d
  d.reselect

/-- R229: SLOT_FW written for the slot that SLOT_SEL chooses. -/
def execSlotFwWrite (acc : Accessor) (value : BitVec 32) (s : State) : Host.Outcome State Fault Refusal :=
  onDev (fun d => d.asOwner acc REF.page REF.SLOT_FW.QL.off (fun d => d.slotFwWrite (d.slotSel acc) value)
    [(REF.SLOT_FW.QL.off, value)]) s

/-- R243: HO_TEMP written; the temperature is fresh. -/
def execHoTempWrite (acc : Accessor) (temp : BitVec 16) (s : State) : Host.Outcome State Fault Refusal :=
  onDev (fun d => d.asOwner acc REF.page REF.HO_TEMP.TEMP.off (fun d =>
    (d.set REF.page REF.HO_TEMP.TEMP temp.toNat).set REF.page REF.HO_STAT.TEMP_STALE 0)
    [(REF.HO_TEMP.TEMP.off, temp.setWidth 32)]) s

/-- R243: HO_TEMP unwritten for 10 s. -/
def execHoTempStale (s : State) : Host.Outcome State Fault Refusal :=
  onDev (fun d => d.when (d.flag REF.page REF.HO_CFG.TEMP_SRC) (·.set REF.page REF.HO_STAT.TEMP_STALE 1)) s

/-- Whether a flash image's firmware runs (R36), and whether the boot ROM's does (R35). -/
def Dev.imageRuns (d : Dev) : Bool :=
  d.get SVC.page SVC.FW_STAT.IMAGE != 0 && (d.get SVC.page SVC.FW_STAT.STATE == 2 || d.get SVC.page SVC.FW_STAT.STATE == 4)
def Dev.bootRomRuns (d : Dev) : Bool :=
  d.get SVC.page SVC.FW_STAT.IMAGE == 0 && (d.get SVC.page SVC.FW_STAT.STATE == 2 || d.get SVC.page SVC.FW_STAT.STATE == 4)

/-- R246: every 10 s of LOCKED the flash image records the oscillator's offset
y_osc = INC_nom / (INC + HO_CORR) − 1, in ppt, with temperature and time. -/
def execModelLearnSample (s : State) : Host.Outcome State Fault Refusal :=
  onDev (fun d => d.when (d.imageRuns && d.refState == refLocked && d.rate != 0) (fun d =>
    let y := ratRound ((17592186044416 / 10 / (d.rate : Rat) - 1) * 1000000000000)
    { d with learn := d.learn ++ [(y, d.hoTemp, d.now)] })) s

/-- R248: after a link change the boot ROM writes the slots with the 16 lowest-numbered ports that have LINK_UP, leaving
a slot whose source has not changed; a slot beyond them is disabled (DEDUCED, log entry 11). -/
def execBootromSlotRewrite (s : State) : Host.Outcome State Fault Refusal :=
  onDev (fun d =>
    let mayWrite : Bool := d.owner REF.page == 1 || d.owner REF.page == 3
    d.when (d.bootRomRuns && mayWrite) (fun d =>
      let ports := ((List.range 48).filter (fun p => d.flag (PRT.page p) PRT.PORT_STAT.LINK_UP)).take 16
      let d := refSlots.foldl (fun d i =>
        match ports[i]? with
        | some p =>
          let same : Bool := d.flag REF.page REF.SLOT_CFG.ENABLE i && d.slotType i == 1 && d.slotIndex i == p
          if same then d else
          let d := d.setSh .ref REF.page REF.SLOT_CFG.ENABLE 1 i
          (d.setSh .ref REF.page REF.SLOT_CFG.TYPE 1 i).setSh .ref REF.page REF.SLOT_CFG.INDEX p i
        | none => d.setSh .ref REF.page REF.SLOT_CFG.ENABLE 0 i) d
      if (d.dirtyKeys REF.page).isEmpty then d else d.commitRef)) s

end Sys2Proof.Machine
end

