-- ==== Sys2Proof/Machine/Gcl.lean ====
section
/-!
DEFINITION. Machine/Gcl.lean: launch queues (R169 to R173), gate control lists, their banks and swaps (R174 to R178),
windows (R175, R179). Lists and launches are executed against the lane's copy of the time base (R213).
-/
namespace Sys2Proof.Machine

def gclPort0 : GclPort := ⟨none, none, false, false, false⟩
def Dev.gclPort (d : Dev) (p : Nat) : GclPort := tget (fun _ => gclPort0) d.gclPorts p
def Dev.setGclPort (d : Dev) (p : Nat) (x : GclPort) : Dev :=
  { d with gclPorts := tset (fun _ => gclPort0) d.gclPorts p x }

/-! ### Banks (R174, R175) -/

def gclIndex (port bank entry : Nat) : Nat := (port * 2 + bank) * 1024 + entry

def Dev.bankCycle (d : Dev) (port bank : Nat) : Nat := d.get (GCL.page port) GCL.BANK_CYCLE.CYCLE_NS bank
def Dev.bankPhase (d : Dev) (port bank : Nat) : Nat := d.get (GCL.page port) GCL.BANK_PHASE.PHASE_NS bank
def Dev.bankLen (d : Dev) (port bank : Nat) : Nat := d.get (GCL.page port) GCL.BANK_LEN.LEN bank
def Dev.activeBank (d : Dev) (port : Nat) : Nat := d.get (GCL.page port) GCL.GCL_STAT.ACTIVE
def Dev.shadowBank (d : Dev) (port : Nat) : Nat := 1 - d.activeBank port

/-- The position within a bank's cycle at an instant, in units of 2^-40 ns. -/
def Dev.bankPos (d : Dev) (port bank t : Nat) : Nat :=
  let c := d.bankCycle port bank * nsU
  (t % secU + secU - d.bankPhase port bank * nsU) % c

/-- The first cycle boundary of a bank at or after an instant. -/
def Dev.bankBoundary (d : Dev) (port bank t : Nat) : Nat :=
  let pos := d.bankPos port bank t
  if pos = 0 then t else t + (d.bankCycle port bank * nsU - pos)

/-- The entries of a bank as they run through one cycle: index, gates, OP, duration in ns. The last entry holds until
the cycle ends; entries beyond the cycle are cut. -/
def Dev.bankSpans (d : Dev) (port bank : Nat) : List (Nat × Nat × Nat × Nat) :=
  let len := d.bankLen port bank
  go len (d.bankCycle port bank) ((List.range len).map (fun i => (i, d.lookupWord .gcl (gclIndex port bank i))))
where
  go (len left : Nat) : List (Nat × Data) → List (Nat × Nat × Nat × Nat)
    | [] => []
    | (i, w) :: rest =>
      if left = 0 then [] else
      let dur := if i + 1 = len then left else min left (bitsOf w 53 24)
      (i, bitsOf w 61 55, bitsOf w 63 62, dur) :: go len (left - dur) rest

/-- The span that stands at a position of a cycle, and what is left of it. -/
def spanAt : List (Nat × Nat × Nat × Nat) → Nat → Option ((Nat × Nat × Nat × Nat) × Nat)
  | [], _ => none
  | e :: rest, pos => if pos < e.2.2.2 * nsU then some (e, e.2.2.2 * nsU - pos) else spanAt rest (pos - e.2.2.2 * nsU)

/-- GCL_STAT brought to the entry that stands now (R174, R175); with the banks not executed every class is open. -/
def Dev.refreshGcl (d : Dev) (port : Nat) : Dev :=
  let p := GCL.page port
  if !(d.gclPort port).on then
    ((d.set p GCL.GCL_STAT.ENTRY 0).set p GCL.GCL_STAT.GATES 0x7F).set p GCL.GCL_STAT.MAC_HOLD 0
  else
    let b := d.activeBank port
    match spanAt (d.bankSpans port b) (d.bankPos port b (d.laneNow port)) with
    | none => d
    | some ((i, gates, op, _), _) =>
      let d := (d.set p GCL.GCL_STAT.ENTRY i).set p GCL.GCL_STAT.GATES gates
      d.setFlag p GCL.GCL_STAT.MAC_HOLD (op == 1 && d.flag SCH.page SCH.PORT_STAT.PREEMPT_ACT port)

/-- R175: an interval ends or a cycle starts and the entry due now takes effect. -/
def execGclEntryAdvance (port : Fin 48) (s : State) : Host.Outcome State Fault Refusal :=
  onDev (fun d => d.refreshGcl port) s

/-! ### Windows (R175, R179) -/

/-- Whether a class is open at a port. -/
def Dev.gateOpen (d : Dev) (port tc : Nat) : Bool := (d.get (GCL.page port) GCL.GCL_STAT.GATES).testBit tc

/-- The longest run of open spans, going once more around the cycle for a window across the boundary. -/
def longestRun : List (Bool × Nat) → Nat → Nat → Nat
  | [], _, best => best
  | (true, n) :: rest, run, best => longestRun rest (run + n) (max best (run + n))
  | (false, _) :: rest, _, best => longestRun rest 0 best

/-- WINMAX of a class (R175): 0x3FFF_FFFF always open, 0 never. -/
def Dev.winMax (d : Dev) (port tc : Nat) : Nat :=
  if 6 < tc then 0 else
  if !(d.gclPort port).on then 0x3FFFFFFF else
  let l := (d.bankSpans port (d.activeBank port)).map (fun e => (e.2.1.testBit tc, e.2.2.2))
  if l.all (·.1) then 0x3FFFFFFF
  else longestRun (l ++ l) 0 0

/-- Durations of the open spans at the head of a list. -/
def openRun : List (Bool × Nat) → Nat
  | (true, n) :: rest => n + openRun rest
  | _ => 0

/-- The time until a class's window closes, in units of 2^-40 ns; none when it never closes. -/
def Dev.timeToClose (d : Dev) (port tc : Nat) : Option Nat :=
  if !(d.gclPort port).on || tc == 7 then none else
  let b := d.activeBank port
  let spans := d.bankSpans port b
  if spans.all (fun e => e.2.1.testBit tc) then none else
  match spanAt spans (d.bankPos port b (d.laneNow port)) with
  | none => some 0
  | some ((i, gates, _, _), left) =>
    if !gates.testBit tc then some 0 else
    let after := (spans.filter (fun e => i < e.1)) ++ (spans.filter (fun e => e.1 ≤ i))
    some (left + openRun (after.map (fun e => (e.2.1.testBit tc, e.2.2.2))) * nsU)

/-! ### Swaps (R176 to R178) -/

/-- Whether a bank breaks R175, or holds a reserved code or an interval of 0. -/
def Dev.bankBad (d : Dev) (port bank : Nat) : Bool :=
  let c := d.bankCycle port bank
  let len := d.bankLen port bank
  c == 0 || 1000000000 % c != 0 || c ≤ d.bankPhase port bank || len == 0 || 1024 < len
    || (List.range len).any (fun i =>
      let w := d.lookupWord .gcl (gclIndex port bank i)
      bitsOf w 63 62 == 3 || bitsOf w 53 24 == 0 || 1000000000 < bitsOf w 53 24)

/-- A swap accepted: it is taken at the first boundary of the active bank at or after `at_`. -/
def Dev.planSwap (d : Dev) (port at_ : Nat) (enable : Option Bool) (blocker release : Bool) : Dev :=
  let g := d.gclPort port
  (d.setGclPort port ⟨some (max at_ (d.laneNow port)), enable, blocker, release, g.on⟩).set (GCL.page port) GCL.GCL_STAT.SWAP_PENDING 1

/-- A pending swap withdrawn (R177): an ENABLE that waited with it takes effect now. -/
def Dev.withdrawSwap (d : Dev) (port : Nat) : Dev :=
  let g := d.gclPort port
  let d := d.setGclPort port ⟨none, none, false, false, g.waitEnable.getD g.on⟩
  (d.set (GCL.page port) GCL.GCL_STAT.SWAP_PENDING 0).refreshGcl port

/-- GCL_SWAP_APPLY (R176): from its boundary on (the Blocker's: from its swap time on, R188), a pending swap exchanges
the banks; the new bank enters the entry in which it would stand; the Blocker's releasing swap gives the port back
(R178). -/
def Dev.applySwap (d : Dev) (port : Nat) : Dev :=
  let g := d.gclPort port
  match g.swapAt with
  | none => d
  | some t =>
    let p := GCL.page port
    let b := if g.blocker then t else d.bankBoundary port (d.activeBank port) t
    if d.laneNow port < b then d else
    let d := d.set p GCL.GCL_STAT.ACTIVE (d.shadowBank port)
    let d := d.setGclPort port ⟨none, none, false, false, g.waitEnable.getD g.on⟩
    let d := d.set p GCL.GCL_STAT.SWAP_PENDING 0
    let d := if g.release then (d.set p GCL.GCL_STAT.BLOCKER_OWN 0).refreshIdle port else d
    let d := (d.set p GCL.LAST_SWAP_SEC.SEC (secOf b)).set p GCL.LAST_SWAP_NS.NS (nsOf b)
    let d := if g.blocker then d.applyStage b else d
    (d.refreshGcl port).raise p GCL.INT_RAW.SWAP_DONE

/-- R176: the swap's boundary has come. -/
def execGclSwapApply (port : Fin 48) (s : State) : Host.Outcome State Fault Refusal := onDev (·.applySwap port) s

/-- The rules of a GCL COMMIT (R176 to R178, R399). -/
def Dev.gclRules (d : Dev) (port : Nat) : List Rule :=
  let p := GCL.page port
  let sh (f : Field) : Nat := d.getSh .gcl p f
  let own := d.flag p GCL.GCL_STAT.BLOCKER_OWN
  let swap : Bool := sh GCL.SWAP_CTRL.SWAP == 1
  [ (own && sh GCL.GCL_CFG.ENABLE == 0, 0x40, GCL.GCL_CFG.ENABLE.off),
    d.ruleRange .gcl p GCL.SWAP_NS.NS 0 999999999,
    (swap && own, 0x40, GCL.SWAP_CTRL.SWAP.off),
    (swap && (d.gclPort port).swapAt.isSome && sh GCL.SWAP_CTRL.CANCEL == 0, 0x42, GCL.SWAP_CTRL.SWAP.off),
    (swap && d.bankBad port (d.shadowBank port), 0x42, GCL.SWAP_CTRL.SWAP.off) ]

/-- The effects of a GCL COMMIT: CANCEL withdraws a swap that is not the Blocker's, SWAP schedules one, ENABLE takes
effect at the swap it came with, or now. -/
def Dev.gclEffect (port : Nat) (before d : Dev) : Dev :=
  let p := GCL.page port
  let cancel := d.flag p GCL.SWAP_CTRL.CANCEL
  let swap := d.flag p GCL.SWAP_CTRL.SWAP
  let enable := d.flag p GCL.GCL_CFG.ENABLE
  let changed : Bool := before.flag p GCL.GCL_CFG.ENABLE != enable
  let d := (d.set p GCL.SWAP_CTRL.CANCEL 0).set p GCL.SWAP_CTRL.SWAP 0
  let g := d.gclPort port
  let d := if cancel && g.swapAt.isSome && !g.blocker then
      (if changed then (d.setGclPort port { g with waitEnable := none }).withdrawSwap port else d.withdrawSwap port)
    else d
  if swap then
    let t := nearest d.now (d.get p GCL.SWAP_SEC.SEC) (d.get p GCL.SWAP_NS.NS)
    d.planSwap port t (if changed then some enable else none) false false
  else if changed then
    let g := d.gclPort port
    (d.setGclPort port { g with on := enable, waitEnable := none }).refreshGcl port
  else d

def Dev.commitGcl (d : Dev) (port : Nat) : Dev := d.commitBy (GCL.page port) (d.gclRules port) (Dev.gclEffect port)

/-- R176: a GCL COMMIT with SWAP = 1 and a swap time. -/
def execGclSwapRequest (acc : Accessor) (port : Fin 48) (sec : BitVec 32) (ns : BitVec 30) (s : State) :
    Host.Outcome State Fault Refusal :=
  onDev (fun d =>
    let p := GCL.page port
    d.asOwner acc p COM.COMMIT.GO.off (fun d =>
      let d := (d.setSh .gcl p GCL.SWAP_SEC.SEC sec.toNat).setSh .gcl p GCL.SWAP_NS.NS ns.toNat
      (d.setSh .gcl p GCL.SWAP_CTRL.SWAP 1).commitGcl port)
      (thenCommit [(GCL.SWAP_SEC.SEC.off, sec), (GCL.SWAP_NS.NS.off, ns.setWidth 32), (GCL.SWAP_CTRL.SWAP.off, 1)])) s

/-- R177: a GCL COMMIT with CANCEL = 1. -/
def execGclSwapCancel (acc : Accessor) (port : Fin 48) (s : State) : Host.Outcome State Fault Refusal :=
  onDev (fun d =>
    let p := GCL.page port
    d.asOwner acc p COM.COMMIT.GO.off (fun d => (d.setSh .gcl p GCL.SWAP_CTRL.CANCEL 1).commitGcl port)
      (thenCommit [(GCL.SWAP_CTRL.CANCEL.off, 2)])) s

/-! ### The entry window (R400, R177, R178) -/

/-- R400: ENTRY_CMD READ; anyone may read. -/
def execGclRead (acc : Accessor) (port : Fin 48) (s : State) : Host.Outcome State Fault Refusal :=
  onDev (fun d => d.asAny acc (GCL.page port) (fun d =>
    let w := gclWin port
    d.winCapture w acc [d.stored .gcl (gclIndex port (winTable d w acc) (winIndex d w acc))]) [((gclWin port).result.off, 1)]) s

/-- The bits of a gate control list entry that software writes: the reserved ones read 0 (R20, R174), BLK is the
Blocker's. -/
abbrev gclMask : Data := 0xFFBF_FFFF_FFFF_F000

/-- R177, R178: ENTRY_CMD WRITE of a shadow bank entry; RESULT 3 on the active bank, while a swap is pending, and on a
port that the Blocker owns. The BLK bit is the Blocker's and is stored 0 (DEDUCED, log entry 12). -/
def execGclWrite (acc : Accessor) (port : Fin 48) (s : State) : Host.Outcome State Fault Refusal :=
  onDev (fun d =>
    let w := gclWin port
    let p := GCL.page port
    d.asOwner acc p GCL.ENTRY_CMD.OP.off (fun d =>
      let bank := winTable d w acc
      if bank = d.activeBank port ∨ d.flag p GCL.GCL_STAT.SWAP_PENDING ∨ d.flag p GCL.GCL_STAT.BLOCKER_OWN then
        d.winResult w acc 3
      else
        let v := winData d w acc &&& gclMask
        ((d.setEntry .gcl (gclIndex port bank (winIndex d w acc)) v).writeImage p).winResult w acc 0)
      [(GCL.ENTRY_CMD.OP.off, 2)]) s

/-! ### The launch queue (R171, R173) -/

/-- Whether a launch time has passed (R171). -/
def Dev.launchPassed (d : Dev) (port launch : Nat) : Bool :=
  launch + d.get (GCL.page port) GCL.LAUNCH_CFG.LATE_MAX_NS * nsU < d.laneNow port

/-- A frame's launch time as its arrival at the launch queue finds it: from its handle's entry, or what its request
named, nearest to the time base (R169, R429). -/
def Dev.launchAt (d : Dev) (f : Frame) : Option Nat :=
  f.launch.or (f.launchReq.map (fun r => nearest d.now r.1 r.2))

/-- Whether a frame has a launch time (R169). -/
def Frame.timed (f : Frame) : Bool := f.launch.isSome || f.launchReq.isSome

/-- A frame dropped as LATE at a port. -/
def Dev.dropLate (d : Dev) (port n : Nat) : Dev :=
  let d := ((d.countLane port 15).count (0x990 + 8 * port + 6)).raise (GCL.page port) GCL.INT_RAW.LATE
  d.clearDest n port (0x0C0 + port)

/-- Whether frame `a` goes before frame `b` in the launch queue: launch time, then stamp, then source. -/
def Dev.launchBefore (d : Dev) (a b : Nat) : Bool :=
  match d.frame a, d.frame b with
  | some x, some y =>
    let lx := x.launch.getD 0
    let ly := y.launch.getD 0
    lx < ly || (lx == ly && (x.stamp < y.stamp || (x.stamp == y.stamp && x.src < y.src)))
  | _, _ => true

def Dev.launchInsert (d : Dev) (n : Nat) : List Nat → List Nat
  | [] => [n]
  | m :: rest => if d.launchBefore n m then n :: m :: rest else m :: d.launchInsert n rest

/-- Of the frames with launch times at the heads of a port's VOQs, the one with the oldest stamp: no frame of a VOQ
passes an earlier one (R64, R173). -/
def Dev.timedWaiting (d : Dev) (port : Nat) : Option (Nat × Nat) :=
  let vs := (d.voqsTo port).filter (fun v => voqTc v == 6 && !d.voqHeld v)
  let fs := vs.filterMap (fun v => match (d.voq v).head? with
    | none => none
    | some n => match d.frame n with
      | some f => if f.timed then some (v, n, f.stamp, f.src) else none
      | none => none)
  (fs.foldl (fun b e => match b with
    | none => some e
    | some x => if e.2.2.1 < x.2.2.1 || (e.2.2.1 == x.2.2.1 && e.2.2.2 < x.2.2.2) then some e else some x) none).map
      (fun e => (e.1, e.2.1))

/-- R173: the oldest timed frame of a port moves into its launch queue while fewer than 96 are in it; LATE and FAR are
judged on entry (R171). -/
def execLaunchEnqueue (port : Fin 48) (s : State) : Host.Outcome State Fault Refusal :=
  onDev (fun d =>
    if 96 ≤ (d.launchOf port).length then d else
    match d.timedWaiting port with
    | none => d
    | some (v, n) =>
      let l := match d.frame n with | some f => (d.launchAt f).getD 0 | none => 0
      let d := (d.unqueue v n).modFrame n (fun f => { f with launch := some l })
      if d.launchPassed port l then d.dropLate port n
      else if d.now + secU < l then (d.countLane port 16).clearDest n port (0x0C0 + port.val)
      else d.setLaunch port (d.launchInsert n (d.launchOf port))) s

/-- Whether the port-down hold keeps a frame of a launch queue, as it keeps the VOQ the frame came from (R142, R173). -/
def Dev.launchHeld (d : Dev) (port n : Nat) : Bool :=
  match d.frame n with
  | some f => d.voqHeld (voqNo f.input port 6)
  | none => false

/-- The first frame of a launch queue that no hold keeps. -/
def Dev.launchHead (d : Dev) (port : Nat) : Option Nat := (d.launchOf port).find? (fun n => !d.launchHeld port n)

/-- R171: launches not started in time are dropped; the time of a held one is judged at the hold's end (R143). -/
def Dev.lateLaunches (d : Dev) (port : Nat) : Dev :=
  let late := (d.launchOf port).filter (fun n => !d.launchHeld port n && match d.frame n with
    | some f => d.launchPassed port (f.launch.getD 0)
    | none => true)
  late.foldl (fun d n => (d.setLaunch port ((d.launchOf port).filter (· != n))).dropLate port n) d

def execLaunchLate (port : Fin 48) (s : State) : Host.Outcome State Fault Refusal :=
  onDev (·.lateLaunches port) s

/-- R173: LAUNCH_STAT.HWM_CLR. -/
def execLaunchHwmClr (acc : Accessor) (port : Fin 48) (s : State) : Host.Outcome State Fault Refusal :=
  onDev (fun d => d.asOwner acc (GCL.page port) GCL.LAUNCH_STAT.HWM_CLR.off (fun d =>
    d.set (GCL.page port) GCL.LAUNCH_STAT.HWM (d.get (GCL.page port) GCL.LAUNCH_STAT.PENDING))
    GCL.LAUNCH_STAT.HWM_CLR.strike) s

/-- HOLD_RELEASE (R143): a port is up again strictly before its hold expires: the hold ends, TC6 frames whose launch
time has passed are dropped as LATE, the others go on in order. From the expiry on the flush of R144 comes first. -/
def Dev.holdRelease (d : Dev) (port : Nat) : Dev :=
  if !d.holdOn port then d else
  if d.holdDue port then d.holdEnd port else
  let d := d.setHoldOn port false
  let d := { d with holdLoop := tset (fun _ => false) d.holdLoop port false }
  if 48 ≤ port then d else
  let d := d.lateLaunches port
  ((d.voqsTo port).filter (fun v => voqTc v == 6)).foldl (fun d v =>
    let late := (d.voq v).all.filter (fun n => match d.frame n with
      | some f => match d.launchAt f with | some l => d.launchPassed port l | none => false
      | none => false)
    late.foldl (fun d n => (d.unqueue v n).dropLate port n) d) d

end Sys2Proof.Machine
end

