-- ==== Sys2Proof/Machine/Mailbox.lean ====
section
/-!
DEFINITION. Machine/Mailbox.lean: the mailbox channels (R312 to R318): notices, waits, crossed waits, payloads in DRAM
(R330, R377), and firmware's side of a channel: the commands it has read, and the notices it has to send.
-/
namespace Sys2Proof.Machine

/-! ### Channels and directions (R312) -/

/-- The page and the channel's number on it. -/
def mbxPage (ch : Nat) : Nat := MBX.page (ch / 16)

/-- A field of a channel's block. -/
def mbxField (ch : Nat) (f : Field) : Field := f.nth (ch % 16)

def Dev.mbxGet (d : Dev) (ch : Nat) (f : Field) : Nat := d.get (mbxPage ch) (mbxField ch f)
def Dev.mbxSet (d : Dev) (ch : Nat) (f : Field) (v : Nat) : Dev := d.set (mbxPage ch) (mbxField ch f) v

/-- The fields of a direction: FULL, WAIT, ECC, LAST, CH_ECC, LO and MID. -/
structure MbxDir where
  full : Field
  wait : Field
  ecc : Field
  last : Field
  chEcc : Field
  lo : Field
  mid : Field

def toFw : MbxDir := ⟨MBX.CH_STAT.TOFW_FULL, MBX.CH_STAT.TOFW_WAIT, MBX.CH_STAT.TOFW_ECC, MBX.CH_STAT.TOFW_LAST,
  MBX.CH_ECC.TOFW_ECC, MBX.TOFW_LO.DATA_LO, MBX.TOFW_MID.DATA_MID⟩
def fromFw : MbxDir := ⟨MBX.CH_STAT.FROMFW_FULL, MBX.CH_STAT.FROMFW_WAIT, MBX.CH_STAT.FROMFW_ECC,
  MBX.CH_STAT.FROMFW_LAST, MBX.CH_ECC.FROMFW_ECC, MBX.FROMFW_LO.DATA_LO, MBX.FROMFW_MID.DATA_MID⟩

def mbxDir (fw : Bool) : MbxDir := if fw then fromFw else toFw

/-- A direction's number: 2 × channel, plus 1 for FROMFW. -/
def mbxNo (ch : Nat) (fw : Bool) : Nat := 2 * ch + (if fw then 1 else 0)

def Dev.mbxFull (d : Dev) (ch : Nat) (fw : Bool) : Bool := d.mbxGet ch (mbxDir fw).full == 1

/-- FULL of a direction, with FULL_SUM. -/
def Dev.setMbxFull (d : Dev) (ch : Nat) (fw b : Bool) : Dev :=
  let d := d.mbxSet ch (mbxDir fw).full (if b then 1 else 0)
  let f := if fw then MBX.FULL_SUM.FROMFW_FULL else MBX.FULL_SUM.TOFW_FULL
  let m := d.get (mbxPage ch) f
  let bit := 2 ^ (ch % 16)
  let m := if m.testBit (ch % 16) then (if b then m else m - bit) else (if b then m + bit else m)
  d.set (mbxPage ch) f m

/-- CROSSED ends when either FULL clears (R318). -/
def Dev.mbxUncross (d : Dev) (ch : Nat) : Dev := d.mbxSet ch MBX.CH_STAT.CROSSED 0

/-- A direction emptied: FULL and the sender's WAIT clear (R315, R317). -/
def Dev.mbxEmpty (d : Dev) (ch : Nat) (fw : Bool) : Dev :=
  ((d.setMbxFull ch fw false).mbxSet ch (mbxDir fw).wait 0).mbxUncross ch

/-- A notice stored: FULL, LAST = sent, the check byte, the count. -/
def Dev.mbxStore (d : Dev) (ch : Nat) (fw : Bool) (n : Data) : Dev :=
  let d := d.setEntry .notice (mbxNo ch fw) n
  let d := (d.setMbxFull ch fw true).mbxSet ch (mbxDir fw).last 0
  let d := d.mbxSet ch (mbxDir fw).lo (bitsOf n 31 0)
  let d := d.mbxSet ch (mbxDir fw).mid (bitsOf n 63 32)
  let d := d.mbxSet ch (mbxDir fw).chEcc (eccByte n).toNat
  d.mbxSet ch MBX.CH_CNT.SENT_CNT (d.mbxGet ch MBX.CH_CNT.SENT_CNT + 1)

/-- A doorbell: INT_RAW.NEW to the host of a FROMFW notice, an internal one to the cores. -/
def Dev.mbxRing (d : Dev) (ch : Nat) (fw : Bool) : Dev :=
  if fw then (if ch < 28 then d.raise (mbxPage ch) MBX.INT_RAW.NEW (ch % 16) else d)
  else d.emit (.coreInt (if ch < 16 then 0 else 4) "mailbox")

/-- The acknowledgement to the sender. -/
def Dev.mbxAck (d : Dev) (ch : Nat) (fw : Bool) : Dev :=
  if fw then d.emit (.coreInt (if ch < 16 then 0 else 4) "mailbox ack")
  else if ch < 28 then d.raise (mbxPage ch) MBX.INT_RAW.ACK (ch % 16) else d

/-- A send refused: LAST, the counts, ERR_INFO 0x90. -/
def Dev.mbxRefuse (d : Dev) (ch : Nat) (fw : Bool) (last : Nat) : Dev :=
  let d := (d.mbxSet ch (mbxDir fw).last last).count 0xF41
  let d := d.mbxSet ch MBX.CH_CNT.REFUSED_CNT (min (d.mbxGet ch MBX.CH_CNT.REFUSED_CNT + 1) 255)
  d.err (mbxPage ch) 0x90 (mbxNo ch fw)

/-! ### Payloads (R313, R330, R377) -/

/-- The notice's fields. -/
def noticeKind (n : Data) : Nat := bitsOf n 63 62
def noticeFamily (n : Data) : Nat := bitsOf n 61 56
def noticeCode (n : Data) : Nat := bitsOf n 55 48
def noticeTag (n : Data) : Nat := bitsOf n 47 40
def noticeLen (n : Data) : Nat := bitsOf n 39 24
def noticePtr (n : Data) : Nat := bitsOf n 23 0

def mkNotice (kind family code tag len ptr : Nat) : Data :=
  BitVec.ofNat 64 (kind % 4 * 2 ^ 62 + family % 64 * 2 ^ 56 + code % 256 * 2 ^ 48 + tag % 256 * 2 ^ 40
    + len % 65536 * 2 ^ 24 + ptr % 2 ^ 24)

/-- The DRAM address of a payload: the area of the channel's kind, if the payload lies wholly inside it. On MB28 to MB31
the pointer counts from the start of the exchange area (DESIGN CHOICE, log entry 18). -/
def payloadAddr (ch : Nat) (n : Data) : Option Nat :=
  let w2 := noticePtr n * 64
  let size := 2 ^ 24
  let within (base dram : Nat) : Option Nat :=
    if base ≤ w2 ∧ w2 + noticeLen n ≤ base + size then some (dram + (w2 - base)) else none
  if noticeLen n = 0 then some 0
  else if ch < 16 then within 0x1000000 0x1A000000
  else if ch < 28 then within 0x2000000 0x1B000000
  else within 0 0x18000000

/-- The 64-bit words of a payload. -/
def payloadWords (bs : List (BitVec 8)) : List Nat :=
  (List.range (bs.length / 8)).map (fun i => ofBytesLE ((bs.drop (8 * i)).take 8))

/-- A payload's bytes as they stand in DRAM. -/
def readPayload (m : List Host.Cell) (ch : Nat) (n : Data) : List (BitVec 8) :=
  match payloadAddr ch n with
  | some a => memRead m a (noticeLen n)
  | none => []

/-! ### Firmware's side (R319, R320) -/

/-- Whether services run: FW_STAT.STATE running or degraded. -/
def Dev.fwRuns (d : Dev) : Bool :=
  d.get SVC.page SVC.FW_STAT.STATE == 2 || d.get SVC.page SVC.FW_STAT.STATE == 4

/-- The boot ROM's firmware runs (R304). -/
def Dev.fwBoot (d : Dev) : Bool := d.get SVC.page SVC.FW_STAT.IMAGE == 0

def Dev.fwCmd (d : Dev) (ch : Nat) : List Data := tget (fun _ => []) d.fwCmds ch
def Dev.setFwCmd (d : Dev) (ch : Nat) (l : List Data) : Dev := { d with fwCmds := tset (fun _ => []) d.fwCmds ch l }
def Dev.fwQueue (d : Dev) (ch : Nat) : List FwMsg := tget (fun _ => []) d.fwOut ch
def Dev.setFwQueue (d : Dev) (ch : Nat) (l : List FwMsg) : Dev := { d with fwOut := tset (fun _ => []) d.fwOut ch l }

/-- Firmware has a notice to send on a channel. -/
def Dev.fwSend (d : Dev) (ch : Nat) (n : Data) (payload : List (BitVec 8)) : Dev :=
  d.setFwQueue ch (d.fwQueue ch ++ [⟨n, payload⟩])

/-- A response to a command (R320, R322): same FAMILY and TAG, the reply over the command's payload. -/
def Dev.fwReply (d : Dev) (ch : Nat) (cmd : Data) (status : Nat) (words : List Nat) : Dev :=
  d.fwSend ch (mkNotice 1 (noticeFamily cmd) status (noticeTag cmd) (8 * words.length) (noticePtr cmd))
    ((words.map (bytesLE 8)).flatten)

/-- Whether the Doublet link carries notices of MB28 to MB31. -/
def Dev.twinLink (d : Dev) : Bool := d.flag DBL.page DBL.DBL_STAT.DL0_UP || d.flag DBL.page DBL.DBL_STAT.DL1_UP

/-- R316: a channel's state as the twin mirrors it: FULL of the notice it holds from there, WAIT of this side's
sender. -/
def Dev.mbxMirror (d : Dev) (ch : Nat) : Dev :=
  if 28 ≤ ch ∧ d.twinLink then
    d.emit (.doublet "mirror" [ch, d.mbxGet ch MBX.CH_STAT.TOFW_FULL, d.mbxGet ch MBX.CH_STAT.FROMFW_WAIT])
  else d

/-- R316: a notice with its payload, of at most 4,096 bytes, goes over the Doublet link. -/
def Dev.mbxCarry (d : Dev) (ch : Nat) (n : Data) (payload : List (BitVec 8)) : Dev :=
  if 28 ≤ ch then d.emit (.doublet "notice" (ch :: n.toNat :: (payload.take 4096).map BitVec.toNat)) else d

/-- Whether firmware can still send: services run, or a restart has begun and the cores have not halted (R325). -/
def Dev.fwSends (d : Dev) : Bool := d.fwRuns || (d.get SVC.page SVC.FW_STAT.STATE == 3 && !d.fwDown)

/-- What firmware has to send goes out on the channels whose FROMFW is empty; a payload is written before its notice.
On a channel to the twin the notice crosses the Doublet link, and one that finds it down is refused (R316). -/
def Dev.fwPump (d : Dev) (m : List Host.Cell) : Dev × List Host.Cell :=
  if !d.fwSends then (d, m) else
  d.fwOut.foldl (fun (x : Dev × List Host.Cell) (e : Nat × List FwMsg) =>
    match e.2 with
    | [] => x
    | msg :: rest =>
      if 28 ≤ e.1 ∧ !x.1.twinLink then ((x.1.setFwQueue e.1 rest).mbxRefuse e.1 true 2, x.2) else
      if x.1.mbxFull e.1 true then x else
      let m := match payloadAddr e.1 msg.notice with
        | some a => if msg.payload.isEmpty then x.2 else memWrite x.2 a msg.payload
        | none => x.2
      let d := ((x.1.setFwQueue e.1 rest).mbxStore e.1 true msg.notice).mbxRing e.1 true
      (d.mbxCarry e.1 msg.notice msg.payload, m)) (d, m)

/-- A command that firmware may answer: the change, then what firmware has to send goes out. -/
def onFw (f : Dev → List Host.Cell → Dev) (s : State) : Host.Outcome State Fault Refusal :=
  onMem (fun d m => (f d m).fwPump m) s

/-! ### Commands of the channels -/

/-- Whether an accessor is the sender of a direction; MB28 to MB31's TOFW is the twin's. -/
def mbxSender (acc : Accessor) (ch : Nat) (fw : Bool) : Bool := if fw then acc.isFw else !acc.isFw && decide (ch < 28)

/-- Whether an accessor is on the receiving side of a direction; the twin receives FROMFW of MB28 to MB31. -/
def mbxReceiver (acc : Accessor) (ch : Nat) (fw : Bool) : Bool := if fw then !acc.isFw && decide (ch < 28) else acc.isFw

/-- Function 0 and the controller reach MBX[0] only (R329). -/
def mbxReach (acc : Accessor) (ch : Nat) : Bool := acc.isFw || acc == .host1 || decide (ch < 16)

/-- The notice that a MID write makes with the LO half its writer has stored (R314). -/
def Dev.mbxNotice (d : Dev) (acc : Accessor) (ch : Nat) (fw : Bool) (mid : BitVec 32) : Data :=
  mid ++ tget (fun _ => (0 : Word)) d.mbxLo (mbxNo ch fw * 8 + acc.idx)

/-- Where a byte of W2 lies in DRAM for a function of the endpoint, and whether it may be written (R330, R377): the
mailbox areas, the secure one for function 1 alone, and the flight recorder, read only. -/
def w2Place (fn off : Nat) : Option (Nat × Bool) :=
  if 0x1000000 ≤ off ∧ off < 0x2000000 then some (0x1A000000 + (off - 0x1000000), true)
  else if 0x2000000 ≤ off ∧ off < 0x3000000 ∧ fn = 1 then some (0x1B000000 + (off - 0x2000000), true)
  else if 0x8000000 ≤ off ∧ off < 0x10000000 then some (0x10000000 + (off - 0x8000000), false)
  else none

/-- A read of a byte of W2 (R330): all ones while DRAM is not trained; 0 where nothing is laid out for the function. -/
def Dev.w2Read (d : Dev) (m : List Host.Cell) (fn off : Nat) : BitVec 8 :=
  if !d.flag DRM.page DRM.DRM_STAT.TRAINED then 0xFF else
  match w2Place fn off with
  | some (a, _) => memByte m a
  | none => 0

/-- A write of a byte of W2 (R330): discarded while DRAM is not trained, and where the function may not write. -/
def Dev.w2Write (d : Dev) (m : List Host.Cell) (fn off : Nat) (b : BitVec 8) : List Host.Cell :=
  if !d.flag DRM.page DRM.DRM_STAT.TRAINED then m else
  match w2Place fn off with
  | some (a, true) => memSetByte m a b
  | _ => m

/-- Bytes written upwards from an offset of W2. -/
def Dev.w2WriteAll (d : Dev) (m : List Host.Cell) (fn : Nat) : Nat → List (BitVec 8) → List Host.Cell
  | _, [] => m
  | off, b :: bs => d.w2WriteAll (d.w2Write m fn off b) fn (off + 1) bs

/-- What a sender has written where its notice points (log entry 18), which lies in DRAM whatever becomes of the
notice: the host and the controller write through W2, the secure core, and the cores on a channel to the twin, in
their memory. -/
def Dev.storePayload (d : Dev) (m : List Host.Cell) (acc : Accessor) (ch : Nat) (fw : Bool) (mid : BitVec 32)
    (payload : List (BitVec 8)) : List Host.Cell :=
  let n := d.mbxNotice acc ch fw mid
  match payloadAddr ch n with
  | none => m
  | some a =>
    if payload.isEmpty || noticeLen n = 0 then m
    else if acc.isFw then (if d.flag DRM.page DRM.DRM_STAT.TRAINED then memWrite m a (payload.take (noticeLen n)) else m)
    else d.w2WriteAll m (if acc == .host1 then 1 else 0) (noticePtr n * 64) (payload.take (noticeLen n))

/-- R314, R316: a MID write. `payload` is what the sender has written through W2 where the notice points (log entry 18):
it is discarded where DRAM is not trained or the sender may not write there. A write by the receiving side is discarded
(0x91), one by the host of a channel to the twin too. -/
def execMbxSend (acc : Accessor) (ch : Fin 32) (fw : Bool) (mid : BitVec 32) (payload : List (BitVec 8)) (s : State) :
    Host.Outcome State Fault Refusal :=
  onMem (fun d m =>
    if !mbxReach acc ch || !d.pageUp (mbxPage ch) then (d.when (mbxReach acc ch && !d.pageUp (mbxPage ch)) (·.accessInReset (mbxPage ch)), m)
    else if d.pageHeld (mbxPage ch) then
      ({ d with held := d.held ++ [⟨54, acc, mbxPage ch, (mbxField ch (mbxDir fw).mid).off, mid, true, false, payload⟩] }, m)
    else if !mbxSender acc ch fw then
      (d.when (mbxReceiver acc ch fw) (·.err (mbxPage ch) 0x91 (mbxNo ch fw)), m)
    else
      let n := d.mbxNotice acc ch fw mid
      let m := d.storePayload m acc ch fw mid payload
      if 28 ≤ ch.val ∧ !d.twinLink then
        (d.mbxRefuse ch fw 2, m)
      else if d.mbxFull ch fw then (d.mbxRefuse ch fw 1, m)
      else
        (((d.mbxStore ch fw n).mbxRing ch fw).mbxCarry ch n (readPayload m ch n), m)) s

/-- A held notice as a read returns it (R315, R428): corrected, or as stored where it is uncorrectable. -/
def Dev.noticeHeld (d : Dev) (no : Nat) : Data :=
  match d.readNative .notice no with
  | .clean v => v
  | .corrected v => v
  | .uncorrectable => (d.stored .notice no).truncate 64

/-- R326: what SEC reads from the twin on MB30 tells whether the twin restarts: RESTARTING says so, any other notice
that it no longer does (DESIGN CHOICE, log entry 131). -/
def Dev.twinReports (d : Dev) (ch : Nat) (n : Data) : Dev :=
  if ch != 30 then d else
  let restarting : Bool := noticeKind n == 2 && noticeFamily n == 0 && noticeCode n == 0x10
  { d with twinRestart := if restarting then some d.now else none }

/-- R315: a MID read. The receiver's read returns the notice and clears FULL; firmware's also takes the command. The
sender's own read returns the held notice. -/
def Dev.mbxReceive (d : Dev) (acc : Accessor) (ch : Nat) (fw : Bool) : Dev :=
  let words (n : Data) : List Nat := [bitsOf n 31 0, bitsOf n 63 32]
  let n := d.noticeHeld (mbxNo ch fw)
  let bad : Bool := d.readNative .notice (mbxNo ch fw) == .uncorrectable
  if !d.mbxFull ch fw then d.emit (.reply "mailbox" [0, 0])
  else
    let d := d.seen .notice (mbxNo ch fw)
    if acc.isFw == fw || (decide (28 ≤ ch) && !acc.isFw) then d.emit (.reply "mailbox" (words n)) else
    let d := d.mbxSet ch (mbxDir fw).ecc (if bad then 1 else 0)
    let d := if bad then d.err (mbxPage ch) 0x92 (mbxNo ch fw) else d
    let d := ((d.mbxEmpty ch fw).mbxAck ch fw).mbxMirror ch
    let d := (d.emit (.reply "mailbox" (words n))).twinReports ch n
    if !fw && noticeKind n == 0 && decide (ch < 28) then
      (if bad then d.fwReply ch n 0x0D [] else d.setFwCmd ch (d.fwCmd ch ++ [n]))
    else d

/-- R317: WAIT_SET and WAIT_CLR of the writer's sending direction, mirrored to the twin (R316). Firmware does not
begin to wait while an inbound direction is full, which it reads first. -/
def Dev.mbxWait (d : Dev) (acc : Accessor) (ch : Nat) (b : Bool) : Dev :=
  let fw := acc.isFw
  if !fw && decide (28 ≤ ch) then d
  else if fw && b && (List.range 32).any (fun c => d.mbxFull c false) then d
  else (d.mbxSet ch (mbxDir fw).wait (if b then 1 else 0)).mbxMirror ch

def execMbxWaitSet (acc : Accessor) (ch : Fin 32) (s : State) : Host.Outcome State Fault Refusal :=
  onDev (fun d => d.when (mbxReach acc ch) (fun d =>
    let f := mbxField ch MBX.CH_CTRL.WAIT_SET
    d.asOwner acc (mbxPage ch) f.off (·.mbxWait acc ch true) f.strike)) s

def execMbxWaitClr (acc : Accessor) (ch : Fin 32) (s : State) : Host.Outcome State Fault Refusal :=
  onDev (fun d => d.when (mbxReach acc ch) (fun d =>
    let f := mbxField ch MBX.CH_CTRL.WAIT_CLR
    d.asOwner acc (mbxPage ch) f.off (·.mbxWait acc ch false) f.strike)) s

/-- R318: both directions full and waiting for 10 µs. -/
def execMbxCrossed (ch : Fin 32) (s : State) : Host.Outcome State Fault Refusal :=
  onDev (fun d =>
    let all := d.mbxFull ch false && d.mbxFull ch true && d.mbxGet ch MBX.CH_STAT.TOFW_WAIT == 1
      && d.mbxGet ch MBX.CH_STAT.FROMFW_WAIT == 1
    d.when (all && d.mbxGet ch MBX.CH_STAT.CROSSED == 0) (fun d =>
      let p := mbxPage ch
      let was := d.asserted p
      let d := d.mbxSet ch MBX.CH_STAT.CROSSED 1
      let d := d.mbxSet ch MBX.CH_CNT.CROSSED_CNT (min (d.mbxGet ch MBX.CH_CNT.CROSSED_CNT + 1) 255)
      let w := d.get p MBX.MB_CROSSED.CROSSED
      let d := d.set p MBX.MB_CROSSED.CROSSED (if w.testBit (ch % 16) then w else w + 2 ^ (ch.val % 16))
      let d := if was then d else d.sendSummary p
      let d := d.emit (.coreInt (if ch.val < 16 then 0 else 4) "crossed")
      (d.count 0xF40).record (if ch.val < 16 then 0x034 else 0x038) 0x0F ch)) s

/-- R316: what the Doublet link brings of a channel MB28 to MB31: a notice of the twin with its payload, or the twin's
mirrored FULL and WAIT of a notice sent to it. -/
def execMbxTwinDelivery (ch : Fin 4) (what : TwinMbx) (s : State) : Host.Outcome State Fault Refusal :=
  onMem (fun d m =>
    let c := 28 + ch.val
    if !d.twinLink then (d, m) else
    match what with
    | .notice n payload =>
      if d.mbxFull c false then (d, m) else
      let m := match payloadAddr c n with
        | some a => memWrite m a ((payload.take 4096).take (noticeLen n))
        | none => m
      (((d.mbxStore c false n).mbxRing c false).mbxMirror c, m)
    | .mirror full wait =>
      let d := if full then d else if d.mbxFull c true then (d.mbxEmpty c true).mbxAck c true else d
      (d.mbxSet c MBX.CH_STAT.TOFW_WAIT (if wait then 1 else 0), m)) s

/-- R316: the Doublet link goes down: held notices to the twin end with LAST = link down. -/
def Dev.mbxLink (d : Dev) (up : Bool) : Dev :=
  [28, 29, 30, 31].foldl (fun d c =>
    let d := d.mbxSet c MBX.CH_STAT.LINK (if up then 1 else 0)
    if !up && d.mbxFull c true then (d.mbxEmpty c true).mbxSet c MBX.CH_STAT.FROMFW_LAST 2 else d) d

end Sys2Proof.Machine
end

