-- ==== Sys2Proof/Machine/Lanes.lean ====
section
/-!
DEFINITION. Machine/Lanes.lean: lanes and port datapaths (chapter 02, R38 to R62, R432 to R434, R430): bringing a link
up, latency, calibration, idle, loop-backs, PRBS, received pauses, and the COMMITs of the LNK and PRT pages.
-/
namespace Sys2Proof.Machine

/-! ### States (R42) -/

abbrev laneOff : Nat := 0
abbrev laneSignalWait : Nat := 1
abbrev laneAutoneg : Nat := 2
abbrev laneTraining : Nat := 3
abbrev laneCdr : Nat := 4
abbrev laneBlockLock : Nat := 5
abbrev laneLatency : Nat := 6
abbrev laneUp : Nat := 7
abbrev laneIdle : Nat := 8
abbrev laneWake : Nat := 9
abbrev laneSearch : Nat := 10
abbrev laneFault : Nat := 11
abbrev lanePrbs : Nat := 12

def lane0 : Lane := ⟨0, false, false, 0, 0, 0, 0⟩
def Dev.lane (d : Dev) (l : Nat) : Lane := tget (fun _ => lane0) d.lanes l
def Dev.setLane (d : Dev) (l : Nat) (x : Lane) : Dev := { d with lanes := tset (fun _ => lane0) d.lanes l x }
def Dev.laneState (d : Dev) (l : Nat) : Nat := d.get (LNK.page l) LNK.LNK_STATE.STATE

/-- The states in which the link is up: LATENCY_MEASURE, UP, IDLE, WAKE. -/
def linkStates (st : Nat) : Bool := 6 ≤ st && st ≤ 9

def Dev.media (d : Dev) (l : Nat) : Nat := d.get (LNK.page l) LNK.LNK_CFG.MEDIA

/-- An event of a lane, which happens only while its island is out of reset. -/
def Dev.onLane (d : Dev) (l : Nat) (f : Dev → Dev) : Dev := d.when (d.released (unitLane l)) f

/-- An event of a lane in one state. -/
def Dev.inState (d : Dev) (l st : Nat) (f : Dev → Dev) : Dev :=
  d.onLane l (fun d => d.when (d.laneState l == st) f)

/-! ### Rates and FEC (R38, R39, R41) -/

/-- The FEC modes that a rate has, 0 none, 1 BASE-R, 2 RS (528,514), 3 RS (544,514). -/
def rateFecs (rate : Nat) : List Nat :=
  match rate with | 1 => [0] | 2 => [0] | 3 => [0, 1, 2] | 4 => [3] | 5 => [3] | _ => []

/-- The rates a lane accepts. -/
def laneRates (l : Nat) : List Nat := if l < 48 then [1, 2, 3, 4, 5] else if l < 50 then [5] else [1, 2]

/-- The search order of rate and FEC. -/
def searchList (l : Nat) : List (Nat × Nat) :=
  if l < 48 then [(5, 3), (4, 3), (3, 2), (3, 1), (3, 0), (2, 0), (1, 0)]
  else if l < 50 then [(5, 3)] else [(2, 0), (1, 0)]

/-- RATE_ACT and FEC_ACT, with the port's copy. -/
def Dev.setRate (d : Dev) (l rate fec : Nat) : Dev :=
  let d := (d.set (LNK.page l) LNK.LNK_STATE.RATE_ACT rate).set (LNK.page l) LNK.LNK_STATE.FEC_ACT fec
  if l < 48 then d.set (PRT.page l) PRT.PORT_STAT.RATE rate else d

/-! ### Preemption at a port (R157, R160) -/

/-- The residue of R160. -/
def Dev.pFrag (d : Dev) (o : Nat) : Nat :=
  if 48 ≤ o then 0
  else if d.flag SCH.page SCH.PORT_STAT.PREEMPT_ACT o then
    max (155 + 64 * d.get SCH.page SCH.PORT_PREEMPT.ADD_FRAG o) (d.get SCH.page SCH.PORT_SCH.TC6_MAX o + 28)
  else d.get (PRT.page o) PRT.PORT_CFG.MAX_FRAME + 28

def Dev.refreshPFrag (d : Dev) (o : Nat) : Dev := d.set SCH.page SCH.PORT_STAT.P_FRAG (d.pFrag o) o

/-- VERIFY_STATE and PREEMPT_ACT set; a MAC hold stands only while preemption is active (R174). -/
def Dev.setPreempt (d : Dev) (o : Nat) (act : Bool) (state : Nat) : Dev :=
  let d := d.setFlag SCH.page SCH.PORT_STAT.PREEMPT_ACT act o
  ((d.set SCH.page SCH.PORT_STAT.VERIFY_STATE state o).refreshPFrag o).refreshGcl o

/-- Verification starts again, at link-up or by a PORT_PREEMPT COMMIT (R157). -/
def Dev.verifyStart (d : Dev) (o : Nat) : Dev :=
  let d := d.setOutput o { d.output o with verifyTries := 0 }
  if !d.flag SCH.page SCH.PORT_PREEMPT.PREEMPT_EN o then d.setPreempt o false 0
  else
    let up := d.flag (PRT.page o) PRT.PORT_STAT.LINK_UP
    if d.flag SCH.page SCH.PORT_PREEMPT.VERIFY_DIS o then d.setPreempt o up 0
    else d.setPreempt o false (if up then 2 else 1)

/-! ### Pauses received (R430, R163) -/

/-- R430: the MAC consumes a PAUSE or PFC frame of the line, which a loop-back keeps from it (R60); `enables` are the
priorities that a PFC frame sets, `quanta` its eight values, or the one of a PAUSE frame. -/
def execPauseFrameReceived (port : Fin 48) (pfc : Bool) (enables : BitVec 8) (quanta : List (BitVec 16)) (s : State) :
    Host.Outcome State Fault Refusal :=
  onDev (fun d => d.onLane port (fun d => d.when (linkStates (d.laneState port) && d.loopMode port == 0)
    (·.pauseIn port pfc enables.toNat (fun p => (quanta.getD p 0).toNat)))) s

/-- R430: the pauses of a port whose time has run out end. -/
def execPauseExpiry (port : Fin 48) (s : State) : Host.Outcome State Fault Refusal :=
  onDev (fun d => ((List.range 9).foldl (fun d p => match d.pauseEnd port p with
    | some t => if t ≤ d.now then d.setPause port p none else d
    | none => d) d).refreshPause port) s

/-! ### Link up and link down (R42, R43, R55, R142, R143, R163, R190, R291) -/

/-- R26, R60, R220: a port's stamps are SOFT from when its latency is not valid or it turns round behind the PCS; the
flag stands until an event message begins after that has ended. -/
def Dev.refreshSoft (d : Dev) (l : Nat) : Dev :=
  if 48 ≤ l then d else
  let pg := PRT.page l
  let m := d.get (LNK.page l) LNK.LOOP_CFG.MODE
  let put (x : Option Nat) : Dev := { d with hardFrom := tset (fun _ => none) d.hardFrom l x }
  if !d.flag (LNK.page l) LNK.LNK_STATE.LAT_VALID || (3 ≤ m && m ≤ 5) then
    let d := put none
    if d.flag pg PRT.PORT_STAT.SOFT_STAMPS then d
    else (d.set pg PRT.PORT_STAT.SOFT_STAMPS 1).raise pg PRT.INT_RAW.SOFT_CHG
  else if (tget (fun _ => none) d.hardFrom l).isSome then d else put (some d.now)

def Dev.setLatValid (d : Dev) (l : Nat) (v : Bool) : Dev :=
  let p := LNK.page l
  let d := (d.setFlag p LNK.LNK_STATE.LAT_VALID v).setFlag p LNK.RX_LAT.VALID v
  (d.setFlag p LNK.TX_LAT.VALID v).refreshSoft l

/-- The time and the direction of a LINK_UP change. -/
def Dev.stampLink (d : Dev) (port : Nat) (up : Bool) : Dev :=
  let pg := PRT.page port
  let d := (d.setFlag pg PRT.PORT_STAT.LINK_UP up).set pg PRT.LINK_CHG_SEC.SEC (secOf d.now)
  (d.set pg PRT.LINK_CHG_NS.NS (nsOf d.now)).setFlag pg PRT.LINK_CHG_NS.DIR up

/-- The Doublet's view of its lanes; without a link the twin is not READY and a handover is void on both sides (R298,
R299); the owner's full copy is due when the link returns (R291), and a slot that takes the twin's time has its source
while DL0 is up. -/
def Dev.dblLink (d : Dev) (l : Nat) (up : Bool) : Dev :=
  let was := d.flag DBL.page DBL.DBL_STAT.DL0_UP || d.flag DBL.page DBL.DBL_STAT.DL1_UP
  let d := d.setFlag DBL.page (if l = 48 then DBL.DBL_STAT.DL0_UP else DBL.DBL_STAT.DL1_UP) up
  let d := d.mbxLink (d.flag DBL.page DBL.DBL_STAT.DL0_UP || d.flag DBL.page DBL.DBL_STAT.DL1_UP)
  let d := if up && !was && d.flag DBL.page DBL.DBL_STAT.OWNER && d.flag DBL.page DBL.DBL_CFG.ENABLE then
    { d.set DBL.page DBL.DBL_STAT.FULL_COPY 1 with dbl := { d.dbl with needFull := true } } else d
  let lost := !(d.flag DBL.page DBL.DBL_STAT.DL0_UP || d.flag DBL.page DBL.DBL_STAT.DL1_UP) && d.dbl.hand.isSome
  let d := if d.flag DBL.page DBL.DBL_STAT.DL0_UP || d.flag DBL.page DBL.DBL_STAT.DL1_UP then d else
    { d.set DBL.page DBL.DBL_STAT.TWIN_READY 0 with dbl := { d.dbl with accepted := none } }
  let d := if lost then
    (({ d with dbl := { d.dbl with hand := none } } : Dev).set DBL.page DBL.DBL_STAT.HANDOVER_PEND 0).err DBL.page 0x81
      DBL.DBL_CMD.HANDOVER.off else d
  if l = 48 then (d.slotsOf 5 0).foldl (fun d s => if up then d.slotClear s 1 else d.slotFail s 1) d else d

/-- LINK_UP: the port forwards, its held frames go on (R143), a rate other than the Blocker's is reported (R190),
verification starts (R157). -/
def Dev.linkUp (d : Dev) (l : Nat) : Dev :=
  let d := d.raise (LNK.page l) LNK.INT_RAW.LINK_UP
  if 50 ≤ l then d else if 48 ≤ l then d.dblLink l true else
  let d := (d.stampLink l true).raise (PRT.page l) PRT.INT_RAW.LINK_UP
  let d := if d.portUp l then d.holdRelease l else d
  let d := if d.rateAct l != d.get BLK.page BLK.BLK_PORT.RATE l then
    d.raise BLK.page BLK.INT_RAW.RATE_MISMATCH else d
  let d := d.verifyStart l
  (d.slotsOfLane l).foldl (fun d s => d.slotClear s 1) d

/-- LINK_DOWN: what was in transmission is lost (R163), the port-down hold starts (R142), the lane's clock is no source
(R55), preemption and pauses end. -/
def Dev.linkDown (d : Dev) (l : Nat) : Dev :=
  let d := (d.raise (LNK.page l) LNK.INT_RAW.LINK_DOWN).countLane l 29
  if 50 ≤ l then d else if 48 ≤ l then d.dblLink l false else
  let d := (d.stampLink l false).raise (PRT.page l) PRT.INT_RAW.LINK_DOWN
  let d := (d.txAbort l).clearPauses l
  let d := d.verifyStart l
  let d := d.holdStart l (d.flag (PRT.page l) PRT.PORT_STAT.TEST && d.flag (PRT.page l) PRT.PORT_CFG.ENABLE)
  d.disqualifyLane l 1

/-- A change of state with what goes with it: FAULT entries counted, the locks and the latency report kept only where
the link is, LINK_UP and LINK_DOWN. -/
def Dev.enter (d : Dev) (l new : Nat) : Dev :=
  let p := LNK.page l
  let old := d.laneState l
  let d := d.set p LNK.LNK_STATE.STATE new
  let d := if new = laneFault then d.incSat p LNK.LNK_STATE.RETRAIN_CNT else d
  let d := if new = laneUp ∨ new = laneIdle ∨ new = laneWake then d else d.setLatValid l false
  let d := if new = laneBlockLock ∨ linkStates new then d
    else (d.set p LNK.LNK_STATE.PCS_LOCK 0).set p LNK.LNK_STATE.FEC_LOCK 0
  let d := d.set p LNK.LNK_STATE.IDLE_ACT
    (if new = laneIdle then (d.lane l).idleKind else if new = laneWake then 3 else 0)
  let d := if new = laneCdr then d.setLane l { d.lane l with lolOk := false } else d
  let d := if linkStates new then d else d.setLane l { d.lane l with reqSent := 0 }
  if linkStates new && !linkStates old then d.linkUp l
  else if linkStates old && !linkStates new then d.linkDown l
  else d

/-- What a lane's transmitter sends of its own: in a loop-back the table of R60 says what the line carries instead,
but in FABRIC the link is a normal one. For PRBS too (DESIGN CHOICE, log entry 141: R62 says that the transmitter
sends it). -/
def Dev.toLine (d : Dev) (l : Nat) (what : String) (v : Nat) : Dev :=
  let m := d.get (LNK.page l) LNK.LOOP_CFG.MODE
  if m = 0 ∨ m = 5 then d.emit (.line l what v) else d

/-! ### Trims (R50, R51) -/

/-- The trims of R50 with their ranges. -/
def trimRange (i : Nat) : Option (Int × Int) :=
  if i ≤ 4 then some (-128, 127)
  else match i with
    | 0x08 => some (0, 31) | 0x09 => some (0, 63) | 0x0A => some (0, 15) | 0x0B => some (0, 15)
    | 0x0C => some (-32, 31) | 0x0D => some (-32, 31) | _ => none

def signed16 (v : Nat) : Int := if v < 32768 then v else (v : Int) - 65536

/-- A trim set to a code; at an end of its range it is held there and CAL_LIMIT is raised (R51). -/
def Dev.setTrim (d : Dev) (l i : Nat) (v : Int) : Dev :=
  match trimRange i with
  | none => d
  | some (lo, hi) =>
    let v := max lo (min hi v)
    let d := d.set (LNK.page l) LNK.TRIM_VAL.VALUE (toField 16 v) i
    if v = lo ∨ v = hi then d.raise (LNK.page l) LNK.INT_RAW.CAL_LIMIT else d

/-! ### Auto-negotiation (R40) -/

/-- The rates a lane advertises in Clause 73: its fixed rate, or every one it accepts but 1000BASE-X, which Clause 37
has to itself. -/
def Dev.anRates (d : Dev) (l : Nat) : List Nat :=
  let cfg := d.get (LNK.page l) LNK.LNK_CFG.RATE
  (laneRates l).filter (fun r => r != 1 && (cfg == 15 || r == cfg))

/-- The FEC modes a lane asks for at 25GBASE-R: the one of LNK_CFG.FEC, RS-FEC while it detects the rate. -/
def Dev.anAsks (d : Dev) (l : Nat) : List Nat :=
  let p := LNK.page l
  if d.get p LNK.LNK_CFG.RATE = 15 then [2] else
  match d.get p LNK.LNK_CFG.FEC with | 1 => [1] | 2 => [2] | _ => []

/-- What a lane advertises, as one number: a bit per rate code, from bit 8 a bit per FEC mode of R38 at 25GBASE-R,
from bit 16 a bit per FEC mode asked for; 0 for Clause 37, which carries neither. -/
def Dev.anPage (d : Dev) (l : Nat) : Nat :=
  let rs := d.anRates l
  let bits (l : List Nat) : Nat := l.foldl (fun n x => n + 2 ^ x) 0
  let at25 (l : List Nat) : List Nat := if rs.contains 3 then l else []
  bits rs + bits (at25 (rateFecs 3)) * 2 ^ 8 + bits (at25 (d.anAsks l)) * 2 ^ 16

/-- The lane enters AUTONEG and sends its page. -/
def Dev.enterAutoneg (d : Dev) (l : Nat) : Dev :=
  let d := d.enter l laneAutoneg
  d.toLine l "autonegotiation page" (d.anPage l)

/-- The FEC of a resolved rate: where both ends can run a mode and one of them asks for it, RS-FEC before BASE-R FEC. -/
def Dev.anFec (d : Dev) (l rate : Nat) (page : AnPage) : Nat :=
  if rate ≠ 3 then (rateFecs rate).headD 0 else
  let on (f : Nat) : Bool := page.fecs.contains f && (page.asks.contains f || (d.anAsks l).contains f)
  if on 2 then 2 else if on 1 then 1 else 0

/-- The highest rate that both ends advertise. -/
def Dev.anRate (d : Dev) (l : Nat) (page : AnPage) : Option Nat :=
  ((d.anRates l).filter page.rates.contains).foldl (fun b r => some (match b with | some x => max x r | none => r)) none

/-! ### Bringing a link up (R40, R41, R42) -/

/-- A try of the search, or the whole sequence again after the last one. -/
def Dev.enterSearch (d : Dev) (l i : Nat) : Dev :=
  match (searchList l)[i]? with
  | some (rate, fec) =>
    ((d.setLane l { d.lane l with tryIdx := i, fromSearch := true }).setRate l rate fec).enter l laneSearch
  | none =>
    let d := d.setLane l { d.lane l with tryIdx := 0, fromSearch := false }
    if d.media l = 1 then d.enterAutoneg l
    else
      let (rate, fec) := (searchList l).headD (0, 0)
      ((d.setLane l { d.lane l with fromSearch := true }).setRate l rate fec).enter l laneSearch

def Dev.nextTry (d : Dev) (l : Nat) : Dev := d.enterSearch l ((d.lane l).tryIdx + 1)

/-- Training where R40 defines it for the rate, else the CDR. -/
def Dev.toTraining (d : Dev) (l : Nat) : Dev :=
  d.enter l (if d.media l = 0 ∨ d.rateAct l ≤ 1 then laneCdr else laneTraining)

/-- LOS is not asserted in SIGNAL_WAIT: the sequence of R41 or of the fixed rate starts. -/
def Dev.startLink (d : Dev) (l : Nat) : Dev :=
  let p := LNK.page l
  let rate := d.get p LNK.LNK_CFG.RATE
  let d := d.setLane l { d.lane l with tryIdx := 0, fromSearch := false }
  if rate = 15 then
    if d.media l = 1 then d.enterAutoneg l else d.enterSearch l 0
  else
    let d := d.setRate l rate (d.get p LNK.LNK_CFG.FEC)
    if d.media l = 1 then d.enterAutoneg l else d.toTraining l

def Dev.enterSignalWait (d : Dev) (l : Nat) : Dev :=
  let d := d.enter l laneSignalWait
  if d.flag (LNK.page l) LNK.LNK_STATE.LOS then d else d.startLink l

/-- A failure in TRAINING, CDR_ACQUIRE or BLOCK_LOCK. -/
def Dev.laneFail (d : Dev) (l : Nat) : Dev :=
  if (d.lane l).fromSearch then d.nextTry l else d.enter l laneFault

/-- Link-up: BLOCK_LOCK is left for LATENCY_MEASURE. -/
def Dev.toLatency (d : Dev) (l : Nat) : Dev :=
  let d := d.setFlag (LNK.page l) LNK.LNK_STATE.FEC_LOCK (d.get (LNK.page l) LNK.LNK_STATE.FEC_ACT != 0)
  (d.setLane l { d.lane l with fromSearch := false }).enter l laneLatency

/-- PCS block lock: without FEC the lane is done with BLOCK_LOCK. -/
def Dev.blockLocked (d : Dev) (l : Nat) : Dev :=
  let d := (d.enter l laneBlockLock).set (LNK.page l) LNK.LNK_STATE.PCS_LOCK 1
  if d.get (LNK.page l) LNK.LNK_STATE.FEC_ACT = 0 then d.toLatency l else d

/-- A retrain from UP (R43). -/
def Dev.retrain (d : Dev) (l : Nat) : Dev := d.enter l (if d.media l = 0 then laneCdr else laneTraining)

/-- R53: the amplitude is back; both detectors are masked in IDLE and WAKE (R55). -/
def execLosDeassert (lane : Fin 51) (s : State) : Host.Outcome State Fault Refusal :=
  onDev (fun d => d.onLane lane (fun d =>
    let p := LNK.page lane
    let st := d.laneState lane
    if !d.flag p LNK.LNK_STATE.LOS || st == laneIdle || st == laneWake then d else
    let d := (d.set p LNK.LNK_STATE.LOS 0).raise p LNK.INT_RAW.LOS_CHG
    let d := if d.flag p LNK.LNK_STATE.LOL then d else (d.slotsOfLane lane).foldl (fun d s => d.slotClear s 5) d
    if st = laneSignalWait then d.startLink lane else d)) s

/-- R54, R433: three windows within RELOCK_PPM. -/
def execLolClear (lane : Fin 51) (s : State) : Host.Outcome State Fault Refusal :=
  onDev (fun d => d.onLane lane (fun d =>
    let p := LNK.page lane
    let st := d.laneState lane
    if st == laneIdle || st == laneWake then d else
    let d := d.setLane lane { d.lane lane with lolOk := true }
    if !d.flag p LNK.LNK_STATE.LOL then d else
    let d := (d.set p LNK.LNK_STATE.LOL 0).raise p LNK.INT_RAW.LOL_CHG
    if d.flag p LNK.LNK_STATE.LOS then d else (d.slotsOfLane lane).foldl (fun d s => d.slotClear s 5) d)) s

/-- R40, R41: auto-negotiation has the partner's page. In AUTONEG it resolves to the highest rate that both ends
advertise and to the FEC of both ends' abilities and requests; a fixed rate that the partner lacks fails, a detected
one waits for the time-out; at a fixed 1000BASE-X, and in a 1000BASE-X try that has code-group synchronisation, it is
Clause 37, which resolves no rate. -/
def execAutonegResolved (lane : Fin 51) (partner : AnPage) (s : State) : Host.Outcome State Fault Refusal :=
  onDev (fun d => d.onLane lane (fun d =>
    let p := LNK.page lane
    let st := d.laneState lane
    if st = laneAutoneg then
      let cfg := d.get p LNK.LNK_CFG.RATE
      if cfg = 1 then (d.setRate lane 1 0).toTraining lane else
      match d.anRate lane partner with
      | some rate => (d.setRate lane rate (d.anFec lane rate partner)).toTraining lane
      | none => if cfg = 15 then d else d.enter lane laneFault
    else if st == laneSearch && d.rateAct lane == 1 && d.flag p LNK.LNK_STATE.PCS_LOCK then d.blockLocked lane
    else d)) s

/-- R42, R41: 500 ms without resolution. -/
def execAutonegTimeout (lane : Fin 51) (s : State) : Host.Outcome State Fault Refusal :=
  onDev (fun d => d.onLane lane (fun d =>
    let p := LNK.page lane
    let st := d.laneState lane
    if st = laneAutoneg then
      (if d.get p LNK.LNK_CFG.RATE = 15 then d.enterSearch lane 0 else d.enter lane laneFault)
    else if st == laneSearch && d.rateAct lane == 1 && d.flag p LNK.LNK_STATE.PCS_LOCK then d.nextTry lane
    else d)) s

/-- R42: both ends report receiver ready; TX_EQ reads back the trained values, the CTLE trim holds what training set. -/
def execTrainingDone (lane : Fin 51) (coef : TrainedEq) (s : State) : Host.Outcome State Fault Refusal :=
  onDev (fun d => d.inState lane laneTraining (fun d =>
    let p := LNK.page lane
    let d := (d.set p LNK.TX_EQ.PRE coef.pre.toNat).set p LNK.TX_EQ.MAIN coef.main.toNat
    let d := d.set p LNK.TX_EQ.POST coef.post.toNat
    let d := if d.flag p LNK.TRIM_VAL.OVERRIDE 8 then d else d.setTrim lane 8 coef.ctle.toNat
    d.enter lane laneCdr)) s

def execTrainingTimeout (lane : Fin 51) (s : State) : Host.Outcome State Fault Refusal :=
  onDev (fun d => d.inState lane laneTraining (·.laneFail lane)) s

/-- R433: frequency and phase lock, with LOL clear since the entry. -/
def execCdrLocked (lane : Fin 51) (s : State) : Host.Outcome State Fault Refusal :=
  onDev (fun d => d.inState lane laneCdr (fun d =>
    d.when (!d.flag (LNK.page lane) LNK.LNK_STATE.LOL && (d.lane lane).lolOk) (·.enter lane laneBlockLock))) s

def execCdrAcquireTimeout (lane : Fin 51) (s : State) : Host.Outcome State Fault Refusal :=
  onDev (fun d => d.inState lane laneCdr (·.laneFail lane)) s

/-- R41, R42: PCS block lock, in BLOCK_LOCK or in a try; a 1000BASE-X try with MEDIA = 0b01 first runs Clause 37. -/
def execBlockLockAchieved (lane : Fin 51) (s : State) : Host.Outcome State Fault Refusal :=
  onDev (fun d => d.onLane lane (fun d =>
    let st := d.laneState lane
    if st = laneBlockLock then d.blockLocked lane
    else if st = laneSearch then
      (if d.rateAct lane = 1 ∧ d.media lane = 1 then d.set (LNK.page lane) LNK.LNK_STATE.PCS_LOCK 1
       else d.blockLocked lane)
    else d)) s

/-- R42: FEC alignment completes after block lock; the link comes up. -/
def execFecAligned (lane : Fin 51) (s : State) : Host.Outcome State Fault Refusal :=
  onDev (fun d => d.inState lane laneBlockLock (fun d =>
    d.when (d.flag (LNK.page lane) LNK.LNK_STATE.PCS_LOCK) (·.toLatency lane))) s

def execBlockLockTimeout (lane : Fin 51) (s : State) : Host.Outcome State Fault Refusal :=
  onDev (fun d => d.inState lane laneBlockLock (·.laneFail lane)) s

/-- The gearbox unit in ps as a fraction (R46). -/
def gearboxUnit (rate : Nat) : Nat × Nat :=
  match rate with | 1 => (800, 1) | 2 => (3200, 33) | 3 => (1280, 33) | 4 => (640, 17) | _ => (320, 17)

/-- The digital bases of R46, receive and transmit, in ps. -/
def latBase (rate fec : Nat) : Nat × Nat :=
  match rate, fec with
  | 1, _ => (295980, 215985)
  | 2, _ => (78380, 55985)
  | 3, 0 => (40980, 29985)
  | 3, 1 => (125980, 33985)
  | 3, _ => (251980, 37985)
  | 4, _ => (149980, 39985)
  | _, _ => (95980, 29985)

/-- An option store trim (R363) by its OFFSET, in ps. -/
def Dev.trim (d : Dev) (off : Nat) : Int := tget (fun _ => 0) d.trims off

/-- The sum of R46, rounded to the nearest picosecond. -/
def latencySum (base gb : Nat) (a : Int) (unit : Nat × Nat) : Nat :=
  ((2 * (((base : Int) + a) * unit.2 + gb * unit.1) + unit.2) / (2 * unit.2)).toNat

/-- The largest gearbox position of R46. -/
def gearboxMax (rate : Nat) : Nat := match rate with | 1 => 9 | 4 => 67 | 5 => 135 | _ => 65

/-- Whether a measurement lies within R46: the gearbox positions, and the analogue terms of 20 to 50 ps and 15 to 40
ps. -/
def latFits (rate : Nat) (m : LatMeas) : Bool :=
  m.gbRx ≤ gearboxMax rate && m.gbTx ≤ gearboxMax rate && 20 ≤ m.aRx && m.aRx ≤ 50 && 15 ≤ m.aTx && m.aTx ≤ 40

/-- An analogue term, its option store trim (R363) included, as the 8 bits of LAT_DETAIL show it: one that they cannot
hold is shown as the nearest value that they can (DESIGN CHOICE, log entry 142). -/
def termByte (a : Int) : Nat := (max 0 (min 255 a)).toNat

/-- R45 to R47: both latencies are measured, within the ranges of R46 (no lane measures another); the report is valid
and the lane is UP. -/
def execLatencyMeasured (lane : Fin 51) (meas : LatMeas) (s : State) : Host.Outcome State Fault Refusal :=
  onDev (fun d => d.inState lane laneLatency (fun d => d.when (latFits (d.rateAct lane) meas) (fun d =>
    let p := LNK.page lane
    let rate := d.rateAct lane
    let base := latBase rate (d.get p LNK.LNK_STATE.FEC_ACT)
    let d := (d.set p LNK.LAT_DETAIL.GB_RX meas.gbRx).set p LNK.LAT_DETAIL.GB_TX meas.gbTx
    let aRx := (meas.aRx : Int) + d.trim lane
    let aTx := (meas.aTx : Int) + d.trim (0x40 + lane)
    let d := (d.set p LNK.LAT_DETAIL.A_RX_PS (termByte aRx)).set p LNK.LAT_DETAIL.A_TX_PS (termByte aTx)
    let d := d.set p LNK.RX_LAT.LAT_PS (latencySum base.1 meas.gbRx aRx (gearboxUnit rate))
    let d := d.set p LNK.TX_LAT.LAT_PS (latencySum base.2 meas.gbTx aTx (gearboxUnit rate))
    let d := (d.incWrap p LNK.RX_LAT.SEQ).set p LNK.TX_LAT.SEQ (d.get p LNK.RX_LAT.SEQ + 1)
    ((d.enter lane laneUp).setLatValid lane true).raise p LNK.INT_RAW.LAT_NEW))) s

def execLatencyMeasureTimeout (lane : Fin 51) (s : State) : Host.Outcome State Fault Refusal :=
  onDev (fun d => d.inState lane laneLatency (·.enter lane laneFault)) s

/-- R41: 50 ms of a try are over and the next one begins. A 1000BASE-X try whose Clause 37 runs is ended too, although
the 500 ms of AUTONEG have not passed (DESIGN CHOICE, log entry 109: the rule gives both limits and no order). -/
def execRateSearchTryTimeout (lane : Fin 51) (s : State) : Host.Outcome State Fault Refusal :=
  onDev (fun d => d.inState lane laneSearch (·.nextTry lane)) s

/-- R41: the partner's training frames arrive within a try whose rate has training. -/
def execTrainingFramesDetected (lane : Fin 51) (s : State) : Host.Outcome State Fault Refusal :=
  onDev (fun d => d.inState lane laneSearch (fun d =>
    d.when (d.media lane != 0 && 1 < d.rateAct lane) (·.enter lane laneTraining))) s

/-- R42: 10 ms in FAULT. -/
def execFaultTimeout (lane : Fin 51) (s : State) : Host.Outcome State Fault Refusal :=
  onDev (fun d => d.inState lane laneFault (·.enterSignalWait lane)) s

def execRemoteFault (lane : Fin 51) (s : State) : Host.Outcome State Fault Refusal :=
  onDev (fun d => d.inState lane laneUp (·.retrain lane)) s

/-- R43: ADAPT_CTRL.RETRAIN, which clears itself. -/
def execRetrain (acc : Accessor) (lane : Fin 51) (s : State) : Host.Outcome State Fault Refusal :=
  onDev (fun d => d.asOwner acc (LNK.page lane) LNK.ADAPT_CTRL.RETRAIN.off (·.inState lane laneUp (·.retrain lane))
    LNK.ADAPT_CTRL.RETRAIN.strike) s

/-- R43: the block aligner reports a change of alignment. -/
def execBlockAlignerShift (lane : Fin 51) (s : State) : Host.Outcome State Fault Refusal :=
  onDev (fun d => d.inState lane laneUp (·.enter lane laneLatency)) s

/-! ### Idle (R56 to R59) -/

/-- Nothing waits at a port: no queued frame, no launch, none in transmission. -/
def Dev.egressEmpty (d : Dev) (port : Nat) : Bool :=
  (d.voqsTo port).all (fun v => (d.voq v).all.isEmpty) && (d.launchOf port).isEmpty
    && (d.output port).tx.isNone && (d.output port).preempted.isNone

/-- Whether a lane may enter its configured idle mode now. -/
def Dev.mayIdle (d : Dev) (l : Nat) : Bool :=
  l < 48 && 2 ≤ d.rateAct l && d.get (LNK.page l) LNK.IDLE_CFG.MODE != 0
    && !d.flag (PRT.page l) PRT.PORT_STAT.IDLE_BLOCKED && d.egressEmpty l

/-- Both ends enter idle. -/
def Dev.enterIdle (d : Dev) (l kind : Nat) : Dev :=
  let d := d.setLane l { d.lane l with reqSent := 0, idleKind := kind, refreshAt := d.now }
  let d := (d.enter l laneIdle).countLane l 30
  if kind = 2 then d.setLatValid l false else d

/-- R57: an ordered set of the idle protocol, a control block of type 0x4B with O code 0xD and 24 bits of data, in this
order. -/
def idleSet (lane data : Nat) : Output := .line lane "control block" (0x4B * 2 ^ 28 + 0xD * 2 ^ 24 + data)

/-- R57: eight idle-entry request ordered sets. -/
def execIdleEntryDelayExpiry (lane : Fin 51) (s : State) : Host.Outcome State Fault Refusal :=
  onDev (fun d => d.inState lane laneUp (fun d => d.when (d.mayIdle lane) (fun d =>
    let kind := d.get (LNK.page lane) LNK.IDLE_CFG.MODE
    (List.range 8).foldl (fun d _ => d.emit (idleSet lane (0x1D1E00 + kind)))
      (d.setLane lane { d.lane lane with reqSent := kind })))) s

/-- R57: the partner's request; a port whose own mode is another, or with a frame ready, sends no reply. The reply is
one output; how many ordered sets it takes the rule does not say. -/
def execIdleRequestReceived (lane : Fin 51) (deep : Bool) (s : State) : Host.Outcome State Fault Refusal :=
  onDev (fun d => d.inState lane laneUp (fun d =>
    let kind := if deep then 2 else 1
    d.when (d.mayIdle lane && d.get (LNK.page lane) LNK.IDLE_CFG.MODE == kind) (fun d =>
      (d.emit (idleSet lane (0x1D1E80 + kind))).enterIdle lane kind))) s

/-- R57: the partner's reply to the kind that was asked for. -/
def execIdleReplyReceived (lane : Fin 51) (deep : Bool) (s : State) : Host.Outcome State Fault Refusal :=
  onDev (fun d => d.inState lane laneUp (fun d =>
    let kind := if deep then 2 else 1
    d.when ((d.lane lane).reqSent == kind) (·.enterIdle lane kind))) s

/-- R57: 10 µs without a reply; the port stays UP. -/
def execIdleReplyTimeout (lane : Fin 51) (s : State) : Host.Outcome State Fault Refusal :=
  onDev (fun d => d.inState lane laneUp (fun d => d.setLane lane { d.lane lane with reqSent := 0 })) s

/-- The exit from idle begins. -/
def Dev.wake (d : Dev) (l : Nat) : Dev :=
  if d.laneState l = laneIdle then (d.enter l laneWake).emit (.line l "wake burst" 0) else d

/-- R57: a queued frame, the partner's wake burst or a scheduled wake. -/
def execWakeTrigger (lane : Fin 51) (s : State) : Host.Outcome State Fault Refusal :=
  onDev (fun d => d.onLane lane (·.wake lane)) s

/-- R56: the first bit may be sent. After IDLE-DEEP, and where the boundary has moved, latency is measured again. -/
def execWakeComplete (lane : Fin 51) (shifted : Bool) (s : State) : Host.Outcome State Fault Refusal :=
  onDev (fun d => d.inState lane laneWake (fun d =>
    d.enter lane (if shifted || (d.lane lane).idleKind == 2 then laneLatency else laneUp))) s

/-- R58: an exit not completed within its limit. -/
def execWakeTimeout (lane : Fin 51) (s : State) : Host.Outcome State Fault Refusal :=
  onDev (fun d => d.inState lane laneWake (fun d =>
    (d.enter lane laneFault).raise (LNK.page lane) LNK.INT_RAW.IDLE_FAIL)) s

/-- R58: a 64 ns refresh burst. -/
def execRefreshBurstSend (lane : Fin 51) (s : State) : Host.Outcome State Fault Refusal :=
  onDev (fun d => d.inState lane laneIdle (·.emit (.line lane "refresh burst" 64))) s

/-- R58: the partner's refresh burst. -/
def execRefreshBurstReceived (lane : Fin 51) (s : State) : Host.Outcome State Fault Refusal :=
  onDev (fun d => d.inState lane laneIdle (fun d => d.setLane lane { d.lane lane with refreshAt := d.now })) s

/-- R58: no refresh burst for 3 ms. -/
def execRefreshMissing (lane : Fin 51) (s : State) : Host.Outcome State Fault Refusal :=
  onDev (fun d => d.inState lane laneIdle (fun d =>
    d.when ((d.lane lane).refreshAt + 3000000 * nsU ≤ d.now) (fun d =>
      (d.enter lane laneFault).raise (LNK.page lane) LNK.INT_RAW.IDLE_FAIL))) s

/-- R59, R179: a port in IDLE-FAST is woken before a gate window opens or a launch falls due. -/
def execGclWakePort (port : Fin 48) (s : State) : Host.Outcome State Fault Refusal :=
  onDev (fun d => d.inState port laneIdle (fun d => d.when ((d.lane port).idleKind == 1) (·.wake port))) s

/-! ### PRBS (R62) -/

/-- The pattern goes out: its code, + 8 inverted, + 16 Gray-coded into PAM4 symbols. -/
def Dev.sendPrbs (d : Dev) (l : Nat) : Dev :=
  let p := LNK.page l
  d.toLine l "PRBS" (d.get p LNK.PRBS_CFG.PATTERN + 8 * d.get p LNK.PRBS_CFG.INVERT
    + (if 4 ≤ d.rateAct l then 16 else 0))

/-- The lane enters PRBS and sends the pattern. -/
def Dev.enterPrbs (d : Dev) (l : Nat) : Dev := (d.enter l lanePrbs).sendPrbs l

/-- PRBS_CFG.GEN_EN = 1: in OFF the generator waits. -/
def execPrbsGenEnable (acc : Accessor) (lane : Fin 51) (s : State) : Host.Outcome State Fault Refusal :=
  onDev (fun d => d.asOwner acc (LNK.page lane) LNK.PRBS_CFG.GEN_EN.off (fun d =>
    let d := d.set (LNK.page lane) LNK.PRBS_CFG.GEN_EN 1
    if d.laneState lane = laneOff then d else d.enterPrbs lane)
    [(LNK.PRBS_CFG.GEN_EN.off, d.rd (LNK.page lane) LNK.PRBS_CFG.GEN_EN.off ||| LNK.PRBS_CFG.GEN_EN.mask)]) s

def execPrbsGenDisable (acc : Accessor) (lane : Fin 51) (s : State) : Host.Outcome State Fault Refusal :=
  onDev (fun d => d.asOwner acc (LNK.page lane) LNK.PRBS_CFG.GEN_EN.off (fun d =>
    let d := d.set (LNK.page lane) LNK.PRBS_CFG.GEN_EN 0
    if d.laneState lane = lanePrbs then d.enterSignalWait lane else d)
    [(LNK.PRBS_CFG.GEN_EN.off, d.rd (LNK.page lane) LNK.PRBS_CFG.GEN_EN.off &&& ~~~LNK.PRBS_CFG.GEN_EN.mask)]) s

/-- One generated bit is inverted. -/
def execPrbsErrInject (acc : Accessor) (lane : Fin 51) (s : State) : Host.Outcome State Fault Refusal :=
  onDev (fun d => d.asOwner acc (LNK.page lane) LNK.PRBS_CFG.ERR_INJECT.off (fun d =>
    d.when (d.laneState lane == lanePrbs) (·.toLine lane "inverted bit" 1))
    [(LNK.PRBS_CFG.GEN_EN.off, d.rd (LNK.page lane) LNK.PRBS_CFG.GEN_EN.off ||| LNK.PRBS_CFG.ERR_INJECT.mask)]) s

def Dev.prbsClear (d : Dev) (l : Nat) : Dev :=
  let p := LNK.page l
  let d := (d.set p LNK.PRBS_ERR.ERR_CNT 0).set p LNK.PRBS_BITS.BIT_CNT 0
  (d.setLane l { d.lane l with prbsBits := 0 }).set p LNK.PRBS_STAT.SAT 0

def execPrbsClear (acc : Accessor) (lane : Fin 51) (s : State) : Host.Outcome State Fault Refusal :=
  onDev (fun d => d.asOwner acc (LNK.page lane) LNK.PRBS_CFG.CLR.off (·.prbsClear lane)
    [(LNK.PRBS_CFG.GEN_EN.off, d.rd (LNK.page lane) LNK.PRBS_CFG.GEN_EN.off ||| LNK.PRBS_CFG.CLR.mask)]) s

/-- 256 consecutive correct bits. -/
def execPrbsCheckerLock (lane : Fin 51) (s : State) : Host.Outcome State Fault Refusal :=
  onDev (fun d => d.onLane lane (fun d => d.when (d.flag (LNK.page lane) LNK.PRBS_CFG.CHK_EN)
    (·.set (LNK.page lane) LNK.PRBS_STAT.LOCK 1))) s

/-- R62: what the locked checker compared in a window of up to 65,536 bits: the errors and the bits are counted, and
more than 1,024 errors end the lock. The row names the loss; the windows before it come by the same command (DESIGN
CHOICE, log entry 110). -/
def execPrbsCheckerLoss (lane : Fin 51) (errors bits : Nat) (s : State) : Host.Outcome State Fault Refusal :=
  onDev (fun d => d.onLane lane (fun d =>
    let p := LNK.page lane
    d.when (d.flag p LNK.PRBS_STAT.LOCK) (fun d =>
      let total := d.get p LNK.PRBS_ERR.ERR_CNT + errors
      let d := d.incSat p LNK.PRBS_ERR.ERR_CNT (n := errors)
      let d := if 0xFFFFFFFF ≤ total then d.set p LNK.PRBS_STAT.SAT 1 else d
      let b := (d.lane lane).prbsBits + bits
      let d := d.incWrap p LNK.PRBS_BITS.BIT_CNT (n := b / 2 ^ 20)
      let d := d.setLane lane { d.lane lane with prbsBits := b % 2 ^ 20 }
      let d := if 1024 < errors then d.set p LNK.PRBS_STAT.LOCK 0 else d
      if errors = 0 then d else d.raise p LNK.INT_RAW.PRBS_ERR))) s

/-! ### Trims, eye and phase (R48 to R52) -/

/-- Whether background calibration or adaptation may move a trim now (R50, R51, the freezes of ADAPT_CTRL). -/
def Dev.trimMoves (d : Dev) (l i : Nat) : Bool :=
  let p := LNK.page l
  let pam4 := 4 ≤ d.rateAct l
  !d.flag p LNK.TRIM_VAL.OVERRIDE i &&
    (if i ≤ 4 || i == 0x0C || i == 0x0D then
      !d.flag p LNK.ADAPT_CTRL.CAL_FREEZE && (pam4 || (i != 0 && i != 2))
     else if i == 8 || i == 9 then !d.flag p LNK.ADAPT_CTRL.CTLE_FREEZE
     else false)

/-- The DFE tap fields, tap 1 first. -/
def dfeTap (n : Nat) : Field :=
  (match n % 4 with
    | 0 => LNK.DFE_TAP.TAP_A | 1 => LNK.DFE_TAP.TAP_B | 2 => LNK.DFE_TAP.TAP_C | _ => LNK.DFE_TAP.TAP_D).nth (n / 4)

/-- One step of 1 LSB: `i` below 16 names a trim of R50, 16 to 27 the DFE taps 1 to 12. -/
def Dev.calStep (d : Dev) (l i : Nat) (up : Bool) : Dev :=
  let by_ : Int := if up then 1 else -1
  if i < 16 then
    (if d.trimMoves l i then d.setTrim l i (signed16 (d.get (LNK.page l) LNK.TRIM_VAL.VALUE i) + by_) else d)
  else if 28 ≤ i || d.flag (LNK.page l) LNK.ADAPT_CTRL.DFE_FREEZE then d
  else
    let f := dfeTap (i - 16)
    d.set (LNK.page l) f (toField 8 (max (-128) (min 127 (d.getInt (LNK.page l) f + by_))))

/-- R50: every 1 ms each trim whose counts are out of balance moves 1 LSB; `dirs` names them and the direction. In idle
they hold their values (R56). -/
def execBackgroundCalStep (lane : Fin 51) (dirs : List (Nat × Bool)) (s : State) : Host.Outcome State Fault Refusal :=
  onDev (fun d => d.onLane lane (fun d =>
    let st := d.laneState lane
    d.when ((3 ≤ st && st ≤ 7) || st == laneSearch || st == lanePrbs)
      (fun d => dirs.foldl (fun d x => d.calStep lane x.1 x.2) d))) s

/-- R52: the eye monitor's sweep of 10 ms; it is off in OFF and in IDLE-DEEP. -/
def execEyeRefresh (lane : Fin 51) (height : BitVec 10) (width : BitVec 8) (worst : BitVec 2) (s : State) :
    Host.Outcome State Fault Refusal :=
  onDev (fun d => d.onLane lane (fun d =>
    let st := d.laneState lane
    d.when (st != laneOff && !(st == laneIdle && (d.lane lane).idleKind == 2)) (fun d =>
      let p := LNK.page lane
      let d := (d.set p LNK.EYE.WIDTH width.toNat).set p LNK.EYE.HEIGHT height.toNat
      (d.set p LNK.EYE.WORST_EYE (if 4 ≤ d.rateAct lane then worst.toNat else 0)).incWrap p LNK.EYE.REFRESH))) s

/-- Whether PCS block lock and, where the rate has FEC, FEC alignment hold (R434). -/
def Dev.pcsAligned (d : Dev) (l : Nat) : Bool :=
  let p := LNK.page l
  d.flag p LNK.LNK_STATE.PCS_LOCK && (d.get p LNK.LNK_STATE.FEC_ACT == 0 || d.flag p LNK.LNK_STATE.FEC_LOCK)

/-- R434: the PCS and FEC events n = 24 to 26 of R369 count while lock and alignment hold. -/
def Dev.countPcs (d : Dev) (l : Nat) (c : PcsCount) : Dev :=
  if !d.pcsAligned l then d
  else ((d.countLane l 24 c.corrected).countLane l 25 c.uncorrectable).countLane l 26 c.blocks

/-- R48: the phase detector's snapshot, once every 1 µs. The table has no row for a codeword or a block, so the snapshot
also brings what the PCS and the FEC counted since the one before it (DESIGN CHOICE, log entry 111). -/
def execPdPhaseRefresh (lane : Fin 51) (phase : BitVec 16) (pcs : PcsCount) (s : State) :
    Host.Outcome State Fault Refusal :=
  onDev (fun d => d.onLane lane (fun d =>
    (d.set (LNK.page lane) LNK.PD_PHASE.PHASE phase.toNat).countPcs lane pcs)) s

/-- A write of TRIM_VAL by an accessor: the trim its TRIM_SEL names takes the code, and OVERRIDE holds it (R51). A code
outside the trim's range is discarded with 0x08 (R399); an index that names no trim has nothing to write. -/
def Dev.trimWrite (d : Dev) (acc : Accessor) (l : Nat) (v : Word) : Dev :=
  let p := LNK.page l
  let i := d.get p LNK.TRIM_SEL.INDEX acc.idx
  match trimRange i with
  | none => d
  | some (lo, hi) =>
    let code := signed16 (getBits v 0 16)
    if code < lo ∨ hi < code then d.err p 0x08 LNK.TRIM_VAL.VALUE.off
    else (d.setTrim l i code).set p LNK.TRIM_VAL.OVERRIDE (getBits v 31 1) i

def execTrimValWrite (acc : Accessor) (lane : Fin 51) (value : BitVec 32) (s : State) :
    Host.Outcome State Fault Refusal :=
  onDev (fun d => d.asOwner acc (LNK.page lane) LNK.TRIM_VAL.VALUE.off (·.trimWrite acc lane value)
    [(LNK.TRIM_VAL.VALUE.off, value)]) s

/-! ### The COMMIT of a LNK page (R39, R44, R53, R54, R59, R61) -/

def Dev.lnkRules (d : Dev) (l : Nat) : List Rule :=
  let p := LNK.page l
  let sh (f : Field) : Nat := d.getSh .lnk p f
  let rate := sh LNK.LNK_CFG.RATE
  let mode := sh LNK.IDLE_CFG.MODE
  let tc7 : Bool := l < 48 && d.flag (PRT.page l) PRT.PORT_CFG.TC7_EN
  [ (rate == 0 || (5 < rate && rate < 15) || sh LNK.LNK_CFG.MEDIA == 3, 0x08, LNK.LNK_CFG.RATE.off),
    (rate != 15 && !((laneRates l).contains rate && (rateFecs rate).contains (sh LNK.LNK_CFG.FEC)), 0x09,
      LNK.LNK_CFG.RATE.off),
    d.ruleRange .lnk p LNK.LOS_CFG.ASSERT_LVL 2 20,
    d.ruleRange .lnk p LNK.LOS_CFG.DEASSERT_LVL 2 20,
    (sh LNK.LOS_CFG.DEASSERT_LVL ≤ sh LNK.LOS_CFG.ASSERT_LVL, 0x09, LNK.LOS_CFG.ASSERT_LVL.off),
    d.ruleRange .lnk p LNK.LOL_CFG.UNLOCK_PPM 1 1000,
    (sh LNK.LOL_CFG.UNLOCK_PPM ≤ sh LNK.LOL_CFG.RELOCK_PPM, 0x09, LNK.LOL_CFG.UNLOCK_PPM.off),
    d.ruleRange .lnk p LNK.TX_EQ.PRE 0 16,
    d.ruleRange .lnk p LNK.TX_EQ.MAIN 24 64,
    d.ruleRange .lnk p LNK.TX_EQ.POST 0 24,
    (64 < sh LNK.TX_EQ.PRE + sh LNK.TX_EQ.MAIN + sh LNK.TX_EQ.POST, 0x08, LNK.TX_EQ.PRE.off),
    (mode == 3 || (mode != 0 && (48 ≤ l || rate == 1)), 0x08, LNK.IDLE_CFG.MODE.off),
    (mode == 2 && tc7, 0x0A, LNK.IDLE_CFG.MODE.off),
    d.ruleRange .lnk p LNK.IDLE_CFG.ENTRY_DELAY 1 65535,
    (mode != 0 && sh LNK.LOOP_CFG.MODE != 0, 0x08, LNK.LOOP_CFG.MODE.off) ]

/-- Whether a LNK COMMIT restarts the link: any of the four registers changed (R44). -/
def lnkRestarts (before d : Dev) (l : Nat) : Bool :=
  [LNK.LNK_CFG.RATE.off, LNK.TX_EQ.PRE.off, LNK.IDLE_CFG.MODE.off, LNK.LOOP_CFG.MODE.off].any
    (fun off => before.rd (LNK.page l) off != d.rd (LNK.page l) off)

/-- Whether DOZE keeps a lane up (DOZE_LANES, R359). -/
def Dev.dozeKeeps (d : Dev) (l : Nat) : Bool :=
  if l < 32 then (d.get GLB.page GLB.DOZE_LANES_LO.LANES).testBit l
  else (d.get GLB.page GLB.DOZE_LANES_HI.LANES).testBit (l - 32)

/-- Whether a lane is OFF for the length of DOZE (R359), or of KEEP's entry (R360). -/
def Dev.powerOff (d : Dev) (l : Nat) : Bool :=
  d.flag GLB.page GLB.PWR_STAT.CHANGING || (d.get GLB.page GLB.PWR_STAT.STATE == 1 && !d.dozeKeeps l)

/-- The effects of a LNK COMMIT: ENABLE, a loop-back's TEST mark and its hold (R142), LINK_RESTART; a lane that DOZE
turned off stays OFF. -/
def Dev.lnkEffect (l : Nat) (before d : Dev) : Dev :=
  let p := LNK.page l
  let loop := d.get p LNK.LOOP_CFG.MODE != 0
  let d := if l < 48 then
      let d := d.setFlag (PRT.page l) PRT.PORT_STAT.TEST loop
      if loop && before.get p LNK.LOOP_CFG.MODE == 0 then d.holdStart l true
      else if d.holdOn l then { d with holdLoop := tset (fun _ => false) d.holdLoop l loop } else d
    else d
  let d := if l < 48 then (d.refreshIdle l).refreshSoft l else d
  let st := d.laneState l
  if !d.flag p LNK.LNK_CFG.ENABLE then (if st = laneOff then d else d.enter l laneOff)
  else if st = laneOff then
    (if d.powerOff l then d else if d.flag p LNK.PRBS_CFG.GEN_EN then d.enterPrbs l else d.enterSignalWait l)
  else if lnkRestarts before d l then d.enterSignalWait l
  else d

def Dev.commitLnk (d : Dev) (l : Nat) : Dev := d.commitBy (LNK.page l) (d.lnkRules l) (Dev.lnkEffect l)

/-! ### The COMMIT of a PRT page (R139, R59, R161, R432) -/

def Dev.prtRules (d : Dev) (o : Nat) : List Rule :=
  let p := PRT.page o
  let sh (f : Field) : Nat := d.getSh .prt p f
  let off := PRT.PORT_CFG.MAX_FRAME.off
  let tc7 : Bool := sh PRT.PORT_CFG.TC7_EN == 1
  [ d.ruleRange .prt p PRT.PORT_CFG.MAX_FRAME 64 (d.bufSize 3),
    (128 ≤ sh PRT.PORT_CFG.PFC_EN, 0x08, off),
    (sh PRT.PORT_CFG.FC_MODE == 3 || (sh PRT.PORT_CFG.FC_MODE == 2 && sh PRT.PORT_CFG.PFC_EN == 0), 0x08, off),
    (tc7 && sh PRT.PORT_CFG.FC_MODE == 1, 0x0A, off),
    (tc7 && d.get (LNK.page o) LNK.IDLE_CFG.MODE == 2, 0x0A, off),
    (sh PRT.PORT_CFG.MAX_FRAME < d.get SCH.page SCH.PORT_SCH.TC6_MAX o, 0x0A, off) ]

/-- The effects of a PRT COMMIT: ENABLE going to 0 starts the port-down hold, also of a port whose link is down (R142;
one that leaves it 0 starts none: DEDUCED, log entry 128), enabling a port that is up ends it. -/
def Dev.prtEffect (o : Nat) (before d : Dev) : Dev :=
  let was := before.portUp o
  let d := (d.refreshPFrag o).rebalance
  if before.flag (PRT.page o) PRT.PORT_CFG.ENABLE && !d.flag (PRT.page o) PRT.PORT_CFG.ENABLE then d.holdStart o false
  else if !was && d.portUp o then d.holdRelease o
  else d

def Dev.commitPrt (d : Dev) (o : Nat) : Dev := d.commitBy (PRT.page o) (d.prtRules o) (Dev.prtEffect o)

end Sys2Proof.Machine
end

