-- ==== Sys2Proof/Machine/Felt.lean ====
section
/-!
DEFINITION. Machine/Felt.lean: pace monitors, the under-pace alarm and the supply loop (R71 to R75), the crossings
between Felt and the islands: stopped clocks, the compatibility time-out, resets and resynchronization (R76 to R83).
-/
namespace Sys2Proof.Machine

/-! ### Pace (R71, R72) -/

/-- The lowest reading and the monitor that gave it, the lower index among equals. -/
def minReading (l : List (BitVec 10)) : Nat × Nat :=
  l.zipIdx.foldl (fun m e => if e.1.toNat < m.1 then (e.1.toNat, e.2) else m) (1023, 0)

/-- The readings as the registers show them. -/
def Dev.showPace (d : Dev) (l : List (BitVec 10)) : Dev :=
  l.zipIdx.foldl (fun d e => d.set FAB.page
    ((if e.2 % 2 = 0 then FAB.PACE.PACE_EVEN else FAB.PACE.PACE_ODD).nth (e.2 / 2)) e.1.toNat) d

/-- UNDER_PACE_ALARM and PACE_ALARM_CLEAR. The record of the alarm carries the time of its first reading (R202). -/
def Dev.paceAlarm (d : Dev) (m : Nat) : Dev :=
  let floor := d.get FAB.page FAB.PACE_CFG.FLOOR
  let p := d.pace
  let p := if m < floor then { p with low := min (p.low + 1) 4, lowAt := if p.low = 0 then d.now else p.lowAt }
    else { p with low := 0 }
  let p := { p with ok := if floor + 5 ≤ m then min (p.ok + 1) 1000 else 0 }
  let d := { d with pace := p }
  let under := d.flag FAB.page FAB.PACE_STAT.UNDER
  if !under && p.low == 4 then
    let d := ((d.set FAB.page FAB.PACE_STAT.UNDER 1).raise FAB.page FAB.INT_RAW.UNDER_PACE).count 0x782
    d.record 0x026 0x06 (m * 2 ^ 16 + 1) (time := p.lowAt)
  else if under && p.ok == 1000 then
    let d := (d.set FAB.page FAB.PACE_STAT.UNDER 0).raise FAB.page FAB.INT_RAW.PACE_OK
    d.record 0x026 0x06 (m * 2 ^ 16)
  else d

/-- What a reading's MIN does to the loop's period and to the run of readings that the pace check looks at (R73, R75).
-/
def Pace.read (p : Pace) (m target : Nat) : Pace :=
  { p with
    periodMin := some (match p.periodMin with | some x => min x m | none => m)
    good := if target ≤ m then min (p.good + 1) 100 else 0 }

/-- R71: the 16 readings of one microsecond, before Felt's release too, whose pace check looks at them (R75). -/
def execPaceReading (readings : List (BitVec 10)) (s : State) : Host.Outcome State Fault Refusal :=
  onDev (fun d => d.when (readings.length == 16) (fun d =>
    let (m, i) := minReading readings
    let d := d.showPace readings
    let d := (d.set FAB.page FAB.PACE_STAT.MIN m).set FAB.page FAB.PACE_STAT.MIN_IDX i
    let d := if d.released unitFelt && decide (m < d.get FAB.page FAB.PACE_STAT.LOW) then
      d.set FAB.page FAB.PACE_STAT.LOW m else d
    ({ d with pace := d.pace.read m (d.get FAB.page FAB.PACE_CFG.TARGET) } : Dev).paceAlarm m)) s

/-- R71: PACE_STAT.LOW_CLR sets LOW to the current MIN. -/
def execPaceLowClr (acc : Accessor) (s : State) : Host.Outcome State Fault Refusal :=
  onDev (fun d => d.asOwner acc FAB.page FAB.PACE_STAT.LOW_CLR.off (fun d =>
    d.set FAB.page FAB.PACE_STAT.LOW (d.get FAB.page FAB.PACE_STAT.MIN)) FAB.PACE_STAT.LOW_CLR.strike) s

/-! ### The supply loop (R73, R74) -/

/-- STEP in units of 0.01 mV. -/
def avsStep (code : Nat) : Nat := match code with | 0 => 125 | 1 => 250 | _ => 500

/-- A regulator command (R73, R408): to rail 0 on AVSBus, to PMB_ADDR on PMBus; with MODE = 0b00 nothing is written. -/
def Dev.regulate (d : Dev) (v : Nat) : Dev :=
  match d.get FAB.page FAB.AVS_CFG.MODE with
  | 1 => d.emit (.regulator false 0 0 v)
  | 2 => d.emit (.regulator true (d.get FAB.page FAB.AVS_CFG.PMB_ADDR) d.pace.voutMode v)
  | _ => d

/-- The loop starts (R73 to R75): on PMBus it first reads the regulator's VOUT_MODE, which is a free value (log entry
113). -/
def Dev.loopStart (d : Dev) : Dev :=
  if d.get FAB.page FAB.AVS_CFG.MODE = 2 then
    let (k, d) := d.free
    { d with pace := { d.pace with voutMode := k % 256 } }
  else d

/-- R73: one run of the loop, over the lowest reading since the last; nothing is done while the protocol holds, the loop
is stopped or a write waits. AT_VMAX follows R74's sentence, which asks for p below TARGET beside v at VMAX, where the
register's table names the voltage alone; AVS_LIMIT is raised as AT_VMAX sets (both DESIGN CHOICE, log entry 130). -/
def execAvsLoopRun (s : State) : Host.Outcome State Fault Refusal :=
  onDev (fun d =>
    let a := d.pace
    match a.periodMin with
    | none => d
    | some p =>
      let d : Dev := { d with pace := { a with periodMin := none } }
      if d.get FAB.page FAB.AVS_CFG.MODE == 0 || d.flag FAB.page FAB.AVS_STAT.FAIL || a.waiting then d else
      let floor := d.get FAB.page FAB.PACE_CFG.FLOOR
      let target := d.get FAB.page FAB.PACE_CFG.TARGET
      let hyst := d.get FAB.page FAB.PACE_CFG.HYST
      let step := avsStep (d.get FAB.page FAB.AVS_CFG.STEP)
      let vmax := 100 * d.get FAB.page FAB.AVS_LIMIT.VMAX
      let vmin := 100 * d.get FAB.page FAB.AVS_LIMIT.VMIN
      let v := if p < floor then min (a.v + 4 * step) vmax
        else if p < target then min (a.v + step) vmax
        else if target + hyst < p then max (a.v - step) vmin
        else a.v
      let d := { d with pace := { a with periodMin := none, v := v, waiting := v != a.v } }
      let d := if v = a.v then d else
        ((d.setFlag FAB.page FAB.AVS_STAT.EMERG (decide (p < floor))).regulate v).count 0x783
      let d := d.setFlag FAB.page FAB.AVS_STAT.AT_VMIN (v == vmin)
      let atMax : Bool := v == vmax && decide (p < target)
      let was := d.flag FAB.page FAB.AVS_STAT.AT_VMAX
      let d := d.setFlag FAB.page FAB.AVS_STAT.AT_VMAX atMax
      if atMax && !was then d.raise FAB.page FAB.INT_RAW.AVS_LIMIT else d) s

/-- R73: the regulator acknowledges. -/
def execAvsAck (s : State) : Host.Outcome State Fault Refusal :=
  onDev (fun d => d.when d.pace.waiting (fun d =>
    let d := { d with pace := { d.pace with waiting := false, acked := d.pace.v } }
    d.set FAB.page FAB.AVS_STAT.VOUT (d.pace.acked / 100))) s

/-- R74: no acknowledgement within 1 ms; the loop stops at the last acknowledged voltage, by which AT_VMIN is judged
again, and AT_VMAX stays only at VMAX (DESIGN CHOICE, log entry 130). -/
def execAvsAckTimeout (s : State) : Host.Outcome State Fault Refusal :=
  onDev (fun d => d.when d.pace.waiting (fun d =>
    let v := d.pace.acked
    let d := { d with pace := { d.pace with waiting := false, v := v } }
    let d := d.setFlag FAB.page FAB.AVS_STAT.AT_VMIN (v == 100 * d.get FAB.page FAB.AVS_LIMIT.VMIN)
    let d := d.setFlag FAB.page FAB.AVS_STAT.AT_VMAX
      (d.flag FAB.page FAB.AVS_STAT.AT_VMAX && v == 100 * d.get FAB.page FAB.AVS_LIMIT.VMAX)
    (d.set FAB.page FAB.AVS_STAT.FAIL 1).raise FAB.page FAB.INT_RAW.AVS_FAIL)) s

/-! ### The COMMIT of the FAB page -/

def Dev.fabRules (d : Dev) : List Rule :=
  let sh (f : Field) : Nat := d.getSh .fab FAB.page f
  let r (f : Field) (lo hi : Nat) : Rule := d.ruleRange .fab FAB.page f lo hi
  [ r FAB.PACE_CFG.FLOOR 340 900, r FAB.PACE_CFG.HYST 5 255,
    (sh FAB.PACE_CFG.TARGET < sh FAB.PACE_CFG.FLOOR + 10, 0x09, FAB.PACE_CFG.TARGET.off),
    r FAB.AVS_CFG.MODE 0 2, r FAB.AVS_CFG.PERIOD 0 4, r FAB.AVS_CFG.STEP 0 2,
    r FAB.AVS_LIMIT.VMAX 650 800, r FAB.AVS_LIMIT.VMIN 650 800,
    (sh FAB.AVS_LIMIT.VMAX ≤ sh FAB.AVS_LIMIT.VMIN, 0x09, FAB.AVS_LIMIT.VMAX.off),
    r FAB.XING_CFG.TMO 0 8 ]

/-- R74: an AVS_CFG written through a COMMIT restarts the loop and clears FAIL. -/
def Dev.fabEffect (before d : Dev) : Dev :=
  if before.avsWritten then
    let d := { d with avsWritten := false, pace := { d.pace with waiting := false, periodMin := none } }
    (d.set FAB.page FAB.AVS_STAT.FAIL 0).loopStart
  else d

def Dev.commitFab (d : Dev) : Dev := d.commitBy FAB.page d.fabRules Dev.fabEffect

/-! ### Crossings (R78 to R83) -/

abbrev xOpen : Nat := 0
abbrev xHeld : Nat := 1
abbrev xResync : Nat := 2
abbrev xReset : Nat := 3

def Dev.xph (d : Dev) (i : Nat) : Nat := tget (fun _ => 0) d.xphase i
def Dev.setXph (d : Dev) (i n : Nat) : Dev := { d with xphase := tset (fun _ => 0) d.xphase i n }

/-- A number with one bit set or cleared. -/
def putBit (m i : Nat) (b : Bool) : Nat := if m.testBit i == b then m else if b then m + 2 ^ i else m - 2 ^ i

/-- A crossing changes state: XING_STAT, XING_HELD, the recorder (R380). -/
def Dev.setXing (d : Dev) (i st : Nat) : Dev :=
  if d.xing i = st then d else
  let d : Dev := { d with snapHeld := d.snapHeld || (d.collecting && (st == xHeld || st == xReset)) }
  let d := d.set FAB.page FAB.XING_STAT.STATE st i
  let f := if i < 32 then FAB.XING_HELD0.NOT_OPEN else FAB.XING_HELD1.NOT_OPEN
  let d := d.set FAB.page f (putBit (d.get FAB.page f) (i % 32) (st != xOpen))
  d.record 0x026 0x07 (st * 2 ^ 8 + i)

/-- The island class of R81. -/
def islandClass (i : Nat) : Nat := if i < 51 then 0 else i - 50

/-- The clock of CLK_GOOD that a crossing's island runs on: LSY for the lanes. -/
def goodBit (i : Nat) : Nat := if i < 51 then 1 else i - 49

def Dev.setGood (d : Dev) (n : Nat) (b : Bool) : Dev :=
  d.set RST.page RST.CLK_GOOD.GOOD (putBit (d.get RST.page RST.CLK_GOOD.GOOD) n b)

/-- R78: 1 µs without an edge: the crossings are HELD, and the clock is no longer clock-good (R29). -/
def Dev.clockStop (d : Dev) (i : Nat) : Dev :=
  if d.flag FAB.page FAB.XING_STAT.CLK_STOP i then d else
  let d := (d.set FAB.page FAB.XING_STAT.CLK_STOP 1 i).setGood (goodBit i) false
  if d.xing i = xReset then d else (d.setXing i xHeld).raise FAB.page FAB.INT_RAW.XING_HELD

/-- R78; a lane island's clock never stops while LSY runs (R79). -/
def execClockStopDetected (island : Fin 56) (s : State) : Host.Outcome State Fault Refusal :=
  onDev (fun d => d.when (!(decide (island.val < 51) && d.flag SYN.page SYN.LSY_STAT.LOCK)) (·.clockStop island)) s

/-- The crossing as the clock counts as running again, which is clock-good (R29): open, or going on with its
resynchronization. -/
def Dev.clockReturn (d : Dev) (i : Nat) : Dev :=
  let d := (d.set FAB.page FAB.XING_STAT.CLK_STOP 0 i).setGood (goodBit i) true
  if d.xing i = xHeld then d.setXing i (if d.xph i = 0 then xOpen else xResync) else d

/-- R81: the oldest transfer that waits at a crossing of an enabled class is abandoned: a read returns all ones, a write
is discarded. -/
def execXingCompatTimeout (island : Fin 56) (s : State) : Host.Outcome State Fault Refusal :=
  onDev (fun d =>
    match d.held.find? (fun h => h.island == island.val) with
    | none => d
    | some h =>
      if d.xing island ≠ xHeld || !(d.get FAB.page FAB.XING_CFG.COMPAT).testBit (islandClass island) then d else
      let d := { d with held := d.held.erase h }
      let d := if h.write then d else d.emit (.reply "read" [0xFFFFFFFF])
      let d := (d.err FAB.page 0x01 island).incSat FAB.page FAB.XING_STAT.TMO_CNT island
      (d.raise FAB.page FAB.INT_RAW.XING_TMO).count 0x785) s

/-- R82: control transfers that a reset abandons: a read returns all ones; each is captured on the page accessed. -/
def Dev.abandon (d : Dev) (l : List Held) : Dev :=
  l.foldl (fun d h =>
    let d := if h.write then d else d.emit (.reply (if h.bus then "i2c" else "read") [0xFFFFFFFF])
    d.err h.page 0x02 h.island) d

/-- R82: the Crown's wait access in progress, which its island's crossing abandons in the same way. -/
def Dev.abandonCrown (d : Dev) (w : Option CrownWait) : Dev :=
  match w with
  | none => d
  | some w =>
    let d := if w.write then d else d.emit (.reply "crown" [0xFFFFFFFF])
    d.err w.page 0x02 ((crossingOf w.page).getD 55)

/-- R82: a reset of either side puts the crossing in RESET. -/
def Dev.crossingReset (d : Dev) (i : Nat) : Dev := (d.setXph i 0).setXing i xReset

/-! ### Words in error on a frame's way (R65, R118) -/

/-- Corrected and uncorrectable words of a frame's bundles and buffer lines, counted: a buffer's uncorrectable word is
handled as a bundle's is. -/
def Dev.wordErrors (d : Dev) (e : WordErrors) : Dev :=
  let d := if e.bundle = 0 then d else (d.count 0x780 e.bundle).raise FAB.page FAB.INT_RAW.ECC_CORR
  let d := if e.badBundle then d.count 0x781 else d
  let d := if e.sram = 0 then d else d.count 0x707 e.sram
  let d := if e.badSram then d.count 0x708 else d
  if e.bad then d.raise FAB.page FAB.INT_RAW.ECC_UNCORR else d

/-- R83: both sides are released: the island toggles the resync flag; with its clock stopped the crossing is HELD
(R78). -/
def Dev.crossingResync (d : Dev) (i : Nat) : Dev :=
  let d := d.setXph i 1
  if d.flag FAB.page FAB.XING_STAT.CLK_STOP i then (d.setXing i xHeld).raise FAB.page FAB.INT_RAW.XING_HELD
  else d.setXing i xResync

/-- R83: Felt sees the flag, zeroes its pointers and acknowledges. -/
def execXingResyncFlagSeen (island : Fin 56) (s : State) : Host.Outcome State Fault Refusal :=
  onDev (fun d => d.when (d.xing island == xResync && d.xph island == 1) (·.setXph island 2)) s

/-- R83: the island sees the acknowledgement and confirms. -/
def execXingResyncAckSeen (island : Fin 56) (s : State) : Host.Outcome State Fault Refusal :=
  onDev (fun d => d.when (d.xing island == xResync && d.xph island == 2) (·.setXph island 3)) s

/-- R83: Felt sees the confirmation and advertises free entries. -/
def execXingResyncConfirmed (island : Fin 56) (s : State) : Host.Outcome State Fault Refusal :=
  onDev (fun d => d.when (d.xing island == xResync && d.xph island == 3) (fun d =>
    let d := (d.setXph island 0).setXing island xOpen
    ((d.incSat FAB.page FAB.XING_STAT.RESYNC_CNT island).raise FAB.page FAB.INT_RAW.XING_RESYNC).count 0x784)) s

end Sys2Proof.Machine
end

