-- ==== Sys2Proof/Machine/Lookup.lean ====
section
/-!
DEFINITION. Machine/Lookup.lean: the tables of the LKP and MTR pages: keyed searches (R94, R96), learning and ageing
(R101 to R103), staging, epochs and the table COMMIT (R113 to R117, R431), stream gates and meters as they run
(R105 to R110).
-/
namespace Sys2Proof.Machine

/-! ### Shapes (R91) -/

/-- Words of an entry. -/
def tableWords : TableId → Nat
  | .vlan => 2 | .aclKey => 6 | .meterCfg => 2 | _ => 1

/-- Entries of a table of the LKP and MTR pages. -/
def tableSize : TableId → Nat
  | .port => 50 | .vlan => 4096 | .fdb => 262144 | .mcast => 4096 | .sid => 16384 | .filter => 16384
  | .aclKey => 2048 | .aclAct => 2048 | .gate => 4096 | .gateList => 16384 | .punt => 16 | .meterCfg => 16384
  | _ => 0

/-- The table that ENTRY_ADDR.TABLE names on the LKP page. -/
def lkpTable (n : Nat) : Option TableId :=
  match n with
  | 0 => some .port | 1 => some .vlan | 2 => some .fdb | 3 => some .mcast | 4 => some .sid | 5 => some .filter
  | 6 => some .aclKey | 7 => some .aclAct | 8 => some .gate | 9 => some .gateList | 10 => some .punt | _ => none

/-- The listed indices of a table: only these can differ from the reset contents. -/
def Dev.listed (d : Dev) (t : TableId) : List Nat :=
  (d.tables.filterMap (fun e => if e.1 / 67108864 = t.num then some (e.1 / 64 % 1048576) else none)).eraseDups

/-- The words of an entry that a frame's lookup reads, counted where the code corrects one or cannot (R428). -/
def Dev.reads (d : Dev) (t : TableId) (is : List Nat) : Dev :=
  if d.flips.isEmpty then d else is.foldl (fun d i => d.seenWords t i (tableWords t)) d

/-! ### Keyed tables (R94, R96) -/

/-- The mixed key of FID and MAC address, as bucket and remainder. -/
def Dev.fdbMix (d : Dev) (fid mac : Nat) : Nat × Nat :=
  let m := (Config.mix60 (BitVec.ofNat 60 d.fdbKey) (BitVec.ofNat 60 (fid % 4096 * 2 ^ 48 + mac))).toNat
  (m % 32768, m / 32768)

/-- The mixed key of a stream, as bucket and remainder. -/
def Dev.sidMix (d : Dev) (method vid mac : Nat) : Nat × Nat :=
  let m := (Config.mix61 (BitVec.ofNat 61 d.sidKey)
    (BitVec.ofNat 61 (method % 2 * 2 ^ 60 + vid % 4096 * 2 ^ 48 + mac))).toNat
  (m % 4096, m / 4096)

/-- The ways of a key's bucket. -/
def Dev.fdbWays (d : Dev) (fid mac : Nat) : List Nat := (List.range 8).map ((d.fdbMix fid mac).1 * 8 + ·)
def Dev.sidWays (d : Dev) (method vid mac : Nat) : List Nat := (List.range 4).map ((d.sidMix method vid mac).1 * 4 + ·)

/-- The entry of the FDB that holds a key. -/
def Dev.fdbFind (d : Dev) (fid mac : Nat) : Option Nat :=
  let (b, r) := d.fdbMix fid mac
  ((List.range 8).map (b * 8 + ·)).find? (fun i =>
    let w := d.lookupWord .fdb i
    bitOf w 63 && bitsOf w 44 0 == r)

def Dev.sidFind (d : Dev) (method vid mac : Nat) : Option Nat :=
  let (b, r) := d.sidMix method vid mac
  ((List.range 4).map (b * 4 + ·)).find? (fun i =>
    let w := d.lookupWord .sid i
    bitOf w 63 && bitsOf w 48 0 == r)

/-- Whether a staged insert has reserved a way. -/
def Dev.reserved (d : Dev) (t : TableId) (i : Nat) : Bool :=
  d.staging.any (fun o => o.insert && o.table == t.num && o.index == i)

/-- The way a new FDB key takes (R102): the lowest free one, else the lowest dynamic one with AGE = 0; never a reserved
one. -/
def Dev.fdbWay (d : Dev) (bucket : Nat) : Option Nat :=
  let ways := ((List.range 8).map (bucket * 8 + ·)).filter (fun i => !d.reserved .fdb i)
  match ways.find? (fun i => !bitOf (d.lookupWord .fdb i) 63) with
  | some i => some i
  | none => ways.find? (fun i => let w := d.lookupWord .fdb i; !bitOf w 62 && !bitOf w 61)

/-- The way of a bucket that a staged insert of the same key has reserved. -/
def Dev.stagedWay (d : Dev) (t : TableId) (ways : List Nat) (hi rem : Nat) : Option Nat :=
  (d.staging.find? (fun o => o.insert && o.table == t.num && ways.contains o.index && bitsOf (o.words.headD 0) hi 0 == rem)).map
    StageOp.index

def Dev.sidWay (d : Dev) (bucket : Nat) : Option Nat :=
  ((List.range 4).map (bucket * 4 + ·)).find? (fun i => !d.reserved .sid i && !bitOf (d.lookupWord .sid i) 63)

/-- Whether a keyed table is empty with no valid entry staged into it. -/
def Dev.keyedEmpty (d : Dev) (t : TableId) : Bool :=
  (d.listed t).all (fun i => !bitOf (d.entry t i) 63)
    && !d.staging.any (fun o => o.table == t.num && bitOf (o.words.headD 0) 63)

/-- R94: the secret key is drawn when the first entry comes into an empty table, by a learn or as it is staged. -/
def Dev.drawFdbKey (d : Dev) : Dev :=
  if d.keyedEmpty .fdb then (let (k, d) := d.free; { d with fdbKey := k }) else d
def Dev.drawSidKey (d : Dev) : Dev :=
  if d.keyedEmpty .sid then (let (k, d) := d.free; { d with sidKey := k }) else d

/-- LEARN_STAT. -/
def Dev.refreshFdb (d : Dev) : Dev :=
  d.set LKP.page LKP.LEARN_STAT.FDB_USED ((d.listed .fdb).filter (fun i => bitOf (d.entry .fdb i) 63)).length

/-! ### Learning and ageing (R101 to R103) -/

/-- The entry a learn writes. -/
def learnWord (ep rem : Nat) : Data := BitVec.ofNat 64 (2 ^ 63 + 2 ^ 61 + ep * 2 ^ 48 + rem)

/-- R101, R102: the oldest learn request is written: a station move, a free way, an aged way, or refused. An entry of
the key whose way a staged insert has reserved is left as it is (R431); the commit replaces it. -/
def execLearnWrite (s : State) : Host.Outcome State Fault Refusal :=
  onDev (fun d =>
    match d.learnQ with
    | [] => d
    | q :: rest =>
      let d := ({ d with learnQ := rest }).drawFdbKey
      let (b, r) := d.fdbMix q.fid q.mac
      let d := d.reads .fdb (d.fdbWays q.fid q.mac)
      match d.fdbFind q.fid q.mac with
      | some i =>
        if d.reserved .fdb i then d else
        let w := d.lookupWord .fdb i
        let here := !bitOf w 60 && bitsOf w 59 48 == q.ep
        if here then d.setEntry .fdb i (putBits w 61 61 1)
        else if bitOf w 62 then (d.count 0x668).raise LKP.page LKP.INT_RAW.STATIC_MOVE
        else (d.setEntry .fdb i (putBits (putBits (putBits w 59 48 q.ep) 60 60 0) 61 61 1)).count 0x667
      | none =>
        match d.fdbWay b with
        | some i => ((d.setEntry .fdb i (learnWord q.ep r)).count 0x664).refreshFdb
        | none => (d.count 0x665).raise LKP.page LKP.INT_RAW.LEARN_FULL) s

/-- Whether the ageing sweep is due (R103): AGE_TIME / 2 after the last one; with AGE_TIME = 0 never. The time base
counts it, and a step or a set of it with the rest (DESIGN CHOICE, log entry 24). -/
def Dev.sweepDue (d : Dev) : Bool :=
  let a := d.get LKP.page LKP.LKP_CFG.AGE_TIME
  a != 0 && d.sweptAt + a * secU / 2 ≤ d.now

/-- R103: the sweep. A STATIC entry keeps its AGE: "the others" are taken as the other dynamic ones (DESIGN CHOICE,
log entry 134). -/
def execAgeingSweep (s : State) : Host.Outcome State Fault Refusal :=
  onDev (fun d => d.when d.sweepDue (fun d =>
    let d : Dev := { d.reads .fdb (d.listed .fdb) with sweptAt := d.now }
    ((d.listed .fdb).foldl (fun d i =>
      let w := d.lookupWord .fdb i
      if !bitOf w 63 || bitOf w 62 then d
      else if bitOf w 61 then d.setEntry .fdb i (putBits w 61 61 0)
      else d.setEntry .fdb i 0) d).refreshFdb)) s

/-! ### Meters (R104 to R108) -/

/-- A meter nothing has happened to: both buckets full. -/
def meter0 : Meter := ⟨2 ^ 44, 2 ^ 44, 0, 0, 0, 0⟩
def Dev.meter (d : Dev) (i : Nat) : Meter := tget (fun _ => meter0) d.meters i
def Dev.setMeter (d : Dev) (i : Nat) (m : Meter) : Dev := { d with meters := tset (fun _ => meter0) d.meters i m }

/-- Bytes in 2^-20 byte. -/
abbrev byteU : Nat := 1048576

/-- What a rate in 8 kbit/s brings in a time, in 2^-20 byte. -/
def rateFill (rate dt : Nat) : Nat := rate * 1000 * dt * byteU / secU

/-- The colour a meter gives `b` bytes at `now` (0 green, 1 yellow, 2 red), and its state after. -/
def meterColour (w0 w1 : Data) (m : Meter) (now b pre : Nat) : Nat × Meter :=
  let dt := now - m.last
  let tc := min (bitsOf w1 63 40 * byteU) (m.tc + rateFill (bitsOf w0 63 40) dt)
  let tp := min (bitsOf w1 39 16 * byteU) (m.tp + rateFill (bitsOf w0 39 16) dt)
  let m := { m with tc := tc, tp := tp, last := max now m.last }
  let aware := bitOf w0 15
  let n := b * byteU
  if (aware && pre == 2) || decide (tp < n) then (2, { m with red := (m.red + 1) % 2 ^ 32 })
  else if (aware && pre == 1) || decide (tc < n) then
    (1, { m with tp := tp - n, yellow := (m.yellow + 1) % 2 ^ 32 })
  else (0, { m with tp := tp - n, tc := tc - n, green := (m.green + 1) % 2 ^ 32 })

/-- R108: what a provisional charge took too much, or too little, returned; nothing when the meter is gone. -/
def Dev.refundMeter (d : Dev) (c : Charge) (actual : Int) : Dev :=
  let d := d.reads .meterCfg [c.index]
  let w0 := d.lookupWord .meterCfg c.index
  if !bitOf w0 14 then d else
  let w1 := d.lookupWord .meterCfg c.index 1
  let m := d.meter c.index
  let back := (c.amount - actual) * byteU
  let put (v cap : Nat) : Nat := (min (cap * byteU : Int) ((v : Int) + back)).toNat
  d.setMeter c.index { m with
    tp := put m.tp (bitsOf w1 39 16)
    tc := if c.both then put m.tc (bitsOf w1 63 40) else m.tc }

/-! ### Stream gates (R100, R109, R110) -/

def gateRun0 : GateRun := ⟨none, 0, 0, 0, 0⟩
def Dev.gateRun (d : Dev) (g : Nat) : GateRun := tget (fun _ => gateRun0) d.gates g
def Dev.setGateRun (d : Dev) (g : Nat) (x : GateRun) : Dev := { d with gates := tset (fun _ => gateRun0) d.gates g x }

/-- The gate entry in force at a time: a committed change applies from the first cycle boundary after the commit. -/
def Dev.gateWord (d : Dev) (g now : Nat) : Data :=
  match (d.gateRun g).old with
  | some (w, t) => if now < t then w else d.lookupWord .gate g
  | none => d.lookupWord .gate g

/-- The start of the cycle that runs at `now`. -/
def gateCycleStart (w : Data) (now : Nat) : Nat := now - now % secU % (bitsOf w 33 4 * nsU)

/-- The list entry that stands at a position of the cycle; the last one holds until the cycle ends. -/
def Dev.gateEntryAt (d : Dev) (pos : Nat) : (left i : Nat) → Nat
  | 0, i => i
  | 1, i => i
  | n + 2, i =>
    let len := bitsOf (d.lookupWord .gateList i) 58 29 * nsU
    if pos < len then i else d.gateEntryAt (pos - len) (n + 1) (i + 1)

/-- The list entry a gate stands in at a time, and its cycle's start. -/
def Dev.gatePos (d : Dev) (w : Data) (now : Nat) : Nat × Nat :=
  let start := gateCycleStart w now
  (d.gateEntryAt (now - start) (bitsOf w 44 34) (bitsOf w 58 45), start)

/-- The gate's run brought to the entry that stands at a time: the octet count restarts at each entry. A reading older
than one the gate has run at (R76) does not take it back (R109). -/
def Dev.gateNow (d : Dev) (g t : Nat) : GateRun :=
  let x := d.gateRun g
  let now := if d.now < x.seen then t else max t x.seen
  let (e, c) := d.gatePos (d.gateWord g now) now
  let old := match x.old with | some (w, u) => if now < u then some (w, u) else none | none => none
  if x.entry = e ∧ x.cycle = c then { x with old := old, seen := now } else ⟨old, 0, e, c, now⟩

/-- R109: an interval of a stream gate ends, as Felt reads the time (R76). -/
def execStreamGateEntryAdvance (gate : Fin 4096) (s : State) : Host.Outcome State Fault Refusal :=
  onDev (fun d =>
    let (t, d) := d.readTime
    d.setGateRun gate (d.gateNow gate t)) s

/-- A gate's refund goes to the list entry, in the cycle, in which the charge was made; it is discarded once the gate
has left that entry (R108). -/
def Dev.refundGate (d : Dev) (c : Charge) (actual : Int) : Dev :=
  let (t, d) := (d.reads .gate [c.index]).readTime
  let x := d.gateNow c.index t
  if x.entry = c.entry ∧ x.cycle = c.cycle then
    d.setGateRun c.index { x with octets := x.octets - (c.amount - actual) }
  else d

/-! ### Staging (R113, R115, R431) -/

/-- STAGE_STAT. -/
def Dev.refreshStage (d : Dev) : Dev :=
  (d.set LKP.page LKP.STAGE_STAT.COUNT d.staging.length).setFlag LKP.page LKP.STAGE_STAT.FULL
    (decide (1024 ≤ d.staging.length))

def Dev.pendingCommit (d : Dev) : Bool := d.flag LKP.page LKP.EPOCH_STAT.PENDING

/-- A staging refused, with its RESULT: captured on the page of the refused write. -/
def Dev.stageRefuse (d : Dev) (w : EntryWin) (acc : Accessor) (r : Nat) : Dev :=
  let d := (d.winResult w acc r).err w.page 0x12 w.result.off
  (d.raise LKP.page LKP.INT_RAW.STAGE_REJECT).count 0x675

/-- Whether a list range of a gate entry covers a gate list index. -/
def gateCovers (w : Data) (i : Nat) : Bool :=
  bitOf w 63 && bitsOf w 58 45 ≤ i && decide (i < bitsOf w 58 45 + bitsOf w 44 34)

/-- R110: a gate list entry that a valid gate runs, now or in an epoch still draining. -/
def Dev.gateListInUse (d : Dev) (i : Nat) : Bool :=
  (d.listed .gate).any (fun g => gateCovers (d.lookupWord .gate g) i || gateCovers (d.gateWord g d.now) i)
    || d.retired.any (fun r => r.table == TableId.gateList.num && r.lo ≤ i && decide (i < r.lo + r.len))

/-- R115: an index retired by a commit whose older epochs have not drained. -/
def Dev.isRetired (d : Dev) (t : TableId) (i : Nat) : Bool :=
  d.retired.any (fun r => r.table == t.num && r.lo ≤ i && decide (i < r.lo + r.len))

/-- The content checks of a staged write, table by table. R99 gives no check of REDIRECT_EP: with REDIRECT = 1 a
number that is no endpoint (50 to 63) is refused with RESULT 4 as well (DESIGN CHOICE, log entry 116). -/
def contentOk (t : TableId) (i : Nat) (ws : List Data) : Bool :=
  let w := ws.headD 0
  let w1 := ws.getD 1 0
  match t with
  | .port => bitsOf w 33 32 != 3 && (List.range 8).all (fun p => bitsOf w (3 * p + 2) (3 * p) != 7)
  | .fdb => bitOf w 60 || bitsOf w 59 48 ≤ 49
  | .filter => !(bitOf w 62 && bitsOf w 61 59 == 7) || (bitOf w 44 && !bitOf w 31 && bitsOf w 30 17 != 0)
  | .aclAct => bitsOf w 62 60 ≤ 5 && !(bitOf w 59 && bitsOf w 58 56 == 7)
      && (!bitOf w 40 || bitsOf w 39 34 ≤ 49)
  | .gate => bitsOf w 33 4 != 0 && 1000000000 % bitsOf w 33 4 == 0 && 1 ≤ bitsOf w 44 34
      && bitsOf w 44 34 ≤ 1024 && bitsOf w 58 45 + bitsOf w 44 34 ≤ 16384
  | .gateList => !(bitOf w 62 && bitsOf w 61 59 == 7)
  | .punt => 1 ≤ i && i ≤ 9 && bitsOf w 23 21 < 6
  | .meterCfg => bitsOf w 63 40 ≤ bitsOf w 39 16 && bitsOf w1 63 40 != 0 && bitsOf w1 39 16 != 0
      && bitsOf w 13 12 != 3 && bitsOf w 11 10 != 3
  | _ => true

/-- One operation joins the list, or is refused: 6 a commit waits, 2 the list is full, 4 refused content or index (a
TC7 filter's MAX_SDU above the POOL0 buffer size among them, R128), 3 retired or in use. -/
def Dev.stage (d : Dev) (w : EntryWin) (acc : Accessor) (t : TableId) (op : StageOp) : Dev :=
  if d.pendingCommit then d.stageRefuse w acc 6
  else if 1024 ≤ d.staging.length then d.stageRefuse w acc 2
  else if tableSize t ≤ op.index || (!op.delete && !contentOk t op.index op.words) then d.stageRefuse w acc 4
  else if t == .filter && !op.delete && bitOf (op.words.headD 0) 62 && bitsOf (op.words.headD 0) 61 59 == 7
      && decide (d.bufSize 0 < bitsOf (op.words.headD 0) 30 17) then d.stageRefuse w acc 4
  else if d.isRetired t op.index && (!op.delete || t == .gateList) then d.stageRefuse w acc 3
  else if t == .gateList && d.gateListInUse op.index then d.stageRefuse w acc 3
  else
    let d := if op.delete || op.insert || !bitOf (op.words.headD 0) 63 then d
      else if t == .fdb then d.drawFdbKey else if t == .sid then d.drawSidKey else d
    (({ d with staging := d.staging ++ [op] }).refreshStage).winResult w acc 0

/-- STAGE_WRITE: the words collect in the window, the last one stages the operation. -/
def Dev.stageWrite (d : Dev) (w : EntryWin) (acc : Accessor) (t : TableId) : Dev :=
  if d.pendingCommit then d.stageRefuse w acc 6
  else if tableWords t ≤ winWord d w acc then d.stageRefuse w acc 4
  else match d.winCollect w acc (tableWords t - 1) with
    | (d, none) => d.winResult w acc 0
    | (d, some ws) => d.stage w acc t ⟨t.num, winIndex d w acc, maskWords t ws, false, false⟩

/-- STAGE_DELETE: the reset contents of a port or punt policer entry, else zeros (R431). -/
def Dev.stageDelete (d : Dev) (w : EntryWin) (acc : Accessor) (t : TableId) : Dev :=
  let i := winIndex d w acc
  let ws := (List.range (tableWords t)).map (fun k => if t == .port || t == .punt then resetEntry t i k else 0)
  d.stage w acc t ⟨t.num, i, ws, false, true⟩

/-! ### Applying a table commit (R113, R115, R116) -/

/-- The tables whose deleted indices are retired. -/
def retires (t : TableId) : Bool := t == .meterCfg || t == .gate || t == .filter || t == .mcast

/-- An index range retired while an epoch older than the commit is outstanding. -/
def Dev.retire (d : Dev) (t : TableId) (lo len mask : Nat) : Dev :=
  if mask = 0 ∨ len = 0 then d else { d with retired := d.retired ++ [⟨t.num, lo, len, mask⟩] }

/-- What a gate entry's change leaves running until the boundary (R110). A commit on the very instant of a boundary
applies at that boundary, not at the next (DESIGN CHOICE, log entry 117). -/
def Dev.gateChange (d : Dev) (g : Nat) (mask : Nat) : Dev :=
  let w := d.gateWord g d.now
  if !bitOf w 63 then d.setGateRun g gateRun0
  else
    let start := gateCycleStart w d.now
    let b := if start = d.now then start else start + bitsOf w 33 4 * nsU
    let d := d.setGateRun g { d.gateRun g with old := some (w, b) }
    d.retire .gateList (bitsOf w 58 45) (bitsOf w 44 34) mask

/-- An entry of a keyed table as the pair's other device can place it: index and word with the key itself, split as a
mixed key is, in the place of the mixed one, since each device mixes with a secret of its own (R94, R96). -/
def Dev.keyOut (d : Dev) (t : TableId) (i : Nat) (w : Data) : Nat × Data :=
  match t with
  | .fdb =>
    let k := ((Config.mix60 (BitVec.ofNat 60 d.fdbKey)).symm (BitVec.ofNat 60 (bitsOf w 44 0 * 32768 + i / 8))).toNat
    (k % 32768 * 8 + i % 8, putBits w 44 0 (k / 32768))
  | .sid =>
    let k := ((Config.mix61 (BitVec.ofNat 61 d.sidKey)).symm (BitVec.ofNat 61 (bitsOf w 48 0 * 4096 + i / 4))).toNat
    (k % 4096 * 4 + i % 4, putBits w 48 0 (k / 4096))
  | _ => (i, w)

/-- A staged operation as the Doublet copies it (R288): one on a keyed table with its key, after the deletion of the
entry of another key whose place it takes (log entry 123). A dynamic entry is not copied, nor is its end. -/
def Dev.twinOps (d : Dev) (op : StageOp) : List StageOp :=
  match [TableId.fdb, TableId.sid].find? (fun t => t.num == op.table) with
  | none => [op]
  | some t =>
    let w := op.words.headD 0
    let old := d.lookupWord t op.index
    let key (x : Data) : Nat := bitsOf x (if t == .fdb then 44 else 48) 0
    let same := bitOf w 63 && key w == key old
    let gone := d.keyOut t op.index old
    let new := d.keyOut t op.index w
    (if bitOf old 63 && (t == .sid || bitOf old 62) && !same then
      [{ op with index := gone.1, words := [putBits gone.2 63 63 0], delete := true }] else [])
    ++ (if bitOf w 63 then [{ op with index := new.1, words := [new.2] }] else [])

/-- A meter whose valid configuration is rewritten keeps what its buckets held under the old one (R105, R107). -/
def Dev.settleMeter (d : Dev) (i : Nat) : Dev :=
  let w0 := d.lookupWord .meterCfg i
  let w1 := d.lookupWord .meterCfg i 1
  let m := d.meter i
  if !bitOf w0 14 then d else
  d.setMeter i { m with
    tc := min (bitsOf w1 63 40 * byteU) (m.tc + rateFill (bitsOf w0 63 40) (d.now - m.last))
    tp := min (bitsOf w1 39 16 * byteU) (m.tp + rateFill (bitsOf w0 39 16) (d.now - m.last))
    last := max d.now m.last }

/-- One staged operation applied; `mask` are the older epochs still outstanding. A learned entry of the key that an
FDB entry brings gives way to it, whichever way it stands in (R102). -/
def Dev.applyOp (mask : Nat) (d : Dev) (op : StageOp) : Dev :=
  match tableIds.find? (fun t => t.num == op.table) with
  | none => d
  | some t =>
    let d := if t == .gate then d.gateChange op.index mask else if t == .meterCfg then d.settleMeter op.index else d
    let d := if t == .fdb && bitOf (op.words.headD 0) 63 then
        let rem := bitsOf (op.words.headD 0) 44 0
        ((List.range 8).map (op.index / 8 * 8 + ·)).foldl (fun d i =>
          let w := d.lookupWord .fdb i
          if i != op.index && bitOf w 63 && !bitOf w 62 && bitsOf w 44 0 == rem then d.setEntry .fdb i 0 else d) d
      else d
    let d := op.words.zipIdx.foldl (fun d x => d.setEntry t op.index x.1 x.2) d
    let d : Dev := { d with written := tset (fun _ => none) d.written (tkey t op.index 0) none }
    let d := if op.delete && retires t then d.retire t op.index 1 mask else d
    if op.delete && t == .meterCfg then d.setMeter op.index meter0 else d

/-- The tables whose contents reach them through staging lists. -/
def stagedTables : List TableId :=
  [.port, .vlan, .fdb, .mcast, .sid, .filter, .aclKey, .aclAct, .gate, .gateList, .punt, .meterCfg]

/-- The staged tables' entries that do not hold their reset contents, dynamic ones aside, as the twin can place them. -/
def Dev.tablesItem (d : Dev) : CopyItem :=
  .tablesFull (stagedTables.map (fun t =>
    ((d.listed t).filter (fun i => t != .fdb || bitOf (d.lookupWord t i) 62)).map (fun i =>
      let ws := (List.range (tableWords t)).map (fun w => d.lookupWord t i w)
      let x := d.keyOut t i (ws.headD 0)
      (⟨t.num, x.1, x.2 :: ws.tail, false, false⟩ : TwinOp)))).flatten

/-- While a full copy is asked for, the tables as they stood before the commits of this instant are kept for a cycle
that ends on the same tick (R33, R299). -/
def Dev.tabMark (d : Dev) : Dev :=
  if !d.dbl.needFull || d.dbl.tabBefore.any (fun x => x.1 == d.now) then d
  else { d with dbl := { d.dbl with tabBefore := some (d.now, d.tablesItem) } }

/-- The list applied at one instant, the epoch advanced; an epoch without frames has drained. Every epoch boundary
lets a pending Reroll take effect (R132). -/
def Dev.applyTables (d : Dev) (ops : List StageOp) (device : Bool) : Dev :=
  let d := d.tabMark
  let cur := d.get LKP.page LKP.EPOCH_STAT.CUR
  let new := (cur + 1) % 16
  let d := if d.epochFrames cur = 0 then d.drainEpoch cur
    else { d with epochSince := tset (fun _ => 0) d.epochSince cur d.now }
  let mask := d.get LKP.page LKP.EPOCH_STAT.OUTSTANDING
  let (d, sent) := ops.foldl (fun (x : Dev × List StageOp) op =>
    let d := [TableId.fdb, TableId.sid].foldl (fun (d : Dev) t => if t.num = op.table then d.reads t [op.index] else d) x.1
    (Dev.applyOp mask d op, x.2 ++ d.twinOps op)) (d, [])
  let d := (d.set LKP.page LKP.EPOCH_STAT.CUR new).set LKP.page LKP.EPOCH_STAT.OUTSTANDING (mask ||| 2 ^ new)
  let d := d.record 0x020 0x03 (ops.length * 2 ^ 5 + (if device then 2 ^ 4 else 0) + new)
  let d := if device then d.count 0x673 else d
  let owner := d.flag DBL.page DBL.DBL_CFG.ENABLE && d.flag DBL.page DBL.DBL_STAT.OWNER
    && (d.get DBL.page DBL.DBL_CFG.COPY).testBit 2
  let d := if owner && !device then { d with dblTables := d.dblTables ++ [(d.now, sent)] } else d
  ((d.raise LKP.page LKP.INT_RAW.COMMIT_DONE).refreshFdb).rerollApply

/-- Whether the next epoch has not drained (R117). -/
def Dev.epochBlocked (d : Dev) : Bool :=
  (d.get LKP.page LKP.EPOCH_STAT.OUTSTANDING).testBit ((d.get LKP.page LKP.EPOCH_STAT.CUR + 1) % 16)

/-- The rules of a COMMIT of the LKP page (R90) or of the MTR page. -/
def Dev.tableRules (d : Dev) (page : Nat) : List Rule :=
  let standby := d.copied 2
  let waits := d.pendingCommit
  (waits, 0x11, COM.COMMIT.GO.off) :: (standby, 0x0F, COM.COMMIT.GO.off) ::
  if page = LKP.page then
    [ruleAny 8 (fun i =>
      let g (f : Field) : Nat := d.getSh .lkp LKP.page (f.nth i)
      (g LKP.PROF.TAG_MODE == 3 || g LKP.PROF.ACL_KEY == 3
        || (g LKP.PROF.L4 == 1 && g LKP.PROF.L3 == 0) || (g LKP.PROF.PTP_UDP == 1 && g LKP.PROF.L4 == 0)
        || (g LKP.PROF.ACL_KEY != 0 && g LKP.PROF.L3 == 0), 0x10, (LKP.PROF.L3.nth i).off))]
  else [(decide (d.getShInt .mtr MTR.page MTR.MTR_CFG.LEN_ADJ < -32), 0x08, MTR.MTR_CFG.LEN_ADJ.off)]

/-- TABLE_COMMIT: the list and the page's shadows are applied, or the accepted commit waits for the epoch (R117). -/
def Dev.commitTables (d : Dev) (page : Nat) : Dev :=
  match (d.tableRules page).find? (·.1) with
  | some (_, code, off) => d.rejectCommit page code off
  | none =>
    if d.epochBlocked then
      let mine := d.shadow.filter (fun e => rkeyPage e.1 == page)
      let d := { d.dropShadows page with waitShadow := mine, commitPage := page, commitDevice := false }
      let d := ((d.set page COM.COMMIT_STAT.REJECTED 0).set page COM.COMMIT_STAT.CODE 0).incWrap page COM.COMMIT_STAT.ACCEPTED
      (d.set LKP.page LKP.EPOCH_STAT.PENDING 1).set page COM.STAT.BUSY 1
    else
      let ops := d.staging
      (({ d.acceptCommit page with staging := [] }).applyTables ops false).refreshStage

/-- R117: the commit that waits completes once its epoch has drained or aged; the device's own applies an empty list. -/
def execPendingCommitApply (s : State) : Host.Outcome State Fault Refusal :=
  onDev (fun d => d.when (d.pendingCommit && !d.epochBlocked) (fun d =>
    if d.commitDevice then
      (({ d with commitDevice := false }).set LKP.page LKP.EPOCH_STAT.PENDING 0).applyTables [] true
    else
    let page := d.commitPage
    let later := d.shadow.filter (fun e => rkeyPage e.1 == page)
    let d : Dev := { d with
      shadow := d.waitShadow ++ d.shadow.filter (fun e => rkeyPage e.1 != page)
      waitShadow := [] }
    let d := (d.applyShadows page).writeImage page
    let d := later.foldl (fun d e => match pageOf page with
      | some (t, _) => d.wrShadow t page (rkeyOff e.1) (rkeySel e.1) e.2
      | none => d) d
    let d := (d.set LKP.page LKP.EPOCH_STAT.PENDING 0).set page COM.STAT.BUSY 0
    let ops := d.staging
    (({ d with staging := [] }).applyTables ops false).refreshStage)) s

/-- R116: an epoch superseded for longer than the hold time, or 1 ms if that is longer, is aged. -/
def execEpochAged (epoch : Fin 16) (s : State) : Host.Outcome State Fault Refusal :=
  onDev (fun d =>
    let e := epoch.val
    let ms := max 1 (d.get BUF.page BUF.HOLD_CFG.HOLD_MS)
    let due : Bool := (tget (fun _ => 0) d.epochSince e) + ms * 1000000 * nsU ≤ d.now
    d.when (due && e != d.get LKP.page LKP.EPOCH_STAT.CUR && (d.get LKP.page LKP.EPOCH_STAT.OUTSTANDING).testBit e)
      (fun d =>
        let d := d.frames.foldl (fun d x => match x.2 with
          | some f => if f.epoch = e then d.setFrame x.1 (some { f with aged := true }) else d
          | none => d) d
        let d := (d.drainEpoch e).set LKP.page LKP.EPOCH_AGED.AGED_FRAMES d.agedFrames
        ((d.incSat LKP.page LKP.EPOCH_AGED.AGED_EPOCHS).raise LKP.page LKP.INT_RAW.EPOCH_AGED).count 0x674)) s

/-- Whether a Reroll has been due for 1 ms without a commit (R117). -/
def Dev.rerollOverdue (d : Dev) : Bool :=
  d.flag BUF.page BUF.HASH_STAT.PENDING && decide (d.rerollAt + 1000000 * nsU ≤ d.now) && !d.pendingCommit

/-- R117: 1 ms after a Reroll fell due without a commit, the device commits an empty list; it waits as any commit does
for an epoch that has not drained. -/
def execRerollEmptyCommit (s : State) : Host.Outcome State Fault Refusal :=
  onDev (fun d => d.when d.rerollOverdue (fun d =>
    if d.epochBlocked then
      ({ d with commitDevice := true, commitPage := 0 }).set LKP.page LKP.EPOCH_STAT.PENDING 1
    else d.applyTables [] true)) s

/-! ### The entry windows (R400, R431) -/

/-- An ENTRY_CMD of the LKP or the MTR page that changes tables: the owner's alone. -/
def Dev.entryOp (d : Dev) (w : EntryWin) (acc : Accessor) (op : Nat) (f : Dev → Dev) : Dev :=
  d.asOwner acc w.page w.result.off f [(w.result.off, BitVec.ofNat 32 op)]

/-- READ of an LKP table. -/
def execLkpRead (acc : Accessor) (s : State) : Host.Outcome State Fault Refusal :=
  onDev (fun d => d.asAny acc LKP.page (fun d =>
    let w := lkpWin
    match lkpTable (winTable d w acc) with
    | none => d.winResult w acc 4
    | some t =>
      let i := winIndex d w acc
      if tableSize t ≤ i || tableWords t ≤ winWord d w acc then d.winResult w acc 4
      else d.winCapture w acc ((List.range (tableWords t)).map (fun k => d.stored t i k))) [(lkpWin.result.off, 1)]) s

def execLkpStageWrite (acc : Accessor) (s : State) : Host.Outcome State Fault Refusal :=
  onDev (fun d => d.entryOp lkpWin acc 2 (fun d => match lkpTable (winTable d lkpWin acc) with
    | none => d.stageRefuse lkpWin acc (if d.pendingCommit then 6 else 4)
    | some t => d.stageWrite lkpWin acc t)) s

def execLkpStageDelete (acc : Accessor) (s : State) : Host.Outcome State Fault Refusal :=
  onDev (fun d => d.entryOp lkpWin acc 3 (fun d => match lkpTable (winTable d lkpWin acc) with
    | none => d.stageRefuse lkpWin acc (if d.pendingCommit then 6 else 4)
    | some t => d.stageDelete lkpWin acc t)) s

/-- A key shown in ENTRY_LO and ENTRY_MID. -/
def Dev.showKey (d : Dev) (acc : Accessor) (key : Nat) : Dev :=
  let lo := key % 2 ^ 32
  let mid := key / 2 ^ 32 % 2 ^ 16 + key / 2 ^ 48 * 2 ^ 16
  (d.set LKP.page LKP.ENTRY_LO.DATA_LO lo acc.idx).set LKP.page LKP.ENTRY_MID.DATA_MID mid acc.idx

/-- READ_KEY: the key of an FDB or stream entry rebuilt from its bucket and remainder; an entry that is not valid holds
none: RESULT 1, and the window keeps its words (DESIGN CHOICE, log entry 135). -/
def execLkpReadKey (acc : Accessor) (s : State) : Host.Outcome State Fault Refusal :=
  onDev (fun d => d.asAny acc LKP.page (fun d =>
    let w := lkpWin
    let i := winIndex d w acc
    match lkpTable (winTable d w acc) with
    | some .fdb =>
      let d := d.reads .fdb [i]
      let e := d.lookupWord .fdb i
      if !bitOf e 63 then d.winResult w acc 1 else
      let m := BitVec.ofNat 60 (bitsOf e 44 0 * 32768 + i / 8)
      (d.showKey acc ((Config.mix60 (BitVec.ofNat 60 d.fdbKey)).symm m).toNat).winResult w acc 0
    | some .sid =>
      if 16384 ≤ i then d.winResult w acc 4 else
      let d := d.reads .sid [i]
      let e := d.lookupWord .sid i
      if !bitOf e 63 then d.winResult w acc 1 else
      let m := BitVec.ofNat 61 (bitsOf e 48 0 * 4096 + i / 4)
      (d.showKey acc ((Config.mix61 (BitVec.ofNat 61 d.sidKey)).symm m).toNat).winResult w acc 0
    | _ => d.winResult w acc 4) [(lkpWin.result.off, 4)]) s

/-- The key in an accessor's window: METHOD, FID or VID, MAC address. -/
def winKeyOf (d : Dev) (acc : Accessor) : Nat × Nat × Nat :=
  let lo := d.get LKP.page LKP.ENTRY_LO.DATA_LO acc.idx
  let mid := d.get LKP.page LKP.ENTRY_MID.DATA_MID acc.idx
  (mid / 2 ^ 28 % 2, mid / 2 ^ 16 % 4096, mid % 2 ^ 16 * 2 ^ 32 + lo)

/-- LOOKUP: the number of the table and the index found go to ENTRY_ADDR. -/
def execLkpLookup (acc : Accessor) (s : State) : Host.Outcome State Fault Refusal :=
  onDev (fun d => d.asAny acc LKP.page (fun d =>
    let (m, v, mac) := winKeyOf d acc
    let target := d.get LKP.page LKP.ENTRY_AUX.TARGET acc.idx
    let shown (d : Dev) (n : Nat) (found : Option Nat) : Dev :=
      match found with
      | none => d.winResult lkpWin acc 1
      | some i =>
        let d := (d.set LKP.page LKP.ENTRY_ADDR.TABLE n acc.idx).set LKP.page LKP.ENTRY_ADDR.INDEX i acc.idx
        d.winResult lkpWin acc 0
    if target = 0 then shown (d.reads .fdb (d.fdbWays v mac)) 2 (d.fdbFind v mac)
    else if target = 1 then shown (d.reads .sid (d.sidWays m v mac)) 4 (d.sidFind m v mac)
    else d.winResult lkpWin acc 4) [(lkpWin.result.off, 5)]) s

/-- The FDB word of a STAGE_INSERT: AGE = 1 for a dynamic entry. -/
def insertFdbWord (d : Dev) (acc : Accessor) (rem : Nat) : Data :=
  let g (f : Field) : Nat := d.get LKP.page f acc.idx
  let st := g LKP.ENTRY_AUX.STATIC
  BitVec.ofNat 64 (2 ^ 63 + st * 2 ^ 62 + (1 - st) * 2 ^ 61 + g LKP.ENTRY_AUX.MCAST * 2 ^ 60
    + g LKP.ENTRY_AUX.DEST * 2 ^ 48 + g LKP.ENTRY_AUX.DROP_SA * 2 ^ 47 + g LKP.ENTRY_AUX.PUNT * 2 ^ 46 + rem)

/-- The stream word of a STAGE_INSERT. -/
def insertSidWord (d : Dev) (acc : Accessor) (rem : Nat) : Data :=
  let g (f : Field) : Nat := d.get LKP.page f acc.idx
  let h := g LKP.ENTRY_AUX.DROP_SA * 2 ^ 13 + g LKP.ENTRY_AUX.PUNT * 2 ^ 12 + g LKP.ENTRY_AUX.DEST
  BitVec.ofNat 64 (2 ^ 63 + h * 2 ^ 49 + rem)

/-- STAGE_INSERT by key: the entry that holds it is replaced, else a way is taken and reserved, else RESULT 5. A key
staged before keeps the way it reserved; an entry whose way another key has reserved is gone at the commit and is not
replaced. -/
def Dev.stageInsert (d : Dev) (acc : Accessor) : Dev :=
  let (m, v, mac) := winKeyOf d acc
  let target := d.get LKP.page LKP.ENTRY_AUX.TARGET acc.idx
  if d.pendingCommit then d.stageRefuse lkpWin acc 6
  else if target = 0 then
    let d := d.drawFdbKey
    let (b, r) := d.fdbMix v mac
    let d := d.reads .fdb (d.fdbWays v mac)
    let kept := (d.fdbFind v mac).filter (fun i => !d.reserved .fdb i)
    match ((d.stagedWay .fdb (d.fdbWays v mac) 44 r).or kept).or (d.fdbWay b) with
    | some i => d.stage lkpWin acc .fdb ⟨TableId.fdb.num, i, [insertFdbWord d acc r], true, false⟩
    | none => d.stageRefuse lkpWin acc 5
  else if target = 1 then
    let d := d.drawSidKey
    let (b, r) := d.sidMix m v mac
    let d := d.reads .sid (d.sidWays m v mac)
    let kept := (d.sidFind m v mac).filter (fun i => !d.reserved .sid i)
    match ((d.stagedWay .sid (d.sidWays m v mac) 48 r).or kept).or (d.sidWay b) with
    | some i => d.stage lkpWin acc .sid ⟨TableId.sid.num, i, [insertSidWord d acc r], true, false⟩
    | none => d.stageRefuse lkpWin acc 5
  else d.stageRefuse lkpWin acc 4

def execLkpStageInsert (acc : Accessor) (s : State) : Host.Outcome State Fault Refusal :=
  onDev (fun d => d.entryOp lkpWin acc 6 (·.stageInsert acc)) s

/-- STAGE_CLEAR discards the list; refused while a commit waits. -/
def execLkpStageClear (acc : Accessor) (s : State) : Host.Outcome State Fault Refusal :=
  onDev (fun d => d.entryOp lkpWin acc 7 (fun d =>
    if d.pendingCommit then d.stageRefuse lkpWin acc 6
    else (({ d with staging := [] }).refreshStage).winResult lkpWin acc 0)) s

/-- FLUSH_DYNAMIC: the dynamic entries of one endpoint, or all with 0x3F, removed at once. -/
def execLkpFlushDynamic (acc : Accessor) (s : State) : Host.Outcome State Fault Refusal :=
  onDev (fun d => d.entryOp lkpWin acc 8 (fun d =>
    let ep := d.get LKP.page LKP.ENTRY_LO.DATA_LO acc.idx % 64
    if 49 < ep ∧ ep ≠ 63 then d.winResult lkpWin acc 4 else
    let d := (d.listed .fdb).foldl (fun d i =>
      let d := d.reads .fdb [i]
      let w := d.lookupWord .fdb i
      if bitOf w 63 && !bitOf w 62 && (ep == 63 || (!bitOf w 60 && bitsOf w 59 48 == ep)) then d.setEntry .fdb i 0
      else d) d
    d.refreshFdb.winResult lkpWin acc 0)) s

/-- The words of a meter's state as they read (R107): whole bytes. -/
def Dev.meterWords (d : Dev) (i : Nat) : List Native :=
  let w1 := d.lookupWord .meterCfg i 1
  let m := d.meter i
  let tc := min (bitsOf w1 63 40) (m.tc / byteU)
  let tp := min (bitsOf w1 39 16) (m.tp / byteU)
  [encodeNative (BitVec.ofNat 64 (tc * 2 ^ 40 + tp * 2 ^ 16)),
   encodeNative (BitVec.ofNat 64 (m.green * 2 ^ 32 + m.yellow)), encodeNative (BitVec.ofNat 64 (m.red * 2 ^ 32))]

/-- READ of a meter's configuration or state. -/
def execMtrRead (acc : Accessor) (s : State) : Host.Outcome State Fault Refusal :=
  onDev (fun d => d.asAny acc MTR.page (fun d =>
    let w := mtrWin
    let i := winIndex d w acc
    match winTable d w acc, winWord d w acc with
    | 0, 0 => d.winCapture w acc ((List.range 2).map (fun k => d.stored .meterCfg i k))
    | 0, 1 => d.winCapture w acc ((List.range 2).map (fun k => d.stored .meterCfg i k))
    | 1, n => if n < 3 then d.winCapture w acc (d.meterWords i) else d.winResult w acc 4
    | _, _ => d.winResult w acc 4) [(mtrWin.result.off, 1)]) s

def execMtrStageWrite (acc : Accessor) (s : State) : Host.Outcome State Fault Refusal :=
  onDev (fun d => d.entryOp mtrWin acc 2 (fun d =>
    if winTable d mtrWin acc = 0 then d.stageWrite mtrWin acc .meterCfg
    else d.stageRefuse mtrWin acc (if d.pendingCommit then 6 else 4))) s

def execMtrStageDelete (acc : Accessor) (s : State) : Host.Outcome State Fault Refusal :=
  onDev (fun d => d.entryOp mtrWin acc 3 (fun d =>
    if winTable d mtrWin acc = 0 then d.stageDelete mtrWin acc .meterCfg
    else d.stageRefuse mtrWin acc (if d.pendingCommit then 6 else 4))) s

/-- A meter with both buckets full under its configuration and its counts zero (R107). -/
def Dev.fullMeter (d : Dev) (i now : Nat) : Meter :=
  let w1 := d.lookupWord .meterCfg i 1
  if bitOf (d.lookupWord .meterCfg i) 14 then ⟨bitsOf w1 63 40 * byteU, bitsOf w1 39 16 * byteU, now, 0, 0, 0⟩ else meter0

/-- RESET_STATE: both buckets full, the counts zero, at once (R107), at the time that Felt reads (R76). -/
def execMtrResetState (acc : Accessor) (s : State) : Host.Outcome State Fault Refusal :=
  onDev (fun d => d.entryOp mtrWin acc 9 (fun d =>
    let i := winIndex d mtrWin acc
    let (t, d) := (d.reads .meterCfg [i]).readTime
    (d.setMeter i (d.fullMeter i t)).winResult mtrWin acc 0)) s

end Sys2Proof.Machine
end

