-- ==== Sys2Proof/Machine/Parse.lean ====
section
/-!
DEFINITION. Machine/Parse.lean: step 2 of the ingress pipeline (R86, R89): what a parse profile finds in the first 128
bytes of a frame, and the ACL search key built from it (R98).
-/
namespace Sys2Proof.Machine

/-- A parse profile (PROF0 to PROF7). -/
structure Profile where
  tagMode : Nat
  aclKey : Nat
  l3 : Bool
  l4 : Bool
  ptpL2 : Bool
  ptpUdp : Bool
  rtag : Bool
  hsr : Bool
  prp : Bool
  epash : Bool

/-- The profile an endpoint's port entry selects. -/
def Dev.profile (d : Dev) (i : Nat) : Profile :=
  let g (f : Field) : Nat := d.get LKP.page (f.nth i)
  let b (f : Field) : Bool := g f != 0
  { tagMode := g LKP.PROF.TAG_MODE, aclKey := g LKP.PROF.ACL_KEY, l3 := b LKP.PROF.L3, l4 := b LKP.PROF.L4
    ptpL2 := b LKP.PROF.PTP_L2, ptpUdp := b LKP.PROF.PTP_UDP, rtag := b LKP.PROF.RTAG, hsr := b LKP.PROF.HSR
    prp := b LKP.PROF.PRP, epash := b LKP.PROF.EPASH }

/-- What the parser found. `l3` is 0, 4 or 6; `ptp` 0, 2 (Layer 2), 4 or 6 (UDP); ports and flags are 0 where absent. -/
structure Parsed where
  da : Nat
  sa : Nat
  /-- the EtherType after the tags the profile parses, and where it stands -/
  et : Nat
  etAt : Nat
  tagged : Bool
  vid : Nat
  pcp : Nat
  dei : Bool
  tpid : Nat
  l3 : Nat
  sip : Nat
  dip : Nat
  proto : Nat
  dscp : Nat
  laterFragment : Bool
  l4src : Nat
  l4dst : Nat
  udp : Bool
  tcpFlags : Nat
  ptp : Nat
  ptpOfs : Nat
  ptpType : Nat
  rtagAt : Option Nat
  hsrAt : Option Nat
  prpSeq : Option Nat
  hint : Option Nat
  exception : Bool

/-- `n` bytes at an offset, most significant first (R22); bytes past the end read 0. -/
def beAt (h : List (BitVec 8)) (o n : Nat) : Nat := ofBytesBE ((List.range n).map (fun i => h.getD (o + i) 0))

/-- The HSR tag and the R-tag, six bytes each, in either order after the VLAN tags (DEDUCED, log entry 13). -/
def tags6 (p : Profile) (h : List (BitVec 8)) : (fuel at_ : Nat) → (r s : Option Nat) → Nat × Option Nat × Option Nat
  | 0, o, r, s => (o, r, s)
  | n + 1, o, r, s =>
    if p.rtag && beAt h o 2 == 0xF1C1 && r.isNone then tags6 p h n (o + 6) (some o) s
    else if p.hsr && beAt h o 2 == 0x892F && s.isNone then tags6 p h n (o + 6) r (some o)
    else (o, r, s)

/-- Whether a header is wholly inside the bytes that are there. -/
def fits (h : List (BitVec 8)) (end_ : Nat) : Bool := decide (end_ ≤ h.length)

/-- Tags and addresses (R89). -/
def parseL2 (p : Profile) (h : List (BitVec 8)) : Parsed :=
  let t := beAt h 12 2
  let tci := beAt h 14 2
  let (tagged, o) :=
    match p.tagMode with
    | 1 => if t = 0x8100 then (true, 16) else (false, 12)
    | 2 => if t = 0x88A8 then (true, if beAt h 16 2 = 0x8100 then 20 else 16)
        else if t = 0x8100 then (false, 16) else (false, 12)
    | _ => (false, 12)
  let (o, r, s) := tags6 p h 2 o none none
  { da := beAt h 0 6, sa := beAt h 6 6, et := beAt h o 2, etAt := o, tagged := tagged
    vid := if tagged then tci % 4096 else 0, pcp := if tagged then tci / 8192 else 0
    dei := tagged && (tci / 4096 % 2 == 1), tpid := if p.tagMode = 2 then 0x88A8 else 0x8100
    l3 := 0, sip := 0, dip := 0, proto := 0, dscp := 0, laterFragment := false, l4src := 0, l4dst := 0, udp := false
    tcpFlags := 0, ptp := 0, ptpOfs := 0, ptpType := 0, rtagAt := r, hsrAt := s, prpSeq := none, hint := none
    exception := false }

/-- The IPv4 or IPv6 header, with the length hint of R125; and where Layer 4 begins. -/
def parseL3 (p : Profile) (h : List (BitVec 8)) (x : Parsed) : Parsed × Nat :=
  let o := x.etAt + 2
  if p.l3 && x.et == 0x0800 then
    let hl := beAt h o 1 % 16 * 4
    if 128 < o + max hl 20 then ({ x with exception := true }, 0)
    else if beAt h o 1 / 16 = 4 ∧ 20 ≤ hl ∧ fits h (o + hl) = true then
      ({ x with
        l3 := 4, sip := beAt h (o + 12) 4, dip := beAt h (o + 16) 4, proto := beAt h (o + 9) 1
        dscp := beAt h (o + 1) 1 / 4, laterFragment := beAt h (o + 6) 2 % 8192 != 0
        hint := some (o + beAt h (o + 2) 2 + 4) }, o + hl)
    else (x, 0)
  else if p.l3 && x.et == 0x86DD then
    if 128 < o + 40 then ({ x with exception := true }, 0)
    else if beAt h o 1 / 16 = 6 ∧ fits h (o + 40) = true then
      ({ x with
        l3 := 6, sip := beAt h (o + 8) 16, dip := beAt h (o + 24) 16, proto := beAt h (o + 6) 1
        dscp := beAt h o 2 / 64 % 64, hint := some (o + 40 + beAt h (o + 4) 2 + 4) }, o + 40)
    else (x, 0)
  else (x, 0)

/-- UDP and TCP, a TCP header with the options that its data offset counts (R89). Layer 4 is looked for only where the
next header of the fixed IPv6 header names it: extension headers are not followed (DESIGN CHOICE, log entry 133). -/
def parseL4 (p : Profile) (h : List (BitVec 8)) (x : Parsed) (o : Nat) : Parsed :=
  if !p.l4 || x.l3 == 0 || x.laterFragment then x
  else
    let need := if x.proto = 17 then 8 else if x.proto = 6 then max 20 (beAt h (o + 12) 1 / 16 * 4) else 0
    if need = 0 then x
    else if 128 < o + need then { x with exception := true }
    else if fits h (o + need) then
      { x with
        l4src := beAt h o 2, l4dst := beAt h (o + 2) 2, udp := x.proto == 17
        tcpFlags := if x.proto = 6 then beAt h (o + 13) 1 else 0 }
    else x

/-- PTP over Ethernet or UDP: the 34 bytes of its common header (R89). -/
def parsePtp (p : Profile) (h : List (BitVec 8)) (x : Parsed) (o4 : Nat) : Parsed :=
  let at_ : Option (Nat × Nat) :=
    if p.ptpL2 && x.et == 0x88F7 then some (2, x.etAt + 2)
    else if p.ptpUdp && x.udp && (x.l4dst == 319 || x.l4dst == 320) then some (x.l3, o4 + 8)
    else none
  match at_ with
  | none => x
  | some (k, o) =>
    if 128 < o + 34 then { x with exception := true }
    else if fits h (o + 34) then { x with ptp := k, ptpOfs := o, ptpType := beAt h o 1 % 16 }
    else x

/-- The sequence number of a PRP trailer: the last six bytes before the FCS of a frame that has ended. -/
def prpTrailer (bytes : List (BitVec 8)) : Option Nat :=
  let n := bytes.length
  if 20 ≤ n && beAt bytes (n - 2) 2 == 0x88FB then some (beAt bytes (n - 6) 2) else none

/-- Step 2: the parse of the bytes received, `whole` when the frame has ended. -/
def parseFrame (p : Profile) (bytes : List (BitVec 8)) (whole : Bool) : Parsed :=
  let h := bytes.take 128
  let (x, o4) := parseL3 p h (parseL2 p h)
  let x := parsePtp p h (parseL4 p h x o4) o4
  { x with prpSeq := if whole && p.prp then prpTrailer bytes else none }

/-! ### The ACL (R98) -/

/-- The key of R98 as a number of 192 bits. -/
def aclKeyOf (p : Profile) (x : Parsed) (ep vid pcp : Nat) : Nat :=
  let kind := if x.l3 = 0 ∨ p.aclKey = 0 then 0 else if x.l3 = 4 then 1 else if p.aclKey = 2 then 3 else 2
  let head := kind * 2 ^ 190 + ep * 2 ^ 184 + vid * 2 ^ 172 + pcp * 2 ^ 169
  head + match kind with
  | 0 => x.da * 2 ^ 120 + x.sa * 2 ^ 72 + x.et * 2 ^ 56
  | 1 => x.sip * 2 ^ 136 + x.dip * 2 ^ 104 + x.proto * 2 ^ 96 + x.dscp * 2 ^ 90 + x.l4src * 2 ^ 74 + x.l4dst * 2 ^ 58
      + x.tcpFlags * 2 ^ 50 + (if x.laterFragment then 2 ^ 49 else 0) + x.da
  | n => x.sip / (if n = 3 then 2 ^ 64 else 1) % 2 ^ 64 * 2 ^ 104
      + x.dip / (if n = 3 then 2 ^ 64 else 1) % 2 ^ 64 * 2 ^ 40 + x.proto * 2 ^ 32 + x.l4src * 2 ^ 16 + x.l4dst

/-- The three key or mask words of an entry, the most significant first; none when one cannot be read (log entry 8). -/
def Dev.aclWords (d : Dev) (i first : Nat) : Option Nat :=
  let rd (w : Nat) : Option Nat := match d.readNative .aclKey i w with
    | .clean v => some v.toNat
    | .corrected v => some v.toNat
    | .uncorrectable => none
  match rd first, rd (first + 1), rd (first + 2) with
  | some a, some b, some c => some (a * 2 ^ 128 + b * 2 ^ 64 + c)
  | _, _, _ => none

def Dev.aclMatches (d : Dev) (key i : Nat) : Bool :=
  match d.aclWords i 0, d.aclWords i 3 with
  | some k, some m => (k ^^^ key) &&& m == 0
  | _, _ => false

/-- The action of the valid matching entry with the lowest index. -/
def Dev.aclLookup (d : Dev) (key : Nat) : Option Data :=
  let valid := (d.listed .aclAct).filter (fun i => bitOf (d.lookupWord .aclAct i) 63)
  (valid.foldl (fun (best : Option Nat) i =>
    if d.aclMatches key i && (match best with | some b => decide (i < b) | none => true) then some i else best) none).map
    (fun i => d.lookupWord .aclAct i)

end Sys2Proof.Machine
end

