-- ==== Sys2Proof/Machine/Ingress.lean ====
section
/-!
DEFINITION. Machine/Ingress.lean: the ingress pipeline (R86 to R112), frame numbering and recovery as frames pass
(R293 to R295), the Crown trip flags (R342), and the end of a received frame (R108, R165).
-/
namespace Sys2Proof.Machine

/-! ### Numbering and recovery (R293, R294) -/

/-- Outcome `n` of a handle's recovery entry counted by the watch sets bound to it (R372): 0 passed, 1 duplicate, 2
rogue, 3 reset. -/
def Dev.watch (d : Dev) (handle n : Nat) : Dev :=
  (List.range 128).foldl (fun d w =>
    if d.flag TAL.page TAL.WATCH_CFG.VALID w && d.get TAL.page TAL.WATCH_CFG.HANDLE w == handle
    then d.count (0xB20 + 4 * w + n) else d) d

/-- What the recovery function of R294 does with a sequence number: 0 pass, 1 duplicate, 2 rogue; and the entry after.
-/
def recover (w : Data) (seq : Nat) : Nat × Data :=
  let recov := bitsOf w 47 32
  let taken (hist : Nat) : Data := putBits (putBits (putBits w 60 60 0) 47 32 seq) 31 0 hist
  let d : Int := (((seq : Int) - recov + 32768) % 65536) - 32768
  let len : Int := bitsOf w 59 55
  if bitOf w 60 then (0, taken 1)
  else if bitOf w 62 then (if d = 0 then (1, w) else (0, putBits w 47 32 seq))
  else if len ≤ d ∨ d ≤ -len then (2, w)
  else if 0 < d then (0, taken (bitsOf w 31 0 * 2 ^ d.toNat + 1))
  else
    let i := (-d).toNat
    if bitOf w i then (1, w) else (0, putBits w i i 1)

/-- A frame with a handle judged by its recovery entry on the number it carries: `true` when it passes, and whether its
tag or trailer is removed. -/
def Dev.judge (d : Dev) (handle : Nat) (seq : Option Nat) : Dev × Bool :=
  let d := d.reads .recv [handle]
  let w := d.lookupWord .recv handle
  if !bitOf w 63 then (d, true)
  else match seq with
  | none => (d.count 0x692, true)
  | some q =>
    let (v, w') := recover w q
    let d := if w' = w then d else d.setEntry .recv handle w'
    let d := d.watch handle v
    if v = 0 then ({ d with recLast := tset (fun _ => 0) d.recLast handle d.now }, true) else (d, false)

/-- Encodings a frame carries: 0 R-tag, 1 HSR tag, 2 PRP trailer. -/
def carries (rtag hsr : Option Nat) (prp : Bool) (enc : Nat) : Bool :=
  match enc with
  | 0 => rtag.isSome
  | 1 => hsr.isSome
  | _ => prp

/-- FRAME_NUMBERING: the number a frame takes from its handle's generation entry. -/
def Dev.takeNumber (d : Dev) (handle : Nat) (rtag hsr : Option Nat) (prp : Bool) : Option (Nat × Nat) × Dev :=
  let d := d.reads .gen [handle]
  let w := d.lookupWord .gen handle
  let enc := bitsOf w 62 61
  if !bitOf w 63 || enc == 3 || carries rtag hsr prp enc then (none, d)
  else
    let seq := bitsOf w 60 45
    let d := d.setEntry .gen handle (putBits w 60 45 (seq + 1))
    let d : Dev := { d with genLast := tset (fun _ => 0) d.genLast handle d.now }
    (some (enc, seq), d.count 0x690)

/-! ### Redundant pairs (R295) -/

/-- Mode and ports of a pair. -/
def Dev.redPair (d : Dev) (i : Nat) : Nat × Nat × Nat :=
  (d.get DBL.page DBL.RED_CFG.MODE i, d.get DBL.page DBL.RED_CFG.PORT_A i, d.get DBL.page DBL.RED_CFG.PORT_B i)

/-- The pairs in use: 1 PRP, 2 HSR. -/
def Dev.redPairs (d : Dev) : List (Nat × Nat × Nat) :=
  ((List.range 4).map d.redPair).filter (fun p => p.1 == 1 || p.1 == 2)

/-- The pair a port belongs to, and the pair's other port. -/
def Dev.redOf (d : Dev) (ep : Nat) : Option (Nat × Nat) :=
  (d.redPairs.find? (fun p => p.2.1 == ep || p.2.2 == ep)).map (fun p => (p.1, if p.2.1 = ep then p.2.2 else p.2.1))

/-- Destinations with both ports of each pair that one of them belongs to (R295). -/
def Dev.redBoth (d : Dev) (dests : List Nat) : List Nat :=
  d.redPairs.foldl (fun l p =>
    if l.any (fun e => e == p.2.1 || e == p.2.2) then (l ++ [p.2.1, p.2.2]).eraseDups else l) dests

/-- Destinations completed by R295: both ports of a pair; a frame from a pair's own port does not go to the other LAN,
and goes round an HSR ring unless its destination is one local endpoint. -/
def Dev.redDests (d : Dev) (input : Nat) (local_ : Bool) (dests : List Nat) : List Nat :=
  let both := d.redBoth
  match d.redOf input with
  | none => both dests
  | some (mode, other) =>
    let rest := (dests.filter (fun e => e != other)).foldl (fun l e =>
      match d.redOf e with
      | some (_, o) => l ++ [e, o]
      | none => l ++ [e]) []
    let rest := rest.eraseDups
    if mode = 2 && !local_ then rest ++ [other] else rest

/-! ### Crown trips (R342) -/

/-- TRIP_SET: every flag mapped to a handle is set and counts. -/
def Dev.setTrip (d : Dev) (handle : Nat) : Dev :=
  (List.range 32).foldl (fun d f =>
    if d.flag CRN.page CRN.TRIP_MAP.VALID f && d.get CRN.page CRN.TRIP_MAP.HANDLE f == handle then
      let d := { d with tripCnt := tset (fun _ => 0) d.tripCnt f ((tget (fun _ => 0) d.tripCnt f + 1) % 256) }
      (d.set CRN.page CRN.TRIP_FLAGS.FLAGS (d.get CRN.page CRN.TRIP_FLAGS.FLAGS ||| 2 ^ f)).raise CRN.page CRN.INT_RAW.TRIP
    else d) d

/-! ### The pipeline -/

/-- What EP48's descriptor or EP49's request says beside the bytes (R87, R169, R223, R334); a launch time as it is
named. -/
structure InReq where
  tc : Option Nat
  direct : Option Nat
  launch : Option (Nat × Nat)
  tag : Nat
  ts : Bool
  oneStep : Bool

def noReq : InReq := ⟨none, none, none, 0, false, false⟩

/-- A frame's stamp as it was taken: time, source number (R224), soft (R220), untraceable (R25). -/
structure Stamp where
  time : Nat
  src : Nat
  soft : Bool
  untrace : Bool

/-- A frame as the steps of R86 see it. -/
structure Ctx where
  input : Nat
  p : Parsed
  prof : Profile
  /-- bytes received; the length, FCS included, when `whole` -/
  len : Nat
  whole : Bool
  req : InReq
  /-- received through a loop-back (R61); received on a port with ENABLE = 0 (R432) -/
  test : Bool
  down : Bool
  vid : Nat
  pcp : Nat
  dei : Bool
  fid : Nat
  members : Nat
  untag : Nat
  dests : List Nat
  /-- the destination is one known endpoint, not a group, and none across the ring that the frame came by (R295) -/
  local_ : Bool
  /-- destinations not limited to members (an ACL REDIRECT, DIRECT) -/
  fixed : Bool
  punt7 : Bool
  punt8 : Bool
  /-- slow protocol of subtype 0x0A -/
  esmc : Bool
  proto : Option Nat
  handle : Option Nat
  aclTc : Option Nat
  filterTc : Option Nat
  ipv : Option Nat
  pre : Nat
  colour : Nat
  meter : Option Charge
  gate : Option Charge
  filter : Option Nat
  maxSdu : Nat

/-- A stage passes the frame on, or drops it with what it has been charged (R108). -/
inductive Verdict where
  | go (d : Dev) (c : Ctx)
  | drop (d : Dev) (c : Ctx)

def Verdict.bind (v : Verdict) (f : Dev → Ctx → Verdict) : Verdict :=
  match v with
  | .go d c => f d c
  | .drop d c => .drop d c

/-- R87: the final class. -/
def Dev.finalTc (d : Dev) (c : Ctx) : Nat :=
  match c.ipv, c.filterTc, c.aclTc with
  | some t, _, _ => t
  | none, some t, _ => t
  | none, none, some t => t
  | none, none, none =>
    match c.req.tc with
    | some t => if t < 7 then t else d.pcpTc c.input c.pcp
    | none => d.pcpTc c.input c.pcp

/-- Step 3. -/
def stepPort (d : Dev) (c : Ctx) : Verdict :=
  let d := d.reads .port [c.input]
  let e := d.lookupWord .port c.input
  let named := c.p.tagged && c.p.vid != 0
  let acc := bitsOf e 33 32
  if (acc == 1 && !named) || (acc == 2 && named) then .drop (d.count 0x663) c
  else .go d { c with
    vid := if named then c.p.vid else bitsOf e 51 40
    pcp := if c.p.tagged then c.p.pcp else bitsOf e 39 37
    dei := c.p.dei }

/-- Step 4. -/
def stepVlan (d : Dev) (c : Ctx) : Verdict :=
  let d := d.reads .vlan [c.vid]
  let w0 := d.lookupWord .vlan c.vid 0
  let w1 := d.lookupWord .vlan c.vid 1
  if !bitOf w1 50 then .drop (d.count 0x661) c
  else if bitOf (d.lookupWord .port c.input) 30 && !bitOf w0 c.input then .drop (d.count 0x662) c
  else .go d { c with fid := bitsOf w0 61 50, members := bitsOf w0 49 0, untag := bitsOf w1 49 0 }

/-- A learn request queued, up to 256 (R101, R102). -/
def Dev.learnRequest (d : Dev) (fid mac ep : Nat) : Dev :=
  if 256 ≤ d.learnQ.length then d.count 0x666 else { d with learnQ := d.learnQ ++ [⟨fid, mac, ep⟩] }

/-- The source address (R94, R101): the AGE mark, a learn or move, a static move; `true` when DROP_SA discards. A hit
on a static entry of another endpoint sets its AGE as every source hit does, and STATIC_MOVE is raised and counted
only while the frame would have been learned (DESIGN CHOICE, log entry 118). -/
def stepSource (d : Dev) (c : Ctx) : Dev × Bool :=
  let learns := d.flag LKP.page LKP.LKP_CFG.LEARN_EN && bitOf (d.lookupWord .port c.input) 31 && !c.test && !c.down
  let want (d : Dev) : Dev := if learns then d.learnRequest c.fid c.p.sa c.input else d
  let d := d.reads .fdb (d.fdbWays c.fid c.p.sa)
  match d.fdbFind c.fid c.p.sa with
  | none => (want d, false)
  | some i =>
    let w := d.lookupWord .fdb i
    let d := if bitOf w 61 then d else d.setEntry .fdb i (putBits w 61 61 1)
    let here := !bitOf w 60 && bitsOf w 59 48 == c.input
    let d := if here then d
      else if bitOf w 62 then (if learns then (d.count 0x668).raise LKP.page LKP.INT_RAW.STATIC_MOVE else d)
      else want d
    (d, bitOf w 47)

/-- The endpoints of a mask. -/
def maskEps (m : Nat) : List Nat := (List.range 50).filter (fun e => m.testBit e)

/-- The destination (R94, R103, R435). PUNT takes frames whose destination hits the entry, a broadcast one too, which is
flooded all the same (DESIGN CHOICE, log entry 119). -/
def stepDest (d : Dev) (c : Ctx) : Dev × Ctx :=
  let members := maskEps c.members
  let flood (d : Dev) (allowed : Bool) : Dev × Ctx :=
    if allowed && !c.test && !c.down then (d.count 0x672, { c with dests := members.filter (· != c.input) })
    else (d, { c with dests := [] })
  let d := d.reads .fdb (d.fdbWays c.fid c.p.da)
  let hit := d.fdbFind c.fid c.p.da
  if c.p.da = 2 ^ 48 - 1 then
    let punt : Bool := match hit with | some i => bitOf (d.lookupWord .fdb i) 46 | none => false
    let (d, c) := flood d true
    (d, { c with punt7 := c.punt7 || punt })
  else
    let group := c.p.da / 2 ^ 40 % 2 == 1
    match hit with
    | none => flood d (d.flag LKP.page (if group then LKP.LKP_CFG.FLOOD_UNK_MC else LKP.LKP_CFG.FLOOD_UNK_UC))
    | some i =>
      let w := d.lookupWord .fdb i
      let c := { c with punt7 := c.punt7 || bitOf w 46 }
      let n := bitsOf w 59 48
      if !bitOf w 60 then
        let onRing : Bool := n == c.input || (match d.redOf c.input with | some (_, other) => n == other | none => false)
        (d, { c with dests := members.filter (· == n), local_ := !onRing })
      else
        let d := d.reads .mcast [n]
        let g := d.lookupWord .mcast n
        if bitOf g 63 then (d, { c with dests := members.filter (fun e => (bitsOf g 49 0).testBit e) })
        else
          let (d, c') := flood d (d.flag LKP.page LKP.LKP_CFG.FLOOD_UNK_MC)
          (d, { c' with punt7 := c.punt7 })

/-- Step 5. -/
def stepFdb (d : Dev) (c : Ctx) : Verdict :=
  let (d, dropSa) := stepSource d c
  if dropSa then .drop (d.count 0x669) c
  else
    let (d, c) := stepDest d c
    .go d c

/-- Step 6: method 0, then method 1 (R96). -/
def stepStream (d : Dev) (c : Ctx) : Verdict :=
  let d := d.reads .sid (d.sidWays 0 c.vid c.p.da)
  let first := d.sidFind 0 c.vid c.p.da
  let d := if first.isSome then d else d.reads .sid (d.sidWays 1 c.vid c.p.sa)
  let i := first.orElse (fun _ => d.sidFind 1 c.vid c.p.sa)
  .go d { c with handle := i.map (fun i => bitsOf (d.lookupWord .sid i) 62 49) }

/-- The protocol reason of R112, the first that applies; only frames from P00 to P47 take one. -/
def Dev.protoReason (d : Dev) (c : Ctx) : Option Nat :=
  if 48 ≤ c.input then none else
  let punt := bitOf (d.lookupWord .port c.input) 29
  let slow := c.p.da / 16 == 0x0180C200000
  if punt && c.p.ptp != 0 && decide (c.p.ptpType ≤ 3) then some 1
  else if punt && c.p.ptp != 0 then some 2
  else if c.p.da = 0x0180C200000E ∧ c.p.et = 0x88CC then some 3
  else if c.p.et = 0x88FB then some 4
  else if c.prof.epash && c.p.udp && c.p.l4dst == d.get LKP.page LKP.LKP_CFG.EPASH_UDP then some 5
  else if c.esmc then some 9
  else if slow then some 6
  else none

/-- Step 7 and the reasons of steps 2 to 7: an ACL drop is final but for reasons 03, 04, 06 and 09 (R87). An action 2
or 4, which sends the frame to EP49 or EP48, goes before REDIRECT = 1 (DESIGN CHOICE, log entry 120). -/
def stepAcl (d : Dev) (c : Ctx) : Verdict :=
  let proto := d.protoReason c
  let c := { c with proto := proto }
  let d := (d.reads .aclKey (d.listed .aclKey)).reads .aclAct (d.listed .aclAct)
  match d.aclLookup (aclKeyOf c.prof c.p c.input c.vid c.pcp) with
  | none => .go d c
  | some a =>
    let act := bitsOf a 62 60
    let spared := proto == some 3 || proto == some 4 || proto == some 6 || proto == some 9
    if act = 1 ∧ spared = false then .drop (d.count 0x66A) c
    else
      let c := { c with
        aclTc := if bitOf a 59 then some (bitsOf a 58 56) else none
        handle := if bitOf a 55 then some (bitsOf a 54 41) else c.handle
        pre := bitsOf a 33 32 }
      let c := if act = 2 || act = 3 then { c with punt7 := true } else c
      let c := if act = 4 || act = 5 then { c with punt8 := true } else c
      if act = 1 || act = 2 || act = 4 then .go d { c with dests := [], fixed := true }
      else if bitOf a 40 then .go d { c with dests := [bitsOf a 39 34], fixed := true }
      else .go d c

/-- What the bridge leaves: no own endpoint, only EP48 and EP49 on a loop-back, none on a disabled port; the pairs of
R295; a protocol reason takes the place of bridging (R112); a port that both has ENABLE = 0 and is in a loop-back is
taken as one in a loop-back (DESIGN CHOICE, log entry 136); a frame with nothing left is dropped, as is one for a port
in DOZE (R359; its index is DESIGN CHOICE, log entry 25). The ingress endpoint goes from a group's list too, and on a
disabled port an ACL REDIRECT to EP48 or EP49 is no ACL action that names it (DESIGN CHOICE, log entry 121). -/
def stepDests (d : Dev) (c : Ctx) : Verdict :=
  let own := c.dests == [c.input]
  let ds := c.dests.filter (fun e => e != c.input)
  let ds := if c.test then ds.filter (48 ≤ ·) else if c.down then [] else ds
  let ds := if c.test || c.down then ds else if c.fixed then d.redBoth ds else d.redDests c.input c.local_ ds
  let ds := if c.proto.isSome then [] else ds
  if d.get GLB.page GLB.PWR_STAT.STATE == 1 && decide (c.input < 48) && ds.any (· < 48) then .drop (d.count 0x677) c
  else if ds.isEmpty && c.proto.isNone && !c.punt7 && !c.punt8 then
    .drop (if c.down then d.count 0x676 else if own then d.count 0x671 else d.count 0x677) c
  else .go d { c with dests := ds }

/-- The length a meter and a gate are charged with (R108). -/
def Dev.chargeLen (d : Dev) (c : Ctx) : Int :=
  let n := if c.whole then c.len else if c.maxSdu ≠ 0 then c.maxSdu
    else if c.input < 48 then d.get (PRT.page c.input) PRT.PORT_CFG.MAX_FRAME else d.bufSize 3
  (n : Int) + d.getInt MTR.page MTR.MTR_CFG.LEN_ADJ

/-- The drop of R97, once for a frame: counted, with BLOCKED set where the filter says so. -/
def Dev.maxSduDrop (d : Dev) (filter : Nat) : Dev :=
  let w := d.lookupWord .filter filter
  let d := d.count 0x66B
  if bitOf w 63 && bitOf w 16 && !bitOf w 15 then d.deviceMark .filter filter (putBits w 15 15 1) else d

/-- Step 8. -/
def stepFilter (d : Dev) (c : Ctx) : Verdict :=
  match c.handle with
  | none => .go d c
  | some h =>
    let d := d.reads .filter [h]
    let w := d.lookupWord .filter h
    if !bitOf w 63 then .go d c
    else if bitOf w 15 then .drop (d.count 0x66C) c
    else
      let max := bitsOf w 30 17
      if max ≠ 0 ∧ max < c.len then .drop (d.maxSduDrop h) c
      else .go d { c with
        filter := some h, maxSdu := max, filterTc := if bitOf w 62 then some (bitsOf w 61 59) else none }

/-- A latch of a gate set in the entry that is in force. -/
def Dev.latchGate (d : Dev) (g bit : Nat) : Dev :=
  let x := d.gateRun g
  match x.old with
  | some (w, t) => d.setGateRun g { x with old := some (putBits w bit bit 1, t) }
  | none => d.deviceMark .gate g (putBits (d.lookupWord .gate g) bit bit 1)

/-- Step 9 (R109), at the time that Felt reads (R76). -/
def stepGate (d : Dev) (c : Ctx) : Verdict :=
  match c.filter with
  | none => .go d c
  | some h =>
    let f := d.lookupWord .filter h
    if !bitOf f 31 then .go d c
    else
      let g := bitsOf f 43 32
      let d := d.reads .gate [g]
      let (t, d) := d.readTime
      let x := d.gateNow g t
      let w := d.gateWord g x.seen
      if !bitOf w 63 then .drop (d.count 0x66D) c
      else
        let d := d.setGateRun g x
        let d := d.reads .gateList [x.entry]
        let e := d.lookupWord .gateList x.entry
        let b := d.chargeLen c
        if !bitOf e 63 then .drop ((if bitOf w 62 then d.latchGate g 61 else d).count 0x66D) c
        else if bitOf w 61 then .drop (d.count 0x66D) c
        else if bitOf w 59 then .drop (d.count 0x66E) c
        else if bitsOf e 28 4 ≠ 0 ∧ (bitsOf e 28 4 : Int) < x.octets + b then
          .drop ((if bitOf w 60 then d.latchGate g 59 else d).count 0x66E) c
        else
          .go (d.setGateRun g { x with octets := x.octets + b }) { c with
            ipv := if bitOf e 62 then some (bitsOf e 61 59) else none
            gate := some ⟨g, b, false, x.entry, x.cycle⟩ }

/-- A TC7 frame that is not green (R111). -/
def Dev.tc7Nonconf (d : Dev) (meter : Nat) : Dev :=
  let d := (d.set MTR.page MTR.TC7_LAST.VALID 1).set MTR.page MTR.TC7_LAST.INDEX meter
  (d.raise MTR.page MTR.INT_RAW.TC7_NONCONF).count 0x66F

/-- Step 10 (R97, R104, R105, R111), at the time that Felt reads (R76). -/
def stepMeter (d : Dev) (c : Ctx) : Verdict :=
  match c.filter with
  | none => .go d c
  | some h =>
    let f := d.lookupWord .filter h
    if !bitOf f 44 then .go d c
    else
      let m := bitsOf f 58 45
      let tc := d.finalTc c
      let d := d.reads .meterCfg [m]
      let w0 := d.lookupWord .meterCfg m
      if !bitOf w0 14 then .drop (if tc = 7 then d.tc7Nonconf m else d.count 0x678) c
      else
        let (t, d) := d.readTime
        let b := d.chargeLen c
        let pre := if c.pre ≠ 0 then c.pre - 1 else if c.dei then 1 else 0
        let (col, s) := meterColour w0 (d.lookupWord .meterCfg m 1) (d.meter m) t b.toNat pre
        let d := d.setMeter m s
        let act := if col = 1 then bitsOf w0 13 12 else if col = 2 then bitsOf w0 11 10 else 0
        let c := { c with colour := col, meter := if col = 2 then none else some ⟨m, b, col == 0, 0, 0⟩ }
        if tc = 7 then (if col = 0 then .go d c else .drop (d.tc7Nonconf m) c)
        else if act = 2 then .drop (d.count 0x678) c
        else .go d { c with dei := c.dei || act == 1 }

/-- R111: a TC7 frame needs TC7_EN at its ingress port and at each destination port. TC7_LAST shows the meters that
found a frame not green, not a drop for TC7_EN = 0 (DESIGN CHOICE, log entry 137). -/
def stepTc7 (d : Dev) (c : Ctx) : Verdict :=
  if d.finalTc c ≠ 7 then .go d c
  else
    let ok (e : Nat) : Bool := decide (48 ≤ e) || d.flag (PRT.page e) PRT.PORT_CFG.TC7_EN
    let ds := c.dests.filter ok
    if !ok c.input || (ds.isEmpty && !c.dests.isEmpty) then .drop (d.count 0x670) c
    else .go d { c with dests := ds }

/-! ### Punts (R112) -/

/-- A punt policer asked for one frame; full until its first use. -/
def Dev.policePunt (d : Dev) (reason : Nat) : Bool × Dev :=
  let d := d.reads .punt [reason]
  let (now, d) := d.readTime
  let w := d.lookupWord .punt reason
  let cap := bitsOf w 39 24 * secU
  let b := (tget (fun _ => none) d.puntBuckets reason).getD ⟨cap, now⟩
  let level := min cap (b.level + bitsOf w 63 40 * (now - b.last))
  let put (l : Nat) : Dev :=
    { d with puntBuckets := tset (fun _ => none) d.puntBuckets reason (some ⟨l, max now b.last⟩) }
  if secU ≤ level then (true, put (level - secU)) else (false, put level)

/-- One reason taken: counted as punted or lost. -/
def Dev.punt (d : Dev) (reason : Nat) : Bool × Dev :=
  let (ok, d) := d.policePunt reason
  (ok, d.count (if reason = 9 then (if ok then 0x693 else 0x694) else (if ok then 0x67F else 0x687) + reason))

def reasonEp (reason : Nat) : Nat := if reason = 6 ∨ reason = 8 then 48 else 49

/-- The reasons a frame takes: its protocol reason, and the action reasons that name another endpoint. -/
def reasonsOf (c : Ctx) : List Nat :=
  let first : List Nat := match c.proto with | some r => [r] | none => []
  let free (r : Nat) : Bool := !first.any (fun q => reasonEp q == reasonEp r)
  first ++ (if c.punt7 && free 7 then [7] else []) ++ (if c.punt8 && free 8 then [8] else [])

/-- Step 11: each reason against its own policer; those that pass, with their endpoint and class. -/
def Dev.puntAll (d : Dev) (rs : List Nat) : List (Nat × Nat × Nat) × Dev :=
  rs.foldl (fun x r =>
    let (ok, d) := x.2.punt r
    (if ok then x.1 ++ [(r, reasonEp r, bitsOf (d.lookupWord .punt r) 23 21)] else x.1, d)) ([], d)

/-! ### The frame's descriptor (R131, R221) -/

/-- Destinations with their classes: a punt's endpoint takes the punt's class. -/
def destList (tc : Nat) (dests : List Nat) (punts : List (Nat × Nat × Nat)) : List (Nat × Nat) :=
  (dests.filter (fun e => !punts.any (fun p => p.2.1 == e))).map (fun e => (e, tc)) ++ punts.map (fun p => (p.2.1, p.2.2))

/-- Tag changes at the bridged destinations (R435): removed where the VLAN is untagged, put on where the frame came
without (DEDUCED, log entry 14), at each member destination, one that an ACL REDIRECT names too; a punted frame and
one for a destination that is no member is unchanged. -/
def tagChanges (c : Ctx) (punts : List (Nat × Nat × Nat)) : List Nat × List Nat :=
  let ds := c.dests.filter (fun e => c.members.testBit e && !punts.any (fun p => p.2.1 == e))
  let off := ds.filter (fun e => c.untag.testBit e)
  let on := ds.filter (fun e => !c.untag.testBit e && (!c.p.tagged || c.p.vid == 0))
  (if c.p.tagged then off else [], on)

/-- The frame of step 12. -/
def Dev.newFrame (d : Dev) (c : Ctx) (bytes : List (BitVec 8)) (st : Stamp)
    (punts : List (Nat × Nat × Nat)) (number : Option (Nat × Nat)) (strip : Bool) : Frame :=
  let tc := d.finalTc c
  let ds := destList tc c.dests punts
  let (untag, retag) := tagChanges c punts
  { input := c.input, hdr := bytes, len := c.len, ended := c.whole, hint := c.p.hint, tc := tc, colour := c.colour
    vid := c.vid, pcp := c.pcp, dei := c.dei, tagged := c.p.tagged, tpid := c.p.tpid, handle := c.handle
    number := number, rtagAt := c.p.rtagAt, hsrAt := c.p.hsrAt, prpTail := c.p.prpSeq.isSome, strip := strip
    epoch := d.get LKP.page LKP.EPOCH_STAT.CUR, aged := false, stamp := st.time, untrace := st.untrace, src := st.src
    soft := st.soft, dests := ds, mcast := decide (1 < ds.length), untag := untag, retag := retag
    reasons := punts.map (fun p => (p.1, p.2.1)), buf := none, startBank := 0, spilled := false
    launch := none, launchReq := c.req.launch, ptp := if c.p.ptpType ≤ 3 then c.p.ptp else 0, ptpOfs := c.p.ptpOfs
    txTag := c.req.tag, txStamp := c.req.ts, oneStep := c.req.oneStep, deferred := [] }

/-- The number a frame carries, by the order of R294. -/
def carried (p : Parsed) (bytes : List (BitVec 8)) : Option Nat :=
  match p.rtagAt, p.hsrAt, p.prpSeq with
  | some o, _, _ => some (beAt bytes (o + 4) 2)
  | none, some o, _ => some (beAt bytes (o + 4) 2)
  | none, none, q => q

/-- Whether a frame's own number has come round an HSR ring (R295). -/
def Dev.ownOnRing (d : Dev) (c : Ctx) : Bool :=
  match c.handle, d.redOf c.input with
  | some h, some (2, _) => let w := d.lookupWord .gen h; bitOf w 63 && bitsOf w 62 61 == 1
  | _, _ => false

/-- Recovery after step 10, the punts, numbering, and the frame itself, which asks for its buffer; a frame whose
trailer is still to come waits for it (DEDUCED, log entry 15); one from a disabled port that its policer leaves
nowhere is counted (R432). The new frame's number when it is in the device. -/
def Dev.deliver (d : Dev) (c : Ctx) (bytes : List (BitVec 8)) (st : Stamp) : Dev × Option Nat × Option Nat :=
  if d.ownOnRing c then (d, none, none) else
  let seq := carried c.p bytes
  let rec_ := match c.handle with
    | some h => let w := d.lookupWord .recv h; if bitOf w 63 then some (h, bitOf w 61) else none
    | none => none
  let waits := rec_.isSome && seq.isNone && !c.whole && c.prof.prp
  let (d, pass) := match rec_ with
    | some (h, _) => if waits then (d, true) else d.judge h seq
    | none => (d, true)
  if !pass then (d, none, none) else
  let (punts, d) := d.puntAll (reasonsOf c)
  let ds := destList (d.finalTc c) c.dests punts
  if ds.isEmpty then (if c.down then d.count 0x676 else d, none, none) else
  let (number, d) := match c.handle with
    | some h => d.takeNumber h c.p.rtagAt c.p.hsrAt c.p.prpSeq.isSome
    | none => (none, d)
  let f := d.newFrame c bytes st punts number (match rec_ with | some (_, s) => s | none => false)
  let n := d.nextFrame
  let d := { d.setFrame n (some f) with nextFrame := n + 1 }
  let d := if f.tc = 7 then c.dests.foldl (fun d e => if e < 48 then d.wake e else d) d else d
  if waits then (d, some n, rec_.map Prod.fst) else (d.allocate n, some n, none)

/-- Steps 3 to 10 of R86 for one frame; DIRECT skips steps 4 to 7 (R334). -/
def pipeline (d : Dev) (c : Ctx) : Verdict :=
  let looked := (stepPort d c).bind (fun d c =>
    match c.req.direct with
    | some p => .go d { c with dests := [p], fixed := true }
    | none =>
      ((((stepVlan d c).bind stepFdb).bind stepStream).bind stepAcl).bind stepDests)
  ((looked.bind stepFilter).bind stepGate).bind stepMeter

/-- Slow-protocol subtype 0x0A, the first byte after the EtherType (R112, reason 09). -/
def isEsmc (x : Parsed) (bytes : List (BitVec 8)) : Bool :=
  x.da == 0x0180C2000002 && x.et == 0x8809 && beAt bytes (x.etAt + 2) 1 == 0x0A && decide (x.etAt + 2 < bytes.length)

/-- What an input goes on receiving of a frame that is not in the device. -/
def rx0 (bytes stamp : Nat) : Rx := ⟨none, bytes, none, none, none, none, 0, none, stamp⟩

/-- The parser profile of an input (R89). -/
def Dev.profileOf (d : Dev) (input : Nat) : Profile := d.profile (bitsOf (d.lookupWord .port input) 36 34)

/-- Steps 2 to 12 for the bytes an input has received (`whole`: all of them, without the FCS). Answers what the input
goes on receiving. -/
def Dev.ingress (d : Dev) (input : Nat) (bytes : List (BitVec 8)) (whole test down : Bool) (st : Stamp) (req : InReq) :
    Dev × Rx :=
  let prof := d.profileOf input
  let x := parseFrame prof bytes whole
  let d := if x.exception then (d.count 0x660).raise LKP.page LKP.INT_RAW.PARSE_EXC else d
  let c : Ctx :=
    { input := input, p := x, prof := prof, len := if whole then bytes.length + 4 else bytes.length, whole := whole
      req := req, test := test, down := down, vid := 0, pcp := 0, dei := false, fid := 0, members := 0, untag := 0
      dests := [], local_ := false, fixed := false, punt7 := false, punt8 := false
      esmc := isEsmc x bytes, proto := none, handle := none
      aclTc := none, filterTc := none, ipv := none, pre := 0, colour := 0, meter := none, gate := none
      filter := none, maxSdu := 0 }
  match pipeline d c with
  | .drop d c => (d, { rx0 bytes.length st.time with meter := c.meter, gate := c.gate })
  | .go d c =>
    let (d, n, judge) : Dev × Option Nat × Option Nat := match stepTc7 d c with
      | .drop d _ => (d, none, none)
      | .go d c => d.deliver c bytes st
    (d, ⟨n, bytes.length, c.meter, c.gate, c.handle, c.filter, c.maxSdu, judge, st.time⟩)

/-! ### A frame that goes before its end (R65, R97, R125, R165) -/

/-- The output transmitting a frame, or holding it preempted. -/
def Dev.sending (d : Dev) (n ep : Nat) : Bool :=
  let x := d.output ep
  (match x.tx with | some t => t.frame == n | none => false)
    || (match x.preempted with | some t => t.frame == n | none => false)

/-- CUT_THROUGH_ABORT: the output ends the frame with an inverted FCS. -/
def Dev.abortAt (d : Dev) (n ep : Nat) : Dev :=
  let x := d.output ep
  let mark (t : Option Tx) : Option Tx := t.map (fun t => if t.frame = n then { t with bad := true } else t)
  let d := d.setOutput ep { x with tx := mark x.tx, preempted := mark x.preempted }
  let stamp := match (d.output ep).tx.or (d.output ep).preempted with | some t => t.stamp | none => d.now
  (if ep < 48 then d.countFrame ep 14 1 stamp else d).raise SCH.page SCH.INT_RAW.CT_ABORT

/-- A frame discarded: it leaves every queue; where its transmission has started it is ended bad. -/
def Dev.discardFrame (d : Dev) (n src : Nat) : Dev :=
  match d.frame n with
  | none => d
  | some f =>
    let d := d.setHold f.input ((d.hold f.input).filter (· != n))
    let d := f.dests.foldl (fun d x =>
      if d.sending n x.1 then d.abortAt n x.1
      else
        let d := d.unqueue (voqNo f.input x.1 x.2) n
        if (d.launchOf x.1).contains n then d.setLaunch x.1 ((d.launchOf x.1).filter (· != n)) else d) d
    let left := f.dests.filter (fun x => d.sending n x.1)
    let d := d.modFrame n (fun f => { f with dests := left, ended := true })
    if left.isEmpty then d.dropFrame n src else d

/-- MAX_SDU_EXCEEDED (R97): counted, the frame goes; what still arrives is not kept, but its end can still trip
(R342). -/
def Dev.sduExceeded (d : Dev) (k : Nat) : Dev :=
  match d.rx k with
  | none => d
  | some r =>
    match r.frame, r.filter with
    | some n, some h => ((d.setRx k (some { r with frame := none })).maxSduDrop h).discardFrame n 0x020
    | _, _ => d

/-- LEN_HINT (R125): the frame has grown past the buffer its hint chose; one chosen without a hint is outgrown in the
same way (DESIGN CHOICE, log entry 101). -/
def Dev.hintOverrun (d : Dev) (k : Nat) : Dev :=
  match d.rx k with
  | none => d
  | some r =>
    match r.frame with
    | some n => ((d.setRx k (some { r with frame := none })).count 0x703).discardFrame n 0x022
    | none => d

/-- Whether what an input receives is longer than its filter's limit, or than the buffer the frame has. -/
def Dev.tooLong (d : Dev) (k : Nat) : Bool × Bool :=
  match d.rx k with
  | none => (false, false)
  | some r =>
    match r.frame with
    | none => (false, false)
    | some n =>
      let len := d.frameLen n
      let cap := match d.frame n with
        | some f => (match f.buf with | some h => d.bufSize h.pool | none => 2 ^ 20)
        | none => 2 ^ 20
      (r.maxSdu != 0 && decide (r.maxSdu < len), decide (cap < len))

/-! ### The end of a frame (R108, R158, R165, R342) -/

/-- The counters of R369 for a frame that ended at a port, at its receive stamp (R371), and of a receive crossing that
filled (R70). -/
def Dev.countRx (d : Dev) (port len : Nat) (pre : Bool) (e : RxEnd) (stamp : Nat) : Dev :=
  let d := if pre then d.countFrame port 7 e.fragments stamp else d
  match e.status with
  | .reassembly => d.countFrame port 6 1 stamp
  | .badFcs => d.countFrame port 2 1 stamp
  | .cut => d
  | .overflow => d.count 0x787
  | .good =>
    let d := (d.countFrame port 0 1 stamp).countFrame port 1 len stamp
    if port < 48 && d.get (PRT.page port) PRT.PORT_CFG.MAX_FRAME < len then d.countFrame port 3 1 stamp
    else if len < 64 then d.countFrame port 4 1 stamp else d

/-- Whether a frame passes the MAC checks of step 1. -/
def Dev.macOk (d : Dev) (port len : Nat) (e : RxEnd) : Bool :=
  e.status == .good && decide (64 ≤ len)
    && (decide (48 ≤ port) || decide (len ≤ d.get (PRT.page port) PRT.PORT_CFG.MAX_FRAME))

/-- The charges of a frame brought to its actual length. -/
def Dev.refund (d : Dev) (r : Rx) (len : Nat) : Dev :=
  let actual := (len : Int) + d.getInt MTR.page MTR.MTR_CFG.LEN_ADJ
  let d := match r.meter with | some c => d.refundMeter c actual | none => d
  match r.gate with | some c => d.refundGate c actual | none => d

/-- The bytes of the FCS that a frame's end brought (R5): none where the frame was cut or could not be put together. -/
def fcsBytes : RxStatus → Nat
  | .good => 4 | .badFcs => 4 | .reassembly => 0 | .cut => 0 | .overflow => 0

/-- The end of what an input receives: how it ended, and `good` as the MAC judges it. MAX_SDU goes first: it is
decided at the byte that passes it, whatever the FCS then says (R97); a good FCS trips whatever becomes of the frame
(R342). -/
def Dev.rxFinish (d : Dev) (input k : Nat) (st : RxStatus) (good : Bool) : Dev :=
  match d.rx k with
  | none => d
  | some r =>
    let len := r.bytes + fcsBytes st
    let d := d.refund r len
    let d := match r.trip with
      | some h => if st == RxStatus.good then d.setTrip h else d
      | none => d
    match r.frame with
    | none => d.setRx k none
    | some n =>
      let written := match d.frame n with | some f => !f.ended && f.buf.isSome | none => false
      let d := d.modFrame n (fun f => { f with len := len, ended := true })
      let d := if written then d.countLines n else d
      if (d.tooLong k).1 then (d.sduExceeded k).setRx k none
      else if !good then (d.setRx k none).discardFrame n 0x020
      else if (d.tooLong k).2 then (d.hintOverrun k).setRx k none
      else
        let d := d.setRx k none
        match r.judge, d.frame n with
        | some h, some f =>
          let seq := prpTrailer f.hdr
          let (d, pass) := d.judge h seq
          if pass then ((d.modFrame n (fun f => { f with prpTail := seq.isSome })).allocate n)
          else d.discardFrame n 0x020
        | _, _ => d.serveArea input

/-- Whether a port's MAC is in a state in which it receives (R434). -/
def Dev.macOn (d : Dev) (port : Nat) : Bool := d.released (unitLane port) && linkStates (d.laneState port)

/-- Whether frames from the line reach ingress: a MAC that receives, no loop-back. -/
def Dev.macReceives (d : Dev) (port : Nat) : Bool := d.macOn port && d.loopMode port == 0

/-- R291: a standby that is not READY discards what its ports receive. -/
def Dev.holdsUntilReady (d : Dev) : Bool :=
  d.flag DBL.page DBL.DBL_CFG.HOLD_UNTIL_READY && !d.flag DBL.page DBL.DBL_STAT.OWNER && !d.flag DBL.page DBL.DBL_STAT.READY

/-- The stamp of a frame that a port receives (R216, R220). -/
def Dev.portStamp (d : Dev) (port : Nat) (e : RxEdge) : Stamp :=
  if d.isSoft port then ⟨softStamp (d.edgeTick e), softSrc port, true, d.untrace⟩
  else ⟨d.rxStamp port e, rxSrc port, false, d.untrace⟩

/-- A frame of a port enters the pipeline, from the line or from a loop-back. -/
def Dev.rxStart (d : Dev) (port k : Nat) (bytes : List (BitVec 8)) (whole test : Bool) (st : Stamp) : Dev :=
  if d.holdsUntilReady then (d.count 0xD87).setRx k (some (rx0 bytes.length st.time))
  else if beAt bytes 0 6 = 0x0180C2000001 then d.setRx k (some (rx0 bytes.length st.time))
  else
    let down := !d.flag (PRT.page port) PRT.PORT_CFG.ENABLE
    let (d, r) := d.ingress port bytes whole test down st noReq
    d.setRx k (some r)

/-- A reception that comes to no regular end (R79): the end is marked bad, the frame discarded and its buffer freed. -/
def Dev.rxCut (d : Dev) (port : Nat) (pre : Bool) : Dev := d.rxFinish port (rxKey port pre) .cut false

/-- A frame of a line whose words cross into Felt: one with an uncorrectable word is discarded (R65). -/
def Dev.lineStart (d : Dev) (port k : Nat) (bytes : List (BitVec 8)) (whole : Bool) (st : Stamp) (errs : WordErrors) : Dev :=
  let d := d.wordErrors errs
  if errs.bad then d.setRx k (some (rx0 bytes.length st.time)) else d.rxStart port k bytes whole false st

/-- Received data that a far-end loop-back turns round (R60). -/
def Dev.lineLoop (d : Dev) (port : Nat) (bytes : List (BitVec 8)) : Dev := d.emit (.looped port (d.loopMode port) bytes)

/-- R86: the first 128 bytes of a frame, or all of it, have crossed into Felt. Under FABRIC the frame is counted and
discarded, under a far-end loop-back it goes back to the line, under the other loop-backs the line is ignored (R60). A
frame whose end never came is cut by the next one's start. -/
def Dev.portFrameStart (d : Dev) (port : Nat) (pre : Bool) (bytes : List (BitVec 8)) (whole : Option RxEnd) (edge : RxEdge)
    (errs : WordErrors) : Dev :=
  d.when (d.macOn port && d.released unitFelt) (fun d =>
    let k := rxKey port pre
    let mode := d.loopMode port
    if 6 ≤ mode then d.lineLoop port bytes
    else if mode ≠ 0 ∧ mode ≠ 5 then d else
    let x := parseFrame (d.profileOf port) bytes whole.isSome
    let d := d.when (x.ptp != 0 && decide (x.ptpType ≤ 3)) (fun d => d.eventBegins port (d.edgeTick edge))
    let st := d.portStamp port edge
    let d := d.rxCut port pre
    let start (d : Dev) (w : Bool) : Dev :=
      if mode = 5 then d.setRx k (some (rx0 bytes.length st.time)) else d.lineStart port k bytes w st errs
    match whole with
    | none => start d false
    | some e =>
      let len := bytes.length + 4
      let d := d.countRx port len pre e st.time
      if d.macOk port len e then (start d true).rxFinish port k .good true else d)

/-- R337: a frame of the management lane goes to firmware as it arrives, with its receive stamp (R216, R220): no
lookup, no queue. -/
def Dev.mlArrive (d : Dev) (bytes : List (BitVec 8)) (whole : Option RxEnd) (st : Stamp) : Dev :=
  let d := d.emit (.reply "ml" (st.time :: bytes.map BitVec.toNat))
  match whole with
  | none => d.setRx (rxKey 50 false) (some (rx0 bytes.length st.time))
  | some e => (d.setRx (rxKey 50 false) none).countRx 50 (bytes.length + fcsBytes e.status) false e st.time

/-- A frame that the management lane's line brings: a loop-back ignores it (R60). -/
def Dev.mlFrameStart (d : Dev) (bytes : List (BitVec 8)) (whole : Option RxEnd) (edge : RxEdge) : Dev :=
  d.when (d.macOn 50 && d.get (LNK.page 50) LNK.LOOP_CFG.MODE == 0) (fun d => d.mlArrive bytes whole (d.portStamp 50 edge))

/-- The end of a frame of the management lane: firmware learns how it ended. -/
def Dev.mlFrameEnd (d : Dev) (more : List (BitVec 8)) (ending : RxEnd) : Dev :=
  match d.rx (rxKey 50 false) with
  | none => d
  | some r =>
    let d := d.setRx (rxKey 50 false) none
    if d.macOn 50 then
      let d := d.countRx 50 (r.bytes + more.length + fcsBytes ending.status) false ending r.stamp
      d.emit (.reply "ml end" ((if ending.status == RxStatus.good then 1 else 0) :: more.map BitVec.toNat))
    else d.emit (.reply "ml end" [0])

/-- R86: a frame of a port, or, as number 48, of the management lane (R337). -/
def execRxFrameStart (port : Fin 49) (pre : Bool) (bytes : List (BitVec 8)) (whole : Option RxEnd) (edge : RxEdge)
    (errs : WordErrors) (s : State) : Host.Outcome State Fault Refusal :=
  onDev (fun d => if port = 48 then d.mlFrameStart bytes whole edge else d.portFrameStart port pre bytes whole edge errs) s

/-- R108: the frame an input receives ends, with its last bytes and how it ended. Outside the states in which the MAC
receives, the end counts nothing and the frame is discarded (R434). -/
def Dev.portFrameEnd (d : Dev) (port : Nat) (pre : Bool) (more : List (BitVec 8)) (ending : RxEnd) (errs : WordErrors) : Dev :=
    let k := rxKey port pre
    if d.macOn port && decide (6 ≤ d.loopMode port) then d.lineLoop port more else
    let d := d.arrive k more
    match d.rx k with
    | none => d
    | some r =>
      let len := r.bytes + 4
      if d.macOn port then
        ((d.countRx port len pre ending r.stamp).wordErrors errs).rxFinish port k ending.status
          (d.macOk port len ending && !errs.bad)
      else d.rxCut port pre

/-- The end of a frame of a port, or of the management lane. -/
def execRxFrameEnd (port : Fin 49) (pre : Bool) (more : List (BitVec 8)) (ending : RxEnd) (errs : WordErrors) (s : State) :
    Host.Outcome State Fault Refusal :=
  onDev (fun d => if port = 48 then d.mlFrameEnd more ending else d.portFrameEnd port pre more ending errs) s

/-- What a port was receiving when its signal went, on either MAC (R79). -/
def Dev.cutReception (d : Dev) (port : Nat) : Dev :=
  if port < 48 then (d.rxCut port false).rxCut port true else d

/-- R44, R55, R79: LOS by the state it finds; a frame that is being received ends bad. -/
def execLosAssert (lane : Fin 51) (s : State) : Host.Outcome State Fault Refusal :=
  onDev (fun d => d.onLane lane (fun d =>
    let p := LNK.page lane
    let st := d.laneState lane
    if d.flag p LNK.LNK_STATE.LOS || st == laneIdle || st == laneWake then d else
    let d := ((d.set p LNK.LNK_STATE.LOS 1).raise p LNK.INT_RAW.LOS_CHG).countLane lane 27
    let d := (d.disqualifyLane lane 5).cutReception lane
    if (2 ≤ st && st ≤ 7) || st == laneSearch then d.enterSignalWait lane else d)) s

/-- R54, R43, R55, R79: LOL asserts; a frame that is being received ends bad. -/
def execLolAssert (lane : Fin 51) (s : State) : Host.Outcome State Fault Refusal :=
  onDev (fun d => d.onLane lane (fun d =>
    let p := LNK.page lane
    let st := d.laneState lane
    if d.flag p LNK.LNK_STATE.LOL || st == laneIdle || st == laneWake then d else
    let d := ((d.set p LNK.LNK_STATE.LOL 1).raise p LNK.INT_RAW.LOL_CHG).countLane lane 28
    let d := (d.setLane lane { d.lane lane with lolOk := false }).disqualifyLane lane 5
    let d := d.cutReception lane
    if st = laneUp then d.retrain lane else d)) s

/-- R97: the received length of a frame first exceeds its MAX_SDU. -/
def execMaxSduExceeded (input : Fin 50) (pre : Bool) (more : List (BitVec 8)) (s : State) :
    Host.Outcome State Fault Refusal :=
  onDev (fun d =>
    let k := rxKey input pre
    let d := d.arrive k more
    if (d.tooLong k).1 then d.sduExceeded k else d.serveArea input) s

/-- R125: a frame grows past the buffer chosen from its L3 length. -/
def execLenHintOverrun (input : Fin 50) (pre : Bool) (more : List (BitVec 8)) (s : State) :
    Host.Outcome State Fault Refusal :=
  onDev (fun d =>
    let k := rxKey input pre
    let d := d.arrive k more
    if (d.tooLong k).2 then d.hintOverrun k else d.serveArea input) s

end Sys2Proof.Machine
end

