-- ==== Sys2Proof/Machine/Egress.lean ====
section
/-!
DEFINITION. Machine/Egress.lean: selection at an output (R147 to R149, R155), preemption (R157 to R162), cut-through
(R164), the Sweatband (R179, R180), what leaves a port (R218, R293, R435), the end of a transmission (R134, R223), and
the SCH page (R151, R152, R167, R168).
-/
namespace Sys2Proof.Machine

/-! ### The bytes that leave (R218, R293, R435) -/

def spliceBytes (h : List (BitVec 8)) (at_ drop : Nat) (ins : List (BitVec 8)) : List (BitVec 8) :=
  h.take at_ ++ ins ++ h.drop (at_ + drop)

/-- The one's-complement sum of bytes as 16-bit words from their start. -/
def sum16 (bs : List (BitVec 8)) : Nat :=
  ((List.range ((bs.length + 1) / 2)).map (fun i => beAt bs (2 * i) 2)).sum % 65535

/-- The two bytes after the PTP message rewritten so that the UDP checksum stays valid (R218). -/
def fixUdp6 (old new : List (BitVec 8)) (udp at_ : Nat) : List (BitVec 8) :=
  let seg (h : List (BitVec 8)) : List (BitVec 8) := (h.take (at_ + 2)).drop udp
  let blank := spliceBytes new at_ 2 [0, 0]
  let x := (sum16 (seg old) + 65535 - sum16 (seg blank)) % 65535
  let x := if (at_ - udp) % 2 = 1 then x % 256 * 256 + x / 256 else x
  spliceBytes new at_ 2 (bytesBE 2 x)

/-- Whether a message has room for its correction (R218): over IPv6, two bytes behind it in the UDP payload. -/
def ptpRoom (h : List (BitVec 8)) (ptp ofs : Nat) : Bool :=
  ptp != 6 || decide (8 + beAt h (ofs + 2) 2 + 2 ≤ beAt h (ofs - 4) 2)

/-- The message with an amount in 2^-16 ns added to its correctionField, and its timestamp field written; `ptp` is its
transport, `o` where its header stands. -/
def ptpEdit (h : List (BitVec 8)) (ptp o : Nat) (corr : Int) (origin : Option Nat) : List (BitVec 8) :=
  let c := ((beAt h (o + 8) 8 : Int) + corr) % 2 ^ 64
  let g := spliceBytes h (o + 8) 8 (bytesBE 8 c.toNat)
  let g := match origin with
    | some t => spliceBytes g (o + 34) 10 (bytesBE 6 (secOf t) ++ bytesBE 4 (nsOf t))
    | none => g
  match ptp with
  | 4 => spliceBytes g (o - 2) 2 [0, 0]
  | 6 => fixUdp6 h g (o - 8) (o + beAt h (o + 2) 2)
  | _ => g

/-- One-step insertion (R218): the message, and whether it had no room. -/
def ptpOneStep (h : List (BitVec 8)) (ptp ofs stamp : Nat) : List (BitVec 8) × Bool :=
  if ptpRoom h ptp ofs && decide (ofs + 44 ≤ h.length) then (ptpEdit h ptp ofs (fracOf stamp) (some stamp), false)
  else (h, true)

/-- Where the VLAN tags of a frame end. -/
def vlanEnd (f : Frame) (h : List (BitVec 8)) : Nat :=
  if f.tagged then (if f.tpid = 0x88A8 ∧ beAt h 16 2 = 0x8100 then 20 else 16)
  else if f.tpid = 0x88A8 ∧ beAt h 12 2 = 0x8100 then 16 else 12

/-- R-tag, HSR tag and PRP trailer removed (R294 STRIP). -/
def stripTags (f : Frame) (h : List (BitVec 8)) : List (BitVec 8) :=
  let h := if f.prpTail then h.take (h.length - 6) else h
  let cut (h : List (BitVec 8)) (o : Option Nat) : List (BitVec 8) :=
    match o with | some a => spliceBytes h a 6 [] | none => h
  match f.rtagAt, f.hsrAt with
  | some a, some b => cut (cut h (some (max a b))) (some (min a b))
  | a, b => cut (cut h a) b

/-- The six bytes inserted for a number towards an output (R293, R295): an R-tag at every port, an HSR tag at a ring
port, a PRP trailer at a LAN port. The size fields are IEC 62439-3's (PRESUMED, log entry 17). -/
def Dev.insertNumber (d : Dev) (f : Frame) (o : Nat) (h : List (BitVec 8)) (at_ : Nat) : List (BitVec 8) :=
  match f.number with
  | none => h
  | some (enc, seq) =>
    if 48 ≤ o then h else
    let pair := d.redPairs.find? (fun p => p.2.1 == o || p.2.2 == o)
    let second := match pair with | some p => if p.2.1 = o then 0 else 1 | none => 0
    let mode := match pair with | some p => p.1 | none => 0
    match enc with
    | 0 => spliceBytes h at_ 0 (bytesBE 2 0xF1C1 ++ [0, 0] ++ bytesBE 2 seq)
    | 1 => if mode = 2 then
        spliceBytes h at_ 0 (bytesBE 2 0x892F ++ bytesBE 2 (second * 4096 + (h.length - at_ + 4) % 4096) ++ bytesBE 2 seq)
      else h
    | _ => if mode = 1 then
        h ++ bytesBE 2 seq ++ bytesBE 2 ((10 + second) * 4096 + (h.length - at_ + 6) % 4096) ++ bytesBE 2 0x88FB
      else h

/-- The frame as it leaves at one output, without its FCS: stripped, tagged or untagged, numbered. -/
def Dev.outBytes (d : Dev) (f : Frame) (o : Nat) (h : List (BitVec 8)) : List (BitVec 8) :=
  let vend := vlanEnd f h
  let h := if f.strip then stripTags f h else h
  let tci := f.pcp * 8192 + (if f.dei then 4096 else 0) + f.vid
  let (h, vend) :=
    if f.untag.contains o then (spliceBytes h 12 4 [], vend - 4)
    else if f.retag.contains o then
      (if f.tagged then (spliceBytes h 14 2 (bytesBE 2 tci), vend)
       else (spliceBytes h 12 0 (bytesBE 2 f.tpid ++ bytesBE 2 tci), vend + 4))
    else if f.tagged && f.dei then (spliceBytes h 14 1 (bytesBE 1 (beAt h 14 1 ||| 16)), vend)
    else (h, vend)
  d.insertNumber f o h vend

/-- What is left of a frame's length at an output, tags removed and added: of `len` bytes, FCS included. -/
def Dev.outLenOf (d : Dev) (f : Frame) (o len : Nat) : Nat := len + (d.outBytes f o f.hdr).length - f.hdr.length

/-- The length on the line, FCS included. -/
def Dev.outLen (d : Dev) (f : Frame) (o : Nat) : Nat := d.outLenOf f o f.len

/-- TC_CORRECTION and one-step insertion at an output (R218), with the transmit stamp and whether it is soft, as they
were fixed at the frame's start (R220): the bytes after, whether the message had no room. -/
def Dev.ptpOut (d : Dev) (f : Frame) (o stamp : Nat) (soft : Bool) : List (BitVec 8) × Bool :=
  if f.ptp = 0 ∨ 48 ≤ o then (f.hdr, false)
  else if f.input < 48 then
    if d.flag (TSU.page f.input) TSU.TSU_CFG.TC_EN && d.flag (TSU.page o) TSU.TSU_CFG.TC_EN && !f.soft && !soft then
      (if ptpRoom f.hdr f.ptp f.ptpOfs then (ptpEdit f.hdr f.ptp f.ptpOfs (((stamp : Int) - f.stamp) / 2 ^ 24) none, false) else (f.hdr, true))
    else (f.hdr, false)
  else if f.oneStep && d.flag (TSU.page o) TSU.TSU_CFG.ONE_STEP_EN then ptpOneStep f.hdr f.ptp f.ptpOfs stamp
  else (f.hdr, false)

/-! ### Whether an output may start (R147, R66) -/

/-- Whether an output's crossing accepts a frame and its port can send: LATENCY_MEASURE or UP, a hold aside. -/
def Dev.canSend (d : Dev) (o : Nat) : Bool :=
  if o = 48 then d.xing 52 == 0 else if o = 49 then d.xing 54 == 0 && !d.fwDown
  else d.xing o == 0 && (d.laneState o == laneLatency || d.laneState o == laneUp
    || d.get (LNK.page o) LNK.LOOP_CFG.MODE == 5)

/-- The length a frame is taken to have at an output: its own once it has ended, else the one its buffer was chosen for
(R125). -/
def Frame.serviceLen (f : Frame) : Nat := if f.ended then f.len else max f.len (f.hint.getD f.len)

/-- R164: whether a frame of a class may be cut through at an output now; a TC6 frame with a launch time needs no open
gate. -/
def Dev.mayCut (d : Dev) (f : Frame) (n o tc : Nat) : Bool :=
  decide (f.input < 48) && decide (o < 48) && d.flag SCH.page SCH.SCH_CFG.CT_EN && d.flag SCH.page SCH.PORT_SCH.CT_EN o
    && decide (d.rateAct o ≤ d.rateAct f.input) && f.buf.isSome && !f.spilled
    && (d.output o).tx.isNone && (d.output o).preempted.isNone
    && (tc == 7 || d.classOpen o tc || (tc == 6 && f.timed)) && !d.voqHeld (voqNo f.input o tc)
    && ((d.voqsTo o).all (fun v => voqTc v < tc || (d.voq v).all.all (· == n)))
    && (decide (6 < tc) || (d.launchOf o).all (fun m => m == n || d.launchHeld o m))

/-- Whether receive ring RXc runs and has a posted descriptor (R335); D3hot stops DMA (R328). -/
def Dev.rxPosted (d : Dev) (c : Nat) : Bool :=
  d.flag PCI.page PCI.RING_CFG.ENABLE (8 + c) && !d.flag PCI.page PCI.RING_STAT.ERR (8 + c)
    && d.get PCI.page PCI.RING_STAT.HEAD (8 + c) != d.get PCI.page (PCI.RING_DB.TAIL.nth (8 + c))
    && !tget (fun _ => false) d.pciD3 0

/-- Whether a frame may start at an output: it has arrived, or may be cut through. -/
def Dev.startable (d : Dev) (n o tc : Nat) : Bool :=
  (o != 48 || d.rxPosted tc) && match d.frame n with
  | some f => f.ended || d.mayCut f n o tc
  | none => false

/-- The start granularity of R170 in ps. -/
def startGrain (rate : Nat) : Nat := match rate with | 1 => 16000 | 2 => 6400 | 3 => 2560 | 4 => 1280 | _ => 640

/-- Whether a time in units of 2^-40 ns is at least the Sweatband of a length (R179). -/
def sweatOk (rate len t : Nat) : Bool :=
  let r := rateGbit rate
  decide (startGrain rate * r * nsU + (len + 20) * 8 * 1000 * nsU ≤ t * 1000 * r)

/-- The Sweatband check of a frame at a port: 0 passes, 1 deferred, 2 can never pass (R180). -/
def Dev.sweat (d : Dev) (o tc len : Nat) : Nat :=
  if 48 ≤ o || tc == 7 || (decide (tc < 6) && d.flag SCH.page SCH.PORT_STAT.PREEMPT_ACT o) then 0 else
  match d.timeToClose o tc with
  | none => 0
  | some left =>
    if sweatOk (d.rateAct o) len left then 0
    else if d.winMax o tc ≠ 0 ∧ sweatOk (d.rateAct o) len (d.winMax o tc * nsU) = false then 2 else 1

/-- Whether a preemptable class may start at a port: no preempted frame waits, no MAC hold stands (R159, R174). -/
def Dev.preemptableOk (d : Dev) (o : Nat) : Bool :=
  (d.output o).preempted.isNone && !(decide (o < 48) && d.flag (GCL.page o) GCL.GCL_STAT.MAC_HOLD)

/-- A head of a VOQ of a class: queue, frame, stamp, source. -/
def Dev.headsTo (d : Dev) (o tc : Nat) : List (Nat × Nat × Nat × Nat) :=
  ((d.voqsTo o).filter (fun v => voqTc v == tc && !d.voqHeld v)).filterMap (fun v =>
    match (d.voq v).head? with
    | some n => match d.frame n with
      | some f => some (v, n, f.stamp, f.src)
      | none => none
    | none => none)

/-- The oldest by stamp, then by source number (R148). -/
def oldest : List (Nat × Nat × Nat × Nat) → Option (Nat × Nat × Nat × Nat)
  | [] => none
  | x :: rest =>
    match oldest rest with
    | none => some x
    | some y => if y.2.2.1 < x.2.2.1 || (y.2.2.1 == x.2.2.1 && y.2.2.2 < x.2.2.2) then some y else some x

/-! ### What may be chosen -/

/-- What an output starts: a queue's frame, a launched frame, or the resumption of the preempted one. -/
inductive Choice where
  | queued (voq n : Nat)
  | launched (n : Nat)
  | resume

/-- What is left, in 2^-40 ns / 1,000, until a frame with a launch time must start: the MAC starts it early by the
transmit latency (R170). -/
def Dev.launchLead (d : Dev) (o launch : Nat) : Int :=
  (launch * 1000 : Nat) - ((d.laneNow o * 1000 + d.get (LNK.page o) LNK.TX_LAT.LAT_PS * nsU : Nat) : Int)

/-- Whether a launch's start comes before the next tick. -/
def Dev.launchDue (d : Dev) (o n : Nat) : Bool :=
  match d.frame n with
  | some f => decide (d.launchLead o (f.launch.getD 0) < d.tickAdvance * 1000)
  | none => false

/-- The express frame ready at an output: TC7 oldest first, then TC6 (R147 to R149). -/
def Dev.readyExpress (d : Dev) (o : Nat) : Option Choice :=
  match oldest ((d.headsTo o 7).filter (fun x => d.startable x.2.1 o 7)) with
  | some x => some (.queued x.1 x.2.1)
  | none =>
    let due := match d.launchHead o with
      | some n => if d.launchDue o n && d.startable n o 6 && !d.flag (PRT.page o) PRT.PORT_STAT.PAUSED
          && !(d.get (PRT.page o) PRT.PORT_STAT.PFC_RX).testBit 6 then some n else none
      | none => none
    match due with
    | some n => some (.launched n)
    | none =>
      let gated := (d.headsTo o 6).filter (fun x =>
        (match d.frame x.2.1 with | some f => decide (48 ≤ o) || !f.timed | none => false)
          && d.classOpen o 6 && d.startable x.2.1 o 6
          && (match d.frame x.2.1 with | some f => d.sweat o 6 f.serviceLen == 0 | none => false))
      (oldest gated).map (fun x => .queued x.1 x.2.1)

/-- The hierarchy's choice, when no preempted frame waits (R155, R159). -/
def Dev.readyHierarchy (d : Dev) (o : Nat) : Option Choice :=
  if !d.preemptableOk o then none else
  let ok := (d.backlogged o).filter (fun v => match (d.voq v).head? with
    | some n => d.startable n o (voqTc v)
        && (match d.frame n with | some f => d.sweat o (voqTc v) f.serviceLen == 0 | none => false)
    | none => false)
  match d.pickVoq o ok with
  | some v => (d.voq v).head?.map (fun n => .queued v n)
  | none => none

/-- The whole order of R147: express, then the preempted frame's rest, then the hierarchy. -/
def Dev.choose (d : Dev) (o : Nat) : Option Choice :=
  match d.readyExpress o with
  | some c => some c
  | none =>
    match (d.output o).preempted with
    | some t =>
      if d.classOpen o t.tc && !(decide (o < 48) && d.flag (GCL.page o) GCL.GCL_STAT.MAC_HOLD) then some .resume else none
    | none => d.readyHierarchy o

/-! ### Drops at the head of service (R161, R180, R219, R293) -/

/-- A frame taken out of its queue or launch queue and dropped at one output. -/
def Dev.dropHead (d : Dev) (o tc n : Nat) : Dev :=
  let d := match d.frame n with
    | some f => d.unqueue (voqNo f.input o tc) n
    | none => d
  let d := if o < 48 then d.setLaunch o ((d.launchOf o).filter (· != n)) else d
  d.clearDest n o 0x024

/-- TC6_OVERSIZE and OVERSIZE, and DEFERRED once for a frame at a port, at the heads of service as they stand. -/
def Dev.serveHeadsOnce (d : Dev) (o : Nat) : Dev :=
  let big (d : Dev) (n : Nat) : Bool := match d.frame n with
    | some f => d.flag (PRT.page o) PRT.PORT_CFG.TC7_EN
        && decide (d.get SCH.page SCH.PORT_SCH.TC6_MAX o < f.serviceLen)
    | none => false
  let tc6drop (d : Dev) (n : Nat) : Dev := ((d.dropHead o 6 n).countLane o 20).raise SCH.page SCH.INT_RAW.TC6_OVERSIZE
  if 48 ≤ o then d else
  let d := match d.launchHead o with
    | some n => if d.launchDue o n && big d n then tc6drop d n else d
    | none => d
  (List.range 7).foldl (fun d tc =>
    (d.headsTo o tc).foldl (fun d x =>
      match d.frame x.2.1 with
      | none => d
      | some f =>
        if tc == 6 && f.timed then d
        else if tc == 6 && big d x.2.1 then tc6drop d x.2.1
        else if !d.startable x.2.1 o tc || !d.classOpen o tc then d
        else match d.sweat o tc f.serviceLen with
          | 0 => d
          | 1 => if f.deferred.contains o then d
              else (d.setFrame x.2.1 (some { f with deferred := o :: f.deferred })).countLane o 17
          | _ => (((d.dropHead o tc x.2.1).countLane o 18).count (0x990 + 8 * o + tc)).raise (GCL.page o)
              GCL.INT_RAW.OVERSIZE) d) d

/-- The frames of TC0 to TC6 that wait for an output. -/
def Dev.waitingTo (d : Dev) (o : Nat) : Nat :=
  (d.launchOf o).length + ((d.voqsTo o).map (fun v => (d.voq v).all.length)).sum

/-- The heads of service served until none of them drops: a frame that comes up behind a dropped one is judged in its
turn. -/
def Dev.serveHeads (d : Dev) (o : Nat) : Dev :=
  (List.range (d.waitingTo o)).foldl (fun d _ => d.serveHeadsOnce o) d

/-! ### Dispatch -/

/-- The sojourn high-water marks at a selection (R167), its time read through the time crossing. -/
def Dev.hwmSojourn (d : Dev) (v : Nat) (f : Frame) : Dev :=
  if !d.flag SCH.page SCH.SCH_CFG.HWM_EN then d else
  let (now, d) := d.readTime
  let t := fullStamp now (secOf f.stamp % 256) (nsOf f.stamp) (fracOf f.stamp)
  let soj := (min (((now : Int) - t) / nsU) (2 ^ 32 - 1)).toNat
  let bump (d : Dev) (t : TableId) (i : Nat) : Dev :=
    let d := d.reads t [i]
    let e := d.lookupWord t i
    if bitsOf e 63 32 < soj then d.setEntry t i (putBits e 63 32 soj) else d
  bump (bump d .voqHwm v) .portHwm (voqOutput v * 8 + voqTc v)

/-- The shaping length of R156. -/
def Dev.shapeLen (d : Dev) (o len : Nat) : Nat := (max 1 ((len : Int) + d.getInt SCH.page SCH.PORT_SCH.LEN_OVH o)).toNat

/-- R219: a transparent clock message between ports of which one is SOFT: dropped or sent unmodified, counted either
way at the receive port. -/
def Dev.softTc (d : Dev) (f : Frame) (o : Nat) : Option Bool :=
  if f.ptp ≠ 0 ∧ f.input < 48 ∧ o < 48 ∧ d.flag (TSU.page f.input) TSU.TSU_CFG.TC_EN = true
      ∧ d.flag (TSU.page o) TSU.TSU_CFG.TC_EN = true ∧ (f.soft || d.isSoft o) = true then
    some (d.flag (TSU.page f.input) TSU.TSU_CFG.SOFT_TC)
  else none

/-- One message of a lane not corrected, counted in TC_SKIP (R218, R219) of its TSU and n = 31 of R369. -/
def Dev.tcSkipOn (d : Dev) (tsu lane : Nat) : Dev :=
  ((d.incWrap (TSU.page tsu) TSU.TC_SKIP.COUNT).raise (TSU.page tsu) TSU.INT_RAW.TC_SKIP).countLane lane 31

def Dev.tcSkip (d : Dev) (port : Nat) : Dev := d.tcSkipOn port port

/-- The instant at which a frame's preamble leaves the MAC (R170, R215): a launched frame starts on a block boundary,
at a position within the start window (a free value) after its launch time less the transmit latency, or, where that
has passed, after now. -/
def Dev.startAt (d : Dev) (o : Nat) (f : Frame) : Nat × Dev :=
  match f.launch with
  | some l =>
    if 48 ≤ o then (d.now, d) else
    let (k, d) := d.free
    (d.now + ((max 0 (d.launchLead o l) + 999) / 1000).toNat + k % (startGrain (d.rateAct o) * nsU / 1000), d)
  | none => (d.now, d)

/-- A frame's transmission begins: out of its queue, marked, charged, or dropped for its tag or as a SOFT message. Its
stamp is fixed here, soft and untraceable as the port and the time base stand (R220). -/
def Dev.startTx (d : Dev) (o tc v n : Nat) : Dev :=
  match d.frame n with
  | none => d
  | some f =>
    let tooBig := f.number.isSome && decide (o < 48)
      && decide (d.get (PRT.page o) PRT.PORT_CFG.MAX_FRAME < d.outLenOf f o f.serviceLen) && decide (f.len < d.outLen f o)
    if tooBig then (d.dropHead o tc n).count 0x691
    else if d.softTc f o = some true then (d.dropHead o tc n).tcSkip f.input
    else
      let cut := !f.ended
      let d := if d.softTc f o = some false then d.tcSkip f.input else d
      let d := d.hwmSojourn v f
      let d := if tc < 6 then d.charge v (d.shapeLen o f.serviceLen) else d
      let d := d.unqueue v n
      let d := if o < 48 then d.setLaunch o ((d.launchOf o).filter (· != n)) else d
      let (at_, d) := d.startAt o f
      let first := at_ + 64 * nsU / rateGbit (d.rateAct o)
      let d := d.when (decide (o < 48) && f.ptp != 0) (·.eventBegins o first)
      let soft := decide (o < 48) && d.isSoft o
      let stamp := if 48 ≤ o then d.now else if soft then softStamp first else d.txStampAt o first
      let d := d.setOutput o { d.output o with tx := some ⟨n, tc, cut, d.now, 0, false, stamp, soft, d.untrace⟩ }
      d.refreshShares o

/-- The choice carried out. -/
def Dev.dispatch (d : Dev) (o : Nat) (c : Choice) : Dev :=
  match c with
  | .queued v n => d.startTx o (voqTc v) v n
  | .launched n => match d.frame n with
    | some f => d.startTx o 6 (voqNo f.input o 6) n
    | none => d
  | .resume =>
    let x := d.output o
    d.setOutput o { x with tx := x.preempted.map (fun t => { t with start := d.now }), preempted := none }

/-- Bytes of the present fragment sent by now, its preamble aside. -/
def Dev.fragSent (d : Dev) (o : Nat) (t : Tx) : Nat :=
  (d.now - t.start) * rateGbit (d.rateAct o) / (8 * nsU) - 8

/-- FRAME_PREEMPT (R159, R162): a preemptable frame in transmission stops where its fragment and its rest allow, for a
ready express frame, a MAC hold or its gate's close. -/
def Dev.tryPreempt (d : Dev) (o : Nat) : Dev :=
  match (d.output o).tx with
  | none => d
  | some t =>
    let wants := (d.readyExpress o).isSome || d.flag (GCL.page o) GCL.GCL_STAT.MAC_HOLD || !d.gateOpen o t.tc
    let len := match d.frame t.frame with | some f => d.outLenOf f o f.serviceLen | none => 0
    let sent := d.fragSent o t
    if o < 48 && t.tc < 6 && (d.output o).preempted.isNone && d.flag SCH.page SCH.PORT_STAT.PREEMPT_ACT o && wants
        && decide (64 * (1 + d.get SCH.page SCH.PORT_PREEMPT.ADD_FRAG o) ≤ sent) && decide (t.sent + sent + 64 ≤ len) then
      (d.setOutput o { d.output o with tx := none, preempted := some { t with sent := t.sent + sent } }).countFrame o 12 1 t.stamp
    else d

/-- The frame of a choice, its transmission not started. -/
def Choice.starts : Choice → Option Nat
  | .queued _ n => some n
  | .launched n => some n
  | .resume => none

/-- The frame in transmission at an output will end with an inverted FCS (R65). -/
def Dev.spoil (d : Dev) (o : Nat) : Dev :=
  let x := d.output o
  d.setOutput o { x with tx := x.tx.map (fun t => { t with bad := true }) }

/-- One selection at an output; `errs` are the errors of the words read for the frame. One with an uncorrectable word is
discarded before its start, the rest of a preempted one ends with an inverted FCS (R65, R118). -/
def Dev.select (d : Dev) (o : Nat) (errs : WordErrors) : Dev :=
  if !d.canSend o || !d.released unitFelt then d else
  let d := (d.refreshShares o).serveHeads o
  let d := d.tryPreempt o
  if (d.output o).tx.isSome then d
  else match d.choose o with
    | some c =>
      let d := d.wordErrors errs
      match c.starts with
      | some n => if errs.bad then d.discardFrame n 0x024 else d.dispatch o c
      | none => (d.dispatch o c).when errs.bad (·.spoil o)
    | none => d

/-- No errors in a frame's words. -/
def noErrors : WordErrors := ⟨0, false, 0, false⟩

/-- R155: an output ready for a frame selects and dispatches one. -/
def execEgressSelect (output : Fin 50) (errs : WordErrors) (s : State) : Host.Outcome State Fault Refusal :=
  onDev (fun d => d.select output errs) s

/-- R170: a port's first launch time comes: the launch unit starts the frame when the output is free for it. -/
def execLaunchTimeReached (port : Fin 48) (s : State) : Host.Outcome State Fault Refusal :=
  onDev (fun d => match d.launchHead port with
    | some n => d.when (d.launchDue port n) (·.select port noErrors)
    | none => d) s

/-! ### The end of a transmission (R134, R223, R60) -/

/-- Stamps a frame leaves in the transmit FIFO (R223); under a far-end loop-back there are none (R60). -/
def Dev.txStamps (d : Dev) (f : Frame) (o : Nat) (t : Tx) (noRoom : Bool) : Dev :=
  if f.input < 48 ∨ 48 ≤ o ∨ 6 ≤ d.loopMode o then d else
  let d := if f.txStamp then d.txfPush o f.txTag t.stamp t.soft t.untrace else d
  if noRoom then d.txfPush o f.txTag t.stamp t.soft t.untrace else d

/-- A frame that a near-end loop turns round (R60): the MAC counts it but under FABRIC, and it enters as received, on
a state of its own beside what the line brings; its edge stands at a phase that the spec does not give (a free value).
-/
def Dev.turnRound (d : Dev) (o : Nat) (pre bad : Bool) (bytes : List (BitVec 8)) : Dev :=
  let len := bytes.length + 4
  let k := 200 + rxKey o pre
  let ending : RxEnd := ⟨if bad then .badFcs else .good, 1⟩
  let (x, d) := d.free
  let st := d.portStamp o ⟨0, BitVec.ofNat 16 x, 0⟩
  let d := if d.loopMode o < 5 then d.countRx o len pre ending st.time else d
  if d.macOk o len ending then (d.rxStart o k bytes true true st).rxFinish o k .good true else d

/-- The chassis ID of an LLDP frame's first TLV; its layout is PRESUMED from IEEE 802.1AB (log entry 28). -/
def chassisId (bytes : List (BitVec 8)) : Option (List (BitVec 8)) :=
  let tlv (o : Nat) : Option (List (BitVec 8)) :=
    let h := beAt bytes (o + 2) 2
    if beAt bytes o 2 = 0x88CC ∧ h / 512 = 1 then some ((bytes.drop (o + 4)).take (h % 512)) else none
  ([12, 16, 20].findSome? tlv)

/-- An LLDP frame (reason 0x03) that reaches EP49 while the LLDP service runs names the neighbour of its port (R186,
R302). -/
def Dev.learnNeighbour (d : Dev) (o : Nat) (f : Frame) : Dev :=
  if o ≠ 49 ∨ !f.reasons.contains (3, 49) ∨ !d.fwRuns ∨ d.fwBoot ∨ !d.flag SVC.page SVC.SVC_STAT.RUNNING 5
      ∨ 48 ≤ f.input then d else
  match chassisId f.hdr with
  | some id => { d with neigh := tset (fun _ => []) d.neigh f.input id }
  | none => d

/-- A PTP management message that reaches EP49 (reason 0x02) while the PTP service runs (R305): a GET of one of its
five data sets is answered with contents that are the service's (a free value), a SET with NOT_SUPPORTED. The layout
is PRESUMED from IEEE 1588 (log entry 154). -/
def Dev.ptpManage (d : Dev) (o : Nat) (f : Frame) : Dev :=
  if o ≠ 49 ∨ !f.reasons.contains (2, 49) ∨ !d.fwRuns ∨ d.fwBoot ∨ !d.flag SVC.page SVC.SVC_STAT.RUNNING 0 then d else
  let x := parseFrame (d.profileOf f.input) f.hdr true
  if x.ptp = 0 ∨ x.ptpType ≠ 13 then d else
  let id := beAt f.hdr (x.ptpOfs + 52) 2
  match beAt f.hdr (x.ptpOfs + 46) 1 % 16 with
  | 0 =>
    if 0x2000 ≤ id ∧ id ≤ 0x2004 then
      let (k, d) := d.free
      d.emit (.reply "ptp management" [f.input, id, 0, k])
    else d
  | 1 => d.emit (.reply "ptp management" [f.input, id, 1])
  | _ => d

/-- The message time of an event message to or from firmware's services, with the port and the SOFT mark (R220). -/
def Dev.fwMessage (d : Dev) (f : Frame) (o : Nat) (t : Tx) : Dev :=
  let tell (d : Dev) (port time : Nat) (soft : Bool) : Dev :=
    d.emit (.reply "message time" [port, d.messageTime port time soft, if soft then 1 else 0])
  if o = 49 ∧ f.input < 48 then tell d f.input f.stamp f.soft
  else if f.input = 49 ∧ o < 48 then tell d o t.stamp t.soft else d

/-- TX_FRAME_DONE: the frame leaves; its destination is done with it. A frame of which a word read meanwhile cannot be
corrected ends with an inverted FCS (R65). -/
def Dev.txDone (d : Dev) (o : Nat) (errs : WordErrors) : Dev :=
  match (d.output o).tx with
  | none => d
  | some t =>
    match d.frame t.frame with
    | none => d.setOutput o { d.output o with tx := none }
    | some f =>
      if !f.ended then d else
      let d := d.wordErrors errs
      let t := { t with bad := t.bad || errs.bad }
      let (h, noRoom) := d.ptpOut f o t.stamp t.soft
      let bytes := d.outBytes f o h
      let len := bytes.length + 4
      let d := d.setOutput o { d.output o with tx := none }
      let d := if noRoom then d.tcSkip (if f.input < 48 then f.input else o) else d
      let d := d.txStamps f o t noRoom
      let d := if t.bad then d
        else
          let d := if o < 48 && d.loopMode o != 5 then (d.countFrame o 8 1 t.stamp).countFrame o 9 len t.stamp else d
          d.countAt (0x800 + 8 * o + t.tc) 1 t.start 0x024
      let d := d.countLines t.frame
      let d := d.when (f.ptp != 0) (·.fwMessage f o t)
      let d := (d.learnNeighbour o f).ptpManage o f
      let d := if d.loopMode o = 0 then d.emit (.frame o t.tc len bytes t.bad t.stamp) else d
      let d := (d.clearDest t.frame o 0x024).refreshShares o
      if 1 ≤ d.loopMode o && d.loopMode o ≤ 5 then d.turnRound o (decide (t.tc < 6)) t.bad bytes else d

/-- An output's transmission ends; EP48's ends when its frame stands in host memory (RX_FRAME_TO_HOST, R335). -/
def execTxFrameDone (output : Fin 50) (errs : WordErrors) (s : State) : Host.Outcome State Fault Refusal :=
  onDev (fun d => d.when (output.val != 48) (·.txDone output errs)) s

/-! ### Verification (R157) -/

/-- A verify mPacket is sent, at most three times; then verification has failed. A loop-back keeps it from the line
(R60). -/
def execVerifyMpacketSend (port : Fin 48) (s : State) : Host.Outcome State Fault Refusal :=
  onDev (fun d => d.when (d.get SCH.page SCH.PORT_STAT.VERIFY_STATE port == 2) (fun d =>
    let x := d.output port
    if x.verifyTries < 3 then
      let d := d.setOutput port { x with verifyTries := x.verifyTries + 1 }
      d.when (d.loopMode port == 0) (·.emit (.line port "verify mPacket" x.verifyTries))
    else (d.setPreempt port false 4).raise SCH.page SCH.INT_RAW.VERIFY_FAIL)) s

/-- A respond mPacket arrives: the partner's, or the MAC's own in a near-end loop-back that turns round what the MAC
sends. -/
def execVerifyResponseReceived (port : Fin 48) (s : State) : Host.Outcome State Fault Refusal :=
  onDev (fun d => d.when (d.get SCH.page SCH.PORT_STAT.VERIFY_STATE port == 2 && decide (d.loopMode port < 5))
    (·.setPreempt port true 3)) s

/-! ### The SCH page (R151, R152, R168, R400) -/

/-- A table of the SCH page's window by number. -/
def schTable (n : Nat) : Option TableId :=
  match n with
  | 0 => some .voqAttach | 1 => some .subNode | 2 => some .svcNode | 3 => some .portNode
  | 4 => some .voqHwm | 5 => some .portHwm | _ => none

def schSize : TableId → Nat
  | .voqAttach => 20000 | .subNode => 4096 | .svcNode => 400 | .portNode => 50 | .voqHwm => 20000 | .portHwm => 400
  | _ => 0

def schWords : TableId → Nat
  | .subNode => 2 | .svcNode => 2 | .portNode => 2 | _ => 1

/-- A word of a hierarchy table as its shadow stands. -/
def Dev.shEntry (d : Dev) (t : TableId) (i w : Nat) : Data :=
  tget (fun _ => d.lookupWord t i w) d.tabShadow (tkey t i w)

/-- The node state word (R154): credit in bytes with 16 fraction bits. -/
def Dev.nodeWord (d : Dev) (n : Nat) : Data :=
  let c := d.nodeCfg n
  if !c.valid then 0 else
  let (busy, closed) := d.nodeBusy n
  let vs := d.backlogged c.out
  let elig := if n < 4096 then d.subElig vs n
    else if n < 4496 then d.svcElig vs (d.subsOf vs) (n - 4096)
    else d.creditOk n && (d.svcsOf (d.subsOf vs)).any (fun s => d.svcElig vs (d.subsOf vs) s)
  let credit := (d.node n).credit * 65536 / (creditU : Int)
  BitVec.ofNat 64 (toField 40 credit * 2 ^ 24 + (if busy then 2 ^ 23 else 0) + (if elig then 2 ^ 22 else 0)
    + (if closed then 2 ^ 21 else 0))

/-- READ. -/
def execSchRead (acc : Accessor) (s : State) : Host.Outcome State Fault Refusal :=
  onDev (fun d => d.asAny acc SCH.page (fun d =>
    let w := schWin
    let i := winIndex d w acc
    if winTable d w acc = 6 then
      (if i < 4546 && winWord d w acc == 0 then d.winCapture w acc [encodeNative (d.nodeWord i)] else d.winResult w acc 4)
    else match schTable (winTable d w acc) with
    | none => d.winResult w acc 4
    | some t =>
      if schSize t ≤ i || schWords t ≤ winWord d w acc then d.winResult w acc 4
      else d.winCapture w acc ((List.range (schWords t)).map (fun k => d.stored t i k))) [(schWin.result.off, 1)]) s

/-- READ of a shadow. -/
def execSchReadShadow (acc : Accessor) (s : State) : Host.Outcome State Fault Refusal :=
  onDev (fun d => d.asAny acc SCH.page (fun d =>
    let w := schWin
    let i := winIndex d w acc
    match schTable (winTable d w acc) with
    | none => d.winResult w acc 4
    | some t =>
      if schSize t ≤ i || schWords t ≤ winWord d w acc || 3 < winTable d w acc then d.winResult w acc 4
      else d.winCapture w acc ((List.range (schWords t)).map (fun k => encodeNative (d.shEntry t i k)))) [(schWin.result.off, 3)]) s

/-- WRITE of a shadow; the entries of TC6 and TC7 VOQs are refused (R151). -/
def execSchWriteShadow (acc : Accessor) (s : State) : Host.Outcome State Fault Refusal :=
  onDev (fun d => d.asOwner acc SCH.page SCH.ENTRY_CMD.OP.off (fun d =>
    let w := schWin
    let i := winIndex d w acc
    match schTable (winTable d w acc) with
    | none => d.winResult w acc 4
    | some t =>
      if schSize t ≤ i || schWords t ≤ winWord d w acc || 3 < winTable d w acc || (t == .voqAttach && decide (5 < i % 8)) then
        d.winResult w acc 4
      else match d.winCollect w acc (schWords t - 1) with
        | (d, none) => d.winResult w acc 0
        | (d, some ws) =>
          let sh := (maskWords t ws).zipIdx.foldl (fun (sh : Tbl Data) (x : Data × Nat) =>
            tset (fun _ => d.lookupWord t i x.2) sh (tkey t i x.2) x.1) d.tabShadow
          let d := { d with tabShadow := sh }
          d.winResult w acc 0) [(SCH.ENTRY_CMD.OP.off, 2)]) s

/-- READ_CLR of a high-water entry, in one step. -/
def execSchReadClr (acc : Accessor) (s : State) : Host.Outcome State Fault Refusal :=
  onDev (fun d => d.asOwner acc SCH.page SCH.ENTRY_CMD.OP.off (fun d =>
    let w := schWin
    let i := winIndex d w acc
    match schTable (winTable d w acc) with
    | none => d.winResult w acc 4
    | some t =>
      if schSize t ≤ i || winWord d w acc != 0 || winTable d w acc < 4 then d.winResult w acc 4
      else (d.winCapture w acc [d.stored t i]).setEntry t i 0) [(SCH.ENTRY_CMD.OP.off, 4)]) s

/-- CLEAR_TABLE. -/
def execSchClearTable (acc : Accessor) (s : State) : Host.Outcome State Fault Refusal :=
  onDev (fun d => d.asOwner acc SCH.page SCH.ENTRY_CMD.OP.off (fun d =>
    match schTable (winTable d schWin acc) with
    | none => d.winResult schWin acc 4
    | some t =>
      if winTable d schWin acc < 4 then d.winResult schWin acc 4
      else ((d.listed t).foldl (fun d i => d.setEntry t i 0) d).winResult schWin acc 0)
    [(SCH.ENTRY_CMD.OP.off, 5)]) s

/-- Indices of a table that its shadow or its live entries list. -/
def Dev.shListed (d : Dev) (t : TableId) : List Nat :=
  (d.listed t ++ d.tabShadow.filterMap (fun (e : Nat × Data) =>
    if e.1 / 67108864 = t.num then some (e.1 / 64 % 1048576) else none)).eraseDups

/-- The VOQs of TC0 to TC5 attached to a subscriber node once the shadows apply. -/
def Dev.attachedSh (d : Dev) (n : Nat) : List Nat :=
  let l := d.shListed .voqAttach
  l.filter (fun v => voqTc v < 6 && bitsOf (d.shEntry .voqAttach v 0) 11 0 == n)
    ++ (if n < 300 then ((List.range 50).map (fun i => voqNo i (n / 6) (n % 6))).filter (fun v => !l.contains v) else [])

def Dev.nodeCfgSh (d : Dev) (n : Nat) : NodeCfg :=
  let e := nodeEntry n
  nodeCfgOf n (d.shEntry e.1 e.2 0) (d.shEntry e.1 e.2 1)

/-- The rules of an SCH COMMIT (R151, R157, R161). -/
def Dev.schRules (d : Dev) : List Rule :=
  let at_ := SCH.ENTRY_ADDR.TABLE.off
  let fit (v n : Nat) : Bool :=
    let c := d.nodeCfgSh n
    c.valid && c.out == voqOutput v && c.cls == voqTc v
  let vs := (d.shListed .voqAttach).filter (fun v => voqTc v < 6)
  let subs := d.shListed .subNode
  let svcs := d.shListed .svcNode
  let ports := d.shListed .portNode
  let badNode (n : Nat) : Bool :=
    let c := d.nodeCfgSh n
    c.valid && (c.weight == 0 || decide (100000 < c.rate) || decide (c.hi < 1600)
      || (decide (n < 4096) && (decide (49 < c.out) || decide (5 < c.cls))))
  let overSvc (n : Nat) : Bool :=
    let c := d.nodeCfgSh n
    c.valid && decide (c.out < 50) && !(d.nodeCfgSh (nodeSvc (c.out * 8 + c.service))).valid
  let defaultsUnder (s : Nat) : Bool :=
    !(d.nodeCfgSh (nodeSvc s)).valid && decide (s % 8 < 6) && !subs.contains (s / 8 * 6 + s % 8)
  let sh (f : Field) (e : Nat) : Nat := d.getSh .sch SCH.page f e
  [ (vs.any (fun v => !fit v (bitsOf (d.shEntry .voqAttach v 0) 11 0)), 0x30, at_),
    (subs.any (fun n => (d.attachedSh n).any (fun v => !fit v n)), 0x30, at_),
    (subs.any overSvc || svcs.any defaultsUnder, 0x31, at_),
    (vs.any (fun v => bitsOf (d.shEntry .voqAttach v 0) 19 12 == 0)
      || (subs ++ svcs.map nodeSvc ++ ports.map nodePort).any badNode, 0x32, at_),
    ruleAny 50 (fun e => (decide (d.getShInt .sch SCH.page SCH.PORT_SCH.LEN_OVH e < -32)
      || decide (sh SCH.PORT_SCH.TC6_MAX e < 64)
      || (decide (e < 48) && decide (d.get (PRT.page e) PRT.PORT_CFG.MAX_FRAME < sh SCH.PORT_SCH.TC6_MAX e)), 0x32,
      SCH.PORT_SCH.TC6_MAX.off)),
    ruleAny 50 (fun e => (sh SCH.PORT_PREEMPT.VERIFY_MS e == 0 || decide (128 < sh SCH.PORT_PREEMPT.VERIFY_MS e), 0x32,
      SCH.PORT_PREEMPT.VERIFY_MS.off)),
    ruleAny 50 (fun e => (decide (48 ≤ e) && sh SCH.PORT_PREEMPT.PREEMPT_EN e == 1, 0x33, SCH.PORT_PREEMPT.PREEMPT_EN.off)) ]

/-- The table shadows made live (R151, R152): a VOQ under another parent wakes there, a node keeps its credit up to its
new HI_CREDIT, an invalid one loses credit and tag. -/
def Dev.applyNodes (d : Dev) : Dev :=
  let mine := d.tabShadow.filter (fun e => 32 ≤ e.1 / 67108864 && e.1 / 67108864 ≤ 35)
  let d := { d with tabShadow := d.tabShadow.filter (fun e => !(32 ≤ e.1 / 67108864 && e.1 / 67108864 ≤ 35)) }
  mine.foldl (fun d e =>
    let i := e.1 / 64 % 1048576
    let w := e.1 % 64
    match tableIds.find? (fun t => t.num == e.1 / 67108864) with
    | none => d
    | some .voqAttach =>
      let moved := bitsOf e.2 11 0 != d.voqSub i
      let d := d.setEntry .voqAttach i e.2
      if moved then d.setNode (nodeVoq i) { d.node (nodeVoq i) with backlog := false, elig := false } else d
    | some t =>
      let d := d.setEntry t i e.2 w
      let n := if t == .subNode then i else if t == .svcNode then nodeSvc i else nodePort i
      let c := d.nodeCfg n
      if !c.valid then d.setNode n node0
      else
        let x := d.node n
        d.setNode n { x with credit := if c.rate = 0 then 0 else min x.credit (c.hi * creditU : Nat) }) d

/-- The effects of an SCH COMMIT; verification starts again where PORT_PREEMPT changed or verification had failed
(R157). -/
def Dev.schEffect (before d : Dev) : Dev :=
  let d := d.applyNodes
  (List.range 48).foldl (fun d e =>
    if before.rd SCH.page SCH.PORT_PREEMPT.PREEMPT_EN.off e ≠ d.rd SCH.page SCH.PORT_PREEMPT.PREEMPT_EN.off e
        ∨ d.get SCH.page SCH.PORT_STAT.VERIFY_STATE e = 4 then d.verifyStart e
    else if before.rd SCH.page SCH.PORT_SCH.TC6_MAX.off e ≠ d.rd SCH.page SCH.PORT_SCH.TC6_MAX.off e then d.refreshPFrag e
    else d) d

def Dev.commitSch (d : Dev) : Dev := d.commitBy SCH.page d.schRules Dev.schEffect

end Sys2Proof.Machine
end

