-- ==== Sys2Proof/Machine/Blocker.lean ====
section
/-!
DEFINITION. Machine/Blocker.lean: the Blocker (R182 to R191): requests and responses, the placement of reservations,
the banks it writes, its commits and re-placements, the BLK page and the launch table's window (R172).
-/
namespace Sys2Proof.Machine

/-! ### Requests (R182) -/

/-- A request's fields. -/
structure BReq where
  op : Nat
  id : Nat
  cand : Nat
  period : Nat
  maxFrame : Nat
  copies : Nat
  handle : Nat
  arrive : Nat
  inEp : Nat
  deadline : Nat
  tag : Nat

def breqOf (ws : List Data) : BReq :=
  let w (i : Nat) : Data := ws.getD i 0
  ⟨bitsOf (w 0) 63 60, bitsOf (w 0) 59 48, bitsOf (w 0) 47 0, bitsOf (w 1) 63 34, bitsOf (w 1) 33 20,
   bitsOf (w 1) 19 18, bitsOf (w 1) 13 0, bitsOf (w 2) 63 34, bitsOf (w 2) 33 28, bitsOf (w 3) 63 34, bitsOf (w 3) 31 0⟩

/-- A reservation as the Blocker works with it: its request and its placement. -/
structure Held_ where
  req : BReq
  place : Place

def Dev.place (d : Dev) (id : Nat) : Option Place := tget (fun _ => none) d.resv id

def Dev.resvWords (d : Dev) (id : Nat) : List Data := (List.range 4).map (fun w => d.lookupWord .reservation id w)

/-- The reservations held, in order of ID. -/
def Dev.blkHeld (d : Dev) : List Held_ :=
  d.resv.filterMap (fun e => match e.2 with
    | some p => some ⟨{ breqOf (d.resvWords e.1) with id := e.1 }, p⟩
    | none => none)

/-! ### Windows (R184, R185) -/

def ceilDiv (a b : Nat) : Nat := (a + b - 1) / b

def roundUp (g x : Nat) : Nat := ceilDiv x g * g

/-- R45: the upper receive latency of a rate in ps; at 25 Gbit/s the largest row (DEDUCED, log entry 19). -/
def rxMaxPs (rate : Nat) : Nat :=
  match rate with | 1 => 304000 | 2 => 84800 | 3 => 254600 | 4 => 152600 | _ => 98600

def Dev.blkRate (d : Dev) (p : Nat) : Nat := d.get BLK.page BLK.BLK_PORT.RATE p
def Dev.blkCycle (d : Dev) : Nat := d.get BLK.page BLK.BLK_CYCLE.CYCLE_NS

/-- The window's length on a port in ns; none where R185 excludes the port. -/
def Dev.blkWindow (d : Dev) (r : BReq) (p : Nat) : Option Nat :=
  let rate := d.blkRate p
  let g := rateGbit rate
  let tc7 := d.flag (PRT.page p) PRT.PORT_CFG.TC7_EN
  let bytes := d.get BLK.page BLK.BLK_TC7.TC7_BYTES p
  let mbit := d.get BLK.page BLK.BLK_TC7.TC7_RATE p
  let pre := if d.flag SCH.page SCH.PORT_PREEMPT.PREEMPT_EN p then
    147 + 64 * d.get SCH.page SCH.PORT_PREEMPT.ADD_FRAG p else 0
  if !d.flag BLK.page BLK.BLK_PORT.ALLOW p || (tc7 && bytes == 0)
      || (tc7 && decide (d.get SCH.page SCH.PORT_SCH.TC6_MAX p < r.maxFrame)) || decide (1000 * g ≤ mbit) then none
  else some (ceilDiv (startGrain rate * g + 8000 * (r.maxFrame + 20 + pre + bytes)) (1000 * g - mbit))

/-- The earliest start in ps (R185). -/
def Dev.blkEarliest (d : Dev) (r : BReq) : Nat :=
  let rate := d.blkRate r.inEp
  1000 * r.arrive + (if r.inEp < 48 then (r.maxFrame + 20) * 8000 / rateGbit rate + rxMaxPs rate else 0)
    + 1000 * d.get BLK.page BLK.BLK_CFG.RES_MIN_NS

/-- The slot step in ns. -/
def Dev.blkGrain (d : Dev) : Nat := 8 ^ d.get BLK.page BLK.BLK_CFG.GRAIN

/-- A window series that stands on a port: slot, period, length; and the new window's length there. -/
structure Series where
  slot : Nat
  period : Nat
  len : Nat
  new : Nat

/-- The series of a port. -/
def seriesOf (held : List Held_) (p new : Nat) : List Series :=
  held.filterMap (fun h => match h.place.ports.find? (fun q => q.1 == p) with
    | some q => some ⟨h.place.s % h.req.period, h.req.period, q.2, new⟩
    | none => none)

/-- Two window series with starts `s` and `x.slot` and periods `P` and `x.period` that divide the cycle meet modulo it
exactly where they meet modulo the periods' greatest common divisor. The step from a start that meets one to the next
that does not; `some none` when none does not. -/
def Series.clash (x : Series) (P s : Nat) : Option (Option Nat) :=
  let g := Nat.gcd x.period P
  let off := (s % g + g - x.slot % g) % g
  if x.len ≤ off ∧ x.new ≤ g - off then none
  else if g < x.len + x.new then some none
  else some (some (if off < x.len then s + (x.len - off) else s + (g - off) + x.len))

/-- The smallest start from `s` on, in steps of `grain`, that meets no series and the deadline. -/
def slotFrom (grain P arrive deadline W limit : Nat) (xs : List Series) : Nat → Nat → Option Nat
  | 0, _ => none
  | n + 1, s =>
    if limit < s ∨ deadline < W then none else
    let lat := (s + P - arrive % P) % P
    if deadline < lat + W then slotFrom grain P arrive deadline W limit xs n (roundUp grain (s + (P - lat)))
    else match xs.findSome? (fun x => x.clash P s) with
      | none => some s
      | some none => none
      | some (some t) => slotFrom grain P arrive deadline W limit xs n (roundUp grain t)

/-- What a port, or pair of ports, gives: a start, no start, or the capacity of R187 and R173 exceeded. -/
inductive Try where
  | slot (s : Nat)
  | none
  | full

/-- The start of a request on chosen ports with their windows. -/
def Dev.blkTry (d : Dev) (held : List Held_) (r : BReq) (ports : List (Nat × Nat)) : Try :=
  let grain := d.blkGrain
  let W := (ports.map Prod.snd).foldl max 0
  let cycle := d.blkCycle
  let instances (p : Nat) : Nat := ((seriesOf held p 0).map (fun x => cycle / x.period)).sum + cycle / r.period
  if ports.any (fun q => decide (511 < instances q.1)) then .full
  else if r.period < W then .none else
  let s0 := roundUp grain (ceilDiv (d.blkEarliest r) 1000)
  let reach := Nat.lcm grain r.period
  match slotFrom grain r.period r.arrive r.deadline W (s0 + reach) ((ports.map (fun q => seriesOf held q.1 q.2)).flatten)
      (reach / grain + 1) s0 with
  | none => .none
  | some s =>
    let q (h : BReq) (s : Nat) : Nat := 1 + (s - h.arrive) / h.period
    let waiting (p : Nat) : Nat :=
      ((held.filter (fun h => h.place.ports.any (fun x => x.1 == p))).map (fun h => q h.req h.place.s)).sum + q r s
    if ports.any (fun x => decide (96 < waiting x.1)) then .full else .slot s

/-- Whether two ports may carry the two copies (R186). -/
def Dev.disjoint (d : Dev) (a b : Nat) : Bool :=
  let n (p : Nat) : List (BitVec 8) := tget (fun _ => []) d.neigh p
  let f (p : Nat) : Nat := d.get BLK.page BLK.BLK_PORT.FATE p
  (n a == [] || n b == [] || n a != n b) && (f a == 0 || f a != f b)

/-- The best of several choices: the smallest start, the earliest choice among equals. -/
def bestTry (f : List (Nat × Nat) → Try) : List (List (Nat × Nat)) → Option (Nat × List (Nat × Nat)) × Bool
  | [] => (none, true)
  | c :: rest =>
    let r := bestTry f rest
    match f c with
    | .slot s => (match r.1 with
      | some (t, x) => if t < s then some (t, x) else some (s, c)
      | none => some (s, c), false)
    | .none => (r.1, false)
    | .full => r

/-- R185, R186: the placement of a request over the reservations held, or the STATUS that says why there is none. -/
def Dev.blkPlace (d : Dev) (held : List Held_) (r : BReq) : Nat × Option Place :=
  if r.period = 0 ∨ d.blkCycle % r.period ≠ 0 then (8, none) else
  let ports := (List.range 48).filterMap (fun p =>
    if r.cand.testBit p then (d.blkWindow r p).map (fun w => (p, w)) else none)
  if ports.isEmpty then (5, none) else
  let choices := if r.copies = 1 then ports.map (fun q => [q])
    else (ports.map (fun a => (ports.filter (fun b => a.1 < b.1 && d.disjoint a.1 b.1)).map (fun b => [a, b]))).flatten
  if choices.isEmpty then (3, none) else
  match bestTry (d.blkTry held r) choices with
  | (some (s, ports), _) => (0, some ⟨s, ports, ceilDiv (d.blkEarliest r) 1000 - r.arrive, 0⟩)
  | (none, true) => (7, none)
  | (none, false) => (1, none)

/-- Whether a request's fields are in range (R182); the period's rule has a STATUS of its own. -/
def BReq.bad (r : BReq) : Bool :=
  r.maxFrame < 64 || (r.copies != 1 && r.copies != 2) || 49 < r.inEp || (r.period != 0 && r.period ≤ r.arrive)

/-! ### Responses (R183) -/

/-- The queues as REQ_CMD, RSP_CMD and BLK_STAT show them. -/
def Dev.blkShow (d : Dev) : Dev :=
  let p := BLK.page
  let d := d.set p BLK.REQ_CMD.FILL d.reqQueue.length
  let d := d.setFlag p BLK.REQ_CMD.FULL (decide (256 ≤ d.reqQueue.length))
  let d := d.set p BLK.RSP_CMD.COUNT d.rspQueue.length
  let d := d.setFlag p BLK.RSP_CMD.VALID (!d.rspQueue.isEmpty)
  let replaces := d.blkPlan.isSome || (d.blkWaits && (match d.reqQueue with | q :: _ => (breqOf q.words).op == 3 | [] => false))
  let d := (d.setFlag p BLK.BLK_STAT.REPLACE_BUSY replaces).setFlag p BLK.BLK_STAT.BUSY (d.blkWaits || replaces)
  d.set p BLK.BLK_STAT.HELD d.blkHeld.length

/-- The words of a response. -/
def rspWords (op id status tag : Nat) (p : Option (BReq × Place)) : List Data :=
  let w0 := BitVec.ofNat 64 (op % 16 * 2 ^ 60 + id % 4096 * 2 ^ 48 + status % 16 * 2 ^ 44 + tag % 2 ^ 32)
  match p with
  | none => [w0, 0, 0, 0]
  | some (r, p) =>
    let w := (p.ports.map Prod.snd).foldl max 0
    let slot := p.s % r.period
    let a := (p.ports.map Prod.fst).getD 0 63
    let b := (p.ports.map Prod.fst).getD 1 63
    [w0, BitVec.ofNat 64 (slot * 2 ^ 34 + a * 2 ^ 28 + b * 2 ^ 22),
     BitVec.ofNat 64 (w % 2 ^ 30 * 2 ^ 34 + ((slot + r.period - r.arrive % r.period) % r.period + w) % 2 ^ 30 * 2 ^ 4),
     BitVec.ofNat 64 (secOf p.swap % 2 ^ 32 * 2 ^ 32 + nsOf p.swap * 4)]

/-- Responses that wait enter the queue while it has room (R187). -/
def Dev.rspFill (d : Dev) : Dev :=
  let room := 256 - d.rspQueue.length
  let now := d.rspWait.take room
  let d := { d with rspQueue := d.rspQueue ++ now, rspWait := d.rspWait.drop room }
  (if now.isEmpty then d else d.raise BLK.page BLK.INT_RAW.RSP_READY).blkShow

/-- A response: to the queue, or to the mailbox that its request came from (R321). -/
def Dev.blkRespond (d : Dev) (origin : Option (Nat × Data)) (status : Nat) (ws : List Data) : Dev :=
  let d := d.set BLK.page BLK.BLK_STAT.LAST_STATUS status
  let d := if status = 0 then d else d.count 0x791
  match origin with
  | some (ch, cmd) => (d.fwReply ch cmd 0 (ws.map BitVec.toNat)).blkShow
  | none => ({ d with rspWait := d.rspWait ++ [ws] }).rspFill

/-! ### Writing and committing a schedule (R178, R188) -/

/-- The windows of a port in one cycle, a window across the cycle's end in two parts: start, length, reservation. -/
def portWindows (held : List Held_) (cycle p : Nat) : List (Nat × Nat × Nat) :=
  let all := (held.filterMap (fun h => match h.place.ports.find? (fun q => q.1 == p) with
    | some q => some ((List.range (cycle / h.req.period)).map (fun k => (h.place.s % h.req.period + k * h.req.period, q.2, h.req.id)))
    | none => none)).flatten
  (all.map (fun w => if w.1 + w.2.1 ≤ cycle then [w]
    else [(w.1, cycle - w.1, w.2.2), (0, w.1 + w.2.1 - cycle, w.2.2)])).flatten

/-- Windows in order of their starts. -/
def sortWindows (l : List (Nat × Nat × Nat)) : List (Nat × Nat × Nat) :=
  l.foldr ins []
where
  ins (w : Nat × Nat × Nat) : List (Nat × Nat × Nat) → List (Nat × Nat × Nat)
    | [] => [w]
    | x :: rest => if w.1 ≤ x.1 then w :: x :: rest else x :: ins w rest

/-- A gate control list entry of the Blocker (R174): SetGateStates, gates, interval, reservation, BLK = 1. -/
def blkEntry (gates ns id : Nat) : Data := BitVec.ofNat 64 (gates * 2 ^ 55 + ns * 2 ^ 24 + id * 2 ^ 12 + 2 ^ 11)

/-- The entries of a bank: windows with TC6 open alone, and between them TC0 to TC5 open. -/
def bankEntries (cycle : Nat) : Nat → List (Nat × Nat × Nat) → List Data
  | at_, [] => if at_ < cycle then [blkEntry 0x3F (cycle - at_) 0] else []
  | at_, w :: rest =>
    (if at_ < w.1 then [blkEntry 0x3F (w.1 - at_) 0] else []) ++ blkEntry 0x40 w.2.1 w.2.2
      :: bankEntries cycle (w.1 + w.2.1) rest

/-- A bank's header and entries written, and those of an earlier longer list cleared. -/
def Dev.writeBank (d : Dev) (p bank cycle : Nat) (es : List Data) : Dev :=
  let old := d.bankLen p bank
  let d := d.set (GCL.page p) GCL.BANK_CYCLE.CYCLE_NS cycle bank
  let d := d.set (GCL.page p) GCL.BANK_PHASE.PHASE_NS 0 bank
  let d := d.set (GCL.page p) GCL.BANK_LEN.LEN es.length bank
  let d := es.zipIdx.foldl (fun d e => d.setEntry .gcl (gclIndex p bank e.2) e.1) d
  ((List.range old).drop es.length).foldl (fun d i => d.setEntry .gcl (gclIndex p bank i) 0) d

/-- The Blocker's bank of a port: its windows, or one entry with TC0 to TC6 open when it releases the port. -/
def Dev.blkBank (d : Dev) (held : List Held_) (p : Nat) : List Data :=
  let ws := sortWindows (portWindows held d.blkCycle p)
  if ws.isEmpty then [blkEntry 0x7F d.blkCycle 0] else bankEntries d.blkCycle 0 ws

/-- The first write of the shadow bank takes the port's schedule (R178): a user's pending swap is withdrawn. -/
def Dev.takePort (d : Dev) (p : Nat) : Dev :=
  let page := GCL.page p
  if d.flag page GCL.GCL_STAT.BLOCKER_OWN then d else
  let d := if (d.gclPort p).swapAt.isSome then
      ((d.withdrawSwap p).raise page GCL.INT_RAW.SUPERSEDED).err page 0x41 GCL.SWAP_CTRL.SWAP.off else d
  (d.set page GCL.GCL_STAT.BLOCKER_OWN 1).refreshIdle p

/-- One port's shadow bank written and its GCL page committed for a swap (R188). -/
def Dev.blkPort (d : Dev) (held : List Held_) (at_ p : Nat) : Dev :=
  let page := GCL.page p
  let release := !held.any (fun h => h.place.ports.any (fun q => q.1 == p))
  let d := d.takePort p
  let d := d.writeBank p (d.shadowBank p) d.blkCycle (d.blkBank held p)
  let d := (d.set page GCL.SWAP_SEC.SEC (secOf at_)).set page GCL.SWAP_NS.NS (nsOf at_)
  let d := (d.set page GCL.GCL_CFG.ENABLE 1).writeImage page
  let d := d.incWrap page COM.COMMIT_STAT.ACCEPTED
  (d.planSwap p at_ (some true) true release).count 0x793

/-- The windows of a port in one list, to see whether its schedule changes. -/
def portSeries (held : List Held_) (p : Nat) : List (Nat × Nat × Nat × Nat) :=
  held.filterMap (fun h => match h.place.ports.find? (fun q => q.1 == p) with
    | some q => some (h.req.id, h.place.s % h.req.period, h.req.period, q.2)
    | none => none)

/-- Whether a previous Blocker swap is pending on a port. -/
def Dev.blkSwapPending (d : Dev) (p : Nat) : Bool := (d.gclPort p).blocker && (d.gclPort p).swapAt.isSome

/-- The cycle of the bank that the Blocker last gave a port. -/
def Dev.blkBankCycle (d : Dev) (p : Nat) : Nat :=
  d.bankCycle p (if d.blkSwapPending p then d.shadowBank p else d.activeBank p)

/-- Whether the Blocker owns a port and no swap that releases it is pending (R178). -/
def Dev.blkKeeps (d : Dev) (p : Nat) : Bool :=
  d.flag (GCL.page p) GCL.GCL_STAT.BLOCKER_OWN && !(d.blkSwapPending p && (d.gclPort p).release)

/-- The ports whose schedule a change of the reservations, or of the cycle, changes: those that a page soft reset left
without reservations among them. -/
def Dev.changedPorts (d : Dev) (old new : List Held_) : List Nat :=
  (List.range 48).filter (fun p => portSeries old p != portSeries new p
    || (if (portSeries new p).isEmpty then d.blkKeeps p else d.blkBankCycle p != d.blkCycle))

/-- The launch table entry of a reservation (R185). -/
def launchWords (r : BReq) (p : Place) : Data × Data :=
  (BitVec.ofNat 64 (7 * 2 ^ 61 + p.ofs % 2 ^ 30 * 2 ^ 31), BitVec.ofNat 64 (r.period * 2 ^ 34 + p.s % r.period * 2 ^ 4))

/-- The swap time of R188: the first boundary of the Blocker's cycle at least LEAD_US after now. -/
def Dev.blkSwapTime (d : Dev) : Nat :=
  roundUp (d.blkCycle * nsU) (d.now + 1000 * d.get BLK.page BLK.BLK_CFG.LEAD_US * nsU)

/-- A port's Blocker bank: the one a pending swap will activate, else the active one. -/
def Dev.copyBank (d : Dev) (p : Nat) : TwinBank :=
  let g := d.gclPort p
  let pend := g.blocker && g.swapAt.isSome
  let b := if pend then d.shadowBank p else d.activeBank p
  ⟨p, d.bankCycle p b, (List.range (d.bankLen p b)).map (fun i => d.lookupWord .gcl (gclIndex p b i)),
   if pend then g.swapAt else none, g.release⟩

/-- The content of the BLK class (R288). -/
def Dev.copyBlk (d : Dev) : CopyItem :=
  let regs := d.regs.filterMap (fun e =>
    let off := rkeyOff e.1
    if rkeyPage e.1 = BLK.page ∧ (off = 0x40 ∨ off = 0x44 ∨ off = 0x50 ∨ off = 0x54) then some (off, rkeySel e.1, e.2)
    else none)
  let resv := d.resv.filterMap (fun e => e.2.map (fun p => (⟨e.1, d.resvWords e.1, p.s, p.ports, p.ofs, p.swap⟩ : TwinResv)))
  let launch := (d.listed .launch).map (fun i => (i, d.lookupWord .launch i 0, d.lookupWord .launch i 1))
  let banks := ((List.range 48).filter (fun p => d.flag (GCL.page p) GCL.GCL_STAT.BLOCKER_OWN)).map d.copyBank
  .blk regs resv launch d.blkStage banks

/-- The Blocker content as it stood before the commits of this instant, kept for a copy that ends on the same tick (R33,
R299). -/
def Dev.blkMark (was d : Dev) : Dev :=
  match d.dbl.blkBefore with
  | some (t, _) => if t = d.now then d else { d with dbl := { d.dbl with blkBefore := some (d.now, was.copyBlk) } }
  | none => { d with dbl := { d.dbl with blkBefore := some (d.now, was.copyBlk) } }

/-- R188: the ports written and committed for one boundary, the launch table entries staged for it. `drop` are handles
whose entries the change removes. -/
def Dev.blkCommit (d : Dev) (ports : List Nat) (new : List Held_) (write : List Held_) (drop : List Nat) : Dev :=
  let at_ := d.blkSwapTime
  let d := ports.foldl (fun d p => d.blkPort new at_ p) (Dev.blkMark d d)
  let stage := drop.map (fun h => (at_, h, (0 : Data), (0 : Data)))
    ++ write.map (fun h => let w := launchWords h.req h.place; (at_, h.req.handle, w.1, w.2))
  { d with blkStage := d.blkStage ++ stage }

def Dev.setPlace (d : Dev) (id : Nat) (p : Option Place) : Dev := { d with resv := tset (fun _ => none) d.resv id p }

/-- A reservation's request words stored. -/
def Dev.setResv (d : Dev) (id : Nat) (ws : List Data) (p : Place) : Dev :=
  let d := (List.range 4).foldl (fun d w => d.setEntry .reservation id (ws.getD w 0) w) d
  d.setPlace id (some p)

def Dev.clearResv (d : Dev) (id : Nat) : Dev := (d.zeroEntry .reservation id 4).setPlace id none

/-! ### The requests at the head of the queue -/

/-- The request at the head, if the Blocker may take one (R187): it has no response waiting for room, no re-placement
of a COMMIT waits, and fewer than 256 responses are unread, for which a REPLACE_ALL does not wait. -/
def Dev.blkHead (d : Dev) (op : Nat) : Option BlkReq :=
  match d.reqQueue with
  | r :: _ =>
    if (breqOf r.words).op = op ∧ d.rspWait.isEmpty ∧ (op = 3 ∨ d.rspQueue.length < 256) ∧ d.blkPlan.isNone then
      some r else none
  | [] => none

/-- The head request ends: it leaves the queue and is answered. -/
def Dev.blkAnswer (d : Dev) (q : BlkReq) (status : Nat) (p : Option Place) : Dev :=
  let r := breqOf q.words
  let d := { d with reqQueue := d.reqQueue.tail, blkWaits := false }
  d.blkRespond q.origin status (rspWords r.op r.id status r.tag (p.map (fun x => (r, x))))

/-- A change to some ports now, or once their pending Blocker swaps have taken place (R188). -/
def Dev.blkWhenFree (d : Dev) (ports : List Nat) (f : Dev → Dev) : Dev :=
  if ports.any d.blkSwapPending then ({ d with blkWaits := true }).blkShow else f d

/-- R185: an ADD. -/
def Dev.blkAdd (d : Dev) (q : BlkReq) : Dev :=
  let r := breqOf q.words
  if (d.place r.id).isSome then d.blkAnswer q 2 none
  else if r.bad then d.blkAnswer q 4 none else
  let held := d.blkHeld
  match d.blkPlace held r with
  | (status, none) => d.blkAnswer q status none
  | (_, some p) =>
    let ports := p.ports.map Prod.fst
    d.blkWhenFree ports (fun d =>
      let p := { p with swap := d.blkSwapTime }
      let h : Held_ := ⟨r, p⟩
      let d := d.blkCommit ports (held ++ [h]) [h] []
      (d.setResv r.id q.words p).blkAnswer q 0 (some p))

/-- R182: a REMOVE; its handle's entry goes unless another reservation uses the handle. -/
def Dev.blkRemove (d : Dev) (q : BlkReq) : Dev :=
  let r := breqOf q.words
  match d.place r.id with
  | none => d.blkAnswer q 6 none
  | some p =>
    let held := d.blkHeld
    let ports := p.ports.map Prod.fst
    d.blkWhenFree ports (fun d =>
      let rest := held.filter (fun h => h.req.id != r.id)
      let handle := (breqOf (d.resvWords r.id)).handle
      let drop := if rest.any (fun h => h.req.handle == handle) then [] else [handle]
      ((d.blkCommit ports rest [] drop).clearResv r.id).blkAnswer q 0 none)

/-- R182: a QUERY. -/
def Dev.blkQuery (d : Dev) (q : BlkReq) : Dev :=
  let r := breqOf q.words
  match d.place r.id with
  | none => d.blkAnswer q 6 none
  | some p =>
    let d := { d with reqQueue := d.reqQueue.tail }
    d.blkRespond q.origin 0 (rspWords r.op r.id 0 r.tag (some ({ breqOf (d.resvWords r.id) with id := r.id }, p)))

/-- R189: every reservation placed from an empty schedule, in order of DEADLINE_NS and then ID. -/
def Dev.blkAllPlaced (d : Dev) : Option (List Held_) :=
  let order := d.blkHeld.foldr ins []
  order.foldl (fun (acc : Option (List Held_)) (h : Held_) =>
    match acc with
    | none => none
    | some done => match d.blkPlace done h.req with
      | (_, some p) => some (done ++ [⟨h.req, p⟩])
      | (_, none) => none) (some [])
where
  ins (h : Held_) : List Held_ → List Held_
    | [] => [h]
    | x :: rest =>
      if h.req.deadline < x.req.deadline || (h.req.deadline == x.req.deadline && h.req.id < x.req.id) then h :: x :: rest
      else x :: ins h rest

/-- The placements in order of ID. -/
def byId (l : List Held_) : List Held_ :=
  l.foldr (fun h acc => ins h acc) []
where
  ins (h : Held_) : List Held_ → List Held_
    | [] => [h]
    | x :: rest => if h.req.id < x.req.id then h :: x :: rest else x :: ins h rest

/-- A successful re-placement committed: placements in placement order with their swap. -/
def Dev.blkReplaced (d : Dev) (ports : List Nat) (new : List Held_) : Dev × List Held_ :=
  let at_ := d.blkSwapTime
  let new := new.map (fun h =>
    let moved := h.place.ports.any (fun q => ports.contains q.1)
    let swap := if moved then at_ else match d.place h.req.id with | some p => p.swap | none => at_
    (⟨h.req, { h.place with swap := swap }⟩ : Held_))
  let d := d.blkCommit ports (byId new) (byId new) []
  (new.foldl (fun d h => d.setPlace h.req.id (some h.place)) d, new)

/-- R189: a REPLACE_ALL request: per-reservation responses, then the closing one; by mailbox the closing one only. -/
def Dev.blkReplaceAll (d : Dev) (q : BlkReq) : Dev :=
  let r := breqOf q.words
  let close (d : Dev) (status : Nat) : Dev :=
    ({ d with reqQueue := d.reqQueue.tail, blkWaits := false }).blkRespond q.origin status (rspWords 3 0 status r.tag none)
  match d.blkAllPlaced with
  | none => close (d.count 0x792) 9
  | some new =>
    let ports := d.changedPorts d.blkHeld (byId new)
    d.blkWhenFree ports (fun d =>
      let x := (d.count 0x792).blkReplaced ports new
      let rsp := x.2.map (fun h => rspWords 3 h.req.id 0 r.tag (some (h.req, h.place)))
      let d := if q.origin.isNone then { x.1 with rspWait := x.1.rspWait ++ rsp } else x.1
      close d 0)

/-- R189: the placements that a BLK COMMIT has found are carried out now, or once no port they change has a pending
Blocker swap, until when they are kept; the closing response has TAG 0. -/
def Dev.blkReplaceCommit (d : Dev) (new : List Held_) : Dev :=
  let ports := d.changedPorts d.blkHeld (byId new)
  if ports.any d.blkSwapPending then
    ({ d with blkPlan := some (new.map (fun h => (h.req.id, h.place))) } : Dev).blkShow
  else
    let x := (({ d with blkPlan := none } : Dev).count 0x792).blkReplaced ports new
    x.1.blkRespond none 0 (rspWords 3 0 0 0 none)

/-- The reservations with the placements that a re-placement has found for them, in placement order. -/
def Dev.planned (d : Dev) (plan : List (Nat × Place)) : List Held_ :=
  plan.filterMap (fun x => (d.place x.1).map (fun _ => ⟨{ breqOf (d.resvWords x.1) with id := x.1 }, x.2⟩))

/-- The command at the head of the queue by its OP. -/
def Dev.blkRun (d : Dev) (op : Nat) : Dev :=
  match d.blkHead op with
  | none => d
  | some q =>
    if d.blkWaits then d else
    match op with
    | 1 => d.blkAdd q
    | 2 => d.blkRemove q
    | 3 => d.blkReplaceAll q
    | 4 => d.blkQuery q
    | _ => d

/-- BLK_ADD: a request of OP 0x1 at the head of the queue. -/
def execBlkAdd (s : State) : Host.Outcome State Fault Refusal := onFw (fun d _ => d.blkRun 1) s

/-- BLK_REMOVE: OP 0x2. -/
def execBlkRemove (s : State) : Host.Outcome State Fault Refusal := onFw (fun d _ => d.blkRun 2) s

/-- BLK_REPLACE_ALL: OP 0x3. -/
def execBlkReplaceAll (s : State) : Host.Outcome State Fault Refusal := onFw (fun d _ => d.blkRun 3) s

/-- BLK_QUERY: OP 0x4. -/
def execBlkQuery (s : State) : Host.Outcome State Fault Refusal := onFw (fun d _ => d.blkRun 4) s

/-- R188: what waits for a pending swap goes on once the swap has taken place: a re-placement of a COMMIT first. -/
def Dev.blkResume (d : Dev) : Dev :=
  match d.blkPlan with
  | some plan => d.blkReplaceCommit (d.planned plan)
  | none =>
    if d.blkWaits then
      match d.reqQueue with
      | [] => d
      | q :: _ => ({ d with blkWaits := false }).blkRun (breqOf q.words).op
    else d

def execBlkResumeAfterSwap (s : State) : Host.Outcome State Fault Refusal := onFw (fun d _ => d.blkResume) s

/-! ### PUSH and POP (R182, R183, R187) -/

/-- The request words an accessor has put into its window (R308): one word for each value of REQ_ADDR. -/
def reqSel (acc : Accessor) (word : Nat) : Nat := acc.idx * 4 + word

def Dev.reqWord (d : Dev) (acc : Accessor) (w : Nat) : Data :=
  BitVec.ofNat 64 (d.get BLK.page BLK.REQ_LO.DATA_LO (reqSel acc w)
    + d.get BLK.page BLK.REQ_MID.DATA_MID (reqSel acc w) * 2 ^ 32)

/-- A request queued or refused: the RESULT, and the device. -/
def Dev.blkPush (d : Dev) (words : List Data) (origin : Option (Nat × Data)) : Nat × Dev :=
  let op := (breqOf words).op
  if d.copied 1 then (7, d.rejectCommit BLK.page 0x0F BLK.REQ_CMD.PUSH.off)
  else if op = 0 ∨ 4 < op then (4, d)
  else if 256 ≤ d.reqQueue.length then (2, d)
  else
    let q : BlkReq := ⟨words, origin⟩
    (0, (({ d with reqQueue := d.reqQueue ++ [q] }).count 0x790).blkShow)

def execBlkPush (acc : Accessor) (s : State) : Host.Outcome State Fault Refusal :=
  onDev (fun d => d.asOwner acc BLK.page BLK.REQ_CMD.PUSH.off (fun d =>
    let x := d.blkPush ((List.range 4).map (d.reqWord acc)) none
    if x.1 = 7 then x.2 else x.2.set BLK.page BLK.REQ_CMD.RESULT x.1) BLK.REQ_CMD.PUSH.strike) s

def execBlkPop (acc : Accessor) (s : State) : Host.Outcome State Fault Refusal :=
  onDev (fun d => d.asOwner acc BLK.page BLK.RSP_CMD.POP.off (fun d =>
    ({ d with rspQueue := d.rspQueue.tail }).rspFill) BLK.RSP_CMD.POP.strike) s

/-! ### The COMMIT of the BLK page (R189, R191) -/

/-- The Doublet's cycle in ns. -/
def dblCycleNs (code : Nat) : Nat := 31250 * 2 ^ code

def Dev.blkRules (d : Dev) : List Rule :=
  let sh (f : Field) (p : Nat) : Nat := d.getSh .blk BLK.page f p
  let r (f : Field) (lo hi : Nat) : Rule := d.ruleRange .blk BLK.page f lo hi
  let cycle := sh BLK.BLK_CYCLE.CYCLE_NS 0
  let moves : Bool := d.changes BLK.page BLK.BLK_CYCLE.CYCLE_NS.off
    || (List.range 48).any (fun p => d.changes BLK.page BLK.BLK_PORT.ALLOW.off p || d.changes BLK.page BLK.BLK_TC7.TC7_BYTES.off p)
  [ (d.copied 1, 0x0F, COM.COMMIT.GO.off),
    r BLK.BLK_CFG.LEAD_US 1 4095, r BLK.BLK_CFG.GRAIN 0 3, r BLK.BLK_CFG.RES_MIN_NS 300 65535,
    (cycle < 10000 || 1000000000 % cycle != 0, 0x08, BLK.BLK_CYCLE.CYCLE_NS.off),
    ruleAny 48 (fun p => d.ruleRange .blk BLK.page BLK.BLK_PORT.RATE 1 5 (sel := p)),
    ruleAny 48 (fun p => (1000 * rateGbit (sh BLK.BLK_PORT.RATE p) < sh BLK.BLK_TC7.TC7_RATE p, 0x08,
      BLK.BLK_TC7.TC7_RATE.off)),
    (decide (sh BLK.BLK_CFG.LEAD_US 0 * 1000 < 2 * dblCycleNs (d.get DBL.page DBL.DBL_CFG.CYCLE)), 0x44,
      BLK.BLK_CFG.LEAD_US.off),
    (moves && d.flag BLK.page BLK.BLK_STAT.REPLACE_BUSY, 0x43, COM.COMMIT.GO.off) ]

/-- BLK_CONFIG_COMMIT: a change of BLK_CYCLE, BLK_PORT or BLK_TC7 places every reservation again with the new values; if
that fails, the old values stand and the COMMIT is rejected with 0x43. -/
def Dev.blkEffect (before d : Dev) : Dev :=
  let differ (off sel : Nat) : Bool := before.rd BLK.page off sel != d.rd BLK.page off sel
  let moves : Bool := differ BLK.BLK_CYCLE.CYCLE_NS.off 0
    || (List.range 48).any (fun p => differ BLK.BLK_PORT.ALLOW.off p || differ BLK.BLK_TC7.TC7_BYTES.off p)
  let d := Dev.blkMark before d
  if !moves then d else
  match d.blkAllPlaced with
  | some new => d.blkReplaceCommit new
  | none =>
    let b := ((before.dropShadows BLK.page).rejectCommit BLK.page 0x43 BLK.BLK_CYCLE.CYCLE_NS.off).count 0x792
    (b.raise BLK.page BLK.INT_RAW.REPLACE_FAIL).blkRespond none 9 (rspWords 3 0 9 0 none)

def Dev.commitBlk (d : Dev) : Dev := d.commitBy BLK.page d.blkRules Dev.blkEffect

/-! ### After a reset (R191) -/

/-- Both banks of a port written again from the reservations, and executed. -/
def Dev.blkRewrite (d : Dev) (p : Nat) : Dev :=
  let held := d.blkHeld
  if (portSeries held p).isEmpty then d else
  let es := d.blkBank held p
  let d := (d.writeBank p 0 d.blkCycle es).writeBank p 1 d.blkCycle es
  let d := (d.set (GCL.page p) GCL.GCL_STAT.BLOCKER_OWN 1).set (GCL.page p) GCL.GCL_CFG.ENABLE 1
  (d.setGclPort p { d.gclPort p with on := true }).refreshGcl p

/-! ### The entry window (R172, R400) -/

/-- The words of an entry of table 0x0 or 0x1. -/
def Dev.blkWords (d : Dev) (table i : Nat) : List Native :=
  if table = 0 then [d.stored .launch i 0, d.stored .launch i 1]
  else (List.range 4).map (fun w => d.stored .reservation i w)

/-- R400: READ of a launch table entry or a reservation. -/
def execBlkLaunchRead (acc : Accessor) (s : State) : Host.Outcome State Fault Refusal :=
  onDev (fun d => d.asAny acc BLK.page (fun d =>
    let t := winTable d blkWin acc
    let i := winIndex d blkWin acc
    if 1 < t || (t == 1 && decide (4095 < i)) || decide ((if t = 0 then 1 else 3) < winWord d blkWin acc) then
      d.winResult blkWin acc 4
    else if t == 1 && (d.place i).isNone then d.winResult blkWin acc 1
    else d.winCapture blkWin acc (d.blkWords t i)) [(blkWin.result.off, 1)]) s

/-- Whether a launch table entry breaks the period rule or the slot rule of R172, or its offset is out of range. -/
def launchBad (w0 w1 : Data) : Bool :=
  let p := bitsOf w1 63 34
  decide (999999999 < bitsOf w0 60 31) || (bitOf w0 62 && (p == 0 || 1000000000 % p != 0 || decide (p ≤ bitsOf w1 33 4)))

/-- R172: WRITE of a launch table entry; both words at once when WORD reaches 1. -/
def execBlkLaunchWrite (acc : Accessor) (s : State) : Host.Outcome State Fault Refusal :=
  onDev (fun d => d.asOwner acc BLK.page BLK.ENTRY_CMD.OP.off (fun d =>
    let i := winIndex d blkWin acc
    if d.copied 1 then d.rejectCommit BLK.page 0x0F BLK.ENTRY_CMD.OP.off
    else if winTable d blkWin acc ≠ 0 ∨ 1 < winWord d blkWin acc then d.winResult blkWin acc 4 else
    let x := d.winCollect blkWin acc 1
    match x.2 with
    | none => x.1.winResult blkWin acc 0
    | some ws =>
      let w0 := putBits (ws.getD 0 0) 30 0 0
      let w1 := putBits (ws.getD 1 0) 3 0 0
      if bitOf (d.lookupWord .launch i) 61 || bitOf w0 61 then x.1.winResult blkWin acc 3
      else if launchBad w0 w1 then x.1.winResult blkWin acc 4
      else (((x.1.setEntry .launch i w0 0).setEntry .launch i w1 1).writeImage BLK.page).winResult blkWin acc 0)
    [(BLK.ENTRY_CMD.OP.off, 2)]) s

/-- R172: DELETE of a launch table entry. -/
def execBlkLaunchDelete (acc : Accessor) (s : State) : Host.Outcome State Fault Refusal :=
  onDev (fun d => d.asOwner acc BLK.page BLK.ENTRY_CMD.OP.off (fun d =>
    let i := winIndex d blkWin acc
    if d.copied 1 then d.rejectCommit BLK.page 0x0F BLK.ENTRY_CMD.OP.off
    else if winTable d blkWin acc ≠ 0 then d.winResult blkWin acc 4
    else if bitOf (d.lookupWord .launch i) 61 then d.winResult blkWin acc 3
    else ((d.zeroEntry .launch i 2).writeImage BLK.page).winResult blkWin acc 0) [(BLK.ENTRY_CMD.OP.off, 3)]) s

end Sys2Proof.Machine
end

