-- ==== Sys2Proof/Machine/Clocks.lean ====
section
/-!
DEFINITION. Machine/Clocks.lean: the synthesizers (R249 to R255) and the clock outputs (R257 to R266): plans, hops and
band memory, starting, stopping and squelching of outputs, their grids and alignment, and the SYN and OUT pages.
-/
namespace Sys2Proof.Machine

/-! ### Plans (R252) -/

/-- The instance of a plan's registers. -/
def planSel (syn plan : Nat) : Nat := syn * 8 + plan

/-- Whether a plan keeps f_syn within 2,000 to 3,000 MHz, with NUM below DEN and DEN not 0. -/
def planOk (n num den : Nat) : Bool :=
  den != 0 && num < den && 16 * den ≤ 5 * (n * den + num) && 5 * (n * den + num) ≤ 24 * den

def Dev.planBad (d : Dev) (syn plan : Nat) : Bool :=
  let g (f : Field) : Nat := d.getSh .syn SYN.page f (planSel syn plan)
  !planOk (g SYN.PLAN_N.N_INT) (g SYN.PLAN_NUM.NUM) (g SYN.PLAN_DEN.DEN)

def Dev.synOn (d : Dev) (k : Nat) : Bool := d.flag SYN.page SYN.SYN_CFG.ENABLE k
def Dev.synActive (d : Dev) (k : Nat) : Nat := d.get SYN.page SYN.SYN_CFG.ACTIVE k

/-! ### Periods and grids (R257, R262) -/

/-- An output's period in ps as a fraction: numerator and denominator (0 of a source without a frequency). -/
def periodPs (src dv pulse n num den : Nat) : Nat × Nat :=
  if src = 5 then (1000 * pulse, 1) else if src = 4 then (1600 * dv, 1) else (1600 * den * dv, n * den + num)

/-- The period of an output as its committed registers give it, with a plan of its source. -/
def Dev.outPeriodIn (d : Dev) (o plan : Nat) : Nat × Nat :=
  let src := d.get OUT.page OUT.OUT_CFG.SRC o
  let pl := planSel src plan
  periodPs src (d.get OUT.page OUT.OUT_DIV.D o) (d.get OUT.page OUT.PULSE_PERIOD.PERIOD_NS o)
    (d.get SYN.page SYN.PLAN_N.N_INT pl) (d.get SYN.page SYN.PLAN_NUM.NUM pl) (d.get SYN.page SYN.PLAN_DEN.DEN pl)

/-- An output's period: until a hop has ended it is the plan's that the synthesizer leaves (DESIGN CHOICE, log entry
151). -/
def Dev.outPeriod (d : Dev) (o : Nat) : Nat × Nat :=
  let src := d.get OUT.page OUT.OUT_CFG.SRC o
  d.outPeriodIn o (if d.flag SYN.page SYN.SYN_STAT.HOPPING src then d.get SYN.page SYN.SYN_STAT.ACTIVE_NOW src
    else d.synActive src)

/-- R: the smallest whole number of seconds from 1 to 64 that holds a whole number of periods; 0 none. -/
def repeatS (p : Nat × Nat) : Nat :=
  if p.1 = 0 ∨ p.2 = 0 then 0 else
  ((List.range 64).find? (fun i => (i + 1) * 1000000000000 * p.2 % p.1 == 0)).elim 0 (· + 1)

/-- The first grid instant of an output at or after an instant, in units of 2^-40 ns, rounded up to one; `base` is a
grid instant, before or after it. -/
def gridFrom (p : Nat × Nat) (r phase t : Nat) : Nat :=
  let base := secOf t / r * r * secU + phase * nsU
  if base ≤ t then
    let k := ((t - base) * 1000 * p.2 + p.1 * nsU - 1) / (p.1 * nsU)
    base + (k * p.1 * nsU + 1000 * p.2 - 1) / (1000 * p.2)
  else
    let k := (base - t) * 1000 * p.2 / (p.1 * nsU)
    base - k * p.1 * nsU / (1000 * p.2)

def Dev.outPhase (d : Dev) (o : Nat) : Nat := d.get OUT.page OUT.OUT_PHASE.PHASE_NS o

/-! ### Where an output's edges stand (R250, R259, R261, R262)

Positions are counted in units of 2^-40 ns / (1000 × the period's denominator), of which a period is a whole number. -/

/-- An output's period in these units. -/
def periodU (p : Nat × Nat) : Nat := p.1 * nsU

/-- An instant of an output's grid, from which every other is a whole number of periods away; without a repeat interval
the grid is counted from 0 s (DESIGN CHOICE, log entry 122). -/
def Dev.gridBase (d : Dev) (o : Nat) : Nat :=
  let r := repeatS (d.outPeriod o)
  (if r = 0 then 0 else secOf d.now / r * r * secU) + d.outPhase o * nsU

/-- A position brought within half a period of 0. -/
def wrapHalf (per : Nat) (x : Int) : Int := if per = 0 then 0 else (x + per / 2) % per - per / 2

/-- Whole periods of an output between two instants of the clocks' own time. -/
def periodsIn (p : Nat × Nat) (t0 t1 : Int) : Nat := if p.1 = 0 then 0 else (t1 - t0).toNat * (1000 * p.2) / periodU p

/-- Whether an output's source hops or is unlocked. -/
def Dev.srcBad (d : Dev) (o : Nat) : Bool :=
  let src := d.get OUT.page OUT.OUT_CFG.SRC o
  if src < 4 then !d.flag SYN.page SYN.SYN_STAT.LOCK src || d.flag SYN.page SYN.SYN_STAT.HOPPING src
  else if src = 4 then !d.flag SYN.page SYN.LSY_STAT.LOCK else false

/-- How far an output's edges stand from its grid, a walk in progress aside. -/
def Dev.outErr0 (d : Dev) (o : Nat) : Int :=
  let p := d.outPeriod o
  wrapHalf (periodU p) ((tget (fun _ => 0) d.outErr o + d.deficit) * (1000 * p.2 : Nat))

/-- What is left of an offset after `n` steps of 10 ps towards 0, the shorter way round (R263). -/
def walked (p : Nat × Nat) (e : Int) (n : Nat) : Int :=
  let left : Int := max 0 ((e.natAbs : Int) - (n * (10 * nsU * p.2) : Nat))
  if e < 0 then -left else left

/-- From when on the steps of a walk count that `outErr` does not hold yet, in the clocks' own time: a pending
alignment with WALK moves the edges 10 ps a period from its grid instant on, while its source is locked (R263, R264).
-/
def Dev.walkStart (d : Dev) (o : Nat) : Option Int :=
  match tget (fun _ => none) d.outFrom o with
  | none => none
  | some t =>
    let p := d.outPeriod o
    let r := repeatS p
    if r = 0 ∨ !d.flag OUT.page OUT.OUT_ALIGN.WALK o ∨ d.srcBad o then none else
    match tget (fun _ => none) d.outWalk o with
    | some c => some c
    | none =>
      let g := gridFrom p r (d.outPhase o) t
      if g ≤ d.now then some (d.clk - (d.now - g : Nat)) else none

/-- How far an output's edges stand from its grid now. -/
def Dev.outErrNow (d : Dev) (o : Nat) : Int :=
  let p := d.outPeriod o
  match d.walkStart o with
  | some c => walked p (d.outErr0 o) (periodsIn p c d.clk)
  | none => d.outErr0 o

/-- The steps that an output's walk has made in `was`, the device before a change, kept: what comes after starts from
where its edges stand. -/
def Dev.settleAs (was d : Dev) (o : Nat) : Dev :=
  match was.walkStart o with
  | none => d
  | some c =>
    let p := was.outPeriod o
    let n := periodsIn p c was.clk
    { d with
      outErr := tset (fun _ => 0) d.outErr o (walked p (was.outErr0 o) n / ((1000 * p.2 : Nat) : Int) - was.deficit)
      outWalk := tset (fun _ => none) d.outWalk o (some (c + (n * p.1 * nsU / (1000 * p.2) : Nat))) }

def Dev.outsSettle (d : Dev) : Dev := (List.range 12).foldl (fun d o => Dev.settleAs d d o) d

/-- An output's skew now, in units of 10 ps: one unit towards SKEW for each period since its change (R259). -/
def Dev.skewAt (d : Dev) (o : Nat) : Nat :=
  let to_ := d.get OUT.page OUT.OUT_SKEW.SKEW o
  let (a, t) := tget (fun _ => (0, 0)) d.skewFrom o
  let n := periodsIn (d.outPeriod o) t d.clk
  if a ≤ to_ then min to_ (a + n) else max to_ (a - n)

/-- The skew that an output has in `was`, from which it walks on. -/
def Dev.skewAs (was d : Dev) (o : Nat) : Dev :=
  { d with skewFrom := tset (fun _ => (0, 0)) d.skewFrom o (was.skewAt o, d.clk) }

/-- An output's position within its period at an instant: 0 at the rising edge at the balls. -/
def Dev.outPos (d : Dev) (o t : Nat) : Int :=
  let p := d.outPeriod o
  (((t : Int) - d.gridBase o) * (1000 * p.2 : Nat) - d.outErrNow o - (d.skewAt o * (10 * nsU * p.2) : Nat)) % (periodU p : Int)

/-- The high time of an output: PULSE_WIDTH of a pulse (R261), half the period of a divided clock (R418). -/
def Dev.highTime (d : Dev) (o : Nat) : Nat :=
  if d.get OUT.page OUT.OUT_CFG.SRC o = 5 then d.get OUT.page OUT.PULSE_WIDTH.WIDTH_NS o * (1000 * nsU)
  else periodU (d.outPeriod o) / 2

/-- The instant at which an output that is driven and high falls; none while it is low. An output starts low: a high
phase that began before its driver went on does not show (R260, R265). -/
def Dev.highUntil (d : Dev) (o : Nat) : Option Nat :=
  let p := d.outPeriod o
  let k := 1000 * p.2
  let x := d.outPos o d.now
  if k = 0 ∨ p.1 = 0 ∨ (d.highTime o : Int) ≤ x ∨ !d.flag OUT.page OUT.OUT_STAT.DRIVING o
      ∨ (d.clk - tget (fun _ => 0) d.driveFrom o) * k < x then none
  else some (d.now + (((d.highTime o : Int) - x).toNat + k - 1) / k)

/-- ALIGN_ERR as the register shows it, in ps. -/
def Dev.showErr (d : Dev) (o : Nat) : Dev :=
  let u : Int := (nsU * (d.outPeriod o).2 : Nat)
  d.set OUT.page OUT.ALIGN_ERR.PS (toField 32 ((d.outErrNow o + u / 2) / (max 1 u))) o

/-- An output's edges put at an offset from its grid, in units of 2^-40 ns. -/
def Dev.setErr (d : Dev) (o : Nat) (e : Int) : Dev :=
  ({ d with outErr := tset (fun _ => 0) d.outErr o (e - d.deficit) }).showErr o

/-- An output's edges moved against its grid. -/
def Dev.moveErr (d : Dev) (o : Nat) (by_ : Int) : Dev :=
  ({ d with outErr := tset (fun _ => 0) d.outErr o (tget (fun _ => 0) d.outErr o + by_) }).showErr o

/-- An output's edges at a phase that the spec does not give (a free value). -/
def Dev.freeErr (d : Dev) (o : Nat) : Dev :=
  let p := d.outPeriod o
  let (x, d) := d.free
  d.setErr o (x % (periodU p / (1000 * p.2) + 1) : Nat)

/-- An output that ran through its source's hop goes on at the new period, at a phase that the spec does not give (a
free value) but for one thing: no high or low phase is shorter than half the shorter of the two periods (R260). Where
the free phase would make one so, the level that the output has in `was` begins anew. -/
def Dev.hopErr (was d : Dev) (o : Nat) : Dev :=
  let p0 := was.outPeriod o
  let p1 := d.outPeriod o
  let k0 := 1000 * p0.2
  let k1 := 1000 * p1.2
  if k0 = 0 ∨ k1 = 0 ∨ p0.1 = 0 ∨ p1.1 = 0 then d.freeErr o else
  let (x, d) := d.free
  let h0 := was.highTime o
  let h1 := d.highTime o
  let x0 := (was.outPos o was.now).toNat
  let hi : Bool := decide (x0 < h0)
  let past := (if hi then x0 else x0 - h0) / k0
  let least := min (periodU p0 / k0) (periodU p1 / k1) / 2
  let y := x % periodU p1
  let hiY : Bool := decide (y < h1)
  let rest := ((if hiY then h1 else periodU p1) - y) / k1
  let fits : Bool := if hi == hiY then decide (least ≤ past + rest) else decide (least ≤ past ∧ least ≤ rest)
  let y := if fits then y else if hi then 0 else h1
  d.setErr o ((((d.now : Int) - d.gridBase o) * k1 - (d.skewAt o * (10 * nsU * p1.2) : Nat) - y) / k1)

/-! ### Driving (R260, R265) -/

/-- Whether an output's source makes edges at all. -/
def Dev.srcRuns (d : Dev) (o : Nat) : Bool :=
  let src := d.get OUT.page OUT.OUT_CFG.SRC o
  if src < 4 then d.synOn src else true

def Dev.outOn (d : Dev) (o : Nat) : Bool := d.flag OUT.page OUT.OUT_CFG.ENABLE o

/-- ALIGNED falls: the interrupt and the recorder where R263 asks for them. -/
def Dev.alignLost (d : Dev) (o : Nat) (report : Bool) : Dev :=
  if !d.flag OUT.page OUT.OUT_STAT.ALIGNED o then d else
  let d := d.set OUT.page OUT.OUT_STAT.ALIGNED 0 o
  if report then (d.raise OUT.page OUT.INT_RAW.ALIGN_LOST).record (0x00A + o) 0x0D o else d

/-- A pending alignment waits for an instant from `t` on: a walk that it had begun begins anew (R264). -/
def Dev.alignFrom (d : Dev) (o t : Nat) : Dev :=
  match tget (fun _ => none) d.outFrom o with
  | some t0 => { d with outFrom := tset (fun _ => none) d.outFrom o (some (max t0 t))
                        outWalk := tset (fun _ => none) d.outWalk o none }
  | none => d

/-- The first start after a cold reset is aligned (R266). -/
def Dev.firstStart_ (d : Dev) (o : Nat) : Dev :=
  ({ d with outStart := tset (fun _ => true) d.outStart o false }.setErr o 0).set OUT.page OUT.OUT_STAT.ALIGNED 1 o

/-- An output starts on scheduled edges: pulses stand on their grid, a divided clock at a phase the spec does not give
(a free value); the first start after a cold reset is aligned, once the source is locked (R266). -/
def Dev.outRestart (d : Dev) (o : Nat) : Dev :=
  let first := tget (fun _ => true) d.outStart o
  let d := d.alignFrom o d.now
  if first && !d.srcBad o then d.firstStart_ o
  else
    let d := d.alignLost o true
    if d.get OUT.page OUT.OUT_CFG.SRC o = 5 then d.setErr o 0 else d.freeErr o

/-- The driver of an output goes on with the output low, or stops: it completes the high phase in which `was`, the
device before the change, has it (R260), at once where there is none or where the controller's reset leaves no time
for it (R265). One that stops completes that high phase before it starts again. -/
def Dev.outDrive (was d : Dev) (o : Nat) (drives cut : Bool) : Dev :=
  let driving := d.flag OUT.page OUT.OUT_STAT.DRIVING o
  if drives then (if driving then d else d.driverOn o)
  else if !driving then d
  else match if cut then none else was.highUntil o with
    | some t =>
      if (tget (fun _ => none) d.outStop o).isSome then d
      else { d with outStop := tset (fun _ => none) d.outStop o (some ((t : Int) - d.deficit)) }
    | none => if (tget (fun _ => none) d.outStop o).isSome && !cut then d else d.driverOff o

/-- DRIVING, WAIT_SRC and HELD_EXCL brought up to date: a squelched output, or one whose source stops, stops; when it
runs again it restarts. An exclusive output runs on with its driver idle. -/
def Dev.refreshOutAs (was : Dev) (cut : Bool) (d : Dev) (o : Nat) : Dev :=
  let p := OUT.page
  let on := d.outOn o
  let wait := on && d.flag p OUT.OUT_CFG.SQUELCH o && d.srcBad o
  let held := on && d.flag p OUT.OUT_CFG.EXCL o && !d.flag DBL.page DBL.DBL_STAT.OWNER
  let d := (d.setFlag p OUT.OUT_STAT.WAIT_SRC wait o).setFlag p OUT.OUT_STAT.HELD_EXCL held o
  let runs := on && !wait && d.srcRuns o
  let ran := tget (fun _ => false) d.outRuns o
  let d := { d with outRuns := tset (fun _ => false) d.outRuns o runs }
  let d := if runs && !ran then d.outRestart o else d
  Dev.outDrive was d o (runs && !held) (cut && held)

def Dev.refreshOut (d : Dev) (o : Nat) : Dev := Dev.refreshOutAs d false d o

/-- Every output brought up to date after a change of the device from `was`. -/
def Dev.refreshOutsAs (was : Dev) (cut : Bool) (d : Dev) : Dev := (List.range 12).foldl (Dev.refreshOutAs was cut) d

def Dev.refreshOuts (d : Dev) : Dev := Dev.refreshOutsAs d false d

/-- REPEAT_S of every output. -/
def Dev.refreshRepeat (d : Dev) : Dev :=
  (List.range 12).foldl (fun d o =>
    let period := d.outPeriodIn o (d.synActive (d.get OUT.page OUT.OUT_CFG.SRC o))
    d.set OUT.page OUT.OUT_STAT.REPEAT_S (repeatS period) o) d

/-! ### Hops (R253) -/

/-- The walks of a source's outputs stop where they stand, as it loses its lock (R264). -/
def Dev.outsHalt (was d : Dev) (src : Nat) : Dev :=
  (List.range 12).foldl (fun d o => if d.get OUT.page OUT.OUT_CFG.SRC o == src then
    (Dev.settleAs was d o).alignFrom o d.now else d) d

/-- The outputs of a source as it hops: ALIGNED falls, reported on squelched ones (R263, R264). -/
def Dev.outsHop (was d : Dev) (src : Nat) : Dev :=
  let mine := (List.range 12).filter (fun o => d.get OUT.page OUT.OUT_CFG.SRC o == src && d.outOn o)
  let d := Dev.outsHalt was d src
  mine.foldl (fun d o => Dev.refreshOutAs was false (d.alignLost o (d.flag OUT.page OUT.OUT_CFG.SQUELCH o)) o) d

/-- The LFSR of a synthesizer restarts from SEED (R255). -/
def Dev.lfsrStart (d : Dev) (k : Nat) : Dev :=
  { d with lfsr := tset (fun _ => (0, 0)) d.lfsr k (d.get SYN.page SYN.SYN_CFG.SEED k, d.now) }

/-- What dither adds to the fine-tuning word (R255): up to DITHER_AMP LSB, from the LFSR. -/
def Dev.dither (d : Dev) (k : Nat) : Nat :=
  let (seed, t) := tget (fun _ => (0, 0)) d.lfsr k
  (Config.lfsr seed (d.now - t)).toNat % (d.get SYN.page SYN.SYN_CFG.DITHER_AMP k + 1)

/-- The fine-tuning position shown: the loop's word with its dither, kept within the word's range; at an end it is held
(R254). -/
def Dev.showTune (d : Dev) (k : Nat) (tune : BitVec 16) : Dev :=
  d.set SYN.page SYN.SYN_TUNE.TUNE (toField 16 (if tune == 0x8000 then tune.toInt else min 32767 (tune.toInt + d.dither k))) k

/-- The loop state of a plan with a stored band, as the synthesizer leaves it (R253): the loop has been in it since
its hop. -/
def Dev.keepLoop (d : Dev) (k : Nat) : Dev :=
  let sel := planSel k (d.get SYN.page SYN.SYN_STAT.ACTIVE_NOW k)
  let in_ := d.flag SYN.page SYN.SYN_STAT.LOCK k || d.flag SYN.page SYN.SYN_STAT.TUNE_LIMIT k
  if in_ && d.flag SYN.page SYN.PLAN_N.BAND_VALID sel then
    { d with bandTune := tset (fun _ => 0) d.bandTune sel (d.get SYN.page SYN.SYN_TUNE.TUNE k) }
  else d

/-- A hop begins: the loop leaves its lock and takes up the state stored with the new plan's band; without a stored
band, or for SEARCH, the coarse search runs. `was` is the device before the change that starts the hop. -/
def Dev.hopStart (was d : Dev) (k : Nat) (search : Bool) : Dev :=
  let p := SYN.page
  let sel := planSel k (d.synActive k)
  let stored := d.flag p SYN.PLAN_N.BAND_VALID sel
  let d := (d.keepLoop k).lfsrStart k
  let d := (d.set p SYN.SYN_STAT.HOPPING 1 k).setFlag p SYN.SYN_STAT.SEARCHING (search || !stored) k
  let d := (d.set p SYN.SYN_STAT.LOCK 0 k).set p SYN.SYN_STAT.TUNE_LIMIT 0 k
  let d := if stored && !search then d.set p SYN.SYN_TUNE.TUNE (tget (fun _ => 0) d.bandTune sel) k else d
  Dev.outsHop was d k

/-- A source has its lock: alignments that waited for it may happen 2 µs later at the earliest (R264); an output that
has run since the cold reset without it is aligned now (R266). -/
def Dev.outsLocked (d : Dev) (src : Nat) : Dev :=
  let d := (List.range 12).foldl (fun d o =>
    if d.get OUT.page OUT.OUT_CFG.SRC o ≠ src then d else
    let d := d.alignFrom o (d.now + 2000 * nsU)
    if tget (fun _ => false) d.outRuns o && tget (fun _ => true) d.outStart o then d.firstStart_ o else d) d
  d.refreshOuts

/-- A stored band of a plan erased. -/
def Dev.forgetBand (d : Dev) (k plan : Nat) : Dev :=
  let d := (d.set SYN.page SYN.PLAN_N.BAND_VALID 0 (planSel k plan)).set SYN.page SYN.PLAN_N.BAND 0 (planSel k plan)
  let m := d.get SYN.page SYN.SYN_STAT.BAND_VALID k
  { d.set SYN.page SYN.SYN_STAT.BAND_VALID (putBit m plan false) k with
    bandTune := tset (fun _ => 0) d.bandTune (planSel k plan) 0 }

/-- The outputs of a source whose frequency has changed from that in `was`: a running one goes on at the new period, a
walk of the skew from where it stands. -/
def Dev.outsNewPeriod (was d : Dev) (src : Nat) : Dev :=
  (List.range 12).foldl (fun d o =>
    if d.get OUT.page OUT.OUT_CFG.SRC o != src then d else
    let d := Dev.skewAs was d o
    if tget (fun _ => false) d.outRuns o then Dev.hopErr was d o else d) d

/-- R253: the loop is locked to the new plan; `band` is what a search found, `tune` where the fine-tuning word stands.
-/
def execSynHopDone (syn : Fin 4) (band : BitVec 6) (tune : BitVec 16) (s : State) : Host.Outcome State Fault Refusal :=
  onDev (fun d => d.when (d.flag SYN.page SYN.SYN_STAT.HOPPING syn) (fun d =>
    let was := d
    let p := SYN.page
    let k := syn.val
    let plan := d.synActive k
    let sel := planSel k plan
    let searched := d.flag p SYN.SYN_STAT.SEARCHING k
    let d := if searched then
        let d := (d.set p SYN.PLAN_N.BAND_VALID 1 sel).set p SYN.PLAN_N.BAND band.toNat sel
        d.set p SYN.SYN_STAT.BAND_VALID (putBit (d.get p SYN.SYN_STAT.BAND_VALID k) plan true) k
      else d
    let d := d.set p SYN.SYN_STAT.BAND_NOW (d.get p SYN.PLAN_N.BAND sel) k
    let d := (d.set p SYN.SYN_STAT.ACTIVE_NOW plan k).set p SYN.SYN_STAT.LOCK 1 k
    let d := (d.set p SYN.SYN_STAT.HOPPING 0 k).set p SYN.SYN_STAT.SEARCHING 0 k
    let d := (d.set p SYN.SYN_STAT.TUNE_LIMIT 0 k).showTune k tune
    let d := (d.raise p SYN.INT_RAW.HOP_DONE k).count (0xD48 + k)
    let d := d.record (0x006 + k) 0x0C ((if searched then 32 else 0) + plan * 4 + k)
    (Dev.outsNewPeriod was d.refreshRepeat k).outsLocked k)) s

/-- R254: the fine-tuning word at an end of its range, where it is held; a word within the range again brings the lock
back. -/
def execTuneLimitReached (syn : Fin 4) (tune : BitVec 16) (s : State) : Host.Outcome State Fault Refusal :=
  onDev (fun d => d.when (d.synOn syn && !d.flag SYN.page SYN.SYN_STAT.HOPPING syn) (fun d =>
    let p := SYN.page
    let k := syn.val
    let before := d
    let atEnd : Bool := tune == 0x7FFF || tune == 0x8000
    let was := d.flag p SYN.SYN_STAT.TUNE_LIMIT k
    let d := d.showTune k tune
    if atEnd && !was then
      let d := (d.set p SYN.SYN_STAT.TUNE_LIMIT 1 k).set p SYN.SYN_STAT.LOCK 0 k
      let d := ((d.raise p SYN.INT_RAW.TUNE_LIMIT k).raise p SYN.INT_RAW.UNLOCK k).count (0xD4C + k)
      Dev.refreshOutsAs before false (Dev.outsHalt before d k)
    else if !atEnd && was then
      ((d.set p SYN.SYN_STAT.TUNE_LIMIT 0 k).set p SYN.SYN_STAT.LOCK 1 k).outsLocked k
    else d)) s

/-! ### The SYN page -/

/-- Whether a commit changes a plan. -/
def Dev.planChanges (d : Dev) (k plan : Nat) : Bool :=
  let sel := planSel k plan
  d.changes SYN.page SYN.PLAN_N.N_INT.off sel || d.changes SYN.page SYN.PLAN_NUM.NUM.off sel
    || d.changes SYN.page SYN.PLAN_DEN.DEN.off sel

def Dev.synRules (d : Dev) : List Rule :=
  let sh (f : Field) (k : Nat) : Nat := d.getSh .syn SYN.page f k
  let plans (r : Nat → Nat → Bool) (code off : Nat) : Rule :=
    ((List.range 4).any (fun k => (List.range 8).any (fun p => r k p)), code, off)
  [ plans (fun k p => d.planBad k p && (d.planChanges k p
      || (sh SYN.SYN_CFG.ENABLE k == 1 && sh SYN.SYN_CFG.ACTIVE k == p))) 0x68 SYN.PLAN_N.N_INT.off,
    ruleAny 4 (fun k => (sh SYN.SYN_CFG.SEED k == 0, 0x69, SYN.SYN_CFG.SEED.off)),
    plans (fun k p => d.synActive k == p && d.planChanges k p) 0x6A SYN.PLAN_N.N_INT.off,
    ruleAny 4 (fun k => (d.flag SYN.page SYN.SYN_STAT.HOPPING k && sh SYN.SYN_CFG.ACTIVE k != d.synActive k, 0x6B,
      SYN.SYN_CFG.ACTIVE.off)) ]

/-- The effects of a SYN COMMIT: bands of rewritten plans go (as they did at the write), a changed active plan is
hopped to, ENABLE starts (as a hop, DEDUCED, log entry 20) and stops, a changed SEED restarts its LFSR. -/
def Dev.synEffect (before d : Dev) : Dev :=
  let d := (List.range 4).foldl (fun d k =>
    let d := (List.range 8).foldl (fun d p => if before.planChanges k p then d.forgetBand k p else d) d
    let on := d.synOn k
    let d := if before.get SYN.page SYN.SYN_CFG.SEED k != d.get SYN.page SYN.SYN_CFG.SEED k then d.lfsrStart k else d
    if on && (!before.synOn k || before.synActive k != d.synActive k) then Dev.hopStart before d k false
    else if !on && before.synOn k then
      let d := ((d.keepLoop k).set SYN.page SYN.SYN_STAT.LOCK 0 k).set SYN.page SYN.SYN_STAT.HOPPING 0 k
      (d.set SYN.page SYN.SYN_STAT.SEARCHING 0 k).set SYN.page SYN.SYN_STAT.TUNE_LIMIT 0 k
    else d) d
  Dev.refreshOutsAs before false d.refreshRepeat

def Dev.commitSyn (d : Dev) : Dev := d.commitBy SYN.page d.synRules Dev.synEffect

/-- R253: SYN_CFG.ACTIVE written and the page committed. -/
def execSynHop (acc : Accessor) (syn : Fin 4) (plan : Fin 8) (s : State) : Host.Outcome State Fault Refusal :=
  onDev (fun d => d.asOwner acc SYN.page COM.COMMIT.GO.off (fun d =>
    (d.setSh .syn SYN.page SYN.SYN_CFG.ACTIVE plan syn).commitSyn)
    (thenCommit [(SYN.SYN_CFG.ACTIVE.off,
      setBits (d.rdShadow .syn SYN.page SYN.SYN_CFG.ACTIVE.off syn) SYN.SYN_CFG.ACTIVE.lo 3 plan)])) s

/-- R253: SYN_CMD.SEARCH: the search again for the active plan of the synthesizer the accessor has selected. -/
def execSynSearch (acc : Accessor) (s : State) : Host.Outcome State Fault Refusal :=
  onDev (fun d => d.asOwner acc SYN.page SYN.SYN_CMD.SEARCH.off (fun d =>
    let k := d.get SYN.page SYN.SYN_SEL.SYN acc.idx
    if d.synOn k then Dev.hopStart d d k true else d) SYN.SYN_CMD.SEARCH.strike) s

/-- R253: SYN_CMD.FORGET: the stored band of the selected plan erased, unless the plan is active. -/
def execSynForget (acc : Accessor) (s : State) : Host.Outcome State Fault Refusal :=
  onDev (fun d => d.asOwner acc SYN.page SYN.SYN_CMD.FORGET.off (fun d =>
    let k := d.get SYN.page SYN.SYN_SEL.SYN acc.idx
    let plan := d.get SYN.page SYN.PLAN_SEL.PLAN acc.idx
    if plan = d.synActive k then d else d.forgetBand k plan) SYN.SYN_CMD.FORGET.strike) s

/-- R79: LSY loses or regains lock. On its failure the lane clocks stop, so that their crossings are HELD. -/
def execLsyLockLoss (locked : Bool) (s : State) : Host.Outcome State Fault Refusal :=
  onDev (fun d =>
    let was := d
    if d.flag SYN.page SYN.LSY_STAT.LOCK == locked then d
    else if locked then (d.set SYN.page SYN.LSY_STAT.LOCK 1).outsLocked 4
    else
      let d := (d.set SYN.page SYN.LSY_STAT.LOCK 0).raise SYN.page SYN.INT_RAW.LSY_UNLOCK
      let d := (List.range 51).foldl (fun d i => if d.released (unitLane i) then d.clockStop i else d) (d.setGood 1 false)
      Dev.refreshOutsAs was false (Dev.outsHop was d 4)) s

/-! ### The OUT page -/

/-- The frequency limit of a format in MHz (R258); for LVCMOS the lower of the legs in use. -/
def outLimit (fmt pV33 nV33 nLeg : Nat) : Nat :=
  match fmt with
  | 0 => 1500 | 1 => 400 | 2 => 1500
  | _ =>
    let leg (v : Nat) : Nat := if v = 1 then 200 else 250
    if nLeg = 0 then leg pV33 else min (leg pV33) (leg nV33)

/-- The period an output would have after the commit. -/
def Dev.outPeriodSh (d : Dev) (o : Nat) : Nat × Nat :=
  let sh (f : Field) : Nat := d.getSh .out OUT.page f o
  let src := sh OUT.OUT_CFG.SRC
  let pl := planSel src (d.synActive src)
  periodPs src (sh OUT.OUT_DIV.D) (sh OUT.PULSE_PERIOD.PERIOD_NS) (d.get SYN.page SYN.PLAN_N.N_INT pl)
    (d.get SYN.page SYN.PLAN_NUM.NUM pl) (d.get SYN.page SYN.PLAN_DEN.DEN pl)

/-- The outputs a COMMIT looks at: those that are or will be enabled, and those it changes. -/
def Dev.outLooked (d : Dev) (o : Nat) : Bool :=
  d.outOn o || d.getSh .out OUT.page OUT.OUT_CFG.ENABLE o == 1
    || [0x44, 0x48, 0x4C, 0x50, 0x54, 0x58, 0x5C].any (fun off => d.changes OUT.page off o)

def Dev.outRules (d : Dev) : List Rule :=
  let sh (f : Field) (o : Nat) : Nat := d.getSh .out OUT.page f o
  let each (r : Nat → Bool) (code off : Nat) : Rule := ruleAny 12 (fun o => (d.outLooked o && r o, code, off))
  let pulse (o : Nat) : Bool := sh OUT.OUT_CFG.SRC o == 5
  [ each (fun o => 5 < sh OUT.OUT_CFG.SRC o || 3 < sh OUT.OUT_CFG.FMT o || sh OUT.OUT_CFG.N_LEG o == 3
      || 12 < sh OUT.OUT_CFG.SWING o) 0x73 OUT.OUT_CFG.SRC.off,
    each (fun o => 999999999 < sh OUT.OUT_PHASE.PHASE_NS o) 0x08 OUT.OUT_PHASE.PHASE_NS.off,
    each (fun o =>
      let p := sh OUT.PULSE_PERIOD.PERIOD_NS o
      let w := sh OUT.PULSE_WIDTH.WIDTH_NS o
      p < 20 || 1000000000 % p != 0 || w < 5 || p < w + 5 || (pulse o && decide (p ≤ sh OUT.OUT_PHASE.PHASE_NS o))) 0x71
      OUT.PULSE_PERIOD.PERIOD_NS.off,
    each (fun o => sh OUT.OUT_DIV.D o < 2 && !pulse o) 0x70 OUT.OUT_DIV.D.off,
    each (fun o =>
      let p := d.outPeriodSh o
      let lim := outLimit (sh OUT.OUT_CFG.FMT o) (sh OUT.OUT_CFG.P_V33 o) (sh OUT.OUT_CFG.N_V33 o)
        (sh OUT.OUT_CFG.N_LEG o)
      p.2 == 0 || 1000000000000 * p.2 < p.1 || lim * p.1 < 1000000 * p.2) 0x70 OUT.OUT_DIV.D.off,
    each (fun o => sh OUT.OUT_ALIGN.ALIGN o == 1 && repeatS (d.outPeriodSh o) == 0) 0x72 OUT.OUT_ALIGN.ALIGN.off ]

/-- The effect of an OUT COMMIT on one output: one whose setting changes stops and restarts (R260). -/
def Dev.outEffect1 (before d : Dev) (o : Nat) : Dev :=
  let p := OUT.page
  let differ (f : Field) : Bool := before.get p f o != d.get p f o
  let on := d.outOn o
  let moved : Bool := differ OUT.OUT_CFG.SRC || differ OUT.OUT_DIV.D || differ OUT.PULSE_PERIOD.PERIOD_NS
    || differ OUT.PULSE_WIDTH.WIDTH_NS
  let starts := on && !before.outOn o
  let d := if starts then { d with outStart := tset (fun _ => true) d.outStart o false } else d
  let d := Dev.settleAs before d o
  let d := if differ OUT.OUT_SKEW.SKEW || moved then Dev.skewAs before d o else d
  let d := if on && moved && !starts then Dev.outDrive before (d.outRestart o) o false false
    else if differ OUT.OUT_PHASE.PHASE_NS then
      (d.alignLost o false).moveErr o (((before.outPhase o : Int) - d.outPhase o) * (nsU : Int))
    else d
  let d := Dev.refreshOutAs before false d o
  let d := if d.flag p OUT.OUT_ALIGN.CANCEL o then
    ({ d with outFrom := tset (fun _ => none) d.outFrom o none, outWalk := tset (fun _ => none) d.outWalk o none }).set p
      OUT.OUT_STAT.ALIGN_PENDING 0 o else d
  let d := if d.flag p OUT.OUT_ALIGN.ALIGN o then
    ({ d with outFrom := tset (fun _ => none) d.outFrom o (some (d.now + 2000 * nsU))
              outWalk := tset (fun _ => none) d.outWalk o none }).set p OUT.OUT_STAT.ALIGN_PENDING 1 o
    else d
  (d.set p OUT.OUT_ALIGN.CANCEL 0 o).set p OUT.OUT_ALIGN.ALIGN 0 o

def Dev.outEffect (before d : Dev) : Dev :=
  (List.range 12).foldl (fun d o => Dev.outEffect1 before d o) d.refreshRepeat

def Dev.commitOut (d : Dev) : Dev := d.commitBy OUT.page d.outRules Dev.outEffect

/-- A shadow bit set in each of several outputs, and the page committed. -/
def Dev.outCommand (d : Dev) (acc : Accessor) (outs : BitVec 12) (sets : List (Field × Nat)) : Dev :=
  d.asOwner acc OUT.page COM.COMMIT.GO.off (fun d =>
    ((List.range 12).foldl (fun d o =>
      if outs.getLsbD o then sets.foldl (fun d x => d.setSh .out OUT.page x.1 x.2 o) d else d) d).commitOut)
    (thenCommit (sets.map (fun x => (x.1.off, BitVec.ofNat 32 (x.2 * 2 ^ x.1.lo)))))

/-- R263: ALIGN with its mode in the shadows of some outputs, and a COMMIT. -/
def execOutAlign (acc : Accessor) (outs : BitVec 12) (walk : Bool) (s : State) : Host.Outcome State Fault Refusal :=
  onDev (fun d => d.outCommand acc outs
    [(OUT.OUT_ALIGN.ALIGN, 1), (OUT.OUT_ALIGN.WALK, if walk then 1 else 0)]) s

/-- R264: CANCEL in the shadows of some outputs, and a COMMIT. -/
def execOutAlignCancel (acc : Accessor) (outs : BitVec 12) (s : State) : Host.Outcome State Fault Refusal :=
  onDev (fun d => d.outCommand acc outs [(OUT.OUT_ALIGN.CANCEL, 1)]) s

/-- The instant at which a pending alignment completes: the grid instant, and for a walk 10 ps per period further. -/
def Dev.alignAt (d : Dev) (o : Nat) : Option Nat :=
  match tget (fun _ => none) d.outFrom o with
  | none => none
  | some from_ =>
    let p := d.outPeriod o
    let r := repeatS p
    if r = 0 ∨ d.srcBad o then none else
    let t := gridFrom p r (d.outPhase o) from_
    let u := 10 * nsU * p.2
    let steps := ((d.outErr0 o).natAbs + u - 1) / u
    let last := (steps * p.1 * nsU + 1000 * p.2 - 1) / (1000 * p.2)
    if !d.flag OUT.page OUT.OUT_ALIGN.WALK o then some t
    else match d.walkStart o with
      | some c => some (d.now + (c - d.clk) + last).toNat
      | none => some (t + last)

/-- R263: the output is on its grid. -/
def execOutAlignDone (out : Fin 12) (s : State) : Host.Outcome State Fault Refusal :=
  onDev (fun d =>
    match d.alignAt out with
    | none => d
    | some t =>
      if d.now < t then d else
      let p := OUT.page
      let o := out.val
      let d := { d with outFrom := tset (fun _ => none) d.outFrom o none, outWalk := tset (fun _ => none) d.outWalk o none }
      let d := (d.set p OUT.OUT_STAT.ALIGN_PENDING 0 o).set p OUT.OUT_STAT.ALIGNED 1 o
      let d := (d.setErr o 0).set p OUT.ALIGN_SEC.SEC (secOf t) o
      let d := (d.set p OUT.ALIGN_NS.NS (nsOf t) o).raise p OUT.INT_RAW.ALIGN_DONE
      d.record (0x00A + o) 0x0D (16 + o)) s

/-! ### What the time base and the interlock do to outputs (R250, R263, R264, R265) -/

/-- A step or set by an amount in units of 2^-40 ns: the edges stay where they are and the grid moves. `jump` is by
how much the time base has jumped, on which pending instants are computed (R264): a negative step does not jump, its
grid moves as it is absorbed. -/
def Dev.outsStep (d : Dev) (by_ : Int) (jump : Nat) : Dev :=
  let d := (List.range 12).foldl (fun d o => (d.alignLost o true).moveErr o by_) d
  { d with
    outFrom := d.outFrom.map (fun e => (e.1, e.2.map (· + jump)))
    outStop := d.outStop.map (fun e => (e.1, e.2.map (· + by_)))
    outWalk := d.outWalk.map (fun e => (e.1, e.2.map (· + by_)))
    driveFrom := d.driveFrom.map (fun e => (e.1, e.2 + by_))
    skewFrom := d.skewFrom.map (fun e => (e.1, (e.2.1, e.2.2 + by_))) }

/-- Ownership gained or lost (R265): exclusive outputs are driven or go idle, at a reset (`cut`) at once. EXCL_OFF
reports a loss by command only, that is a handover (DEDUCED, log entry 152). -/
def Dev.outsOwner (d : Dev) (gained command cut : Bool) : Dev :=
  let any := (List.range 12).any (fun o => d.outOn o && d.flag OUT.page OUT.OUT_CFG.EXCL o)
  let d := Dev.refreshOutsAs d cut d
  if any && gained then d.raise OUT.page OUT.INT_RAW.EXCL_ON
  else if any && command then d.raise OUT.page OUT.INT_RAW.EXCL_OFF else d

/-! ### The tick (R207) -/

/-- What a tick does to the outputs: while a negative step is absorbed, walks are taken up to it; where a
synthesizer's word stands at an end of its range, its outputs run at the frequency the word gives, which the spec does
not state (free values, R254). -/
def Dev.outsTick (d : Dev) : Dev :=
  let d := if d.negOn then d.outsSettle else d
  (List.range 4).foldl (fun d k =>
    if !d.flag SYN.page SYN.SYN_STAT.TUNE_LIMIT k then d else
    let (x, d) := d.free
    (List.range 12).foldl (fun d o =>
      if d.get OUT.page OUT.OUT_CFG.SRC o == k && tget (fun _ => false) d.outRuns o then d.moveErr o x else d) d) d

/-- R207: the time base advances by one tick, once the keep-alive domain is out of reset. -/
def execTimeBaseTick (s : State) : Host.Outcome State Fault Refusal :=
  onDev (fun d => d.when (d.released 1) (·.tick.outsTick)) s

end Sys2Proof.Machine
end

