-- ==== Sys2Proof/Machine/Events.lean ====
section
/-!
DEFINITION. Machine/Events.lean: the event inputs (R267 to R279): edges, stamps, FIFOs, frequency by regression, the
interpolators' calibration, and the EVT page.
-/
namespace Sys2Proof.Machine

/-! ### Edges and stamps (R268, R269, R272) -/

/-- The FIFO as its registers show it. -/
def Dev.showEvt (d : Dev) (e : Nat) : Dev :=
  let p := EVT.page
  let x := d.evtIn e
  let d := (d.set p EVT.FIFO_STAT.FILL x.fifo.length e).set p EVT.EDGE_CNT.COUNT x.count e
  match x.fifo with
  | [] =>
    let d := (d.wr p EVT.FIFO_HEAD.VALID.off 0 e).set p EVT.FIFO_SEC_HI.SEC_HI 0 e
    let d := (d.set p EVT.FIFO_SEC_LO.SEC_LO 0 e).set p EVT.FIFO_NS.NS 0 e
    d.set p EVT.FIFO_FRAC.FRAC 0 e
  | h :: _ =>
    let d := (d.set p EVT.FIFO_HEAD.VALID 1 e).setFlag p EVT.FIFO_HEAD.EDGE h.rising e
    let d := (d.setFlag p EVT.FIFO_HEAD.UNTRACE h.untrace e).setFlag p EVT.FIFO_HEAD.LOST_BEFORE h.lostBefore e
    let d := (d.set p EVT.FIFO_HEAD.CNT_LO h.cnt e).set p EVT.FIFO_SEC_HI.SEC_HI (secOf h.time / 2 ^ 32) e
    let d := (d.set p EVT.FIFO_SEC_LO.SEC_LO (secOf h.time) e).set p EVT.FIFO_NS.NS (nsOf h.time) e
    d.set p EVT.FIFO_FRAC.FRAC (fracOf h.time) e

/-- D_path of R269 at a junction temperature in sixteenths of a degree: the fused values interpolated, linearly
between two of their temperatures (DESIGN CHOICE, log entry 149), to the nearest ps. -/
def evtPathAt (e : Nat) (temp : Int) : Int :=
  let y (c : Nat) : Rat := ((Config.evtPath e c).toNat : Nat)
  let between (a b : Nat) : Rat :=
    y a + ((temp - Config.calTemp a : Int) : Rat) * (y b - y a) / ((Config.calTemp b - Config.calTemp a : Int) : Rat)
  ratRound (if temp ≤ Config.calTemp 1 then between 0 1 else between 1 2)

/-- The stamp of an edge: the tick, the interpolated position, less the path's delay at a temperature and the user's
(R269). -/
def Dev.evtStamp (d : Dev) (e sub : Nat) (temp : Int) : Nat :=
  let delay := evtPathAt e temp + d.trim (0x80 + e) + d.getInt EVT.page EVT.EVT_DELAY.DELAY_PS e
  roundStamp ((d.now : Int) * 65536000 + (sub * d.rate * 1000 : Nat) - delay * nsU * 65536)

/-- R271: edges at instant `t` fall in the microsecond of blanking. -/
def EvtIn.blanked (x : EvtIn) (t : Nat) : Bool :=
  match x.blankTo with
  | some u => decide (t < u)
  | none => false

/-- A stamp enters the FIFO, or is discarded and counted. -/
def Dev.evtPush (d : Dev) (e t : Nat) (rising : Bool) : Dev :=
  let p := EVT.page
  let x := d.evtIn e
  if !d.flag p EVT.EVT_CFG.FIFO_EN e then d
  else if 256 ≤ x.fifo.length then
    let d := (d.setEvtIn e { x with lost := true }).incSat p EVT.FIFO_STAT.LOST_CNT e
    (d.raise p EVT.INT_RAW.FIFO_LOST e).count (0xD60 + e)
  else
    let entry : EvtEntry := ⟨t, 0x018 + e, rising, x.count % 65536, d.untrace, x.lost⟩
    (d.setEvtIn e { x with fifo := x.fifo ++ [entry], lost := false }).raise p EVT.INT_RAW.FIFO_NE e

/-! ### Gates (R274, R275) -/

/-- A gate opens: the reference's state and the slew as they stand. -/
def Dev.gateOpens (d : Dev) (e : Nat) (m : Meas) : Dev :=
  let x := d.evtIn e
  let d := d.setEvtIn e { x with meas := some { m with opened := true } }
  let d := d.set EVT.page EVT.MEAS_STAT.BUSY 1 e
  let d := d.set EVT.page EVT.MEAS_STAT.REF_OPEN (d.get REF.page REF.REF_STAT.STATE) e
  d.noteGates

/-- A gate closes; the result is pending. -/
def Dev.gateCloses (d : Dev) (e : Nat) (m : Meas) (short : Bool) : Dev :=
  let d := d.noteGates
  let d := d.setEvtIn e { d.evtIn e with meas := some { m with closed := true } }
  let d := d.setFlag EVT.page EVT.MEAS_STAT.SHORT short e
  d.set EVT.page EVT.MEAS_STAT.REF_CLOSE (d.get REF.page REF.REF_STAT.STATE) e

/-- A timed gate whose start has come at an instant is open. -/
def Dev.gateDue (d : Dev) (e t : Nat) : Dev :=
  match (d.evtIn e).meas with
  | some m => if !m.opened && decide (m.openAt ≤ t) then d.gateOpens e m else d
  | none => d

/-- A stamp taken by the regression engine: one at or after the gate's opening and before its end (R274), whichever
tick brings it. -/
def Dev.gateStamp (d : Dev) (e t : Nat) : Dev :=
  let d := d.gateDue e (max d.now t)
  let x := d.evtIn e
  match x.meas with
  | none => d
  | some m =>
    if !m.opened || decide (t < m.openAt) || decide (m.openAt + m.gate ≤ t) || decide (2 ^ 20 ≤ m.n) then d else
    let t16 : Int := (t / 2 ^ 24 : Nat)
    let m := if m.n = 0 then { m with t0 := t16, k0 := x.count } else m
    let dt := t16 - m.t0
    let k : Int := x.count - m.k0
    let m := { m with n := m.n + 1, sk := m.sk + k, skk := m.skk + k * k }
    let m := { m with st := m.st + dt, skt := m.skt + k * dt, stt := m.stt + dt * dt }
    let d := d.setEvtIn e { x with meas := some m }
    let d := if d.untrace then d.set EVT.page EVT.MEAS_STAT.UNTRACE 1 e else d
    if m.n = 2 ^ 20 then d.gateCloses e m true else d

/-- R268, R269: an edge of an input: its direction, its interpolated position within the tick in 1/65,536, and the
measured junction temperature in sixteenths of a degree. -/
def execEvtEdge (evt : Fin 8) (rising : Bool) (sub temp : BitVec 16) (s : State) : Host.Outcome State Fault Refusal :=
  onDev (fun d =>
    let p := EVT.page
    let e := evt.val
    let x := d.evtIn e
    let slope := d.get p EVT.EVT_CFG.SLOPE e
    let mine : Bool := slope == 2 || (slope == 0 && rising) || (slope == 1 && !rising)
    if !d.pageUp p || !d.flag p EVT.EVT_CFG.ENABLE e || x.blanked d.now || !mine then d else
    let k := x.count + 1
    let d := d.setEvtIn e { x with count := k }
    let at_ := d.now + sub.toNat * d.rate / 65536
    if k % d.get p EVT.EVT_PRESCALE.N e ≠ 0 then d.showEvt e
    else
      let dead : Bool := match x.lastStamped with | some t => at_ ≤ t + 40 * nsU | none => false
      if dead then ((d.incSat p EVT.FIFO_STAT.MISSED e).count (0xD68 + e)).showEvt e
      else
        let t := d.evtStamp e sub.toNat temp.toInt
        let d := d.setEvtIn e { d.evtIn e with lastStamped := some at_, lastStamp := some t }
        ((d.evtPush e t rising).gateStamp e t).showEvt e) s

def Dev.evtSel (d : Dev) (acc : Accessor) : Nat := d.get EVT.page EVT.EVT_SEL.EVT acc.idx

/-- R272: FIFO_CMD.POP of the input the accessor has selected. -/
def execEvtFifoPop (acc : Accessor) (s : State) : Host.Outcome State Fault Refusal :=
  onDev (fun d => d.asOwner acc EVT.page EVT.FIFO_CMD.POP.off (fun d =>
    let e := d.evtSel acc
    (d.setEvtIn e { d.evtIn e with fifo := (d.evtIn e).fifo.tail }).showEvt e) EVT.FIFO_CMD.POP.strike) s

/-- R272: FIFO_CMD.CLR. -/
def execEvtFifoClear (acc : Accessor) (s : State) : Host.Outcome State Fault Refusal :=
  onDev (fun d => d.asOwner acc EVT.page EVT.FIFO_CMD.CLR.off (fun d =>
    let e := d.evtSel acc
    let d := (d.setEvtIn e { d.evtIn e with fifo := [] }).showEvt e
    (d.set EVT.page EVT.FIFO_STAT.LOST_CNT 0 e).set EVT.page EVT.FIFO_STAT.MISSED 0 e) EVT.FIFO_CMD.CLR.strike) s

/-- R271: the microsecond of blanking ends, when it has passed. -/
def execEvtBlankEnd (evt : Fin 8) (s : State) : Host.Outcome State Fault Refusal :=
  onDev (fun d => d.when (!(d.evtIn evt).blanked d.now) (·.setEvtIn evt { d.evtIn evt with blankTo := none })) s

/-- R274: the start of a timed gate has come. -/
def execMeasGateOpen (evt : Fin 8) (s : State) : Host.Outcome State Fault Refusal := onDev (fun d => d.gateDue evt d.now) s

/-- R274: the gate's time is over. -/
def execMeasGateClose (evt : Fin 8) (s : State) : Host.Outcome State Fault Refusal :=
  onDev (fun d =>
    match (d.evtIn evt).meas with
    | some m =>
      d.when (m.opened && !m.closed && decide (m.openAt + m.gate ≤ d.now)) (·.gateCloses evt m false)
    | none => d) s

/-- A measurement ends without a fit. -/
def Dev.measEnd (d : Dev) (e result : Nat) (report : Bool) : Dev :=
  match (d.evtIn e).meas with
  | none => d
  | some _ =>
    let d := d.setEvtIn e { d.evtIn e with meas := none }
    let d := (d.set EVT.page EVT.MEAS_STAT.BUSY 0 e).set EVT.page EVT.MEAS_STAT.RESULT result e
    if report then d.raise EVT.page EVT.INT_RAW.MEAS_DONE e else d

/-- R278: a step, a set, or the absorption of a negative step aborts every measurement whose gate is open. -/
def Dev.measStepped (d : Dev) : Dev :=
  (List.range 8).foldl (fun d e => if (d.evtIn e).open_ then d.measEnd e 3 true else d) d

/-! ### The fit (R275, R276) -/

/-- The integer square root, bit by bit from bit `n - 1` down. -/
def isqrt : Nat → Nat → Nat → Nat
  | 0, _, r => r
  | n + 1, x, r => isqrt n x (if (r + 2 ^ n) * (r + 2 ^ n) ≤ x then r + 2 ^ n else r)

/-- The square root of a fraction, to the nearest whole number (below 2^80). -/
def ratSqrt (x : Rat) : Nat := (isqrt 82 ((4 * x).floor.toNat) 0 + 1) / 2

/-- The nearest whole number, halves up (DEDUCED from the worked example of R278, log entry 21). -/
def ratNear (x : Rat) : Int := (x + 1 / 2).floor

/-- What the engine publishes of the sums: frequency in 2^-32 Hz, residual in fs, uncertainty in 10^-18. -/
def Meas.fit (m : Meas) : Option (Nat × Nat × Nat) :=
  let n : Rat := m.n
  let den : Rat := n * m.skk - m.sk * m.sk
  let num : Rat := n * m.skt - m.sk * m.st
  if den ≤ 0 ∨ num ≤ 0 then none else
  let period := num / den
  let a := ((m.st : Rat) - period * m.sk) / n
  let ssr : Rat := m.stt - a * m.st - period * m.skt
  let var := ssr / (n - 2)
  let fs2 := var * (1000000000000 : Rat) / (2 ^ 32 : Rat)
  let unc2 := var / (period * period * (den / n)) * (10 ^ 36 : Rat)
  some ((ratNear ((2 ^ 48 * 1000000000 : Rat) / period)).toNat, min (ratSqrt fs2) (2 ^ 24 - 1),
    min (ratSqrt unc2) (2 ^ 32 - 1))

/-- R275: the result is published; a fit without a positive period gives no stated frequency (free values). -/
def execMeasResultReady (evt : Fin 8) (s : State) : Host.Outcome State Fault Refusal :=
  onDev (fun d =>
    let e := evt.val
    let p := EVT.page
    match (d.evtIn e).meas with
    | none => d
    | some m =>
      if !m.closed then d else
      let d := d.set p EVT.MEAS_N.N m.n e
      if m.n < 3 then d.measEnd e 2 true else
      let r := match m.fit with
        | some x => (x, d)
        | none =>
          let a := d.free
          let b := a.2.free
          let c := b.2.free
          ((a.1, b.1, c.1), c.2)
      let d := (r.2.set p EVT.FREQ_INT.HZ (r.1.1 / 2 ^ 32) e).set p EVT.FREQ_FRAC.FRAC r.1.1 e
      let d := (d.set p EVT.RES_RMS.FS r.1.2.1 e).set p EVT.RES_UNC.E18 r.1.2.2 e
      d.measEnd e 1 true) s

/-! ### The EVT page -/

def Dev.evtRules (d : Dev) : List Rule :=
  let sh (f : Field) (e : Nat) : Nat := d.getSh .evt EVT.page f e
  let each (r : Nat → Bool) (code off : Nat) : Rule := ruleAny 8 (fun e => (r e, code, off))
  let start (e : Nat) : Bool := sh EVT.MEAS_CFG.START e == 1
  [ each (fun e => 850 < sh EVT.EVT_CFG.THRESH e || sh EVT.EVT_CFG.SLOPE e == 3) 0x78 EVT.EVT_CFG.THRESH.off,
    each (fun e => sh EVT.EVT_PRESCALE.N e == 0) 0x78 EVT.EVT_PRESCALE.N.off,
    each (fun e => sh EVT.MEAS_CFG.GATE_MS e == 0 || 1000000 < sh EVT.MEAS_CFG.GATE_MS e
      || (start e && (sh EVT.EVT_CFG.SLOPE e == 2 || sh EVT.MEAS_CFG.ABORT e == 1))) 0x78 EVT.MEAS_CFG.GATE_MS.off,
    each (fun e => 999999999 < sh EVT.MEAS_START_NS.NS e) 0x78 EVT.MEAS_START_NS.NS.off,
    each (fun e => start e && sh EVT.MEAS_CFG.TIMED e == 1
      && nearest d.now (sh EVT.MEAS_START_SEC.SEC e) (sh EVT.MEAS_START_NS.NS e) < d.now) 0x79
      EVT.MEAS_START_SEC.SEC.off ]

/-- What an EVT COMMIT does to one input (R271, R273, R274). -/
def Dev.evtEffect1 (before d : Dev) (e : Nat) : Dev :=
  let p := EVT.page
  let differ (f : Field) : Bool := before.get p f e != d.get p f e
  let on := d.flag p EVT.EVT_CFG.ENABLE e
  let input : Bool := differ EVT.EVT_CFG.THRESH || differ EVT.EVT_CFG.HYST || differ EVT.EVT_CFG.TERM
    || differ EVT.EVT_CFG.SLOPE
  let d := if on && !before.flag p EVT.EVT_CFG.ENABLE e then
    (d.setEvtIn e { d.evtIn e with count := 0, lastStamped := none, lastStamp := none }).showEvt e else d
  let was := before.flag p EVT.EVT_CFG.ENABLE e
  let d := if input && was then
    d.setEvtIn e { d.evtIn e with blankTo := some (d.now + 1000 * nsU) } else d
  let d := if (input && was) || differ EVT.EVT_PRESCALE.N || differ EVT.EVT_DELAY.DELAY_PS then d.measEnd e 5 true else d
  let bad : Bool := !on || d.get p EVT.EVT_CFG.SLOPE e == 2
  let wasBad : Bool := !was || before.get p EVT.EVT_CFG.SLOPE e == 2
  let d := if bad && !wasBad then (d.slotsOf 4 e).foldl (fun d s => d.slotFail s 1) d
    else if wasBad && !bad then (d.slotsOf 4 e).foldl (fun d s => d.slotClear s 1) d else d
  let d := if d.flag p EVT.MEAS_CFG.ABORT e then d.measEnd e 6 false else d
  let d := if d.flag p EVT.MEAS_CFG.START e then
      let timed := d.flag p EVT.MEAS_CFG.TIMED e
      let at_ := if timed then nearest d.now (d.get p EVT.MEAS_START_SEC.SEC e) (d.get p EVT.MEAS_START_NS.NS e) else d.now
      let m : Meas := ⟨at_, false, false, d.get p EVT.MEAS_CFG.GATE_MS e * 1000000 * nsU, 0, 0, 0, 0, 0, 0, 0, 0⟩
      let d := d.setEvtIn e { d.evtIn e with meas := some m }
      let d := d.wr p EVT.MEAS_STAT.BUSY.off 0 e
      if timed then d else
      match (d.evtIn e).lastStamp with
      | some t => if at_ ≤ t then (d.gateOpens e m).gateStamp e t else d.gateOpens e m
      | none => d.gateOpens e m
    else d
  (d.set p EVT.MEAS_CFG.START 0 e).set p EVT.MEAS_CFG.ABORT 0 e

def Dev.evtEffect (before d : Dev) : Dev := (List.range 8).foldl (fun d e => Dev.evtEffect1 before d e) d

def Dev.commitEvt (d : Dev) : Dev := d.commitBy EVT.page d.evtRules Dev.evtEffect

/-- Shadows of an input written, and the page committed. -/
def Dev.evtCommand (d : Dev) (acc : Accessor) (e : Nat) (sets : List (Field × Nat)) : Dev :=
  let word (off : Nat) : Word :=
    (sets.filter (fun x => x.1.off == off)).foldl (fun w x => setBits w x.1.lo x.1.wd x.2) (d.rdShadow .evt EVT.page off e)
  d.asOwner acc EVT.page COM.COMMIT.GO.off (fun d =>
    (sets.foldl (fun d x => d.setSh .evt EVT.page x.1 x.2 e) d).commitEvt)
    (thenCommit (((sets.map (fun x => x.1.off)).eraseDups).map (fun off => (off, word off))))

/-- R274: a COMMIT with START, at once or timed. -/
def execMeasStart (acc : Accessor) (evt : Fin 8) (timed : Bool) (gateMs : BitVec 20) (sec : BitVec 32) (ns : BitVec 30)
    (s : State) : Host.Outcome State Fault Refusal :=
  onDev (fun d => d.evtCommand acc evt
    ([(EVT.MEAS_CFG.START, 1), (EVT.MEAS_CFG.TIMED, if timed then 1 else 0), (EVT.MEAS_CFG.GATE_MS, gateMs.toNat)]
      ++ (if timed then [(EVT.MEAS_START_SEC.SEC, sec.toNat), (EVT.MEAS_START_NS.NS, ns.toNat)] else []))) s

/-- R274: a COMMIT with ABORT. -/
def execMeasAbort (acc : Accessor) (evt : Fin 8) (s : State) : Host.Outcome State Fault Refusal :=
  onDev (fun d => d.evtCommand acc evt [(EVT.MEAS_CFG.ABORT, 1)]) s

/-! ### Calibration (R270) -/

/-- The interpolators change roles and the idle one is calibrated; `ok` is whether its code map is monotonic. -/
def Dev.interpSwap (d : Dev) (e : Nat) (ok : Bool) : Dev :=
  let p := EVT.page
  let d := d.set p EVT.CAL_STAT.ACTIVE_IP (1 - d.get p EVT.CAL_STAT.ACTIVE_IP e) e
  let d := (d.incWrap p EVT.CAL_STAT.CAL_CNT e).setFlag p EVT.CAL_STAT.FAIL (!ok) e
  if ok then d else (d.err p 0x7A EVT.CAL_STAT.FAIL.off).raise p EVT.INT_RAW.CAL_FAIL e

def execInterpCalSwap (evt : Fin 8) (ok : Bool) (s : State) : Host.Outcome State Fault Refusal :=
  onDev (fun d => d.when (d.pageUp EVT.page) (·.interpSwap evt ok)) s

/-- R270: CAL_STAT.RECAL of the input the accessor has selected. -/
def execInterpRecal (acc : Accessor) (ok : Bool) (s : State) : Host.Outcome State Fault Refusal :=
  onDev (fun d => d.asOwner acc EVT.page EVT.CAL_STAT.RECAL.off (fun d => d.interpSwap (d.evtSel acc) ok)
    EVT.CAL_STAT.RECAL.strike) s

end Sys2Proof.Machine
end

