-- ==== Sys2Proof/Machine/Doublet.lean ====
section
/-!
DEFINITION. Machine/Doublet.lean: the Doublet pair (R280 to R299): ownership and its interlock, the cycle and its copy,
the standby, commanded handover, and the DBL page with the generation and recovery tables' window (R293, R294).
-/
namespace Sys2Proof.Machine

def Dev.isOwner (d : Dev) : Bool := d.flag DBL.page DBL.DBL_STAT.OWNER
def Dev.dblOn (d : Dev) : Bool := d.flag DBL.page DBL.DBL_CFG.ENABLE
def Dev.sideB (d : Dev) : Bool := d.flag DBL.page DBL.DBL_STAT.SIDE
def Dev.dblUp (d : Dev) : Bool := d.flag DBL.page DBL.DBL_STAT.DL0_UP || d.flag DBL.page DBL.DBL_STAT.DL1_UP
def Dev.copies (d : Dev) (cls : Nat) : Bool := (d.get DBL.page DBL.DBL_CFG.COPY).testBit cls
def Dev.setDbl (d : Dev) (f : Dbl → Dbl) : Dev := { d with dbl := f d.dbl }

/-! ### What a copy brings (R286 to R289, R191) -/

def StageOp.toTwin (o : StageOp) : TwinOp := ⟨o.table, o.index, o.words, o.insert, o.delete⟩
def ofTwin (o : TwinOp) : StageOp := ⟨o.table, o.index, o.words, o.insert, o.delete⟩

/-- The entries of a port's active bank. -/
def Dev.activeEntries (d : Dev) (p : Nat) : List Data :=
  (List.range (d.bankLen p (d.activeBank p))).map (fun i => d.lookupWord .gcl (gclIndex p (d.activeBank p) i))

/-- A bank that takes effect at the first cycle boundary: its swap time has passed (R289). -/
def Dev.lateBank (d : Dev) (b : TwinBank) : Dev :=
  let p := b.port
  let d := d.writeBank p (d.shadowBank p) b.cycle b.entries
  let d := (d.set (GCL.page p) GCL.GCL_CFG.ENABLE 1).writeImage (GCL.page p)
  (d.planSwap p (d.bankBoundary p (d.activeBank p) d.now) (some true) true b.release).raise DBL.page DBL.INT_RAW.LATE_APPLY

/-- A BLK item applied as the standby's own Blocker would write it (R191): a pending swap at its time, one whose time
has passed at the first boundary; a port whose list does not run takes it at once. -/
def Dev.applyBank (d : Dev) (b : TwinBank) : Dev :=
  let p := b.port
  let g := d.gclPort p
  let d := (d.set (GCL.page p) GCL.GCL_STAT.BLOCKER_OWN 1).refreshIdle p
  let runs : Bool := g.on && d.activeEntries p == b.entries && d.bankCycle p (d.activeBank p) == b.cycle
  match b.swapAt with
  | some t =>
    if (g.swapAt = some t ∧ g.blocker) ∨ (t < d.now ∧ runs) then d
    else if t < d.now then d.lateBank b
    else
      let d := d.writeBank p (d.shadowBank p) b.cycle b.entries
      let d := (d.set (GCL.page p) GCL.GCL_CFG.ENABLE 1).writeImage (GCL.page p)
      d.planSwap p t (some true) true b.release
  | none =>
    if runs then d
    else if g.on then (if d.blkSwapPending p then d else d.lateBank b)
    else
      let d := (d.writeBank p 0 b.cycle b.entries).writeBank p 1 b.cycle b.entries
      let d := d.set (GCL.page p) GCL.GCL_CFG.ENABLE 1
      (d.setGclPort p { d.gclPort p with on := true }).refreshGcl p

/-- A port that the owner's Blocker has given back while its release did not reach the standby: one entry with TC0 to
TC6 open, and the port is the user's again at its swap. -/
def Dev.releaseBank (d : Dev) (p : Nat) : Dev :=
  if !d.flag (GCL.page p) GCL.GCL_STAT.BLOCKER_OWN || d.blkSwapPending p then d
  else d.lateBank ⟨p, d.blkCycle, [blkEntry 0x7F d.blkCycle 0], none, true⟩

/-- A copied operation on a keyed table placed in this device's table: in the way that holds the key, else in the one
a new key takes, else in the owner's; the deletion of a key that is not there does nothing. -/
def Dev.placeOp (d : Dev) (op : StageOp) : Option StageOp :=
  match [TableId.fdb, TableId.sid].find? (fun t => t.num == op.table) with
  | none => some op
  | some t =>
    let w := op.words.headD 0
    let fdb := t == .fdb
    let (ways, top) : Nat × Nat := if fdb then (8, 44) else (4, 48)
    let k := bitsOf w top 0 * (if fdb then 32768 else 4096) + op.index / ways
    let (b, r) : Nat × Nat :=
      if fdb then
        let m := (Config.mix60 (BitVec.ofNat 60 d.fdbKey) (BitVec.ofNat 60 k)).toNat
        (m % 32768, m / 32768)
      else
        let m := (Config.mix61 (BitVec.ofNat 61 d.sidKey) (BitVec.ofNat 61 k)).toNat
        (m % 4096, m / 4096)
    let holder := ((List.range ways).map (b * ways + ·)).find? (fun i =>
      let x := d.lookupWord t i
      bitOf x 63 && bitsOf x top 0 == r)
    if bitOf w 63 then
      let way := (holder.or (if fdb then d.fdbWay b else d.sidWay b)).getD (b * ways + op.index % ways)
      some { op with index := way, words := [putBits w top 0 r] }
    else holder.map (fun i => { op with index := i, words := [0] })

/-- Copied operations placed one after the other. -/
def Dev.placeOps (d : Dev) (ops : List StageOp) : List StageOp :=
  (ops.foldl (fun (x : Dev × List StageOp) op =>
    match x.1.placeOp op with
    | some o => (Dev.applyOp 0 x.1 o, x.2 ++ [o])
    | none => x) (d, [])).2

/-- A copied list committed as one commit of the standby's own (R288, R289). -/
def Dev.commitTwin (d : Dev) (ops : List TwinOp) (gone : List StageOp → List StageOp) : Dev :=
  let ops := ops.map ofTwin
  let valid (t : TableId) : Bool := ops.any (fun o => o.table == t.num && bitOf (o.words.headD 0) 63)
  let d := (d.when (valid .fdb) Dev.drawFdbKey).when (valid .sid) Dev.drawSidKey
  let placed := d.placeOps ops
  d.applyTables (gone placed ++ placed) false

/-- What brings every staged entry that a full copy does not hold back to its reset contents; dynamic entries stay. -/
def Dev.notIn (d : Dev) (placed : List StageOp) : List StageOp :=
  (stagedTables.map (fun t =>
    ((d.listed t).filter (fun i => !placed.any (fun o => o.table == t.num && o.index == i)
      && (t != .fdb || bitOf (d.entry t i) 62))).map (fun i =>
        (⟨t.num, i, (List.range (tableWords t)).map (resetEntry t i), false, false⟩ : StageOp)))).flatten

/-- One item applied at a cycle end; a TABLES item waits while the next epoch has not drained (R117). A sequence is
compared as it stood at the end of the owner's cycle that brought it (R296). -/
def Dev.applyItem (d : Dev) (i : CopyItem) : Dev :=
  match i with
  | .tables ops =>
    if d.epochBlocked then d.setDbl (fun b => { b with waiting := b.waiting ++ [i] })
    else d.commitTwin ops (fun _ => [])
  | .tablesFull ops =>
    if d.epochBlocked then d.setDbl (fun b => { b with waiting := b.waiting ++ [i] })
    else d.commitTwin ops d.notIn
  | .blk regs resv launch stage banks =>
    let d : Dev := { d with regs := tkeep (fun k => !(decide (rkeyPage k = BLK.page)
      && [0x40, 0x44, 0x50, 0x54].contains (rkeyOff k))) d.regs }
    let d := regs.foldl (fun d r => d.wr BLK.page r.1 r.2.2 r.2.1) d
    let gone := (d.resv.map Prod.fst).filter (fun i => !resv.any (fun r => r.id == i))
    let d := gone.foldl Dev.clearResv d
    let d := resv.foldl (fun d r => d.setResv r.id r.words ⟨r.s, r.ports, r.ofs, r.swap⟩) d
    let old := (d.listed .launch).filter (fun i => !launch.any (fun l => l.1 == i))
    let d := old.foldl (fun d i => d.zeroEntry .launch i 2) d
    let d := launch.foldl (fun d l => (d.setEntry .launch l.1 l.2.1 0).setEntry .launch l.1 l.2.2 1) d
    let d : Dev := { d with blkStage := stage }
    let free := (List.range 48).filter (fun p => !banks.any (fun b => b.port == p))
    (free.foldl Dev.releaseBank (banks.foldl Dev.applyBank d)).blkShow
  | .frer handle seq stamp =>
    let d := d.seen .gen handle
    let w := d.lookupWord .gen handle
    let mine := tget (fun _ => 0) d.genLast handle
    let quiet (t : Nat) : Bool := decide (t + 10000 * nsU < d.dbl.taken.getD 0)
    if bitOf w 63 && quiet stamp && quiet mine && bitsOf w 60 45 != seq then
      let d := d.setEntry .gen handle (putBits w 60 45 seq)
      ((d.incSat DBL.page DBL.COPY_ERR.SKEW_CNT).raise DBL.page DBL.INT_RAW.SEQ_SKEW).count 0xD85
    else d
  | _ => d

/-! ### Ownership (R282 to R284) -/

/-- READY of a standby, with its interrupt and what follows from it at the selector (R290). -/
def Dev.setReady (d : Dev) (b : Bool) : Dev :=
  let was := d.flag DBL.page DBL.DBL_STAT.READY
  if was == b then d else
  let d := d.setFlag DBL.page DBL.DBL_STAT.READY b
  (if b then d.raise DBL.page DBL.INT_RAW.READY_ON else d).reselect

/-- STALE, with its interrupt; the twin's time is no source while it stands (R227). -/
def Dev.setStale (d : Dev) (b : Bool) : Dev :=
  let was := d.flag DBL.page DBL.DBL_STAT.STALE
  if was == b then d else
  let d := d.setFlag DBL.page DBL.DBL_STAT.STALE b
  let d := if b then d.raise DBL.page DBL.INT_RAW.STALE else d
  (d.slotsOf 5 0).foldl (fun d s => if b then d.slotFail s 1
    else if d.flag DBL.page DBL.DBL_STAT.DL0_UP then d.slotClear s 1 else d) d

/-- A change of OWNER recorded: the registers, the interrupt, the recorder, the ball, the exclusive outputs, which a
reset (`cut`) leaves no time to finish a high phase (R283). -/
def Dev.ownChange (d : Dev) (gained handover cut : Bool) : Dev :=
  let p := DBL.page
  let two := gained && d.pinOwnIn
  let d := d.setFlag p DBL.DBL_STAT.OWNER gained
  let d := (d.set p DBL.OWN_CHG_SEC.SEC (secOf d.now)).setFlag p DBL.OWN_CHG_NS.DIR gained
  let d := d.set p DBL.OWN_CHG_NS.NS (nsOf d.now)
  let d := d.raise p (if gained then DBL.INT_RAW.TAKEOVER else DBL.INT_RAW.RELEASED)
  let d := (d.count 0xD86).record 0x002 0x0E
    ((if two then 4 else 0) + (if handover then 2 else 0) + (if gained then 1 else 0))
  (d.emit (.pin "DBL_OWN_OUT" gained)).outsOwner gained handover cut

/-- The slot that the mirror names, at a takeover (R290): it is selected if qualified, else selection is automatic. -/
def Dev.takeMirror (d : Dev) : Dev :=
  match d.dbl.mirror with
  | some (.ref _ _ (some s) _ _) =>
    if d.slotState s = slotQualified ∨ d.slotState s = slotSelected then
      (if d.refSelected = some s then d else d.switchStart (some s))
    else d.reselect
  | _ => d.reselect

/-- The Doublet's cycle in units of 2^-40 ns. -/
def Dev.dblCycle (d : Dev) : Nat := dblCycleNs (d.get DBL.page DBL.DBL_CFG.CYCLE) * nsU

/-- A full copy is asked for; its snapshot is taken at the next cycle end (R291). -/
def Dev.askFull (d : Dev) : Dev :=
  (d.setDbl (fun b => { b with needFull := true })).set DBL.page DBL.DBL_STAT.FULL_COPY 1

/-- A claim: an item the copy had not completed is discarded, with STALE (R299); the complete ones are applied now,
before this side's own commits (log entry 123). An owner that has sent no full copy since its reset starts one (R291).
-/
def Dev.claim (d : Dev) (handover : Bool) : Dev :=
  let follows := d.flag DBL.page DBL.DBL_STAT.FOLLOW
  let items := d.dbl.waiting
  let d := items.foldl Dev.applyItem (d.setDbl (fun b => { b with waiting := [] }))
  let d := if d.dbl.part then d.setStale true else d
  let d := d.setDbl (fun b => { b with accepted := none, claimSince := none, dual := false })
  let d := d.setDbl (fun b => { b with queue := [], sent := [], awaiting := false, part := false, frer := [] })
  let d := d.ownChange true handover false
  let d := (d.setFlag DBL.page DBL.DBL_STAT.READY true).set DBL.page DBL.DBL_STAT.FOLLOW 0
  let d := d.when (d.dbl.fresh && d.dblOn && d.dblUp) Dev.askFull
  if follows then d.takeMirror else d.reselect

/-- A release: the device is standby, READY at once after a handover (R298). -/
def Dev.release_ (d : Dev) (handover : Bool) : Dev :=
  let d := d.setDbl (fun b => { b with hand := none, queue := [], sent := [], awaiting := false, dual := false })
  let d := d.setDbl (fun b => { b with complete := handover, missed := 0, got := handover })
  let d := (d.set DBL.page DBL.DBL_STAT.HANDOVER_PEND 0).set DBL.page DBL.DBL_STAT.TWIN_READY 0
  let d := (d.set DBL.page DBL.DBL_STAT.FULL_COPY 0).ownChange false handover false
  (d.setFlag DBL.page DBL.DBL_STAT.READY handover).reselect

/-- Whether DBL_OWN_IN falls as the handover that was accepted: not before E2, the cycle end after the notice's
(R298); what falls before is an owner's failure, which voids the notice (R299). The two sides' cycle ends are taken to
lie within 1 µs of each other (DESIGN CHOICE, log entry 145). -/
def Dev.handoverComes (d : Dev) : Bool :=
  match d.dbl.accepted with
  | some e1 => decide ((e1 / d.dblCycle + 1) * d.dblCycle ≤ d.now + 1000 * nsU)
  | none => false

/-- The table of R282 evaluated. An absent heartbeat is one that 2 µs have shown absent (DEDUCED, log entry 22). -/
def Dev.dblEval (d : Dev) : Dev :=
  if !d.pageUp DBL.page then d else
  let hb := d.flag DBL.page DBL.DBL_STAT.HB_OK
  let own := d.pinOwnIn
  let noClaim (d : Dev) : Dev := d.setDbl (fun b => { b with claimSince := none })
  let fault (d : Dev) (b : Bool) : Dev :=
    let was := d.flag DBL.page DBL.DBL_STAT.INTERLOCK_FAULT
    let d := d.setFlag DBL.page DBL.DBL_STAT.INTERLOCK_FAULT b
    if b && !was then d.raise DBL.page DBL.INT_RAW.INTERLOCK_FAULT else d
  if d.isOwner then
    let d := fault d false
    if own && d.sideB then (d.release_ false).raise DBL.page DBL.INT_RAW.CONTEND else d
  else if own then fault (noClaim d) (!hb && d.dbl.hbAbsent)
  else
    let d := fault d false
    if !hb then (if d.dbl.hbAbsent then d.claim false else d)
    else if d.handoverComes then d.claim true
    else match d.dbl.claimSince with
      | some _ => d
      | none => let t := d.now; d.setDbl (fun b => { b with accepted := none, claimSince := some t })

/-- R281: every 100 ns the heartbeat output toggles while the controller is out of reset, in which a soft reset keeps
it for a while. -/
def execDblHbToggle (s : State) : Host.Outcome State Fault Refusal :=
  onDev (fun d => d.when (d.pageUp DBL.page && decide (d.dbl.hbFrom ≤ d.now)) (fun d =>
    let b := !d.dbl.hbOut
    (d.setDbl (fun x => { x with hbOut := b })).emit (.pin "DBL_HB_OUT" b))) s

/-- R281: an edge on DBL_HB_IN. -/
def execDblHbInEdge (s : State) : Host.Outcome State Fault Refusal :=
  onDev (fun d => d.when (d.pageUp DBL.page) (fun d =>
    let t := d.now
    ((d.setDbl (fun b => { b with hbLast := t, hbAbsent := false })).set DBL.page DBL.DBL_STAT.HB_OK 1).dblEval)) s

/-- R282: 2 µs have passed without an edge on DBL_HB_IN. -/
def execDblHbTimeout (s : State) : Host.Outcome State Fault Refusal :=
  onDev (fun d =>
    if !d.pageUp DBL.page || (d.flag DBL.page DBL.DBL_STAT.HB_OK && decide (d.now < d.dbl.hbLast + 2000 * nsU)) then d else
    let was := d.flag DBL.page DBL.DBL_STAT.HB_OK
    let d := (d.set DBL.page DBL.DBL_STAT.HB_OK 0).setDbl (fun b => { b with hbAbsent := true })
    (if was then d.raise DBL.page DBL.INT_RAW.HB_LOST else d).dblEval) s

/-- R282: DBL_OWN_IN changes. The ball's level stands whatever is in reset. -/
def execDblOwnInChange (level : Bool) (s : State) : Host.Outcome State Fault Refusal :=
  onDev (fun d =>
    let d := { d with pinOwnIn := level }
    if d.pageUp DBL.page then ((d.setFlag DBL.page DBL.DBL_STAT.OWN_IN level).reselect).dblEval else d) s

/-- R282: the claim row has held for CLAIM_WAIT_MS: side A with AUTO_CLAIM claims. -/
def execClaimWaitExpiry (s : State) : Host.Outcome State Fault Refusal :=
  onDev (fun d =>
    match d.dbl.claimSince with
    | none => d
    | some t =>
      let wait := d.get DBL.page DBL.DBL_CFG.CLAIM_WAIT_MS * 1000000 * nsU
      let row := !d.isOwner && !d.pinOwnIn && d.flag DBL.page DBL.DBL_STAT.HB_OK
      if row && !d.sideB && d.flag DBL.page DBL.DBL_CFG.AUTO_CLAIM && decide (t + wait ≤ d.now) then d.claim false else d) s

/-- The controller enters reset (R283): ownership drops and the heartbeat stops in the same tick; a handover is void.
The heartbeat stays stopped for 2.1 µs, in which the twin's time-out and its claim fall, however short the reset
(DESIGN CHOICE, log entry 144). -/
def Dev.dblReset (d : Dev) : Dev :=
  let d := if d.isOwner then d.ownChange false false true else d
  let d := d.emit (.pin "DBL_HB_OUT" false)
  { d with dbl := ⟨false, 0, false, none, none, none, false, false, [], [], false, 0, none, none, false, 0, false, false, [],
      [], none, 0, 0, 0, 0, false, true, none, none, 0, d.now + 2100 * nsU⟩ }

/-! ### The owner's copy (R286 to R288, R291) -/

/-- The TIME class; the state of firmware's servo is firmware's (a free value, log entry 77). -/
def Dev.copyTime (d : Dev) (servo : Nat) : CopyItem :=
  .time d.inc d.slewRem (!d.untrace) d.hoCorr (d.incAvg.map (fun x => (ratRound x).toNat))
    (d.flag REF.page REF.REF_STAT.HO_READY)
    ([REF.HO_CFG.T0, REF.HO_C1.C1, REF.HO_C2.C2, REF.HO_C3.C3, REF.HO_AGE.AGE].map (fun f => d.rd REF.page f.off)) servo

def Dev.copyRef (d : Dev) : CopyItem :=
  .ref (d.rd REF.page REF.REF_CFG.WTR_S.off) (d.rd REF.page REF.REF_TIME.QUAL_S.off) d.refSelected
    (d.flag REF.page REF.REF_STAT.SWITCHING)
    ((refSlots.filter (fun s => d.slotState s != slotDisabled)).map (fun s =>
      ⟨s, d.slotType s, d.slotState s, d.get REF.page REF.SLOT_STAT.CAUSE s, d.get REF.page REF.SLOT_STAT.TIMER_S s⟩))

/-- The BLK class as a copy that ends at `end_` carries it: without the commits of the end's own tick (R299). -/
def Dev.blkItem (d : Dev) (end_ : Nat) : CopyItem :=
  match d.dbl.blkBefore with
  | some (t, i) => if end_ ≤ t then i else d.copyBlk
  | none => d.copyBlk

/-- The handles of generation entries that numbered a frame since an instant; one that has numbered on the tick of the
cycle's end, which comes after it (R10), is for the next copy. -/
def Dev.numbered (d : Dev) (since end_ : Nat) : List (Nat × Nat) := d.genLast.filter (fun e => since ≤ e.2 && e.2 < end_)

def Dev.copyFrer (d : Dev) (since end_ : Nat) : List CopyItem :=
  (d.numbered since end_).map (fun e => .frer e.1 (bitsOf (d.lookupWord .gen e.1) 60 45) e.2)

/-- The tables as a full copy whose cycle ends at `end_` carries them: without the commits of the end's own tick
(R33). -/
def Dev.tabItem (d : Dev) (end_ : Nat) : CopyItem :=
  match d.dbl.tabBefore with
  | some (t, i) => if end_ ≤ t then i else d.tablesItem
  | none => d.tablesItem

/-- A snapshot of every class that is copied and does not travel whole in each cycle, in the order of R287. -/
def Dev.fullCopy (d : Dev) (end_ : Nat) : List CopyItem :=
  (if d.copies 0 then (d.listed .recv).map (fun i => CopyItem.frerFull i (d.lookupWord .recv i)) else [])
    ++ (if d.copies 2 then [d.tabItem end_] else []) ++ (if d.copies 1 then [d.blkItem end_] else [])

/-- The place of a class in a cycle (R287). -/
def itemOrder : CopyItem → Nat
  | .time .. => 0
  | .ref .. => 1
  | .frer .. => 2
  | .frerFull .. => 2
  | .tables .. => 3
  | .tablesFull .. => 3
  | .blk .. => 4

/-- Items in the order of R287; those of one class keep theirs. -/
def sortItems (l : List CopyItem) : List CopyItem :=
  ((List.range 5).map (fun k => l.filter (fun i => itemOrder i == k))).flatten

/-- The snapshot of a full copy, in the place of what has waited to be sent (R291). -/
def Dev.startFull (d : Dev) (end_ : Nat) : Dev :=
  let items := d.fullCopy end_
  let blk := d.blkItem end_
  let d := d.reads .recv (d.listed .recv)
  let d := d.setDbl (fun b => { b with queue := items, sent := [], blkSent := some blk, needFull := false })
  ({ d with dblTables := d.dblTables.filter (fun l => end_ ≤ l.1) } : Dev).setDbl (fun b =>
    { b with fresh := false, tabBefore := none })

/-- What is new since the last cycle end; a table or Blocker commit on the tick of this end goes into the next copy
(R33, R299). -/
def Dev.newItems (d : Dev) (end_ servo : Nat) : List CopyItem :=
  let blk := d.blkItem end_
  (if d.copies 4 then [d.copyTime servo] else []) ++ (if d.copies 3 then [d.copyRef] else [])
    ++ (if d.copies 0 then d.copyFrer d.dbl.lastEnd end_ else [])
    ++ (if d.copies 2 then (d.dblTables.filter (fun l => l.1 < end_)).map (fun l => CopyItem.tables (l.2.map StageOp.toTwin))
        else [])
    ++ (if d.copies 1 ∧ d.dbl.blkSent ≠ some blk then [blk] else [])

/-- COPY_ERR of the owner: TWIN_READY falls, the same content goes again in front of the new. -/
def Dev.copyMiss (d : Dev) (f : Field) (counter : Nat) : Dev :=
  let d := (d.set DBL.page DBL.DBL_STAT.TWIN_READY 0).incSat DBL.page f
  let d := (d.raise DBL.page DBL.INT_RAW.COPY_ERR).count counter
  d.setDbl (fun b => { b with queue := b.sent ++ b.queue, sent := [], awaiting := false })

/-- The lanes that carry the copy (R285): each that is UP, with no loop-back. -/
def Dev.dblLanes (d : Dev) : List Nat :=
  [48, 49].filter (fun l => d.flag DBL.page (if l = 48 then DBL.DBL_STAT.DL0_UP else DBL.DBL_STAT.DL1_UP)
    && d.get (LNK.page l) LNK.LOOP_CFG.MODE == 0)

def Dev.sendCopy (d : Dev) (ack : Bool) (h : TwinHeader) (items : List CopyItem) : Dev :=
  d.dblLanes.foldl (fun d l => d.emit (.copy l ack h items)) d

/-- This device's header. -/
def Dev.header (d : Dev) (time : Nat) (notice more : Bool) : TwinHeader :=
  ⟨d.sideB, d.isOwner, time, notice, d.flag DBL.page DBL.DBL_STAT.FULL_COPY, d.flag DBL.page DBL.DBL_STAT.READY,
   d.dbl.t1, d.dbl.t4, more⟩

/-- The owner's cycle end: the missing acknowledgement, the content of the cycle in the order of R287, in each class
what has waited before what is new, the copy sent. `fit` of the items that wait fit into 256 KiB; `kib` and `backlog`
are their sizes (log entry 23: the spec does not lay the copy out). -/
def Dev.ownerCycle (d : Dev) (end_ fit kib backlog : Nat) : Dev :=
  let items := d.dbl.waiting
  let d := items.foldl Dev.applyItem (d.setDbl (fun b => { b with waiting := [] }))
  let d := d.setStale false
  let d := if d.dbl.awaiting then d.copyMiss DBL.COPY_ERR.ACK_MISS_CNT 0xD83 else d
  let d := if d.dbl.needFull && d.dblUp then d.startFull end_ else d
  let d := if d.dbl.dual && d.sideB then d.release_ false else d
  if !d.isOwner || !d.dblUp || d.dbl.sameSide then d.setDbl (fun b => { b with lastEnd := end_ }) else
  let (servo, d) := d.free
  let new := d.newItems end_ servo
  let blk := d.blkItem end_
  let d := d.reads .gen ((d.numbered d.dbl.lastEnd end_).map Prod.fst)
  let all := sortItems (d.dbl.queue.filter (fun i => 1 < itemOrder i) ++ new)
  let out := all.take fit
  let notice := d.dbl.hand.isSome
  let d := d.setDbl (fun b => { b with blkSent := some blk, queue := all.drop fit, sent := out, awaiting := true })
  let d := d.setDbl (fun b => { b with lastEnd := end_ })
  let d := d.setDbl (fun b => { b with hand := b.hand.map (fun h => { h with e1 := some (h.e1.getD end_) }) })
  let d : Dev := { d with dblTables := d.dblTables.filter (fun l => end_ ≤ l.1) }
  let d := (d.set DBL.page DBL.COPY_STAT.LAST_KIB (min kib 256)).set DBL.page DBL.COPY_STAT.BACKLOG_KIB backlog
  let d := (d.count 0xD80).sendCopy false (d.header end_ notice !(all.drop fit).isEmpty) out
  let t1 := d.txStampAt 48 d.now
  d.setDbl (fun b => { b with t1 := t1 })

/-! ### The standby (R286, R289, R290, R296) -/

/-- What a good copy does at once: TIME into the REF page, the mirror of REF, recovery states of a full copy. -/
def Dev.takeItem (d : Dev) (i : CopyItem) : Dev :=
  match i with
  | .time _ _ _ _ avg ready model servo =>
    let d := d.setDbl (fun b => { b with servo := servo })
    let d := match avg with | some a => { d with hoHist := [a] } | none => { d with hoHist := [] }
    let d := d.copyReady ready
    ([REF.HO_CFG.T0, REF.HO_C1.C1, REF.HO_C2.C2, REF.HO_C3.C3, REF.HO_AGE.AGE].zip model).foldl (fun d x =>
      d.wr REF.page x.1.off x.2) d
  | .ref _ _ _ _ slots =>
    let d := d.setDbl (fun b => { b with mirror := some i })
    (slots.foldl (fun d s =>
      let mine := d.slotState s.slot
      if s.state = slotWtr ∧ d.slotType s.slot = s.type ∧ (mine = slotWtr ∨ mine = slotQualified) then
        (d.setSlotState s.slot slotWtr).set REF.page REF.SLOT_STAT.TIMER_S s.timer s.slot
      else d) d).reselect
  | .frerFull handle word =>
    let d := d.seen .recv handle
    let w := d.lookupWord .recv handle
    if bitOf w 63 then d.setEntry .recv handle (putBits (putBits w 60 60 (bitsOf word 60 60)) 47 0 (bitsOf word 47 0))
    else d
  | .frer .. => d.setDbl (fun b => { b with frer := b.frer ++ [i] })
  | _ => d.setDbl (fun b => { b with waiting := b.waiting ++ [i] })

/-- The standby's cycle end: what is complete takes effect, sequences are compared, STALE and READY are judged. -/
def Dev.standbyCycle (d : Dev) (end_ : Nat) : Dev :=
  let items := d.dbl.waiting
  let frer := d.dbl.frer
  let got := d.dbl.got
  let d := d.setDbl (fun b => { b with lastEnd := end_, waiting := [], frer := [] })
  let d := d.setDbl (fun b => { b with missed := if b.got then 0 else b.missed + 1, got := false })
  let d := (items ++ frer).foldl Dev.applyItem d
  let full := d.flag DBL.page DBL.DBL_STAT.FULL_COPY
  if full || decide (2 ≤ d.dbl.missed) then (d.setStale true).setReady false
  else if got && d.dbl.complete && !d.dbl.part then (d.setStale false).setReady true
  else d

/-- Whether a cycle end has come since the last one: they lie at whole cycles from each second's rollover. -/
def Dev.cycleDue (d : Dev) : Bool := decide (d.dbl.lastEnd / d.dblCycle < d.now / d.dblCycle)

/-- A cycle end that has come (R286). -/
def Dev.cycleEnd (d : Dev) (fit kib backlog : Nat) : Dev :=
  d.when (d.dblOn && d.pageUp DBL.page && d.cycleDue) (fun d =>
    let end_ := d.now / d.dblCycle * d.dblCycle
    if d.isOwner then d.ownerCycle end_ fit kib backlog else d.standbyCycle end_)

/-- R286: a cycle ends. The operands say how many of the owner's waiting items fit into the copy, and their sizes. -/
def execDblCycleEnd (fit : Nat) (kib : BitVec 10) (backlog : BitVec 22) (s : State) : Host.Outcome State Fault Refusal :=
  onDev (fun d => d.cycleEnd fit kib.toNat backlog.toNat) s

/-- Both sides seen as one side, or as owners (R280, R284). -/
def Dev.checkTwin (d : Dev) (h : TwinHeader) : Dev :=
  let same : Bool := h.sideB == d.sideB
  let dual := h.owner && d.isOwner
  let d := if (same && !d.dbl.sameSide) || dual then d.raise DBL.page DBL.INT_RAW.DUAL_OWN else d
  d.setDbl (fun b => { b with sameSide := same, dual := dual })

/-- TWIN_OFS (R290) in ps, from the owner's t1 and t4 of the last exchange and this device's t2 and t3. -/
def twinOfs (asym : Int) (t1 t2 t3 t4 : Nat) : Int :=
  let x : Rat := ((((t2 : Int) - t1) - ((t4 : Int) - t3) : Int) : Rat) / 2 * 1000 / (nsU : Nat)
  sat31 (ratRound ((asym : Rat) - x))

/-- R286: a cycle's copy arrives. With a good CRC, and unless the other lane has brought it already (R285), the standby
applies it and acknowledges, accepting a handover when it is READY (R298); the digests are the spec's own and are free
values here. -/
def execDblCopyReceived (crcOk : Bool) (hdr : TwinHeader) (items : List CopyItem) (edge : RxEdge) (kib : BitVec 10)
    (s : State) : Host.Outcome State Fault Refusal :=
  onDev (fun d =>
    if !d.dblOn || !d.pageUp DBL.page || !d.dblUp then d
    else if !crcOk then
      ((d.incSat DBL.page DBL.COPY_ERR.CRC_CNT).raise DBL.page DBL.INT_RAW.COPY_ERR).count 0xD82
    else
      let d := d.checkTwin hdr
      if d.isOwner || d.dbl.sameSide || d.dbl.taken == some hdr.time then d else
      let t2 := d.rxStamp 48 edge
      let known := d.dbl.t2 != 0
      let ofs := twinOfs (d.getInt DBL.page DBL.DL_ASYM_PS.ASYM) hdr.t1 d.dbl.t2 d.dbl.t3 hdr.t4
      let d := if known && d.flag DBL.page DBL.DBL_STAT.DL0_UP then
        d.set DBL.page DBL.TWIN_OFS.PS (toField 32 ofs) else d
      let d := (d.count 0xD81).set DBL.page DBL.COPY_STAT.LAST_KIB (min kib.toNat 256)
      let d := items.foldl Dev.takeItem d
      let wasFull := d.flag DBL.page DBL.DBL_STAT.FULL_COPY
      let d := d.setFlag DBL.page DBL.DBL_STAT.FULL_COPY hdr.full
      let d := d.setDbl (fun b => { b with got := true, part := hdr.more, complete := b.complete || (wasFull && !hdr.full) })
      let d := if hdr.full then (d.setStale true).setReady false else d
      let accept := hdr.notice && d.flag DBL.page DBL.DBL_STAT.READY
      let t3 := d.txStampAt 48 d.now
      let d := d.setDbl (fun b => { b with
        accepted := if accept then some (b.accepted.getD hdr.time) else none, t2 := t2, t3 := t3, taken := some hdr.time })
      let r := [0, 1, 2, 3, 4].foldl (fun (x : List Nat × Dev) _ => let y := x.2.free; (y.1 % 2 ^ 32 :: x.1, y.2)) ([], d)
      (r.2.sendCopy true (r.2.header hdr.time accept false) []).emit (.doublet "digests" r.1)) s

/-- R286: the standby's acknowledgement; `mismatch` are the classes whose digest differs from the owner's own. -/
def execDblAckReceived (crcOk : Bool) (hdr : TwinHeader) (mismatch : BitVec 5) (edge : RxEdge) (s : State) :
    Host.Outcome State Fault Refusal :=
  onDev (fun d =>
    if !d.dblOn || !d.pageUp DBL.page || !d.dblUp || !d.isOwner then d
    else if !crcOk then d.copyMiss DBL.COPY_ERR.CRC_CNT 0xD82
    else
      let t4 := d.rxStamp 48 edge
      let d := (d.checkTwin hdr).setDbl (fun b => { b with awaiting := false, sent := [], t4 := t4 })
      let d := d.setFlag DBL.page DBL.DBL_STAT.TWIN_READY hdr.ready
      let d := if d.dbl.queue.isEmpty && !d.dbl.needFull then d.set DBL.page DBL.DBL_STAT.FULL_COPY 0 else d
      let d := if mismatch = 0 then d else
        let d := ((d.incSat DBL.page DBL.COPY_ERR.DIGEST_CNT).raise DBL.page DBL.INT_RAW.DIGEST).count 0xD84
        let again := (d.fullCopy (d.now + 1)).filter (fun i => (itemOrder i == 2 && mismatch.getLsbD 0)
          || (itemOrder i == 3 && mismatch.getLsbD 2) || (itemOrder i == 4 && mismatch.getLsbD 1))
        (d.setDbl (fun b => { b with queue := b.queue ++ again })).setFlag DBL.page DBL.DBL_STAT.FULL_COPY
          (d.flag DBL.page DBL.DBL_STAT.FULL_COPY || !again.isEmpty)
      match d.dbl.hand with
      | some h =>
        if h.e1.isNone then d
        else if hdr.notice then d.setDbl (fun b => { b with hand := some { h with accepted := true } })
        else if h.accepted then d
        else ((d.setDbl (fun b => { b with hand := none })).set DBL.page DBL.DBL_STAT.HANDOVER_PEND 0).err DBL.page 0x81
          DBL.DBL_CMD.HANDOVER.off
      | none => d) s

/-! ### Commanded handover (R298) -/

/-- R298: DBL_CMD.HANDOVER. -/
def execDblHandover (acc : Accessor) (s : State) : Host.Outcome State Fault Refusal :=
  onDev (fun d => d.asOwner acc DBL.page DBL.DBL_CMD.HANDOVER.off (fun d =>
    if !d.isOwner || !d.dblOn || !d.dblUp || !d.flag DBL.page DBL.DBL_STAT.TWIN_READY || d.dbl.hand.isSome then
      d.err DBL.page 0x81 DBL.DBL_CMD.HANDOVER.off
    else (d.setDbl (fun b => { b with hand := some ⟨none, false⟩ })).set DBL.page DBL.DBL_STAT.HANDOVER_PEND 1)
    DBL.DBL_CMD.HANDOVER.strike) s

/-- R298: DBL_CMD.CANCEL withdraws a handover before its release. -/
def execDblHandoverCancel (acc : Accessor) (s : State) : Host.Outcome State Fault Refusal :=
  onDev (fun d => d.asOwner acc DBL.page DBL.DBL_CMD.CANCEL.off (fun d =>
    (d.setDbl (fun b => { b with hand := none })).set DBL.page DBL.DBL_STAT.HANDOVER_PEND 0) DBL.DBL_CMD.CANCEL.strike) s

/-- R291: DBL_CMD.FULL_COPY on the owner. -/
def execDblFullCopy (acc : Accessor) (s : State) : Host.Outcome State Fault Refusal :=
  onDev (fun d => d.asOwner acc DBL.page DBL.DBL_CMD.FULL_COPY.off (fun d => if d.isOwner then d.askFull else d)
    DBL.DBL_CMD.FULL_COPY.strike) s

/-- Whether every exclusive pulse output with a low phase of 3 µs or more has been low for 1 µs and stays low for 2
µs. -/
def Dev.pulsesLow (d : Dev) (t : Nat) : Bool :=
  (List.range 12).all (fun o =>
    let period := d.get OUT.page OUT.PULSE_PERIOD.PERIOD_NS o
    let width := d.get OUT.page OUT.PULSE_WIDTH.WIDTH_NS o
    if !d.outOn o || !d.flag OUT.page OUT.OUT_CFG.EXCL o || d.get OUT.page OUT.OUT_CFG.SRC o != 5
      || decide (period < width + 3000) then true
    else
      let pos := d.outPos o t
      decide (((width + 1000) * (1000 * nsU) : Nat) ≤ pos) && decide (pos + (2000000 * nsU : Nat) ≤ (period * (1000 * nsU) : Nat)))

/-- R298: the release instant: the first cycle end at or after E2 at which the pulses are low, or at or after E2 + 1
s. -/
def execHandoverRelease (s : State) : Host.Outcome State Fault Refusal :=
  onDev (fun d =>
    match d.dbl.hand with
    | some ⟨some e1, true⟩ =>
      let e2 := (e1 / d.dblCycle + 1) * d.dblCycle
      let t := d.now / d.dblCycle * d.dblCycle
      if e2 ≤ t ∧ (d.pulsesLow t ∨ e2 + secU ≤ t) then d.release_ true else d
    | _ => d) s

/-! ### The generation and recovery tables (R293, R294) -/

/-- The table a window names. -/
def dblTable (n : Nat) : Option TableId := match n with | 0 => some .gen | 1 => some .recv | _ => none

/-- R400: READ of a generation or recovery entry. -/
def execDblEntryRead (acc : Accessor) (s : State) : Host.Outcome State Fault Refusal :=
  onDev (fun d => d.asAny acc DBL.page (fun d =>
    match dblTable (winTable d dblWin acc) with
    | some t => d.winCapture dblWin acc [d.stored t (winIndex d dblWin acc)]
    | none => d.winResult dblWin acc 4) [(dblWin.result.off, 1)]) s

/-- Whether an entry holds a reserved code or a value out of range. -/
def entryBad (t : TableId) (w : Data) : Bool :=
  match t with
  | .gen => bitsOf w 62 61 == 3
  | _ => decide (bitsOf w 59 55 < 2) || bitsOf w 54 48 == 0

/-- A generation or recovery entry written (R293, R294). -/
def Dev.writeDblEntry (d : Dev) (t : TableId) (i : Nat) (w : Data) : Dev :=
  let w := w &&& tableMask t 0
  (d.setEntry t i (if t == .recv then putBits (putBits w 60 60 1) 31 0 0 else w)).writeImage DBL.page

/-- R293, R294: WRITE takes effect at once; a recovery entry's TAKE_ANY is set and its HISTORY cleared. -/
def execDblEntryWrite (acc : Accessor) (s : State) : Host.Outcome State Fault Refusal :=
  onDev (fun d => d.asOwner acc DBL.page DBL.ENTRY_CMD.OP.off (fun d =>
    let w := winData d dblWin acc
    match dblTable (winTable d dblWin acc) with
    | some t => if entryBad t w then d.winResult dblWin acc 4
        else (d.writeDblEntry t (winIndex d dblWin acc) w).winResult dblWin acc 0
    | none => d.winResult dblWin acc 4) [(DBL.ENTRY_CMD.OP.off, 2)]) s

/-- TAKE_ANY of a recovery entry set. -/
def Dev.takeAny (d : Dev) (i : Nat) : Dev :=
  let d := d.seen .recv i
  d.setEntry .recv i (putBits (d.lookupWord .recv i) 60 60 1)

/-- R294: RESET_REC. -/
def execDblResetRec (acc : Accessor) (s : State) : Host.Outcome State Fault Refusal :=
  onDev (fun d => d.asOwner acc DBL.page DBL.ENTRY_CMD.OP.off (fun d =>
    if winTable d dblWin acc = 1 then (d.takeAny (winIndex d dblWin acc)).winResult dblWin acc 0
    else d.winResult dblWin acc 4) [(DBL.ENTRY_CMD.OP.off, 3)]) s

/-- R294: no frame has passed an entry for its RESET_MS. -/
def execRecoveryResetTimeout (handle : Fin 16384) (s : State) : Host.Outcome State Fault Refusal :=
  onDev (fun d =>
    let w := d.lookupWord .recv handle
    let t := tget (fun _ => 0) d.recLast handle + bitsOf w 54 48 * 1000000 * nsU
    if bitOf w 63 && !bitOf w 60 && decide (t ≤ d.now) then (d.takeAny handle).watch handle 3 else d) s

/-! ### The COMMIT of the DBL page -/

def Dev.dblRules (d : Dev) : List Rule :=
  let sh (f : Field) (i : Nat) : Nat := d.getSh .dbl DBL.page f i
  let asym := d.getShInt .dbl DBL.page DBL.DL_ASYM_PS.ASYM
  let used (i : Nat) : List Nat :=
    if sh DBL.RED_CFG.MODE i = 0 then [] else [sh DBL.RED_CFG.PORT_A i, sh DBL.RED_CFG.PORT_B i]
  let ports := ((List.range 4).map used).flatten
  [ d.ruleRange .dbl DBL.page DBL.DBL_CFG.CYCLE 0 5 0x80, d.ruleRange .dbl DBL.page DBL.DBL_CFG.CLAIM_WAIT_MS 1 255 0x80,
    (asym < -100000 || 100000 < asym, 0x80, DBL.DL_ASYM_PS.ASYM.off),
    ruleAny 4 (fun i => (sh DBL.RED_CFG.MODE i == 3 || (used i).any (47 < ·), 0x80, DBL.RED_CFG.MODE.off)),
    (ports.eraseDups.length != ports.length, 0x82, DBL.RED_CFG.PORT_A.off),
    (decide (d.get BLK.page BLK.BLK_CFG.LEAD_US * 1000 < 2 * dblCycleNs (sh DBL.DBL_CFG.CYCLE 0)), 0x82,
      DBL.DBL_CFG.CYCLE.off) ]

/-- ENABLE begins with a full copy on an owner whose link is up; a standby that stops is not READY. -/
def Dev.dblEffect (before d : Dev) : Dev :=
  let starts := d.dblOn && !before.dblOn
  let stops := !d.dblOn && before.dblOn
  let now := d.now
  let d := if starts then d.setDbl (fun b => { b with lastEnd := now, complete := false, missed := 0 }) else d
  let d := if starts && d.isOwner && d.dblUp then d.askFull else d
  let d := if (starts || stops) && !d.isOwner then d.setReady false else d
  let d := if stops then (d.setDbl (fun b => { b with hand := none })).set DBL.page DBL.DBL_STAT.HANDOVER_PEND 0 else d
  d.reselect.dblEval

def Dev.commitDbl (d : Dev) : Dev := d.commitBy DBL.page d.dblRules Dev.dblEffect

end Sys2Proof.Machine
end

