-- ==== Sys2Proof/Machine/Tally.lean ====
section
/-!
DEFINITION. Machine/Tally.lean: the Tally counters' readings, freeze and snapshot (R367, R373, R374), samplers (R375),
firmware counters (R376), the flight recorder's writer (R378 to R382), the TAL, LOG and DRM pages, and the tests of R387
and R389.
-/
namespace Sys2Proof.Machine

/-! ### Counters (R367, R376) -/

/-- R367: a read of CNT_LO latches CNT_HI for the same accessor. -/
def execCntLoRead (acc : Accessor) (s : State) : Host.Outcome State Fault Refusal :=
  onDev (fun d =>
    if !d.pageUp TAL.page then (d.accessInReset TAL.page).emit (.reply "read" [0xFFFFFFFF]) else
    let n := d.countShown (d.get TAL.page TAL.CNT_SEL.INDEX acc.idx)
    let d := d.set TAL.page TAL.CNT_HI.COUNT_HI (n / 2 ^ 32) acc.idx
    d.emit (.reply "read" [n % 2 ^ 32])) s

/-- R376: SW_INC from a service core adds AMOUNT to a firmware counter; from any other accessor it is discarded and
counted; another index is discarded. -/
def Dev.swInc (d : Dev) (acc : Accessor) (v : Word) : Dev :=
  if !acc.isFw then d.refuseWrite TAL.page TAL.SW_INC.INDEX.off
  else
    let i := getBits v TAL.SW_INC.INDEX.lo TAL.SW_INC.INDEX.wd
    if 0xE00 ≤ i ∧ i ≤ 0xEFF then d.count i (getBits v TAL.SW_INC.AMOUNT.lo TAL.SW_INC.AMOUNT.wd) else d

def execSwInc (acc : Accessor) (value : BitVec 32) (s : State) : Host.Outcome State Fault Refusal :=
  onDev (fun d => if !d.pageUp TAL.page then d.accessInReset TAL.page else d.swInc acc value) s

/-! ### Freeze and snapshot (R373, R374) -/

/-- Whether some crossing is HELD or in reset. -/
def Dev.anyCrossingOut (d : Dev) : Bool := (List.range 56).any (fun i => d.xing i == xHeld || d.xing i == xReset)

/-- A counter as the snapshot copies it: without what it has counted since the instant `t`. -/
def Dev.frozen (d : Dev) (t i : Nat) : Nat :=
  if coreCounter i then (Config.coreCount i t).toNat
  else (d.counter i + 2 ^ 48 - tget (fun _ => 0) d.snapLate i % 2 ^ 48) % 2 ^ 48

/-- The freeze happens: every counter is copied as it stood at the instant and the collection starts; its registers
read 0 until it is done. -/
def Dev.freeze (d : Dev) (t : Nat) : Dev :=
  let held := d.anyCrossingOut
  let counts := (d.tally.map Prod.fst ++ (List.range 40).map (0xF00 + ·)).foldl (fun m i => tset (fun _ => 0) m i (d.frozen t i)) []
  let d : Dev := { d with snap := counts, snapLate := [], freezeAt := some t, collecting := true, snapHeld := held }
  let d := (d.set TAL.page TAL.SNAP_STAT.ARMED 0).set TAL.page TAL.SNAP_STAT.VALID 0
  let d := (d.set TAL.page TAL.SNAP_SEC.SEC 0).set TAL.page TAL.SNAP_NS.NS 0
  d.setFlag TAL.page TAL.SNAP_STAT.UNTRACE d.untrace

/-- A freeze disarmed; one that collects goes on. -/
def Dev.freezeCancel (d : Dev) : Dev :=
  if d.collecting then d else { d.set TAL.page TAL.SNAP_STAT.ARMED 0 with freezeAt := none, snapLate := [] }

/-- R373: the instant of the armed freeze has come. -/
def execFreezeInstant (s : State) : Host.Outcome State Fault Refusal :=
  onDev (fun d =>
    match d.freezeAt with
    | some t => d.when (!d.collecting && decide (t ≤ d.now)) (·.freeze t)
    | none => d) s

/-- R373: 10 µs after the instant the collection is complete. -/
def execSnapCollectDone (s : State) : Host.Outcome State Fault Refusal :=
  onDev (fun d =>
    match d.freezeAt with
    | some t => d.when (d.collecting && decide (t + 10000 * nsU ≤ d.now)) (fun d =>
        let inc := d.snapHeld
        let d : Dev := { d with collecting := false, freezeAt := none, snapHeld := false }
        let d := (d.set TAL.page TAL.SNAP_STAT.VALID 1).incWrap TAL.page TAL.SNAP_STAT.SEQ
        let d := (d.set TAL.page TAL.SNAP_SEC.SEC (secOf t)).set TAL.page TAL.SNAP_NS.NS (nsOf t)
        (d.setFlag TAL.page TAL.SNAP_STAT.INCOMPLETE inc).raise TAL.page TAL.INT_RAW.SNAP_DONE)
    | none => d) s

/-- The instant that FRZ_SEC and FRZ_NS name at a commit. -/
def Dev.freezeTime (d : Dev) : Nat :=
  nearest d.now (d.getSh .tal TAL.page TAL.FRZ_SEC.SEC) (d.getSh .tal TAL.page TAL.FRZ_NS.NS)

def Dev.talRules (d : Dev) : List Rule :=
  let sh (f : Field) (i : Nat) : Nat := d.getSh .tal TAL.page f i
  let arm : Bool := sh TAL.FRZ_CFG.ARM 0 == 1
  [ d.ruleRange .tal TAL.page TAL.FRZ_NS.NS 0 999999999 0xD2,
    ruleAny 4 (fun i => d.ruleRange .tal TAL.page TAL.SMP_CFG.CORE 0 4 0xD2 i),
    ruleAny 4 (fun i => d.ruleRange .tal TAL.page TAL.SMP_PERIOD.N 1 (2 ^ 32 - 1) 0xD2 i),
    (arm && d.collecting, 0xD1, TAL.FRZ_CFG.ARM.off),
    (arm && sh TAL.FRZ_CFG.TIMED 0 == 1 && decide (d.freezeTime < d.now), 0xD0, TAL.FRZ_SEC.SEC.off) ]

/-- CANCEL, then ARM; a freeze at this tick leaves out what this tick has counted from a higher source (R10); a
sampler that starts or moves counts from 0. -/
def Dev.talEffect (before d : Dev) : Dev :=
  let arm := d.flag TAL.page TAL.FRZ_CFG.ARM
  let cancel := d.flag TAL.page TAL.FRZ_CFG.CANCEL
  let timed := d.flag TAL.page TAL.FRZ_CFG.TIMED
  let d := (d.set TAL.page TAL.FRZ_CFG.ARM 0).set TAL.page TAL.FRZ_CFG.CANCEL 0
  let d := [0, 1, 2, 3].foldl (fun (d : Dev) k =>
    if before.rd TAL.page TAL.SMP_CFG.EN.off k = d.rd TAL.page TAL.SMP_CFG.EN.off k then d
    else { d with smpCount := tset (fun _ => 0) d.smpCount k 0 }) d
  let d := if cancel then d.freezeCancel else d
  if !arm then d
  else if timed then
    let t := d.freezeTime
    { d.set TAL.page TAL.SNAP_STAT.ARMED 1 with freezeAt := some t, snapLate := if t ≤ d.now then d.snapLate else [] }
  else d.freeze d.now

def Dev.commitTal (d : Dev) : Dev := d.commitBy TAL.page d.talRules Dev.talEffect

/-- FRZ_CFG, FRZ_SEC and FRZ_NS written by an accessor, and the page committed. -/
def Dev.freezeCommand (d : Dev) (acc : Accessor) (writes : List (Nat × Word)) : Dev :=
  d.asOwner acc TAL.page COM.COMMIT.GO.off
    (fun d => (writes.foldl (fun d w => d.wrShadow .tal TAL.page w.1 0 w.2) d).commitTal) (thenCommit writes)

/-- FRZ_CFG with ARM, TIMED and CANCEL. -/
def frzCfg (arm timed cancel : Bool) : Word :=
  BitVec.ofNat 32 ((if arm then 2 ^ 31 else 0) + (if timed then 2 ^ 30 else 0) + (if cancel then 2 ^ 29 else 0))

/-- R373: a TAL COMMIT with ARM. -/
def execFreezeArm (acc : Accessor) (timed : Bool) (sec : BitVec 32) (ns : BitVec 30) (s : State) :
    Host.Outcome State Fault Refusal :=
  onDev (·.freezeCommand acc [(TAL.FRZ_CFG.ARM.off, frzCfg true timed false), (TAL.FRZ_SEC.SEC.off, sec),
    (TAL.FRZ_NS.NS.off, ns.setWidth 32)]) s

/-- R374: a TAL COMMIT with CANCEL. -/
def execFreezeCancel (acc : Accessor) (s : State) : Host.Outcome State Fault Refusal :=
  onDev (fun d => d.freezeCommand acc [(TAL.FRZ_CFG.ARM.off, frzCfg false (d.flag TAL.page TAL.FRZ_CFG.TIMED) true)]) s

/-! ### Samplers (R375) -/

/-- R375: a sampled counter has counted its period, which of a core's own only the core knows; `taken`: the core has
taken the interrupt of the sample before. -/
def execSamplerFire (smp : Fin 4) (taken : Bool) (s : State) : Host.Outcome State Fault Refusal :=
  onDev (fun d =>
    let n := d.get TAL.page TAL.SMP_PERIOD.N smp
    let c := tget (fun _ => 0) d.smpCount smp
    let d := if taken then d.set TAL.page TAL.SMP_STAT.PENDING 0 smp else d
    if !d.pageUp TAL.page || !d.flag TAL.page TAL.SMP_CFG.EN smp
        || (decide (c < n) && !coreCounter (d.get TAL.page TAL.SMP_CFG.INDEX smp)) then d else
    let d : Dev := { d with smpCount := tset (fun _ => 0) d.smpCount smp (c - n) }
    if d.flag TAL.page TAL.SMP_STAT.PENDING smp then
      (d.incSat TAL.page TAL.SMP_STAT.MISSED smp).raise TAL.page TAL.INT_RAW.SMP_MISS
    else (d.set TAL.page TAL.SMP_STAT.PENDING 1 smp).emit (.coreInt (d.get TAL.page TAL.SMP_CFG.CORE smp) "sample")) s

/-! ### The flight recorder (R378 to R382) -/

abbrev logBase : Nat := 0x10000000

/-- Slots of the ring. -/
def Dev.logSlots (d : Dev) : Nat := 1048576 * 2 ^ d.get LOG.page LOG.LOG_CFG.SIZE

/-- Word 0 of a record (R379). -/
def logWord0 (r : LogRec) : Nat :=
  r.src % 1024 * 2 ^ 54 + r.typ % 64 * 2 ^ 48 + nsOf r.time % 2 ^ 30 * 2 ^ 18 + fracOf r.time * 2 ^ 2
    + (if r.untrace then 2 else 0) + (if r.late then 1 else 0)

/-- The 16 data bytes of a record. -/
def logBytes (r : LogRec) : List (BitVec 8) := bytesLE 8 (logWord0 r) ++ bytesLE 8 r.data.toNat

/-- A record lost: counted, and named by the next LOST record. -/
def Dev.logLose (d : Dev) : Dev :=
  let d : Dev := { d with logLost := d.logLost + 1 }
  (d.incSat LOG.page LOG.LOST_CNT.COUNT).raise LOG.page LOG.INT_RAW.LOST

/-- One record into the next slot. A ring with STOP_FULL stops when its last slot is filled, another wraps. -/
def Dev.logPut (d : Dev) (m : List Host.Cell) (r : LogRec) : Dev × List Host.Cell :=
  if d.flag LOG.page LOG.LOG_STAT.STOPPED then (d.logLose, m) else
  let n := d.logSlots
  let i := d.get LOG.page LOG.WR_IDX.IDX
  let m := memWrite m (logBase + 16 * i) (logBytes r)
  let next := if n ≤ i + 1 then 0 else i + 1
  let d : Dev := { d with logFill := min (d.logFill + 1) n }
  let d := d.set LOG.page LOG.WR_IDX.IDX next
  if d.flag LOG.page LOG.LOG_CFG.STOP_FULL && d.logFill == n then
    ((d.set LOG.page LOG.LOG_STAT.STOPPED 1).raise LOG.page LOG.INT_RAW.STOPPED, m)
  else
    let d := if next = 0 then (d.set LOG.page LOG.LOG_STAT.WRAPPED 1).raise LOG.page LOG.INT_RAW.WRAPPED else d
    (if d.flag LOG.page LOG.LOG_STAT.WRAPPED then d.set LOG.page LOG.OLDEST_IDX.IDX next else d, m)

/-- A record of the writer's own. -/
def Dev.writerRec (d : Dev) (time typ data : Nat) : LogRec := ⟨time, 0x028, typ, d.untrace, false, BitVec.ofNat 64 data⟩

/-- A record written, after the SECOND record of its second and a LOST record where records were discarded. -/
def Dev.logWrite (d : Dev) (m : List Host.Cell) (r : LogRec) : Dev × List Host.Cell :=
  if d.flag LOG.page LOG.LOG_STAT.STOPPED then (d.logLose, m) else
  let sec := secOf r.time
  let x := if d.logSec = some sec then (d, m) else
    let y := d.logPut m (d.writerRec r.time 0x01 sec)
    ({ y.1 with logSec := some sec }, y.2)
  let x := if x.1.logLost = 0 ∨ x.1.flag LOG.page LOG.LOG_STAT.STOPPED then x else
    let lost := x.1.logLost
    let y := x.1.logPut x.2 (x.1.writerRec r.time 0x3E (min lost (2 ^ 32 - 1)))
    ({ y.1 with logLost := 0 }, y.2)
  x.1.logPut x.2 r

/-- Whether one record is written before another (R225): by time, then by source. -/
def logBefore (a b : LogRec) : Bool := a.time < b.time || (a.time == b.time && a.src < b.src)

/-- The record to be written next: a LATE one on arrival, else the first in the order of R225. -/
def nextRecord (l : List LogRec) : Option LogRec :=
  match l.find? (·.late) with
  | some r => some r
  | none => l.foldl (fun (b : Option LogRec) r => match b with
      | none => some r
      | some x => if logBefore r x then some r else b) none

/-- R381: the next record is written once it has been held for 8 µs. -/
def execRecordWrite (s : State) : Host.Outcome State Fault Refusal :=
  onMem (fun d m =>
    match nextRecord d.logHeld with
    | none => (d, m)
    | some r =>
      if !d.released unitFelt || !d.flag LOG.page LOG.LOG_STAT.DRAM_OK || !(r.late || decide (r.time + 8000 * nsU ≤ d.now))
      then (d, m)
      else ({ d with logHeld := d.logHeld.erase r } : Dev).logWrite m r) s

/-- R382: what the writer holds is written before Felt enters reset. -/
def Dev.logFlush (d : Dev) (m : List Host.Cell) : Dev × List Host.Cell :=
  (List.range d.logHeld.length).foldl (fun (x : Dev × List Host.Cell) _ =>
    match nextRecord x.1.logHeld with
    | none => x
    | some r => ({ x.1 with logHeld := x.1.logHeld.erase r } : Dev).logWrite x.2 r) (d, m)

/-- R378: LOG_CMD.CLEAR: the ring reads 0, both indices are 0. -/
def Dev.logClear (d : Dev) : Dev :=
  let d : Dev := { d with logFill := 0, logSec := none }
  let d := (d.set LOG.page LOG.WR_IDX.IDX 0).set LOG.page LOG.OLDEST_IDX.IDX 0
  (d.set LOG.page LOG.LOG_STAT.WRAPPED 0).set LOG.page LOG.LOG_STAT.STOPPED 0

def execLogClear (acc : Accessor) (s : State) : Host.Outcome State Fault Refusal :=
  onMem (fun d m =>
    let runs := d.pageUp LOG.page && !d.pageHeld LOG.page && d.owns acc LOG.page && !(acc.isFw && d.hostHolds LOG.page)
    (d.asOwner acc LOG.page LOG.LOG_CMD.CLEAR.off Dev.logClear LOG.LOG_CMD.CLEAR.strike,
      if runs then memZero m logBase (16 * d.logSlots) else m)) s

def Dev.logRules (d : Dev) : List Rule :=
  [ (d.flag LOG.page LOG.LOG_CFG.EN && d.getSh .log LOG.page LOG.LOG_CFG.SIZE != d.get LOG.page LOG.LOG_CFG.SIZE, 0xD8,
      LOG.LOG_CFG.SIZE.off) ]

/-- A smaller ring takes the indices modulo its size (DESIGN CHOICE, log entry 26). -/
def Dev.logEffect (before d : Dev) : Dev :=
  if before.logSlots ≤ d.logSlots then d else
  let n := d.logSlots
  let d : Dev := { d with logFill := min d.logFill n }
  let d := d.set LOG.page LOG.WR_IDX.IDX (d.get LOG.page LOG.WR_IDX.IDX % n)
  d.set LOG.page LOG.OLDEST_IDX.IDX (d.get LOG.page LOG.OLDEST_IDX.IDX % n)

def Dev.commitLog (d : Dev) : Dev := d.commitBy LOG.page d.logRules Dev.logEffect

/-! ### The DRAM test and MBIST (R387, R389) -/

def Dev.drmRules (d : Dev) : List Rule := [ d.ruleRange .drm DRM.page DRM.TEST_CFG.PATTERN 0 3 ]

def Dev.commitDrm (d : Dev) : Dev := d.commitBy DRM.page d.drmRules (fun _ d => d)

/-- Whether a START is refused (R389): a test runs, or FULL outside test mode or with Felt or the cores released. -/
def Dev.testRefused (d : Dev) : Bool :=
  d.dramTest || (d.flag DRM.page DRM.TEST_CFG.FULL && !(d.testMode && !d.released unitFelt && !d.released 6))

def Dev.testStart (d : Dev) : Dev :=
  if d.testRefused then d.err DRM.page 0xDC DRM.TEST_CMD.START.off
  else { d.set DRM.page DRM.TEST_STAT.BUSY 1 with dramTest := true }

/-- R389: TEST_CMD.START. The bytes under test read as erased afterwards (DESIGN CHOICE, log entry 27). -/
def execDramTestStart (acc : Accessor) (s : State) : Host.Outcome State Fault Refusal :=
  onMem (fun d m =>
    let runs := d.pageUp DRM.page && !d.pageHeld DRM.page && d.owns acc DRM.page && !(acc.isFw && d.hostHolds DRM.page)
      && !d.testRefused
    let m := if !runs then m
      else if d.flag DRM.page DRM.TEST_CFG.FULL then memZero m 0 0x200000000 else memZero m 0x1C0000000 0x40000000
    (d.asOwner acc DRM.page DRM.TEST_CMD.START.off Dev.testStart DRM.TEST_CMD.START.strike, m)) s

/-- A test ended without a result. -/
def Dev.testAbort (d : Dev) : Dev :=
  if !d.dramTest then d else
  let d : Dev := { d with dramTest := false }
  ((d.set DRM.page DRM.TEST_STAT.BUSY 0).set DRM.page DRM.TEST_STAT.PASS 0).set DRM.page DRM.TEST_STAT.FAIL 0

def execDramTestAbort (acc : Accessor) (s : State) : Host.Outcome State Fault Refusal :=
  onDev (fun d => d.asOwner acc DRM.page DRM.TEST_CMD.ABORT.off Dev.testAbort DRM.TEST_CMD.ABORT.strike) s

/-- R389: the test completes; `errors` lines failed, `first` of them first. -/
def execDramTestDone (errors : BitVec 32) (first : BitVec 27) (s : State) : Host.Outcome State Fault Refusal :=
  onDev (fun d => d.when d.dramTest (fun d =>
    let d : Dev := { d with dramTest := false }
    let d := d.set DRM.page DRM.TEST_STAT.BUSY 0
    let d := d.setFlag DRM.page DRM.TEST_STAT.PASS (errors == 0)
    let d := d.setFlag DRM.page DRM.TEST_STAT.FAIL (errors != 0)
    let d := d.set DRM.page DRM.TEST_STAT.ERR_CNT (min errors.toNat 65535)
    let d := if errors = 0 then d else d.set DRM.page DRM.TEST_ERR.LINE first.toNat
    d.raise DRM.page DRM.INT_RAW.TEST_DONE)) s

/-- R387, R388: MBIST_RUN in test mode; a part passes with its fused repairs. Outside test mode nothing happens. -/
def execMbistRun (s : State) : Host.Outcome State Fault Refusal :=
  onDev (fun d => d.when d.testMode (·.emit (.reply "jtag" [0]))) s

end Sys2Proof.Machine
end

