-- ==== Sys2Proof/Machine/Correct.lean ====
section
/-!
DEFINITION. Machine/Correct.lean: correcting the time base (R209 to R212): the COMMIT of the TMB page, steps and sets
with what they skip.
-/
namespace Sys2Proof.Machine

/-! ### What a commit of the TMB page asks for (R209) -/

/-- INC as the shadows stand. -/
def Dev.incSh (d : Dev) : Nat :=
  d.getSh .tmb TMB.page TMB.INC_HI.INC_HI * 2 ^ 32 + d.getSh .tmb TMB.page TMB.INC_LO.INC_LO

/-- A step of STEP_NS and STEP_FRAC, in units of 2^-40 ns. -/
def Dev.stepSh (d : Dev) : Int :=
  d.getShInt .tmb TMB.page TMB.STEP_NS.NS * (nsU : Int) + (d.getSh .tmb TMB.page TMB.STEP_FRAC.FRAC * 2 ^ 24 : Nat)

/-- The absolute value of a set. -/
def Dev.setSh_ (d : Dev) : Nat :=
  mkTime (d.getSh .tmb TMB.page TMB.SET_SEC_HI.SEC_HI * 2 ^ 32 + d.getSh .tmb TMB.page TMB.SET_SEC_LO.SEC_LO)
    (d.getSh .tmb TMB.page TMB.SET_NS.NS) (d.getSh .tmb TMB.page TMB.SET_FRAC.FRAC)

/-- Whether the standby refuses an accessor's change of the time base (R289): its own firmware's are accepted. -/
def Dev.twinTimeRefused (d : Dev) (acc : Accessor) : Bool :=
  d.copied 4 && !acc.isFw && (d.incSh != d.inc || d.getSh .tmb TMB.page TMB.STEP_FRAC.STEP_EN == 1
    || d.getSh .tmb TMB.page TMB.SET_SEC_HI.SET_EN == 1 || d.getSh .tmb TMB.page TMB.SLEW_ADD.NS != 0)

/-- The rules of R209, with the ranges of R399. -/
def Dev.tmbRules (d : Dev) (acc : Accessor) : List Rule :=
  let step : Bool := d.getSh .tmb TMB.page TMB.STEP_FRAC.STEP_EN == 1
  let set : Bool := d.getSh .tmb TMB.page TMB.SET_SEC_HI.SET_EN == 1
  [ (d.twinTimeRefused acc, 0x0F, TMB.INC_LO.INC_LO.off),
    d.ruleRange .tmb TMB.page TMB.TMB_CFG.SLEW_RATE 1 65535, d.ruleRange .tmb TMB.page TMB.SET_NS.NS 0 999999999,
    (decide (incNom < ((d.incSh : Int) - incNom).natAbs * 1000), 0x50, TMB.INC_LO.INC_LO.off),
    (set && decide (d.setSh_ < d.now), 0x51, TMB.SET_SEC_HI.SET_EN.off),
    (step && (set || d.negOn), 0x52, TMB.STEP_FRAC.STEP_EN.off),
    (decide (d.getShInt .tmb TMB.page TMB.STEP_NS.NS < -1000000000), 0x53, TMB.STEP_NS.NS.off) ]

/-! ### Steps and sets (R210, R212) -/

/-- A step or a set counted and recorded: an amount in 2^-16 ns. -/
def Dev.stepNoted (d : Dev) (set : Bool) (amount : Int) : Dev :=
  let d := (d.incWrap TMB.page TMB.TMB_STAT.STEP_CNT).count 0xD20
  d.record 0x000 0x0B ((if set then 2 ^ 63 else 0) + toField 63 (amount / 2 ^ 24))

/-- A cycle end of the Doublet that a jump has skipped; how much of what waits fits into its copy, and the sizes, no
command says here (free values, log entry 23). -/
def Dev.cycleSkipped (d : Dev) : Dev :=
  d.when d.cycleDue (fun d =>
    let (fit, d) := d.free
    let (kib, d) := d.free
    let (backlog, d) := d.free
    d.cycleEnd fit kib backlog)

/-- A freeze at the tick of a jump: one that falls due on it, the one already taken on this tick too, is taken at the
time after the step (R212, R225), one that was due earlier at its own. -/
def Dev.freezeSkipped (d : Dev) (was : Nat) : Dev :=
  match d.freezeAt with
  | some t =>
    let at_ := if was < t + d.rate then d.now else t
    if d.collecting then { d with freezeAt := some at_ } else if t ≤ d.now then d.freeze at_ else d
  | none => d

/-- What a jump of the time base does beside moving it (STEP_SKIP_HANDLING, R212), in the order of the sources (R33):
outputs and measurements see the step; a cycle end of the Doublet that was skipped comes; stream gates enter the entry
in which they would stand; the shapers take the time as elapsed; launch table entries and a freeze that were skipped
take effect; swaps take effect, gate control lists enter the entry in which they would stand, launches that are past
are late. `was` is the time before. -/
def Dev.skipped (d : Dev) (was by_ : Nat) : Dev :=
  let d := (d.outsStep by_ by_).measStepped.cycleSkipped
  let d := (d.gates.map Prod.fst).foldl (fun (d : Dev) g => d.setGateRun g (d.gateNow g d.now)) d
  let d := ((d.shaperTime by_).instantsCome).freezeSkipped was
  (List.range 48).foldl (fun (d : Dev) p => ((d.applySwap p).refreshGcl p).lateLaunches p) d

/-- A positive step or a set: the amount is added at this tick; Felt's reading of the time moves with it, since the
shapers take the skip here. -/
def Dev.jump (d : Dev) (set : Bool) (by_ : Nat) : Dev :=
  let was := d.now
  let d : Dev := d.outsSettle
  let d : Dev := { d with now := (d.now + by_) % timeWrap, felt := d.felt + by_ }
  let d := (d.stepNoted set by_).skipped was by_
  if set then d else d.raise TMB.page TMB.INT_RAW.STEP_DONE

/-- A negative step: nothing is taken back, the deficit is withheld tick by tick. -/
def Dev.absorb (d : Dev) (by_ : Nat) : Dev :=
  let d : Dev := d.outsSettle
  let d : Dev := { d with deficit := by_, negOn := true }
  ((d.refreshTime.stepNoted false (-(by_ : Int))).outsStep (-(by_ : Int)) 0).measStepped

/-- The changes of R209 in order: SET, STEP, INC, SLEW_ADD; the first INC commit after a bridge ends HO_CORR (R244). -/
def Dev.tmbEffect (before d : Dev) : Dev :=
  let d := (d.set TMB.page TMB.SET_SEC_HI.SET_EN 0).set TMB.page TMB.STEP_FRAC.STEP_EN 0
  let d := d.set TMB.page TMB.SLEW_ADD.NS 0
  let d := if before.getSh .tmb TMB.page TMB.SET_SEC_HI.SET_EN == 1 then d.jump true (before.setSh_ - before.now) else d
  let step := before.stepSh
  let d := if before.getSh .tmb TMB.page TMB.STEP_FRAC.STEP_EN != 1 then d
    else if 0 ≤ step then d.jump false step.toNat else d.absorb step.natAbs
  let d := if before.inc != d.inc then
      let d := if d.hoBridge then { d.set REF.page REF.HO_CORR.CORR 0 with hoBridge := false } else d
      d.checkPpm
    else d
  let add := before.getShInt .tmb TMB.page TMB.SLEW_ADD.NS
  if add = 0 then d else d.addSlew (add * (nsU : Int))

def Dev.commitTmb (d : Dev) (acc : Accessor) : Dev := d.commitBy TMB.page (d.tmbRules acc) Dev.tmbEffect

/-- Registers of the TMB page written by an accessor, and the page committed. -/
def Dev.timeCommand (d : Dev) (acc : Accessor) (writes : List (Nat × Word)) : Dev :=
  d.asOwner acc TMB.page COM.COMMIT.GO.off
    (fun d => (writes.foldl (fun d w => d.wrShadow .tmb TMB.page w.1 0 w.2) d).commitTmb acc) (thenCommit writes)

/-- R210: a TMB COMMIT with STEP_EN. -/
def execTimeStep (acc : Accessor) (ns frac : BitVec 32) (s : State) : Host.Outcome State Fault Refusal :=
  onDev (·.timeCommand acc [(TMB.STEP_NS.NS.off, ns), (TMB.STEP_FRAC.FRAC.off, frac ||| TMB.STEP_FRAC.STEP_EN.mask)]) s

/-- R209: a TMB COMMIT with SET_EN. -/
def execTimeSet (acc : Accessor) (secHi : BitVec 16) (secLo : BitVec 32) (ns : BitVec 30) (frac : BitVec 16) (s : State) :
    Host.Outcome State Fault Refusal :=
  onDev (·.timeCommand acc [(TMB.SET_SEC_HI.SEC_HI.off, secHi.setWidth 32 ||| TMB.SET_SEC_HI.SET_EN.mask),
    (TMB.SET_SEC_LO.SEC_LO.off, secLo), (TMB.SET_NS.NS.off, ns.setWidth 32), (TMB.SET_FRAC.FRAC.off, frac.setWidth 32)]) s

end Sys2Proof.Machine
end

