-- ==== Sys2Proof/Machine/Host.lean ====
section
/-!
DEFINITION. Machine/Host.lean: the PCIe endpoint's DMA frame rings (R328 to R336), and the Crown bus: trips, templates
and launches (R338 to R344, R203). Host memory is the host's: what a command reads of it stands in the command, what the
device writes there leaves as an output.
-/
namespace Sys2Proof.Machine

/-! ### Rings (R333) -/

/-- The speed and the width of the link: what the endpoint supports of what is offered (R328). -/
def pcieSpeed (n : Nat) : Nat := max 1 (min n 4)
def pcieWidth (n : Nat) : Nat := if 4 ≤ n then 4 else if 2 ≤ n then 2 else 1

/-- Whether a ring takes descriptors: enabled, not stopped, function 0 not in D3hot, the island running. -/
def Dev.ringRuns (d : Dev) (r : Nat) : Bool :=
  d.pageUp PCI.page && d.flag PCI.page PCI.RING_CFG.ENABLE r && !d.flag PCI.page PCI.RING_STAT.ERR r
    && !tget (fun _ => false) d.pciD3 0 && d.xing 52 == 0

/-- Descriptors the device owns, from HEAD up to TAIL. -/
def Dev.ringOwned (d : Dev) (r : Nat) : Nat :=
  (d.ringTail r + d.ringSize r - d.ringHead r % d.ringSize r) % d.ringSize r

/-- R333: a write of RING_DB hands descriptors over. -/
def execRingDoorbell (acc : Accessor) (ring : Fin 16) (tail : BitVec 16) (s : State) : Host.Outcome State Fault Refusal :=
  onDev (fun d =>
    let f := PCI.RING_DB.TAIL.nth ring
    d.asOwner acc PCI.page f.off (·.set PCI.page f tail.toNat) [(f.off, tail.setWidth 32)]) s

/-- R332: COAL_US after the first unsignalled write-back. -/
def execCoalesceTimer (ring : Fin 16) (s : State) : Host.Outcome State Fault Refusal :=
  onDev (fun d =>
    match (d.ring ring).since with
    | some t => d.when (d.pageUp PCI.page && decide (t + d.get PCI.page PCI.RING_CFG.COAL_US ring * 1000 * nsU ≤ d.now))
        (·.ringVector ring)
    | none => d) s

/-- The STATUS a descriptor takes before its frame enters: 3 invalid, 2 length out of range (R334). -/
def Dev.txDescBad (d : Dev) (ring : Nat) (w1 : Data) : Option Nat :=
  let direct := bitOf w1 45
  if (direct && (ring == 7 || decide (47 < bitsOf w1 44 39))) || (bitOf w1 46 && ring != 6) then some 3
  else if bitsOf w1 63 50 < 60 ∨ d.bufSize 3 - 4 < bitsOf w1 63 50 then some 2
  else none

/-- What a transmit request's words ask for beside its class (R334). -/
def txReq (cls : Nat) (w1 w2 : Data) (direct launch : Bool) : InReq :=
  ⟨some cls, if direct then some (bitsOf w1 44 39) else none, if launch then some (bitsOf w2 63 32, bitsOf w2 29 0) else none,
    bitsOf w1 31 16, bitOf w1 48, bitOf w1 47⟩

/-- A frame of EP48 or EP49 enters the pipeline, stamped as it crosses into Felt (R221); one with an uncorrectable
word is discarded there (R65). -/
def Dev.txEnter (d : Dev) (ep src : Nat) (bytes : List (BitVec 8)) (req : InReq) (errs : WordErrors) : Dev :=
  let d := d.wordErrors errs
  if errs.bad then d else
  let (d, r) := d.ingress ep bytes true false false ⟨softStamp d.now, src, false, d.untrace⟩ req
  let k := rxKey ep false
  (d.setRx k (some r)).rxFinish ep k .good true

/-- A frame of a host ring: its descriptor is written back once the frame holds a buffer or has been refused (R334).
The number the frame takes is the device's next one. -/
def Dev.ringTransmit (d : Dev) (ring : Nat) (w1 w2 : Data) (bytes : List (BitVec 8)) (errs : WordErrors) : Dev :=
  if !d.ringRuns ring || decide (d.ringOwned ring ≤ d.txPending ring) || (d.bpOf 48).testBit ring || !d.released unitFelt then d
  else match d.txDescBad ring w1 with
    | some st => d.txTake ring st w1
    | none =>
      if bytes.length ≠ bitsOf w1 63 50 then d else
      let n := d.nextFrame
      let d := (d.txPut ring (some n) 1 w1).txEnter 48 0x032 bytes (txReq ring w1 w2 (bitOf w1 45) (bitOf w1 46)) errs
      let d := if d.nextFrame = n then d.txNoFrame n else d
      (d.count (0xF60 + ring)).txSettle

/-- A firmware transmit request that names a class (R87): while back-pressure holds its class at EP49 the firmware
transmit queue reports full and nothing is taken (R138). Its launch time counts in class 6 only (R169). -/
def Dev.firmwareTransmit (d : Dev) (cls : Nat) (w1 w2 : Data) (bytes : List (BitVec 8)) (errs : WordErrors) : Dev :=
  if !d.fwRuns || !d.released 6 || d.xing 54 != 0 || (d.bpOf 49).testBit cls || !d.released unitFelt
      || bytes.length != bitsOf w1 63 50 then d
  else d.txEnter 49 0x034 bytes (txReq cls w1 w2 false (bitOf w1 46 && cls == 6)) errs

/-- What is parsed of a frame of the management lane, which has no lookup and no profile: all of R89 but redundancy
tags (DESIGN CHOICE, log entry 143). -/
def mlProfile : Profile := ⟨1, 0, true, true, true, true, false, false, false, false⟩

/-- A frame that firmware sends on the management lane (R337): no lookup and no queue; an event message that asks for
it takes the one-step treatment (R218), its stamp goes to ML's FIFO where it is asked for or the message has no room
(R223). A loop-back brings it back as received (R60). -/
def Dev.mlTransmit (d : Dev) (w1 : Data) (bytes : List (BitVec 8)) : Dev :=
  if !d.fwRuns || !d.released 6 || d.laneState 50 != laneUp || bytes.length != bitsOf w1 63 50 then d else
  let first := d.now + 64 * nsU / rateGbit (d.rateAct 50)
  let soft := d.isSoft 50
  let stamp := if soft then softStamp first else d.txStampAt 50 first
  let d := (d.countFrame 50 8 1 stamp).countFrame 50 9 (bytes.length + 4) stamp
  let x := parseFrame mlProfile bytes true
  let oneStep := bitOf w1 47 && d.flag (TSU.page 48) TSU.TSU_CFG.ONE_STEP_EN && x.ptp != 0 && decide (x.ptpType ≤ 3)
  let (bytes, noRoom) := if oneStep then ptpOneStep bytes x.ptp x.ptpOfs stamp else (bytes, false)
  let d := d.when noRoom (·.tcSkipOn 48 50)
  let mode := d.get (LNK.page 50) LNK.LOOP_CFG.MODE
  let d := d.when (bitOf w1 48 && decide (mode < 6)) (·.txfPush 48 (bitsOf w1 31 16) stamp soft d.untrace)
  let d := d.when (noRoom && decide (mode < 6)) (·.txfPush 48 (bitsOf w1 31 16) stamp soft d.untrace)
  if mode = 0 then d.emit (.frame 50 0 (bytes.length + 4) bytes false stamp)
  else if mode ≤ 5 then
    let (k, d) := d.free
    d.mlArrive bytes (some ⟨.good, 1⟩) (d.portStamp 50 ⟨0, BitVec.ofNat 16 k, 0⟩)
  else d

/-- R334: a transmit request is taken: `w1`, `w2` are the words of its descriptor and `bytes` the frame without FCS,
as host or firmware memory holds them. -/
def execTxDescriptorProcess (source : TxSource) (w1 w2 : BitVec 64) (bytes : List (BitVec 8)) (errs : WordErrors) (s : State) :
    Host.Outcome State Fault Refusal :=
  onDev (fun d =>
    match source with
    | .ring n => d.ringTransmit n w1 w2 bytes errs
    | .firmware cls => d.firmwareTransmit cls w1 w2 bytes errs
    | .ml => d.mlTransmit w1 bytes) s

/-- A frame cut into the posted buffers: the descriptors it needs, each with its bytes; none when they do not suffice.
-/
def splitFrame : List (BitVec 8) → List (Data × Data) → Option (List (Data × Data × List (BitVec 8)))
  | [], _ => some []
  | _ :: _, [] => none
  | b :: bs, (w0, w1) :: rest =>
    let n := bitsOf w1 63 50
    (splitFrame ((b :: bs).drop n) rest).map (fun l => (w0, w1, (b :: bs).take n) :: l)

/-- R335: the frame EP48 sends is written across the posted descriptors; `descs` are words 0 and 1 of the descriptors
from HEAD on. Stamp and handle stand in the first one. -/
def execRxFrameToHost (descs : List (BitVec 64 × BitVec 64)) (errs : WordErrors) (s : State) : Host.Outcome State Fault Refusal :=
  onDev (fun d =>
    match (d.output 48).tx with
    | none => d
    | some t =>
      match d.frame t.frame with
      | none => d
      | some f =>
        let ring := 8 + t.tc
        let bytes := d.outBytes f 48 f.hdr
        if !f.ended || !d.ringRuns ring then d else
        match splitFrame bytes (descs.take (d.ringOwned ring)) with
        | none => d
        | some parts =>
          let last := parts.length - 1
          let reason := match f.reasons.find? (fun x => x.2 == 48) with | some x => x.1 | none => 0
          let head := d.ringHead ring
          let d := ((List.range parts.length).zip parts).foldl (fun (d : Dev) x =>
            let (i, w0, _, bs) := x
            let w1 := bs.length % 2 ^ 14 * 2 ^ 50 + (if i = last then 2 ^ 48 else 0) + (if i = 0 then 2 ^ 47 else 0)
              + f.input % 64 * 2 ^ 41 + reason % 16 * 2 ^ 37
            let w2 := if i = 0 then (stampWord f.stamp f.untrace f.src).toNat else 0
            let w3 := if i = 0 then (match f.handle with | some h => 2 ^ 14 + h % 2 ^ 14 | none => 0) else 0
            let d := d.emit (.hostMem w0.toNat bs)
            d.emit (.hostMem (d.ringBase ring + 32 * ((head + i) % d.ringSize ring) + 8)
              (bytesLE 8 w1 ++ bytesLE 8 w2 ++ bytesLE 8 w3))) d
          ((d.count (0xF60 + ring)).ringAdvance ring parts.length).txDone 48 errs) s

/-- R336: an access to host memory fails: the ring stops. `desc` is word 1 of a transmit descriptor whose frame could
not be read and which could still be written back, with STATUS 4. -/
def execDmaError (ring : Fin 16) (cause : Fin 4) (index : BitVec 16) (desc : Option (BitVec 64)) (s : State) :
    Host.Outcome State Fault Refusal :=
  onDev (fun d => d.when (d.ringRuns ring) (fun d =>
    let d := match desc with
      | some w1 => if ring.val < 8 ∧ d.txPending ring < d.ringOwned ring then d.txTake ring 4 w1 else d
      | none => d
    let p := PCI.page
    let d := (d.set p PCI.RING_STAT.ERR 1 ring).set p PCI.DMA_ERR.RING ring
    let d := (d.set p PCI.DMA_ERR.CAUSE cause).set p PCI.DMA_ERR.INDEX index.toNat
    ((d.err p 0xA2 PCI.DMA_ERR.INDEX.off).raise p PCI.INT_RAW.RING_ERR).count 0xF70)) s

def Dev.pciRules (d : Dev) : List Rule :=
  let p := PCI.page
  let changed (f : Field) (i : Nat) : Bool := d.getSh .pci p f i != d.get p f i
  [ ruleAny 16 (fun i => d.ruleRange .pci p PCI.RING_CFG.SIZE 6 16 0xA1 i),
    ruleAny 16 (fun i => d.ruleRange .pci p PCI.RING_CFG.COAL_CNT 1 65535 0xA1 i),
    ruleAny 16 (fun i => (d.flag p PCI.RING_CFG.ENABLE i && (changed PCI.RING_CFG.SIZE i || changed PCI.RING_BASE_LO.BASE_LO i
      || changed PCI.RING_BASE_HI.BASE_HI i), 0xA0, PCI.RING_CFG.SIZE.off)) ]

/-- A ring that is enabled starts with HEAD and TAIL 0 and without its error (R336); what it had taken before is written
back where it stands. -/
def Dev.pciEffect (before d : Dev) : Dev :=
  (List.range 16).foldl (fun d r =>
    if d.flag PCI.page PCI.RING_CFG.ENABLE r && !before.flag PCI.page PCI.RING_CFG.ENABLE r then
      let d : Dev := { d with txWait := d.txWait.map (fun w => if w.ring = r then { w with ring := 16 } else w) }
      let d := (d.set PCI.page PCI.RING_STAT.HEAD 0 r).set PCI.page PCI.RING_STAT.ERR 0 r
      (d.set PCI.page (PCI.RING_DB.TAIL.nth r) 0).setRing r ring0
    else d) d

def Dev.commitPci (d : Dev) : Dev := d.commitBy PCI.page d.pciRules Dev.pciEffect

/-- What a function of the endpoint presents (R328, R329, R332): device ID, class code, the sizes of BAR0/1 (W0) and
BAR2/3 (W2), and its MSI-X vectors. -/
structure PciFunction where
  device : Nat
  classCode : Nat
  w0Size : Nat
  w2Size : Nat
  vectors : Nat

def pciFunction (fn : Fin 2) : PciFunction :=
  if fn = 0 then ⟨0x4896, 0x028000, 2 ^ 26, 2 ^ 30, 18⟩ else ⟨0x4897, 0x088000, 2 ^ 26, 2 ^ 30, 1⟩

/-- R328: the PCIe link trains or goes down; a link that trains finds its functions in D0. The link is Gen1 to Gen4 on
1, 2 or 4 lanes whatever the partner offers beyond. -/
def execPcieLinkChange (up : Bool) (speed width : BitVec 3) (s : State) : Host.Outcome State Fault Refusal :=
  onDev (fun d => d.when (d.pageUp PCI.page) (fun d =>
    let d := d.setFlag PCI.page PCI.PCI_STAT.LINK_UP up
    let d := d.set PCI.page PCI.PCI_STAT.SPEED (if up then pcieSpeed speed.toNat else 0)
    let d := d.set PCI.page PCI.PCI_STAT.WIDTH (if up then pcieWidth width.toNat else 0)
    let d : Dev := if up then { d with pciD3 := [] } else d
    d.raise PCI.page PCI.INT_RAW.LINK_CHG)) s

/-- R328: the host moves a function to D3hot, which stops its DMA and changes nothing else, or back to D0. -/
def execD3hotEntry (fn : Fin 2) (hot : Bool) (s : State) : Host.Outcome State Fault Refusal :=
  onDev (fun d => d.when (d.pageUp PCI.page) (fun d => { d with pciD3 := tset (fun _ => false) d.pciD3 fn hot })) s

/-! ### The Crown bus (R338 to R343) -/

/-- Whether the device answers the Crown bus: its island out of reset and CRN_CFG.ENABLE. -/
def Dev.crownOn (d : Dev) : Bool := d.pageUp CRN.page && d.flag CRN.page CRN.CRN_CFG.ENABLE

def Dev.setCrown (d : Dev) (f : Crown → Crown) : Dev := { d with crown := f d.crown }

/-- What a read of the fast window finds at a word address (R341): the capture registers as the last read of CAP_NS
latched them, and the mirror of links, references and trips. -/
def Dev.crownFast (d : Dev) (addr : Nat) : Nat :=
  let c := d.cap
  let flags (l : List (Bool × Nat)) : Nat := (l.map (fun x => if x.1 then 2 ^ x.2 else 0)).sum
  let up (lo n : Nat) : List (Bool × Nat) :=
    (List.range n).map (fun i => (d.flag (PRT.page (lo + i)) PRT.PORT_STAT.LINK_UP, i))
  let trips (n : Nat) : Nat := ((List.range 4).map (fun k => tget (fun _ => 0) d.tripCnt (4 * n + k) * 2 ^ (8 * k))).sum
  if addr = 0x000 then flags [(c.untrace, 31), (c.overrun, 30)] + nsOf c.time
  else if addr = 0x001 then c.latchedSeq * 2 ^ 24 + fracOf c.latchedTime
  else if addr = 0x002 then secOf c.latchedTime % 2 ^ 32
  else if addr = 0x003 then secOf c.latchedTime / 2 ^ 32 % 2 ^ 16
  else if addr = 0x004 then d.get CRN.page CRN.TRIP_FLAGS.FLAGS
  else if addr = 0x005 then flags (up 0 32)
  else if addr = 0x006 then
    flags (up 32 16 ++ [(d.flag DBL.page DBL.DBL_STAT.DL0_UP, 16), (d.flag DBL.page DBL.DBL_STAT.DL1_UP, 17),
      (linkStates (d.laneState 50), 18), (d.flag DBL.page DBL.DBL_STAT.OWNER, 19), (d.flag DBL.page DBL.DBL_STAT.HB_OK, 20)])
  else if addr = 0x007 then
    d.get REF.page REF.REF_STAT.STATE * 2 ^ 29 + d.get REF.page REF.REF_STAT.SELECTED % 16
      + flags [(d.flag REF.page REF.REF_STAT.SWITCHING, 28), (d.flag REF.page REF.REF_STAT.HO_READY, 27),
        (d.flag REF.page REF.REF_STAT.SEL_VALID, 26), (d.flag TMB.page TMB.TMB_STAT.TRACEABLE, 25),
        (d.flag TMB.page TMB.TMB_STAT.BACKUP, 24), (d.flag FAB.page FAB.PACE_STAT.UNDER, 23)]
  else if addr = 0x008 then
    d.crown.accepted % 2 ^ 16 * 2 ^ 16 + d.crown.refused % 256 * 2 ^ 8 + d.crown.cause % 4 * 2 ^ 6 + d.crown.last % 64
  else if 0x009 ≤ addr ∧ addr ≤ 0x010 then trips (addr - 0x009)
  else if addr = 0x03E then d.get CRN.page CRN.CTL_MSG.DATA
  else if addr = 0x03F then d.get CRN.page CRN.HOST_MSG.DATA
  else if addr = 0x080 then d.crown.pageSel % 2 ^ 16
  else 0

/-- R226, R339, R341: a read of CAP_NS: seconds, fraction and sequence of the same capture are latched and OVERRUN is
cleared. The reply holds the words that reads of every fast address, 0x000 to 0x0FF, find from this edge on, CAP_NS as
this read finds it first (DEDUCED, log entry 129). -/
def execCapNsRead (s : State) : Host.Outcome State Fault Refusal :=
  onDev (fun d => d.when d.crownOn (fun d =>
    let ns := d.crownFast 0x000
    let c := d.cap
    let d : Dev := { d with cap := { c with overrun := false, latchedTime := c.time, latchedSeq := c.seq } }
    d.emit (.reply "crown" (ns :: (List.range 255).map (fun i => d.crownFast (i + 1)))))) s

/-- R342: W1C of TRIP; a flag that sets at the same edge (`setting`) stays. -/
def execCrownTripClear (bits setting : BitVec 32) (s : State) : Host.Outcome State Fault Refusal :=
  onDev (fun d => d.when d.crownOn (fun d =>
    let off := CRN.TRIP_FLAGS.FLAGS.off
    d.wr CRN.page off (d.rd CRN.page off &&& ~~~(bits &&& ~~~setting)))) s

/-- R338: an access with both enables low. -/
def execCrownBadAccess (s : State) : Host.Outcome State Fault Refusal :=
  onDev (fun d => d.when d.crownOn (fun d => (d.incSat CRN.page CRN.CRN_STAT.BAD_CNT).count 0xF82)) s

/-- R341: the controller's word. -/
def execCtlMsgWrite (value : BitVec 32) (s : State) : Host.Outcome State Fault Refusal :=
  onDev (fun d => d.when d.crownOn (fun d =>
    (d.set CRN.page CRN.CTL_MSG.DATA value.toNat).raise CRN.page CRN.INT_RAW.CTL_MSG)) s

/-! ### Templates and launches (R343, R344, R203) -/

/-- The native words of a template, or of its shadow. -/
def Dev.template (d : Dev) (t w : Nat) : Data := d.lookupWord .template t w
def Dev.templateShadow (d : Dev) (t w : Nat) : Data :=
  tget (fun _ => d.template t w) d.tabShadow (tkey .template t w)

/-- A template's frame without FCS, with its parameter bytes replaced. -/
def Dev.templateBytes (d : Dev) (t : Nat) (param : Word) : List (BitVec 8) :=
  let w0 := d.template t 0
  let bytes := (((List.range 32).map (fun i => bytesBE 8 (d.template t (2 + i)).toNat)).flatten).take (bitsOf w0 62 54 - 4)
  if bitOf w0 39 then
    let o := bitsOf w0 38 31
    bytes.take o ++ bytesBE 4 param.toNat ++ bytes.drop (o + 4)
  else bytes

/-- A valid stream filter of class 7 with a meter (R111). -/
def Dev.tc7Filter (d : Dev) (h : Nat) : Bool :=
  let w := d.lookupWord .filter h
  bitOf w 63 && bitOf w 62 && bitsOf w 61 59 == 7

/-- A launch turned away: counted, with its cause. -/
def Dev.launchRefused (d : Dev) (t cause : Nat) : Dev :=
  let d := d.setCrown (fun c => { c with refused := (c.refused + 1) % 256, cause := cause, last := t })
  ((d.incWrap CRN.page CRN.LAUNCH_STAT.REFUSED).raise CRN.page CRN.INT_RAW.LAUNCH_REFUSED).count 0xF81

/-- R343: a write to LAUNCHn. -/
def execTemplateLaunch (tpl : Fin 64) (data : BitVec 32) (s : State) : Host.Outcome State Fault Refusal :=
  onDev (fun d => d.when d.crownOn (fun d =>
    let d := d.seenWords .template tpl 34
    let w0 := d.template tpl 0
    let filter := bitsOf w0 53 40
    if !bitOf w0 63 || !d.tc7Filter filter then d.launchRefused tpl 1
    else if decide (16 ≤ d.crown.launches.length) || d.xing 55 != 0 then d.launchRefused tpl 2
    else
      let l : Launch := ⟨d.templateBytes tpl data, filter, bitsOf (d.template tpl 1) 47 0, softStamp d.now, d.untrace⟩
      let d := d.setCrown (fun c => { c with launches := c.launches ++ [l] })
      let d := d.setCrown (fun c => { c with accepted := (c.accepted + 1) % 65536, last := tpl })
      (d.incWrap CRN.page CRN.LAUNCH_STAT.ACCEPTED).count 0xF80)) s

/-- The frame of a launch as the filter, meter and TC7 steps see it. It comes from no endpoint: 0x3C, its buffer's
owner (R122), stands for its input, so its VOQs are numbered 24,000 and up, beyond those of R8 (DESIGN CHOICE, log
entry 140). -/
def Dev.launchCtx (d : Dev) (l : Launch) : Ctx :=
  let prof := d.profile 0
  { input := 0x3C, p := parseFrame prof l.bytes true, prof := prof, len := l.bytes.length + 4, whole := true
    req := noReq, test := false, down := false, vid := 0, pcp := 0, dei := false, fid := 0, members := 0, untag := 0
    dests := maskEps l.dest, local_ := false, fixed := true, punt7 := false, punt8 := false
    esmc := false, proto := none, handle := some l.filter, aclTc := none, filterTc := some 7, ipv := none, pre := 0
    colour := 0, meter := none, gate := none, filter := some l.filter, maxSdu := 0 }

/-- R203: the oldest launch crosses into Felt: metered as a received TC7 frame, given a reserve buffer, queued. One that
is not green is dropped with cause 3; one with an uncorrectable word is discarded (R65). -/
def execTemplateLaunchDequeue (errs : WordErrors) (s : State) : Host.Outcome State Fault Refusal :=
  onDev (fun d =>
    match d.crown.launches with
    | [] => d
    | l :: rest =>
      if d.xing 55 ≠ 0 ∨ d.released unitFelt = false then d else
      let d := (d.setCrown (fun c => { c with launches := rest })).wordErrors errs
      if errs.bad then d else
      match stepMeter d (d.launchCtx l) with
      | .drop d _ => d.setCrown (fun c => { c with cause := 3 })
      | .go d c =>
        match stepTc7 d c with
        | .drop d _ => d
        | .go d c =>
          if c.dests.isEmpty then d.count 0x677 else
          let f := d.newFrame c l.bytes ⟨l.stamp, 0x031, false, l.untrace⟩ [] none false
          let n := d.nextFrame
          let d : Dev := { d.setFrame n (some f) with nextFrame := n + 1 }
          let d := c.dests.foldl (fun d e => if e < 48 then d.wake e else d) d
          d.allocate n) s

/-- R344: READ live. -/
def execCrnReadLive (acc : Accessor) (s : State) : Host.Outcome State Fault Refusal :=
  onDev (fun d => d.asAny acc CRN.page (fun d =>
    let t := winIndex d crnWin acc
    if 33 < winWord d crnWin acc then d.winResult crnWin acc 4
    else d.winCapture crnWin acc ((List.range 34).map (fun w => d.stored .template t w))) [(crnWin.result.off, 1)]) s

/-- R344: READ shadow. -/
def execCrnReadShadow (acc : Accessor) (s : State) : Host.Outcome State Fault Refusal :=
  onDev (fun d => d.asAny acc CRN.page (fun d =>
    let t := winIndex d crnWin acc
    if 33 < winWord d crnWin acc then d.winResult crnWin acc 4
    else d.winCapture crnWin acc ((List.range 34).map (fun w => encodeNative (d.templateShadow t w)))) [(crnWin.result.off, 3)]) s

/-- Whether word 0 of a valid template breaks R344: LEN 64 to 256, PARAM_OFS at most LEN − 8. -/
def templateBad (w0 : Data) : Bool :=
  let len := bitsOf w0 62 54
  bitOf w0 63 && (decide (len < 64) || decide (256 < len) || (bitOf w0 39 && decide (len - 8 < bitsOf w0 38 31)))

/-- R344: WRITE shadow: one word of the template's shadow. -/
def execCrnWriteShadow (acc : Accessor) (s : State) : Host.Outcome State Fault Refusal :=
  onDev (fun d => d.asOwner acc CRN.page CRN.ENTRY_CMD.OP.off (fun d =>
    let t := winIndex d crnWin acc
    let w := winWord d crnWin acc
    let v := winData d crnWin acc &&& tableMask .template w
    if 33 < w ∨ (w = 0 ∧ templateBad v = true) then d.winResult crnWin acc 4 else
    let sh := tset (fun _ => d.template t w) d.tabShadow (tkey .template t w) v
    ({ d with tabShadow := sh } : Dev).winResult crnWin acc 0) [(CRN.ENTRY_CMD.OP.off, 2)]) s

/-- A template's shadow made live. -/
def Dev.publish (d : Dev) (t : Nat) : Dev :=
  let d := (List.range 34).foldl (fun (d : Dev) w => d.setEntry .template t (d.templateShadow t w) w) d
  ({ d with tabShadow := tkeep (fun k => k / 64 != tkey .template t 0 / 64) d.tabShadow } : Dev).writeImage CRN.page

/-- R344: PUBLISH. -/
def execCrnPublish (acc : Accessor) (s : State) : Host.Outcome State Fault Refusal :=
  onDev (fun d => d.asOwner acc CRN.page CRN.ENTRY_CMD.OP.off
    (fun d => (d.publish (winIndex d crnWin acc)).winResult crnWin acc 0) [(CRN.ENTRY_CMD.OP.off, 4)]) s

def Dev.crnRules (d : Dev) : List Rule := [ d.ruleRange .crn CRN.page CRN.CRN_CFG.WAIT_MAX 0 4 0xB2 ]
def Dev.commitCrn (d : Dev) : Dev := d.commitBy CRN.page d.crnRules (fun _ d => d)

end Sys2Proof.Machine
end

