-- ==== Sys2Proof/Machine/Options.lean ====
section
/-!
DEFINITION. Machine/Options.lean: the option store (R362 to R366): loading an image, its records and trims, writing an
image; and the holdover model that firmware fits and stores (R246).
-/
namespace Sys2Proof.Machine

/-! ### Records (R363) -/

def recPage (r : Data) : Nat := bitsOf r 63 48
def recOff (r : Data) : Nat := bitsOf r 47 36
def recKind (r : Data) : Nat := bitsOf r 35 32
def recValue (r : Data) : Word := r.truncate 32
def mkRec (page off kind : Nat) (v : Word) : Data :=
  BitVec.ofNat 64 (page % 2 ^ 16 * 2 ^ 48 + off % 2 ^ 12 * 2 ^ 36 + kind % 16 * 2 ^ 32 + v.toNat)

/-- The INT_RAW bits that a page type has. -/
def rawMask (t : PageType) : Word := (fieldsAt t 0x10).foldl (fun w f => w ||| f.mask) 0

/-- The SH and RW bits of a register, those of the common part among them (R394). -/
def configMask (t : PageType) (off : Nat) : Word :=
  if off = 8 then COM.CTRL.OWNER.mask
  else if off = 0x14 then rawMask t
  else ((fieldsAt t off).filter (fun f => f.acc == .sh || f.acc == .rw)).foldl (fun w f => w ||| f.mask) 0

/-- The bits of a register that a record sets: no record enables a DMA ring, which only the host does (R331). -/
def recMask (t : PageType) (off : Nat) : Word :=
  if t = .pci ∧ off = PCI.RING_CFG.ENABLE.off then configMask t off &&& ~~~PCI.RING_CFG.ENABLE.mask else configMask t off

/-- Trims by OFFSET (R363): lane receive and transmit analogue terms, event paths, output drivers. -/
def trimOffset (o : Nat) : Bool :=
  o ≤ 0x32 || (0x40 ≤ o && o ≤ 0x72) || (0x80 ≤ o && o ≤ 0x87) || (0x90 ≤ o && o ≤ 0x9B)

/-- Whether a register record may be applied. -/
def regRecOk (r : Data) : Bool :=
  match pageOf (recPage r) with
  | some (t, _) => !(t == .rst || t == .opt || t == .sec || t == .mbx) && configMask t (recOff r) != 0
      && !(recOff r == 8 && ownerFixed t)
  | none => false

/-- Whether a record is ignored and counted in BAD_REC. -/
def recBad (r : Data) : Bool :=
  match recKind r with
  | 0 => false
  | 1 => !regRecOk r
  | 2 => recPage r != 0xFFFF || !trimOffset (recOff r) || decide (500 < (recValue r).toInt.natAbs)
  | 3 => recPage r != REF.page
  | _ => true

/-- The records of the image applied that aim at a page, in order. -/
def Dev.pageRecs (d : Dev) (page : Nat) : List Data :=
  d.optRecs.filter (fun r => recKind r == 1 && recPage r == page && regRecOk r)

/-- Register records applied to a page: the cold-reset value of the register's first instance (DEDUCED, log entry 29:
its selector stands at 0 after reset). -/
def Dev.applyRecs (d : Dev) (page : Nat) : Dev :=
  match pageOf page with
  | none => d
  | some (t, _) => (d.pageRecs page).foldl (fun (d : Dev) r =>
      let m := recMask t (recOff r)
      d.wr page (recOff r) ((d.rd page (recOff r) &&& ~~~m) ||| (recValue r &&& m))) d

/-- Whether an image checks, as far as it was ever read. -/
def OptImage.good (x : OptImage) : Bool := x.header && !x.bodyBad

/-- The records that the store holds: those of the image the next load would take, of the two that check. -/
def Dev.optStored (d : Dev) : List Data :=
  if d.optB.good && (!d.optA.good || decide (d.optA.gen < d.optB.gen)) then d.optB.body
  else if d.optA.good then d.optA.body else []

/-- A stored model information record's value (KIND 3, R246), the last one counting. -/
def Dev.modelInfo (d : Dev) (off : Nat) : Option Nat :=
  (d.optStored.filter (fun r => recKind r == 3 && recPage r == REF.page && recOff r == off)).getLast?.map
    (fun r => (recValue r).toNat)

/-! ### Loading (R364) -/

/-- An option load begins: nothing applies until an image has checked. -/
def Dev.optLoadStart (d : Dev) : Dev :=
  let d : Dev := { d with seqr := { d.seqr with loaded := false } }
  (d.set OPT.page OPT.OPT_STAT.LOADING 1).set OPT.page OPT.OPT_STAT.VALID 0

/-- The images whose header checks, the newest first, each with whether its body checks: (0 A, 1 B). -/
def Dev.optOrder (d : Dev) (badA badB : Bool) : List (Nat × OptImage × Bool) :=
  let a := if d.optA.header then [(0, d.optA, !badA)] else []
  let b := if d.optB.header then [(1, d.optB, !badB)] else []
  if d.optA.gen < d.optB.gen then b ++ a else a ++ b

/-- R364: the load ends. `badA`, `badB`: the body's CRC fails as it is read. -/
def Dev.optLoad (d : Dev) (badA badB : Bool) : Dev :=
  let p := OPT.page
  let order : List (Nat × OptImage × Bool) := d.optOrder badA badB
  let pick : Option (Nat × OptImage × Bool) := order.find? (fun x => x.2.2)
  let tried : List Nat := match pick with
    | some x => (order.takeWhile (fun (y : Nat × OptImage × Bool) => y.1 != x.1)).map (fun y => y.1) ++ [x.1]
    | none => order.map (fun y => y.1)
  let res (i : Nat) (img : OptImage) (bad : Bool) : Nat :=
    if !img.header then 1 else if !tried.contains i then 3 else if bad then 2 else 0
  let a := d.optA
  let b := d.optB
  let d := (d.set p OPT.OPT_STAT.RES_A (res 0 a badA)).set p OPT.OPT_STAT.RES_B (res 1 b badB)
  let d := (d.set p OPT.GEN_A.GEN (if a.header then a.gen else 0)).set p OPT.GEN_B.GEN (if b.header then b.gen else 0)
  let recs := match pick with | some x => x.2.1.body | none => []
  let bad := (recs.filter recBad).length
  let trims := recs.foldl (fun (t : Tbl Int) r =>
    if recKind r == 2 && !recBad r then tset (fun _ => 0) t (recOff r) (recValue r).toInt else t) []
  let mark (i : Nat) (x : OptImage) (bad : Bool) : OptImage := { x with bodyBad := if tried.contains i then bad else x.bodyBad }
  let d : Dev := { d with optRecs := recs, trims := trims, seqr := { d.seqr with loaded := true },
                          optA := mark 0 a badA, optB := mark 1 b badB }
  let d := (d.set p OPT.OPT_STAT.LOADING 0).setFlag p OPT.OPT_STAT.VALID pick.isSome
  let d := d.set p OPT.OPT_STAT.ACTIVE (match pick with | some x => x.1 + 1 | none => 0)
  let d := (d.set p OPT.OPT_STAT.BAD_REC (min bad 65535)).count 0xF91 bad
  if pick.isSome && decide (1 < tried.length) then d.raise p OPT.INT_RAW.LOAD_FALLBACK else d

/-- A release step shown in SEQ_STAT: the rows of R351 in order, the last one reached. -/
def Dev.seqStep (d : Dev) (n : Nat) : Dev :=
  if d.get RST.page RST.SEQ_STAT.STEP < n then d.set RST.page RST.SEQ_STAT.STEP n else d

/-- OPTION_LOAD_DONE; after a cold reset the records aimed at the GLB page, which is never released, apply with it. -/
def execOptionLoadDone (badA badB : Bool) (s : State) : Host.Outcome State Fault Refusal :=
  onDev (fun d => d.when (d.flag OPT.page OPT.OPT_STAT.LOADING) (fun d =>
    let d := (d.optLoad badA badB).seqStep 2
    if d.seqr.cls = 3 then d.applyRecs GLB.page else d)) s

/-! ### Writing (R365, R366) -/

/-- The image a write replaces: one that does not check, else the one with the lower GEN. -/
def Dev.optTarget (d : Dev) : Nat :=
  if !d.optA.good then 0
  else if !d.optB.good then 1
  else if d.optA.gen ≤ d.optB.gen then 0 else 1

def Dev.optImage (d : Dev) (i : Nat) : OptImage := if i = 0 then d.optA else d.optB
def Dev.setOptImage (d : Dev) (i : Nat) (x : OptImage) : Dev := if i = 0 then { d with optA := x } else { d with optB := x }

/-- GEN of the next image: one above the other image's. -/
def Dev.optNextGen (d : Dev) : Nat :=
  let other := d.optImage (1 - d.optTarget)
  (if other.header then other.gen else 0) + 1

def Dev.optBusy (d : Dev) : Bool := d.flag OPT.page OPT.OPT_STAT.LOADING || d.flag OPT.page OPT.OPT_STAT.WRITING

/-- A write begins: the header of its target is erased, and the write counted. -/
def Dev.optStart (d : Dev) (body : List Data) : Dev :=
  let i := d.optTarget
  let w : OptWrite := ⟨i, d.optNextGen, body⟩
  let d := ({ d with optWrite := some w } : Dev).setOptImage i ⟨false, false, 0, []⟩
  let d := d.incSat OPT.page (if i = 0 then OPT.OPT_WEAR.WRITES_A else OPT.OPT_WEAR.WRITES_B)
  let d := d.set OPT.page (if i = 0 then OPT.GEN_A.GEN else OPT.GEN_B.GEN) 0
  (d.set OPT.page OPT.OPT_STAT.WRITING 1).set OPT.page OPT.OPT_CMD.BUSY 1

/-- OPT_CMD.WRITE with the body that stands at OPT_SRC in the secure mailbox area. -/
def Dev.optWriteCmd (d : Dev) (m : List Host.Cell) : Dev :=
  let src := d.get OPT.page OPT.OPT_SRC.OFS * 64
  let len := d.get OPT.page OPT.OPT_LEN.BYTES
  let bad := d.optBusy || len % 8 != 0 || decide (len < 8) || decide (131008 < len) || decide (src < 0x2000000)
    || decide (0x3000000 < src + len) || decide (2 ^ 32 ≤ d.optNextGen)
  if bad then d.err OPT.page 0xC8 OPT.OPT_CMD.WRITE.off
  else d.optStart ((payloadWords (memRead m (0x1B000000 + (src - 0x2000000)) len)).map (BitVec.ofNat 64))

/-- R365: OPT_CMD.WRITE. -/
def execOptWrite (acc : Accessor) (s : State) : Host.Outcome State Fault Refusal :=
  onMem (fun d m => (d.asOwner acc OPT.page OPT.OPT_CMD.WRITE.off (·.optWriteCmd m) OPT.OPT_CMD.WRITE.strike, m)) s

/-- R365: the write completes; `ok` is the read-back's result. -/
def execOptWriteDone (ok : Bool) (s : State) : Host.Outcome State Fault Refusal :=
  onDev (fun d =>
    match d.optWrite with
    | none => d
    | some w =>
      let p := OPT.page
      let d : Dev := { d with optWrite := none }
      let d := (d.set p OPT.OPT_STAT.WRITING 0).set p OPT.OPT_CMD.BUSY 0
      if ok then
        let d := (d.setOptImage w.target ⟨true, false, w.gen, w.body⟩).set p OPT.OPT_STAT.LAST_WRITE 1
        (d.set p (if w.target = 0 then OPT.GEN_A.GEN else OPT.GEN_B.GEN) w.gen).raise p OPT.INT_RAW.WRITE_DONE
      else
        ((d.set p OPT.OPT_STAT.LAST_WRITE 2).err p 0xC9 OPT.OPT_CMD.WRITE.off).raise p OPT.INT_RAW.WRITE_FAIL) s

/-- R366: a reset stops a write, which leaves its target without a header. -/
def Dev.optInterrupt (d : Dev) : Dev :=
  if d.optWrite.isNone then d else
  let d : Dev := { d with optWrite := none }
  let d := (d.set OPT.page OPT.OPT_STAT.WRITING 0).set OPT.page OPT.OPT_CMD.BUSY 0
  d.set OPT.page OPT.OPT_STAT.LAST_WRITE 3

/-! ### The holdover model (R246) -/

/-- The offsets of the model's registers. -/
def modelOffs : List Nat := [REF.HO_CFG.T0.off, REF.HO_C1.C1.off, REF.HO_C2.C2.off, REF.HO_C3.C3.off, REF.HO_AGE.AGE.off]

/-- A new generation with the model's records in place of the stored image's: the set that waits, else the registers'.
-/
def Dev.storeModel (d : Dev) : Dev :=
  let word (off : Nat) : Word := d.rd REF.page off
  let words : List Word := match d.hoNext with
    | some m => [setBits (word REF.HO_CFG.T0.off) REF.HO_CFG.T0.lo REF.HO_CFG.T0.wd (toField 16 m.t0),
        BitVec.ofInt 32 m.c1, BitVec.ofInt 32 m.c2, BitVec.ofInt 32 m.c3, BitVec.ofInt 32 m.age]
    | none => modelOffs.map word
  let old (r : Data) : Bool := recPage r == REF.page && ((recKind r == 1 && modelOffs.contains (recOff r)) || recKind r == 3)
  let info := [(0, d.hoFit.1), (4, d.hoFit.2), (8, secOf d.now)].map (fun x =>
    mkRec REF.page x.1 3 (BitVec.ofNat 32 x.2))
  let regs := (modelOffs.zip words).map (fun x => mkRec REF.page x.1 1 x.2)
  d.optStart (d.optStored.filter (fun r => !old r) ++ regs ++ info)

/-- Whether firmware may write the model of its own accord: at most once in 24 h, with a smaller residual. -/
def Dev.modelWorth (d : Dev) (residual : Nat) : Bool :=
  !d.optBusy && decide (d.optNextGen < 2 ^ 32)
    && (match d.modelInfo 0 with | some r => decide (residual < r) | none => true)
    && (match d.modelInfo 8 with | some t => decide (t + 86400 ≤ secOf d.now % 2 ^ 32) | none => true)

/-- Rows of a linear system: coefficients and right side, solved by elimination without reordering beyond a row's first
pivot; a column without a pivot gives 0. `fuel` is the number of unknowns. -/
def solveRows : Nat → List (List Rat) → List Rat
  | 0, _ => []
  | fuel + 1, rows =>
    match rows.find? (fun r => r.headD 0 != 0) with
    | none => 0 :: solveRows fuel (rows.map List.tail)
    | some p =>
      let rest := (rows.erase p).map (fun r =>
        (r.tail.zip p.tail).map (fun x => x.1 - r.headD 0 / p.headD 1 * x.2))
      let xs := solveRows fuel rest
      let known := ((p.tail.zip xs).map (fun x => x.1 * x.2)).sum
      (p.getLastD 0 - known) / p.headD 1 :: xs

/-- Least squares: the coefficients that fit rows of terms to their values. -/
def leastSquares (k : Nat) (pts : List (List Rat × Rat)) : List Rat :=
  let dot (f : List Rat × Rat → Rat) : Rat := (pts.map f).sum
  let term (p : List Rat × Rat) (i : Nat) : Rat := p.1.getD i 0
  solveRows k ((List.range k).map (fun i =>
    (List.range k).map (fun j => dot (fun p => term p i * term p j)) ++ [dot (fun p => term p i * p.2)]))

/-- What a fit of the learning samples gives (R246): T0, C1, C2, C3 and AGE as the HO registers code them, the
residual in ppt, the span of temperature in sixteenths of a degree. T0 is the mean temperature; C1 is fitted over a
span of 2 °C, C2 and C3 over one of 10 °C, and otherwise keep what the registers hold. The residual is the root of the
mean square (DESIGN CHOICE, log entry 108). -/
def Dev.fitModel (d : Dev) : HoSet × Nat :=
  let ts := d.learn.map (fun x => x.2.1)
  let n := max 1 d.learn.length
  let span := ((ts.foldl max (ts.headD 0)) - (ts.foldl min (ts.headD 0))).toNat
  let t0 : Int := ratRound ((ts.sum : Int) / (n : Rat))
  let s2 : Bool := decide (32 ≤ span)
  let s10 : Bool := decide (160 ≤ span)
  let reg (f : Field) (u : Nat) : Rat := (d.getInt REF.page f : Rat) / (u : Rat)
  let at0 := match d.learn with | x :: _ => x.2.2 | [] => 0
  let pts : List (List Rat × Rat) := d.learn.map (fun e =>
    let x : Rat := (e.2.1 - t0 : Int) / 16
    let day : Rat := ((e.2.2 : Int) - at0 : Int) / ((86400 * secU : Nat) : Rat)
    let kept := (if s2 then 0 else reg REF.HO_C1.C1 65536 * x)
      + (if s10 then 0 else reg REF.HO_C2.C2 1048576 * (x * x) + reg REF.HO_C3.C3 16777216 * (x * x * x))
    ([1, day] ++ (if s2 then [x] else []) ++ (if s10 then [x * x, x * x * x] else []), (e.1 : Rat) / 1000 - kept))
  let k := 2 + (if s2 then 1 else 0) + (if s10 then 2 else 0)
  let cs := leastSquares k pts
  let c (i : Nat) (u : Nat) : Int := ratRound (cs.getD i 0 * u)
  let err (p : List Rat × Rat) : Rat := p.2 - ((p.1.zip cs).map (fun x => x.1 * x.2)).sum
  let ms : Rat := (pts.map (fun p => err p * err p)).sum / n
  let residual := Nat.sqrt (ms * 1000000).floor.toNat
  (⟨t0, if s2 then c 2 65536 else d.getInt REF.page REF.HO_C1.C1, if s10 then c 3 1048576 else d.getInt REF.page REF.HO_C2.C2,
    if s10 then c 4 16777216 else d.getInt REF.page REF.HO_C3.C3, c 1 1048576, residual⟩, span)

/-- R246: every 24 h of LOCKED the flash image's firmware fits the coefficients to its samples. The set waits for the
next REF COMMIT, and may be stored. -/
def execModelFit (s : State) : Host.Outcome State Fault Refusal :=
  onDev (fun d => d.when (d.imageRuns && d.refState == refLocked && !d.learn.isEmpty) (fun d =>
    let (m, span) := d.fitModel
    let worth := d.modelWorth m.residual
    let d : Dev := { d with hoNext := some m, hoFit := (m.residual, span), learn := [] }
    if worth then d.storeModel else d)) s

end Sys2Proof.Machine
end

