-- ==== Sys2Proof/Machine/Power.lean ====
section
/-!
DEFINITION. Machine/Power.lean: the COMMIT of the GLB page with the power states it commands (R358 to R361).
-/
namespace Sys2Proof.Machine

abbrev pwrRun : Nat := 0
abbrev pwrDoze : Nat := 1
abbrev pwrKeep : Nat := 2

def Dev.pwrState (d : Dev) : Nat := d.get GLB.page GLB.PWR_STAT.STATE

/-- A lane that is out of reset goes to OFF; its port's hold starts as it leaves LINK_UP (R142). -/
def Dev.laneDown (d : Dev) (l : Nat) : Dev :=
  if !d.released (unitLane l) || d.laneState l = laneOff then d else d.enter l laneOff

/-- Whether the state wanted may not be entered: KEEP needs DRAM trained, and an owner a twin that is ready or FORCE. -/
def Dev.keepRefused (d : Dev) : Bool :=
  let sh (f : Field) : Nat := d.getSh .glb GLB.page f
  sh GLB.PWR_CFG.TARGET == pwrKeep && (!d.flag DRM.page DRM.DRM_STAT.TRAINED
    || (d.flag DBL.page DBL.DBL_STAT.OWNER && !d.flag DBL.page DBL.DBL_STAT.TWIN_READY && sh GLB.PWR_CFG.FORCE == 0))

/-- Whether a COMMIT sets WAKE_TIME_EN, or a new time under it. -/
def Dev.wakeSets (d : Dev) : Bool :=
  d.getSh .glb GLB.page GLB.PWR_CFG.WAKE_TIME_EN == 1 && (d.flag GLB.page GLB.PWR_CFG.WAKE_TIME_EN == false
    || d.changes GLB.page GLB.WAKE_SEC.SEC.off || d.changes GLB.page GLB.WAKE_NS.NS.off)

/-- The instant that WAKE_SEC and WAKE_NS name at a COMMIT (R429). -/
def Dev.wakeNamed (d : Dev) : Nat :=
  nearest d.now (d.getSh .glb GLB.page GLB.WAKE_SEC.SEC) (d.getSh .glb GLB.page GLB.WAKE_NS.NS)

/-- R361: the COMMIT sets WAKE_TIME_EN, or a new time under it, and the time has passed. -/
def Dev.wakePast (d : Dev) : Bool := d.wakeSets && decide (d.wakeNamed < d.now)

def Dev.glbRules (d : Dev) : List Rule :=
  let sh (f : Field) : Nat := d.getSh .glb GLB.page f
  [ (sh GLB.PWR_CFG.TARGET == 3, 0xC5, GLB.PWR_CFG.TARGET.off),
    (d.keepRefused, 0xC4, GLB.PWR_CFG.TARGET.off),
    (1000000000 ≤ sh GLB.WAKE_NS.NS, 0xC5, GLB.WAKE_NS.NS.off),
    (d.wakePast, 0xC5, GLB.WAKE_SEC.SEC.off) ]

/-- R359: the entry to DOZE. -/
def Dev.dozeEntry (d : Dev) : Dev :=
  let d := (List.range 51).foldl (fun (d : Dev) l => if d.dozeKeeps l then d else d.laneDown l) d
  (d.set GLB.page GLB.PWR_STAT.STATE pwrDoze).raise GLB.page GLB.INT_RAW.STATE_CHG

/-- R359: the exit from DOZE: the OFF lanes start from SIGNAL_WAIT. -/
def Dev.dozeExit (d : Dev) : Dev :=
  let d := (d.set GLB.page GLB.PWR_STAT.STATE pwrRun).set GLB.page GLB.PWR_STAT.LAST_WAKE 1
  let d := (List.range 51).foldl (fun (d : Dev) l =>
    if d.released (unitLane l) && d.laneState l == laneOff && d.flag (LNK.page l) LNK.LNK_CFG.ENABLE then d.enterSignalWait l
    else d) d
  (d.raise GLB.page GLB.INT_RAW.WAKE).raise GLB.page GLB.INT_RAW.STATE_CHG

/-- R360: the entry to KEEP begins: every lane goes to OFF, the cores are interrupted, and the flash image's firmware
clears TRACEABLE. -/
def Dev.keepEntry (d : Dev) : Dev :=
  let d := d.set GLB.page GLB.PWR_STAT.CHANGING 1
  let d := (List.range 51).foldl Dev.laneDown d
  let d := d.emit (.coreInt 0 "keep")
  if d.imageRuns && d.owns .firmware TMB.page then d.traceClear else d

/-- The effect of a GLB COMMIT: a wake time set names its instant at the COMMIT (R429). In KEEP, and while it is
entered, only a wake trigger changes the state (R361). -/
def Dev.glbEffect (before d : Dev) : Dev :=
  let wake := if !d.flag GLB.page GLB.PWR_CFG.WAKE_TIME_EN then none
    else if before.wakeSets then some before.wakeNamed else d.wakeAt
  let d : Dev := { d with wakeAt := wake }
  let t := d.get GLB.page GLB.PWR_CFG.TARGET
  let st := d.pwrState
  if st = pwrKeep || d.flag GLB.page GLB.PWR_STAT.CHANGING then d
  else if t = pwrKeep then d.keepEntry
  else if t = pwrDoze && st = pwrRun then d.dozeEntry
  else if t = pwrRun && st = pwrDoze then d.dozeExit
  else d

/-- The COMMIT of the GLB page; a power state refused also raises REFUSED. -/
def Dev.commitGlb (d : Dev) : Dev :=
  let r := d.commitBy GLB.page d.glbRules Dev.glbEffect
  if r.flag GLB.page COM.COMMIT_STAT.REJECTED && r.get GLB.page COM.COMMIT_STAT.CODE == 0xC4 then
    r.raise GLB.page GLB.INT_RAW.REFUSED
  else r

/-- PWR_CFG written with a TARGET and committed. -/
def Dev.powerTo (d : Dev) (acc : Accessor) (cfg : Word) (target : Nat) : Dev :=
  let w := setBits cfg GLB.PWR_CFG.TARGET.lo GLB.PWR_CFG.TARGET.wd target
  d.asOwner acc GLB.page GLB.PWR_CFG.TARGET.off (fun d => (d.wrShadow .glb GLB.page GLB.PWR_CFG.TARGET.off 0 w).commitGlb)
    (thenCommit [(GLB.PWR_CFG.TARGET.off, w)])

/-- R359: a GLB COMMIT with TARGET = DOZE; `cfg` carries the other fields of PWR_CFG. -/
def execDozeEntry (acc : Accessor) (cfg : BitVec 32) (s : State) : Host.Outcome State Fault Refusal :=
  onDev (·.powerTo acc cfg pwrDoze) s

/-- R359: a GLB COMMIT with TARGET = RUN. -/
def execDozeExit (acc : Accessor) (cfg : BitVec 32) (s : State) : Host.Outcome State Fault Refusal :=
  onDev (·.powerTo acc cfg pwrRun) s

/-- R360: a GLB COMMIT with TARGET = KEEP. -/
def execKeepEntry (acc : Accessor) (cfg : BitVec 32) (s : State) : Host.Outcome State Fault Refusal :=
  onDev (·.powerTo acc cfg pwrKeep) s

end Sys2Proof.Machine
end

