-- ==== Sys2Proof/Machine/Commit.lean ====
section
/-!
DEFINITION. Machine/Commit.lean: the COMMITs of the pages whose chapters have no file above (BUF, VOQ, TSU, SVC, RST),
the COMMIT of any page (R397, R398), and the page soft reset (R396).
-/
namespace Sys2Proof.Machine

/-! ### BUF (R120, R132, R136, R137) -/

/-- Whether a COMMIT changes the layout: POOL_SIZE of a pool, or RSV_BUF. -/
def Dev.layoutChanges (d : Dev) : Bool :=
  d.changes BUF.page BUF.TC7_CFG.RSV_BUF.off || (List.range 4).any (fun p => d.changes BUF.page BUF.POOL_SIZE.LINES.off p)

/-- The largest MAX_SDU of a valid TC7 stream filter. -/
def Dev.tc7Sdu (d : Dev) : Nat :=
  (d.listed .filter).foldl (fun m i =>
    let w := d.entry .filter i
    if bitOf w 63 && bitOf w 62 && bitsOf w 61 59 == 7 then max m (bitsOf w 30 17) else m) 0

/-- The rules of a BUF COMMIT. A layout or threshold rule takes 0x23, another range 0x08. -/
def Dev.bufRules (d : Dev) : List Rule :=
  let sh (f : Field) (p : Nat) : Nat := d.getSh .buf BUF.page f p
  let lines (p : Nat) : Nat := sh BUF.POOL_SIZE.LINES p
  let cnt (p : Nat) : Nat := sh BUF.POOL_SIZE.COUNT p
  let rsv := sh BUF.TC7_CFG.RSV_BUF 0
  let size := BUF.POOL_SIZE.LINES.off
  let total := ((List.range 4).map (fun p => 64 * lines p * cnt p)).sum
  let shared (p : Nat) : Nat := if p = 0 then cnt 0 - rsv else cnt p
  let reserves := ((List.range 4).map (fun p => shared p * sh BUF.POOL_CFG.RSV_LVL p / 256 * (64 * lines p))).sum
  let r (f : Field) (lo hi : Nat) : Rule := d.ruleRange .buf BUF.page f lo hi
  let quiet : Bool := d.flag BUF.page BUF.MGR_CTRL.HALTED && d.flag BUF.page BUF.MGR_CTRL.EMPTY
  [ (d.layoutChanges && !quiet, 0x22, size),
    ruleAny 4 (fun p => (lines p < 2 || (p < 3 && lines (p + 1) ≤ lines p), 0x23, size)),
    ruleAny 4 (fun p => (cnt p < 1 || 131072 < cnt p, 0x23, size)),
    (150339584 < total, 0x23, size),
    ((List.range 48).any (fun o => decide (64 * lines 3 < d.get (PRT.page o) PRT.PORT_CFG.MAX_FRAME)), 0x23, size),
    (64 * lines 0 < d.tc7Sdu, 0x23, size),
    (rsv < 256 || 65536 < rsv || cnt 0 < 2 * rsv, 0x23, BUF.TC7_CFG.RSV_BUF.off),
    ruleAny 4 (fun p => (sh BUF.POOL_CFG.WARN_LVL p ≤ sh BUF.POOL_CFG.PRESS_LVL p
      || sh BUF.POOL_CFG.PRESS_LVL p ≤ sh BUF.POOL_CFG.RSV_LVL p, 0x23, BUF.POOL_CFG.WARN_LVL.off)),
    (reserves < 50 * 1024 * sh BUF.MIN_RSV.KIB 0, 0x23, BUF.MIN_RSV.KIB.off),
    ruleAny 4 (fun p => d.ruleRange .buf BUF.page BUF.POOL_CFG.HYST 1 32 (sel := p)),
    r BUF.BP_CFG.REFRESH_US 10 300, r BUF.HOLD_CFG.HOLD_MS 0 1000, r BUF.HASH_CFG.RATIO 72 255, r BUF.HASH_CFG.DWELL 1 15,
    r BUF.HASH_CFG.WINDOW 0 4, r BUF.HASH_CFG.HOLDOFF_MS 1 65535 ]

/-- A new layout fills the caches anew; the levels are looked at again. -/
def Dev.bufEffect (before d : Dev) : Dev :=
  let d := if before.layoutChanges then [0, 1, 2, 3].foldl Dev.refillPool ({ d with pools := [], groupKey := [] } : Dev) else d
  d.rebalance

def Dev.commitBuf (d : Dev) : Dev := d.commitBy BUF.page d.bufRules Dev.bufEffect

/-! ### VOQ (R140, R141) -/

def Dev.voqRules (d : Dev) : List Rule :=
  let sh (f : Field) : Nat := d.getSh .voq VOQ.page f
  let r (f : Field) (lo hi : Nat) : Rule := d.ruleRange .voq VOQ.page f lo hi
  [ r VOQ.SPILL_CFG.SPILL_LVL 16 4095, r VOQ.SPILL_CFG.REFILL_LVL 8 255,
    (sh VOQ.SPILL_CFG.SPILL_LVL ≤ sh VOQ.SPILL_CFG.REFILL_LVL, 0x08, VOQ.SPILL_CFG.REFILL_LVL.off),
    r VOQ.SPILL_LIM.INPUT_MAX_MIB 1 6144 ]

def Dev.commitVoq (d : Dev) : Dev := d.commitBy VOQ.page d.voqRules (fun _ d => d.rebalance)

/-! ### TSU (R217) -/

def Dev.tsuRules (d : Dev) (i : Nat) : List Rule :=
  let v := d.getShInt .tsu (TSU.page i) TSU.ASYM_PS.ASYM
  [(decide (v < -100000000) || decide (100000000 < v), 0x58, TSU.ASYM_PS.ASYM.off)]

def Dev.commitTsu (d : Dev) (i : Nat) : Dev := d.commitBy (TSU.page i) (d.tsuRules i) (fun _ d => d)

/-! ### SVC (R302, R303) -/

/-- The services of R302. -/
abbrev svcCount : Nat := 9

def Dev.svcOn (d : Dev) (n : Nat) : Bool := d.flag SVC.page SVC.SVC_CFG.ENABLE n

/-- The page types that a service writes. -/
def svcWrites (n : Nat) : List PageType :=
  match n with
  | 0 => [.tsu, .lkp] | 1 => [.tmb, .ref] | 2 => [.ref] | 3 => [.dbl] | 4 => [.blk] | 5 => [.sch] | 6 => [.log]
  | 8 => [.opt, .sec] | _ => []

/-- Whether the host has a page that a service writes (R309). -/
def Dev.svcTaken (d : Dev) (n : Nat) : Bool :=
  (List.range 320).any (fun p => match pageOf p with
    | some (t, _) => (svcWrites n).contains t && d.owner p == 0
    | none => false)

/-- A service's RUNNING bit as ENABLE and the image have it, and DEGRADED of one that runs with a page of its taken;
one that stops or degrades is reported. -/
def Dev.svcRefresh (d : Dev) (n : Nat) : Dev :=
  let was := d.flag SVC.page SVC.SVC_STAT.RUNNING n
  let degraded := d.flag SVC.page SVC.SVC_STAT.DEGRADED n
  let run : Bool := d.svcOn n && d.imageRuns
  let bad : Bool := run && (degraded || d.svcTaken n)
  let d := (d.setFlag SVC.page SVC.SVC_STAT.RUNNING run n).setFlag SVC.page SVC.SVC_STAT.DEGRADED bad n
  if (was && !run) || (bad && !degraded) then d.raise SVC.page SVC.INT_RAW.SVC_DOWN else d

/-- A service put on a core: SVC_STAT shows it, the move is counted and reported. -/
def Dev.svcMove (d : Dev) (n core : Nat) : Dev :=
  if d.get SVC.page SVC.SVC_STAT.CORE_NOW n = core then d else
  let d := (d.set SVC.page SVC.SVC_STAT.CORE_NOW core n).incWrap SVC.page SVC.SVC_STAT.MOVES n
  d.raise SVC.page SVC.INT_RAW.PLACED

def Dev.svcRules (d : Dev) : List Rule :=
  let sh (f : Field) (n : Nat) : Nat := d.getSh .svc SVC.page f n
  [ d.ruleRange .svc SVC.page SVC.PLACE_CFG.HI 10 100 0x98,
    (sh SVC.PLACE_CFG.HI 0 ≤ sh SVC.PLACE_CFG.LO 0, 0x98, SVC.PLACE_CFG.LO.off),
    d.ruleRange .svc SVC.page SVC.PLACE_CFG.PERIOD_MS 10 60000 0x98,
    (sh SVC.SVC_CFG.PIN 8 == 1, 0x99, SVC.SVC_CFG.PIN.off) ]

/-- ENABLE starts and stops services, a pinned service stays on CORE (R303). -/
def Dev.svcEffect (_before d : Dev) : Dev :=
  (List.range svcCount).foldl (fun (d : Dev) n =>
    let d := d.svcRefresh n
    if n < 8 && d.flag SVC.page SVC.SVC_CFG.PIN n && d.flag SVC.page SVC.SVC_STAT.RUNNING n then
      d.svcMove n (d.get SVC.page SVC.SVC_CFG.CORE n)
    else d) d

def Dev.commitSvc (d : Dev) : Dev := d.commitBy SVC.page d.svcRules Dev.svcEffect

/-! ### RST (R350) -/

def Dev.commitRst (d : Dev) : Dev :=
  d.commitBy RST.page [d.ruleRange .rst RST.page RST.WDOG_CFG.TIMEOUT_MS 100 65535] (fun _ d => d)

/-! ### Any page (R397, R398) -/

/-- COMMIT.GO of a page; on a page without shadows it is discarded. -/
def Dev.commitAt (d : Dev) (acc : Accessor) (page : Nat) : Dev :=
  match pageOf page with
  | none => d
  | some (t, i) =>
    if !hasShadow t then d else
    match t with
    | .glb => d.commitGlb
    | .rst => d.commitRst
    | .svc => d.commitSvc
    | .pci => d.commitPci
    | .crn => d.commitCrn
    | .fab => d.commitFab
    | .lkp => d.commitTables LKP.page
    | .mtr => d.commitTables MTR.page
    | .buf => d.commitBuf
    | .voq => d.commitVoq
    | .sch => d.commitSch
    | .blk => d.commitBlk
    | .tal => d.commitTal
    | .log => d.commitLog
    | .tmb => d.commitTmb acc
    | .ref => d.commitRef
    | .evt => d.commitEvt
    | .dbl => d.commitDbl
    | .syn => d.commitSyn
    | .out => d.commitOut
    | .drm => d.commitDrm
    | .lnk => d.commitLnk i
    | .prt => d.commitPrt i
    | .gcl => d.commitGcl i
    | .tsu => d.commitTsu i
    | .opt => d
    | .sec => d
    | .mbx => d

/-- The table shadows of a page (R151, R344) and what else a COMMIT would carry, discarded. -/
def Dev.dropTabShadow (d : Dev) (t : PageType) : Dev :=
  match t with
  | .sch => { d with tabShadow := d.tabShadow.filter (fun e => !(32 ≤ e.1 / 67108864 && e.1 / 67108864 ≤ 35)) }
  | .crn => { d with tabShadow := d.tabShadow.filter (fun e => e.1 / 67108864 != 53) }
  | .fab => { d with avsWritten := false }
  | _ => d

/-- The tables that belong to a page. -/
def pageTables : PageType → List TableId
  | .lkp => [.port, .vlan, .fdb, .mcast, .sid, .filter, .aclKey, .aclAct, .gate, .gateList, .punt]
  | .mtr => [.meterCfg]
  | .sch => [.voqAttach, .subNode, .svcNode, .portNode]
  | .blk => [.launch, .reservation]
  | .dbl => [.gen, .recv]
  | .crn => [.template]
  | _ => []

/-- The staged operations of a page's tables are dropped, unless an accepted COMMIT waits to apply them (R117). -/
def Dev.dropStaged (d : Dev) (t : PageType) : Dev :=
  if d.pendingCommit || !(t == .lkp || t == .mtr) then d else
  ({ d with staging := d.staging.filter (fun o => !((pageTables t).map TableId.num).contains o.table) } : Dev).refreshStage

/-- COMMIT.DISCARD, and what a change of OWNER does to the shadows (R398, R309). -/
def Dev.discardAt (d : Dev) (page : Nat) : Dev :=
  match pageOf page with
  | none => d
  | some (t, _) => if hasShadow t then (d.dropShadows page).dropTabShadow t else d

/-! ### The page soft reset (R396) -/

/-- The RW bits of a register that a soft reset takes back: not OWNER, not INT_EN. -/
def softMask (t : PageType) (off : Nat) : Word :=
  if off = 8 then COM.CTRL.VIEW.mask
  else if off < 0x40 then 0
  else ((fieldsAt t off).filter (fun f => f.acc == .rw)).foldl (fun w f => w ||| f.mask) 0

/-- Every shadow of a page at its cold-reset value, with the option store's records on top. -/
def Dev.coldShadows (d : Dev) (t : PageType) (page : Nat) : Dev :=
  let keys := ((d.regs ++ d.shadow).map Prod.fst).filter (fun k => rkeyPage k == page && 0x40 ≤ rkeyOff k)
  let d := keys.foldl (fun (d : Dev) k => d.wrShadow t page (rkeyOff k) (rkeySel k) (resetReg k)) d
  (d.pageRecs page).foldl (fun (d : Dev) r =>
    let m := shMask t (recOff r) &&& recMask t (recOff r)
    if m = 0 then d
    else d.wrShadow t page (recOff r) 0 ((d.rdShadow t page (recOff r) 0 &&& ~~~m) ||| (recValue r &&& m))) d

/-- The RW registers of a page at their cold-reset values, with the option store's records on top. -/
def Dev.coldRw (d : Dev) (t : PageType) (page : Nat) : Dev :=
  let keys := (d.regs.map Prod.fst).filter (fun k => rkeyPage k == page)
  let put (d : Dev) (off sel : Nat) (v : Word) : Dev :=
    let m := softMask t off
    if m = 0 then d else d.wr page off ((d.rd page off sel &&& ~~~m) ||| (v &&& m)) sel
  let d := keys.foldl (fun (d : Dev) k => put d (rkeyOff k) (rkeySel k) (resetReg k)) d
  (d.pageRecs page).foldl (fun (d : Dev) r => put d (recOff r) 0 (recValue r)) d

/-- Entries of tables staged with their reset words (R113). -/
def Dev.coldStage (d : Dev) (ts : List TableId) : List StageOp :=
  (ts.map (fun t => (d.listed t).map (fun i =>
    (⟨t.num, i, (List.range (tableWords t)).map (resetEntry t i), false, false⟩ : StageOp)))).flatten

/-- A table at its reset contents at once. -/
def Dev.coldTables (d : Dev) (ts : List TableId) : Dev :=
  let mine (k : Nat) : Bool := ts.any (fun t => t.num == k / 67108864)
  { d with tables := tkeep (fun k => !mine k) d.tables, flips := tkeep (fun k => !mine k) d.flips }

/-- What a soft reset puts in front of the COMMIT: a page's tables at their reset contents, staged, shadowed or at
once as the table is written. -/
def Dev.coldFirst (d : Dev) (t : PageType) (i : Nat) : Dev :=
  match t with
  | .lkp => { d with staging := d.coldStage [.port, .vlan, .fdb, .mcast, .sid, .filter, .aclKey, .aclAct, .gate, .gateList, .punt] }
  | .mtr => { d with staging := d.coldStage [.meterCfg] }
  | .sch =>
    let keys := (d.tables.map Prod.fst).filter (fun k => 32 ≤ k / 67108864 && k / 67108864 ≤ 35)
    let d := d.dropTabShadow .sch
    { d with tabShadow := keys.foldl (fun (l : Tbl Data) k => tset (fun _ => tget resetTable d.tables k) l k (resetTable k)) d.tabShadow }
  | .blk =>
    (d.blkHeld.foldl (fun (d : Dev) h => d.clearResv h.req.id) { Dev.blkMark d d with blkStage := [] }).coldTables [.launch]
  | .dbl => d.coldTables [.gen, .recv]
  | .crn => (d.dropTabShadow .crn).coldTables [.template]
  | .fab => { d with avsWritten := true }
  | .gcl =>
    if (d.gclPort i).swapAt.isSome && !(d.gclPort i).blocker then d.setSh .gcl (GCL.page i) GCL.SWAP_CTRL.CANCEL 1 else d
  | _ => d

/-- What follows an accepted soft reset's COMMIT: the Blocker releases the ports it had, a port with a Blocker swap
pending once that swap has taken place (R178, R188; DESIGN CHOICE, log entry 150: as a REPLACE_ALL of no reservation),
the Doublet gives up ownership (R283), a port's banks are empty, a lane leaves PRBS, HALT is 0. -/
def Dev.coldThen (d : Dev) (t : PageType) (i : Nat) : Dev :=
  match t with
  | .blk => if (d.changedPorts [] []).isEmpty then d else d.blkReplaceCommit []
  | .dbl => d.dblReset
  | .gcl =>
    let d := (d.listed .gcl).foldl (fun (d : Dev) n => if n / 2048 = i then d.resetEntryWords .gcl n 1 else d) d
    d.refreshGcl i
  | .lnk => if d.laneState i = lanePrbs then d.enterSignalWait i else d
  | .buf => d.set BUF.page BUF.MGR_CTRL.HALTED 0
  | _ => d

/-- R396: the page soft reset, for an accessor that may write the page. -/
def Dev.softReset (d : Dev) (acc : Accessor) (page : Nat) : Dev :=
  match pageOf page with
  | none => d
  | some (t, i) =>
    if !softRstOk t then d.err page 0x03 0x08 else
    let r := ((d.coldFirst t i).coldShadows t page).commitAt acc page
    if r.flag page COM.COMMIT_STAT.REJECTED && hasShadow t then
      d.rejectCommit page (r.get page COM.COMMIT_STAT.CODE) (r.get page COM.ERR_INFO.DETAIL)
    else
      let r := (r.coldThen t i).coldRw t page
      let r := ((r.wr page 0x10 0).wr page 0x20 0).wr page 0x24 0
      let r := (r.set page COM.STAT.RESTORED 0).set GLB.page GLB.RESTORE_STAT.SOURCE 1 page
      r.writeImage page

end Sys2Proof.Machine
end

