-- ==== Sys2Proof/Machine/Reset.lean ====
section
/-!
DEFINITION. Machine/Reset.lean: reset sources and classes (R346 to R350), what a reset reaches and what survives it
(R347, R357), and the way into KEEP and out of it (R360, R361, R407).
-/
namespace Sys2Proof.Machine

abbrev clsWarm : Nat := 1
abbrev clsClock : Nat := 2
abbrev clsCold : Nat := 3
abbrev clsKeep : Nat := 4

/-! ### What a page keeps through a reset that leaves the keep-alive domain running (R357) -/

/-- Status bits that come through, all others being reset (R357; RESYNC_CNT, which counts since cold reset by its
field's words, among these: DESIGN CHOICE, log entry 125): the mark of a void image, the recorder's indices (R382),
HO_CORR and HO_READY (R245), the banks' roles and a swap that is pending (R355), the strap of the last cold reset
(R280), a stopped clock. -/
def keptStatus (t : PageType) (off : Nat) : Word :=
  if off = 0x0C then COM.STAT.IMAGE_VOID.mask else
  match t with
  | .log => if off = LOG.WR_IDX.IDX.off then LOG.WR_IDX.IDX.mask
      else if off = LOG.OLDEST_IDX.IDX.off then LOG.OLDEST_IDX.IDX.mask
      else if off = LOG.LOG_STAT.WRAPPED.off then LOG.LOG_STAT.WRAPPED.mask else 0
  | .ref => if off = REF.HO_CORR.CORR.off then REF.HO_CORR.CORR.mask
      else if off = REF.REF_STAT.HO_READY.off then REF.REF_STAT.HO_READY.mask else 0
  | .gcl => if off = GCL.GCL_STAT.ACTIVE.off then
      GCL.GCL_STAT.ACTIVE.mask ||| GCL.GCL_STAT.BLOCKER_OWN.mask ||| GCL.GCL_STAT.SWAP_PENDING.mask else 0
  | .dbl => if off = DBL.DBL_STAT.SIDE.off then DBL.DBL_STAT.SIDE.mask else 0
  | .fab => if off = FAB.XING_STAT.CLK_STOP.off then FAB.XING_STAT.CLK_STOP.mask else 0
  | _ => 0

/-- Whether a page's configuration never comes through (R357: PCI and MBX). -/
def neverRestored (t : PageType) : Bool := t == .pci || t == .mbx

/-- Whether a page is kept in place: always-on, keep-alive, and the TMB page. -/
def keptInPlace (t : PageType) : Bool := t.island ≤ 1 || t == .tmb

/-- The bits of a register that come through: all of a page kept in place; of another, its configuration (R354), which
the image holds, except where each accessor has its own. -/
def keptMask (t : PageType) (off sel : Nat) : Word :=
  if keptInPlace t then 0xFFFFFFFF
  else if neverRestored t then 0
  else (if perAccessor t off || (off == 8 && sel != 0) then 0 else configMask t off) ||| keptStatus t off

/-- The register file as a reset leaves it. -/
def keptRegs (regs : Tbl Word) : Tbl Word :=
  regs.filterMap (fun e =>
    match pageOf (rkeyPage e.1) with
    | none => none
    | some (t, _) =>
      let m := keptMask t (rkeyOff e.1) (rkeySel e.1)
      let w := (resetReg e.1 &&& ~~~m) ||| (e.2 &&& m)
      if w = resetReg e.1 then none else some (e.1, w))

/-- A table word as a reset leaves it: dynamic FDB entries are lost, high-water marks and sequence numbers are 0,
recovery entries take any number, held notices are gone; a filter or gate is as it was last written. -/
def keptWord (written : Tbl (Option Data)) (k : Nat) (v : Data) : Option Data :=
  match tableIds.find? (fun t => t.num == k / 67108864) with
  | some .fdb => if bitOf v 63 && !bitOf v 62 then none else some v
  | some .voqHwm => none
  | some .portHwm => none
  | some .notice => none
  | some .gen => some (putBits v 60 45 0)
  | some .recv => some (putBits (putBits v 60 60 1) 31 0 0)
  | some _ => some ((tget (fun _ => none) written k).getD v)
  | none => none

def keptTables (written : Tbl (Option Data)) (t : Tbl Data) : Tbl Data :=
  t.filterMap (fun e =>
    match keptWord written e.1 e.2 with
    | some v => if v = resetTable e.1 then none else some (e.1, v)
    | none => none)

/-! ### Islands entering reset (R347, R357) -/

/-- Every island outside the keep-alive domain in reset: the Doublet gives up ownership in the same tick (R283), the
crossings abandon what waits, each transfer captured on its page (R82, log entry 112), and what R357 does not keep is
gone. -/
def Dev.islandsReset (d : Dev) : Dev :=
  let waited := d.held
  let crown := d.crown.wait
  let d := d.dblReset
  let d : Dev := { d with rel := tkeep (fun u => u == 1 || u == 53) d.rel }
  let d := (List.range 56).foldl Dev.crossingReset d
  let d : Dev := { d with
    regs := keptRegs d.regs
    shadow := d.shadow.filter (fun e => match pageOf (rkeyPage e.1) with | some (t, _) => keptInPlace t | none => false)
    held := [], accStat := 0, xphase := [], avsWritten := false, wins := []
    txf := [], txfLost := [], cap := ⟨0, 0, false, false, 0, 0, 0, none⟩, absOfs := 0, softMsg := [], hardFrom := [], evts := []
    slots := [], refMode := 0, refSlot := 0, refPend := [], refTarget := none, refZero := 0, hoFrozen := true
    copyOfs := [], hoEntry := none, learn := [], hoNext := none, hoFit := (0, 0)
    tally := [], snap := [], snapLate := [], freezeAt := none, collecting := false, snapHeld := false, smpCount := [], logHeld := []
    logLost := 0, logSec := none, epash := []
    lanes := [], pauses := [], launchQ := [], nodes := [], outputs := [], holdLoop := []
    pace := ⟨0, 0, 0, none, 75000, 75000, false, d.pace.voutMode, 0⟩
    frames := [], voqs := [], bufs := [], pools := [], holding := [], rxNow := [], groupKey := [], bankCount := []
    waitQ := [], refusedAt := [], holdFrom := [], rerollAt := 0, commitDevice := false, sweptAt := 0
    hashOver := 0, hashHoldoff := none, flushing := []
    tables := keptTables d.written d.tables
    written := [], flips := [], tabShadow := [], meters := [], gates := [], puntBuckets := [], staging := [], retired := []
    commitPage := 0, epochSince := [], learnQ := [], genLast := [], recLast := [], tripCnt := [], waitShadow := []
    reqQueue := [], rspQueue := [], rspWait := [], blkWaits := false, blkPlan := none, dblTables := []
    mbxLo := [], fwCmds := [], fwOut := [], neigh := [], pageHolds := [], fwLater := [], ptpInst := [], ptpPort := []
    lldpPort := [], hiRuns := [], latent := [], twinRestart := none, epashCfg := 0, fwDown := false, fwHold := false
    upd := { d.upd with size := 0, data := [], staged := none, confirmBy := none, startBy := none, record := [] }
    rings := [], txWait := [], pciD3 := [], crown := ⟨0, [], none, 0, 0, 0, 0⟩, wdogWarned := false, wdogFrom := d.now }
  (d.abandon waited).abandonCrown crown

/-- The pages kept in place say so (R356). -/
def Dev.restoredInPlace (d : Dev) : Dev :=
  [GLB.page, RST.page, OPT.page, SEC.page, TMB.page, SYN.page, OUT.page, DRM.page].foldl (fun (d : Dev) p =>
    (d.set p COM.STAT.RESTORED 1).set GLB.page GLB.RESTORE_STAT.SOURCE 3 p) d

/-- RST_CAUSE and the time of the cause (R349). -/
def Dev.setCause (d : Dev) (cause detail : Nat) (timed : Bool) : Dev :=
  let d := (d.set RST.page RST.RST_CAUSE.CAUSE cause).set RST.page RST.RST_CAUSE.DETAIL detail
  let d := d.setFlag RST.page RST.RST_CAUSE.TIME_VALID timed
  let d := d.set RST.page RST.CAUSE_SEC.SEC (if timed then secOf d.now else 0)
  d.set RST.page RST.CAUSE_NS.NS (if timed then nsOf d.now else 0)

/-- SEQ_STAT at the start of a release; the steps are numbered by the rows of R351, the last one reached shown. -/
def Dev.seqStart (d : Dev) : Dev :=
  let d := (d.set RST.page RST.SEQ_STAT.STEP 1).set RST.page RST.SEQ_STAT.PACE_TRY 0
  d.set RST.page RST.SEQ_STAT.RELEASE_MS 0

/-- Whether a cold release still waits for its t0 (R348, R351). -/
def Dev.waitsT0 (d : Dev) : Bool :=
  d.seqr.cls == clsCold && !d.seqr.loaded && !d.flag OPT.page OPT.OPT_STAT.LOADING

/-- The widest class counts while an earlier release runs (R348). -/
def widerClass (running new : Nat) : Nat :=
  if running = clsCold then clsCold else if running = clsClock then clsClock else new

/-- R382: the writer's records go to DRAM before Felt enters reset, unless Felt itself is locked up. -/
def Dev.flushFirst (feltLocked : Bool) (d : Dev) (m : List Host.Cell) : Dev × List Host.Cell :=
  if feltLocked || !d.released unitFelt then (d, m) else d.logFlush m

/-- What a warm or clock-failure reset does to the device (R347, R352): an option store write stops (R366); the option
reload starts; the regulator is commanded to 0.75 V. Of sources on one tick the lowest code, which is also that of the
widest class, stands (R348). In KEEP the islands are in reset already, and only a wake trigger releases them (DESIGN
CHOICE, log entry 30). -/
def Dev.warmBegin (cause detail cls : Nat) (d : Dev) : Dev :=
  let stands : Bool := d.seqr.cls != 0 && d.seqr.t0 == d.now && decide (d.get RST.page RST.RST_CAUSE.CAUSE < cause)
  let d := (if stands then d.optInterrupt else d.optInterrupt.setCause cause detail true).islandsReset
  let d := d.restoredInPlace.set GLB.page GLB.PWR_STAT.CHANGING 0
  if d.pwrState = pwrKeep then d else
  let cls := widerClass d.seqr.cls cls
  let d : Dev := { d with seqr := { d.seqr with cls := cls, t0 := d.now, images := cls != clsCold } }
  d.optLoadStart.seqStart.regulate 75000

/-- A warm or clock-failure reset takes effect; while a cold release waits for its t0, it does not. -/
def Dev.warmReset (cause detail cls : Nat) (feltLocked : Bool) (d : Dev) (m : List Host.Cell) : Dev × List Host.Cell :=
  if d.waitsT0 then (d, m) else
  let x := d.flushFirst feltLocked m
  (x.1.warmBegin cause detail cls, x.2)

/-- A cold reset (R347): everything starts again but fuses, the option store and the flash; DRAM is lost, and what
waited at a crossing is answered (R82). -/
def Dev.coldReset (d : Dev) (cause : Nat) : Dev :=
  let cut := d.optWrite.isSome
  let d := (d.optInterrupt.dblReset.abandon d.held).abandonCrown d.crown.wait
  let wear := d.rd OPT.page OPT.OPT_WEAR.WRITES_A.off
  let fresh : Dev := { Dev.reset with
    freeCtr := d.freeCtr, out := d.out, optA := d.optA, optB := d.optB, flash := d.flash, pinOwnIn := d.pinOwnIn
    pinSideB := d.pinSideB, pinResetN := d.pinResetN, pinPerstN := d.pinPerstN, testMode := d.testMode }
  let fresh := (fresh.wr OPT.page OPT.OPT_WEAR.WRITES_A.off wear).setCause cause 0 false
  if cut then fresh.set OPT.page OPT.OPT_STAT.LAST_WRITE 3 else fresh

/-! ### The cold sources (R346) -/

/-- A cold source: of several while a release runs, the lowest code (R348). -/
def coldSource (cause : Nat) (f : Dev → Dev) (s : State) : Host.Outcome State Fault Refusal :=
  onMem (fun d _ =>
    let code := if d.waitsT0 then min cause (d.get RST.page RST.RST_CAUSE.CAUSE) else cause
    ((f d).coldReset code, [])) s

/-- R346: power-on. -/
def execPowerOnReset (s : State) : Host.Outcome State Fault Refusal := coldSource 1 id s

/-- R346: a supply below its threshold for 1 µs. -/
def execBrownOut (s : State) : Host.Outcome State Fault Refusal := coldSource 2 id s

/-- R346: RESET_N low for at least 1 µs. -/
def execResetNLow (s : State) : Host.Outcome State Fault Refusal :=
  coldSource 3 (fun d => { d with pinResetN := false }) s

/-- R351: t0, the later of RESET_N rising and the last supply in range: the option load starts. -/
def execResetNRise (s : State) : Host.Outcome State Fault Refusal :=
  onDev (fun d =>
    let d : Dev := { d with pinResetN := true }
    d.when d.waitsT0 (·.optLoadStart.seqStart)) s

/-! ### The other sources -/

/-- R214, R347: XO_IN fails: the keep-alive domain goes on with the backup oscillator, TRACEABLE, HO_CORR and HO_READY
are cleared, DRAM waits in self-refresh for its PLL. -/
def Dev.toBackup (d : Dev) : Dev :=
  let d : Dev := { d with xoOk := false }
  let good := d.get RST.page RST.CLK_GOOD.GOOD
  let d := d.set RST.page RST.CLK_GOOD.GOOD (putBit (putBit good 0 false) 4 false)
  let d := d.traceClear.set TMB.page TMB.TMB_STAT.BACKUP 1
  let d := (d.raise TMB.page TMB.INT_RAW.BACKUP_ON).count 0xD22
  let d := ((d.set REF.page REF.HO_CORR.CORR 0).set REF.page REF.REF_STAT.HO_READY 0).checkPpm
  let d := if d.flag DRM.page DRM.DRM_STAT.TRAINED then d.set DRM.page DRM.DRM_STAT.SELF_REFRESH 1 else d
  d.setReleased 53 false

/-- The gates that were open at the move to the backup oscillator show RESULT 4 (R278), although the reset that goes
with the move empties the inputs (DEDUCED, log entry 148). -/
def Dev.gatesBackup (d : Dev) (gates : List Nat) : Dev :=
  gates.foldl (fun d e => (d.set EVT.page EVT.MEAS_STAT.RESULT 4 e).raise EVT.page EVT.INT_RAW.MEAS_DONE e) d

/-- R214, R346: XO_IN fails. -/
def execClockFailureReset (s : State) : Host.Outcome State Fault Refusal :=
  onMem (fun d m => if d.xoOk && !d.waitsT0 then
      let gates := (List.range 8).filter (fun e => (d.evtIn e).open_)
      let x := Dev.warmReset 4 0 clsClock false d m
      (x.1.toBackup.gatesBackup gates, x.2)
    else (d, m)) s

/-- Whether the watchdog counts (R350): not during a restart, for at most 10 s; nor while the cores are halted in KEEP
(DESIGN CHOICE, log entry 30). -/
def Dev.wdogRuns (d : Dev) : Bool :=
  let restarting : Bool := d.get SVC.page SVC.FW_STAT.STATE == 3
  let within : Bool := match d.upd.startBy with | some t => decide (d.now < t) | none => true
  d.flag RST.page RST.WDOG_CFG.EN && !(restarting && within) && d.pwrState != pwrKeep

/-- The watchdog's last reload: by a kick, by the end of a restart, or as the 10 s for which a restart may stop it
end. -/
def Dev.wdogLast (d : Dev) : Nat := match d.upd.startBy with | some t => max d.wdogFrom t | none => d.wdogFrom

/-- Whether a part of the time-out, in halves, has passed since the last reload, by the time base (DESIGN CHOICE, log
entry 24). -/
def Dev.wdogPassed (d : Dev) (halves : Nat) : Bool :=
  decide (d.wdogLast + d.get RST.page RST.WDOG_CFG.TIMEOUT_MS * 500000 * nsU * halves ≤ d.now)

/-- R350: half the time-out has passed. -/
def execWatchdogWarn (s : State) : Host.Outcome State Fault Refusal :=
  onDev (fun d => d.when (d.wdogRuns && !d.wdogWarned && d.wdogPassed 1) (fun d =>
    (({ d with wdogWarned := true } : Dev).raise RST.page RST.INT_RAW.WDOG_WARN).count 0xF90)) s

/-- R350: the watchdog expires. -/
def execWatchdogExpiry (s : State) : Host.Outcome State Fault Refusal :=
  onMem (fun d m => if d.wdogRuns && d.wdogWarned && d.wdogPassed 2 then Dev.warmReset 5 0 clsWarm false d m else (d, m)) s

/-- R350, R307: WDOG_KICK, from the service cores only. -/
def execWdogKick (acc : Accessor) (s : State) : Host.Outcome State Fault Refusal :=
  onDev (fun d => if acc.isFw then { d with wdogWarned := false, wdogFrom := d.now } else d.refuseWrite RST.page RST.WDOG_KICK.KICK.off) s

/-- R346: RST_CMD; a wrong KEY is captured. -/
def execSoftwareReset (acc : Accessor) (value : BitVec 32) (s : State) : Host.Outcome State Fault Refusal :=
  onMem (fun d m =>
    let warm : Bool := getBits value RST.RST_CMD.WARM.lo 1 == 1
    let key : Bool := getBits value RST.RST_CMD.KEY.lo RST.RST_CMD.KEY.wd == 0xA5C3
    let held := acc.isFw && d.hostHolds RST.page
    if d.owns acc RST.page && !held && warm && key then Dev.warmReset 6 0 clsWarm false d m
    else (d.asOwner acc RST.page RST.RST_CMD.KEY.off (fun d =>
      if warm then d.err RST.page 0xC0 RST.RST_CMD.KEY.off else d) [(RST.RST_CMD.KEY.off, value)], m)) s

/-- R346: the JTAG instruction DEBUG_WARM, unless the fuse DEBUG_LOCKED disables it. -/
def execDebugWarmReset (s : State) : Host.Outcome State Fault Refusal :=
  onMem (fun d m => if d.flag SEC.page SEC.SEC_STAT.DEBUG_LOCKED then (d, m) else Dev.warmReset 7 0 clsWarm false d m) s

/-- R67: a handshake incomplete for 1 ms inside Felt (`island` 56 or above) or at a crossing that is not HELD; the
sequencer keeps the site (R381). -/
def execHandshakeLockup (island : Fin 64) (stage : BitVec 8) (s : State) : Host.Outcome State Fault Refusal :=
  onMem (fun d m =>
    let inside : Bool := 56 ≤ island.val
    if !d.released unitFelt || (!inside && d.xing island.val == xHeld) then (d, m) else
    let d := d.recordAlwaysOn 0x08 (stage.toNat * 2 ^ 8 + (if inside then 0x3F else island.val))
    Dev.warmReset 8 0 clsWarm true d m) s

/-- R346: a service core that is not halted retires no instruction for 1 ms; core 4 is SEC. -/
def execCoreLockup (core : Fin 5) (s : State) : Host.Outcome State Fault Refusal :=
  onMem (fun d m => if d.released 6 then Dev.warmReset 9 (core.val + 1) clsWarm false d m else (d, m)) s

/-! ### KEEP (R360, R361, R407) -/

/-- R360: the cores have halted: every island outside the keep-alive domain enters reset, DRAM refreshes itself,
PWR_KEEP_OUT rises. -/
def execKeepIslandsReset (s : State) : Host.Outcome State Fault Refusal :=
  onMem (fun d m => if !d.flag GLB.page GLB.PWR_STAT.CHANGING then (d, m) else
    let x := d.flushFirst false m
    let d := (x.1.islandsReset.set DRM.page DRM.DRM_STAT.SELF_REFRESH 1).set GLB.page GLB.PWR_STAT.CHANGING 0
    let d := (d.set GLB.page GLB.PWR_STAT.STATE pwrKeep).raise GLB.page GLB.INT_RAW.STATE_CHG
    (d.emit (.pin "PWR_KEEP_OUT" true), x.2)) s

/-- What a wake trigger does to the device, which was in KEEP or on its way into it (R361, R407): DRAM leaves its
self-refresh unless it waits for its PLL after a clock failure (R347). -/
def Dev.wakeBegin (trigger : Nat) (inKeep : Bool) (d : Dev) : Dev :=
  let d := if inKeep then d else d.islandsReset.set GLB.page GLB.PWR_STAT.CHANGING 0
  let d := (d.set GLB.page GLB.PWR_STAT.STATE pwrRun).set GLB.page GLB.PWR_STAT.LAST_WAKE trigger
  let d := (d.raise GLB.page GLB.INT_RAW.WAKE).raise GLB.page GLB.INT_RAW.STATE_CHG
  let d := if inKeep then d.emit (.pin "PWR_KEEP_OUT" false) else d
  let d := (if d.released 53 then d.set DRM.page DRM.DRM_STAT.SELF_REFRESH 0 else d).setCause 0xA 0 true
  let d : Dev := { d.restoredInPlace with
    wdogFrom := d.now, seqr := ⟨clsKeep, d.now, false, true, inKeep⟩ }
  d.optLoadStart.seqStart.regulate 75000

/-- R361: a wake trigger: the release starts at the option reload; where PWR_KEEP_OUT was high, it waits for the
supplies (R407). One that comes while KEEP is being entered puts the islands into reset first. -/
def Dev.wakeUp (trigger : Nat) (d : Dev) (m : List Host.Cell) : Dev × List Host.Cell :=
  let inKeep : Bool := d.pwrState == pwrKeep
  let x := d.flushFirst inKeep m
  (x.1.wakeBegin trigger inKeep, x.2)

/-- Whether KEEP stands or is being entered. -/
def Dev.keeps (d : Dev) : Bool := d.pwrState == pwrKeep || d.flag GLB.page GLB.PWR_STAT.CHANGING

/-- R361: WAKE_N low for 1 µs. -/
def execWakeNLow (s : State) : Host.Outcome State Fault Refusal :=
  onMem (fun d m => if d.keeps && d.flag GLB.page GLB.PWR_CFG.WAKE_N_EN then Dev.wakeUp 2 d m else (d, m)) s

/-- Whether the time base has reached the wake time (R361). -/
def Dev.wakeCome (d : Dev) : Bool := match d.wakeAt with | some t => decide (t ≤ d.now) | none => false

/-- R361: the time base reaches the wake time. -/
def execWakeTimeReached (s : State) : Host.Outcome State Fault Refusal :=
  onMem (fun d m =>
    if d.keeps && d.flag GLB.page GLB.PWR_CFG.WAKE_TIME_EN && d.wakeCome then Dev.wakeUp 3 d m else (d, m)) s

/-- R351, R361: PERST_N rises. -/
def execPerstNRise (s : State) : Host.Outcome State Fault Refusal :=
  onMem (fun d m =>
    let d : Dev := { d with pinPerstN := true }
    if d.keeps then Dev.wakeUp 4 d m else (d, m)) s

/-- R407: the supplies removed in KEEP are back in range. -/
def execKeepSupplyRestored (s : State) : Host.Outcome State Fault Refusal :=
  onDev (fun d => { d with seqr := { d.seqr with supplies := false } }) s

/-- R407: a supply still below its threshold 50 ms after the wake trigger: a brown-out. -/
def execKeepSupplyTimeout (s : State) : Host.Outcome State Fault Refusal :=
  if s.dev.seqr.supplies then execBrownOut s else .next s

end Sys2Proof.Machine
end

