-- ==== Sys2Proof/Machine/Release.lean ====
section
/-!
DEFINITION. Machine/Release.lean: the release after a reset (R29, R351 to R353): clocks, DRAM training, the pace check,
islands released in order with their pages restored (R355, R356), and the image that the service cores start (R323).
-/
namespace Sys2Proof.Machine

/-! ### Owners (R309, R310) -/

/-- A page's owner changed: uncommitted shadows are reloaded, what is staged for its tables with them, and a pending
interrupt goes to the new owner (R307). -/
def Dev.setOwner (d : Dev) (page owner : Nat) : Dev :=
  if d.owner page = owner then d else
  let staged := match pageOf page with | some (t, _) => d.dropStaged t | none => d
  let d := ((staged.discardAt page).set page COM.CTRL.OWNER owner).writeImage page
  if d.asserted page then d.sendSummary page else d

/-- The owner that the flash image gives a page at its start (R310); the page type's fixed owners stay. -/
def Dev.startOwner (d : Dev) (t : PageType) : Nat :=
  match t with
  | .tmb | .ref | .tsu | .dbl | .log | .svc => 1
  | .blk => if d.svcOn 4 then 1 else 0
  | .lkp | .mtr | .sch => 3
  | .sec | .opt => 2
  | _ => 0

/-- Owners set on pages whose own configuration did not come through (R310). -/
def Dev.startOwners (d : Dev) (pages : List Nat) : Dev :=
  pages.foldl (fun (d : Dev) p =>
    match pageOf p with
    | some (t, _) => if ownerFixed t || d.flag p COM.STAT.RESTORED || !d.pageUp p then d else d.setOwner p (d.startOwner t)
    | none => d) d

/-! ### Pages restored (R355, R356) -/

/-- A page's registers at their cold-reset values, the status as it has come through the reset (R357) and has been set
since: an image holds no status (R354), but that a list that is gone leaves none behind. -/
def coldRegs (t : PageType) (page : Nat) (regs : Tbl Word) : Tbl Word :=
  regs.filterMap (fun e =>
    if rkeyPage e.1 != page then some e else
    let m := if t == .gcl then 0xFFFFFFFF else configMask t (rkeyOff e.1)
    let m := if rkeyOff e.1 == 0x0C then m &&& ~~~COM.STAT.IMAGE_VOID.mask else m
    let w := (resetReg e.1 &&& m) ||| (e.2 &&& ~~~m)
    if w = resetReg e.1 then none else some (e.1, w))

/-- A page at its cold-reset values: registers, tables, and what stands beside them. -/
def Dev.coldPage (d : Dev) (t : PageType) (i page : Nat) : Dev :=
  let d : Dev := { d with regs := coldRegs t page d.regs }
  let d := d.coldTables (pageTables t)
  match t with
  | .blk => { d with resv := [], blkStage := [], blkPlan := none }
  | .gcl => { d with
      tables := tkeep (fun k => !(k / 67108864 == 48 && k / 64 % 1048576 / 2048 == i)) d.tables
      gclPorts := tset (fun _ => gclPort0) d.gclPorts i gclPort0 }
  | _ => d

/-- PAGE_RESTORE: cold values, option records where the image is not used, the image. `bad`: its CRC fails. -/
def Dev.restorePage (d : Dev) (page : Nat) (bad : Bool) : Dev :=
  match pageOf page with
  | none => d
  | some (t, i) =>
    if keptInPlace t then d else
    let uses := d.seqr.images && !neverRestored t
    let ok := uses && !bad && !d.flag page COM.STAT.IMAGE_VOID
    let shown (d : Dev) (restored : Bool) (source : Nat) : Dev :=
      (d.setFlag page COM.STAT.RESTORED restored).set GLB.page GLB.RESTORE_STAT.SOURCE source page
    if ok then shown d true 2
    else
      let d := (d.coldPage t i page).applyRecs page
      let d := d.setFlag page COM.STAT.IMAGE_VOID (!d.flag DRM.page DRM.DRM_STAT.TRAINED && (uses || d.flag page COM.STAT.IMAGE_VOID))
      shown d false (if uses then 4 else if (d.pageRecs page).isEmpty then 0 else 1)

/-- The pages of a unit of `rel`. -/
def unitPages (u : Nat) : List Nat :=
  if u = 2 then [REF.page, EVT.page, DBL.page]
  else if u = 4 then [FAB.page, LKP.page, MTR.page, BUF.page, VOQ.page, SCH.page, BLK.page, TAL.page, LOG.page]
  else if u = 5 then [PCI.page]
  else if u = 6 then [SVC.page, MBX.page 0, MBX.page 1]
  else if u = 7 then [CRN.page]
  else if 64 ≤ u ∧ u < 112 then [LNK.page (u - 64), PRT.page (u - 64), GCL.page (u - 64), TSU.page (u - 64)]
  else if u = 114 then [LNK.page 50, TSU.page 48]
  else if 112 ≤ u ∧ u < 115 then [LNK.page (u - 64)]
  else []

/-- The pages of a unit loaded at its release; running firmware sets their owners where it does so at its start
(R310). -/
def Dev.restorePages (d : Dev) (u : Nat) (crcFail : List (BitVec 16)) : Dev :=
  let d := (unitPages u).foldl (fun (d : Dev) p => d.restorePage p (crcFail.contains (BitVec.ofNat 16 p))) d
  if d.imageRuns then d.startOwners (unitPages u) else d

/-- A unit out of reset; its crossing to a running Felt resynchronizes (R83). -/
def Dev.releaseUnit (d : Dev) (u : Nat) : Dev :=
  let d := d.setReleased u true
  let x : Option Nat := if u = 2 then some 51 else if u = 5 then some 52 else if u = 53 then some 53
    else if u = 6 then some 54 else if u = 7 then some 55 else if 64 ≤ u ∧ u < 115 then some (u - 64) else none
  match x with
  | some i => if d.released unitFelt then d.crossingResync i else d
  | none => d

/-! ### The islands -/

/-- The keep-alive domain after a cold reset (R351, R266): the time base starts at 0 s 0 ns, SYN0 hops to its plan, the
outputs start. -/
def Dev.startKeepAlive (d : Dev) : Dev :=
  let d : Dev := { d.releaseUnit 1 with now := 0 }
  let d := (d.applyRecs SYN.page).applyRecs OUT.page |>.applyRecs DRM.page |>.applyRecs TMB.page
  let d := (List.range 4).foldl (fun (d : Dev) k => if d.synOn k then Dev.hopStart d d k false else d) d
  (d.refreshTime.checkPpm.refreshOuts).seqStep 3

/-- The bits of the REF page that hold the model: the coefficients, and of HO_CFG only T0 (R245). -/
def modelMask (off : Nat) : Word := if off = REF.HO_CFG.T0.off then REF.HO_CFG.T0.mask else shMask .ref off

/-- R245, R355 step 4: the REF page shows the model of the option store image applied. -/
def Dev.loadModel (d : Dev) : Dev :=
  let d := modelOffs.foldl (fun (d : Dev) off =>
    d.wr REF.page off ((d.rd REF.page off &&& ~~~modelMask off) ||| (tableReset .ref off &&& modelMask off))) d
  ((d.pageRecs REF.page).filter (fun r => modelOffs.contains (recOff r))).foldl (fun (d : Dev) r =>
    let m := modelMask (recOff r)
    d.wr REF.page (recOff r) ((d.rd REF.page (recOff r) &&& ~~~m) ||| (recValue r &&& m))) d

/-- The temperature at an entry into holdover that a release makes (R242): the external one in use, else what the
on-die sensor measures then, of which no update has told yet (a free value, log entry 147). -/
def Dev.entryTemp (d : Dev) : Dev :=
  let ext : Bool := d.flag REF.page REF.HO_CFG.TEMP_SRC && !d.flag REF.page REF.HO_STAT.TEMP_STALE
  let (k, d) := d.free
  let t := if ext then d.getInt REF.page REF.HO_TEMP.TEMP else (BitVec.ofNat 16 k).toInt
  { d with hoEntry := d.hoEntry.map (fun e => (t, e.2)) }

/-- The rest of the time-base island: every enabled slot makes a first qualification (R245), with HO_READY kept it
stands in holdover with the engine steering (R237, R242), the strap is sampled at the end of a cold reset (R280), the
interlock looks at its balls. -/
def Dev.startTimeBase (d : Dev) (crcFail : List (BitVec 16)) (strapB : Bool) : Dev :=
  let d := ((d.releaseUnit 2).restorePages 2 crcFail).loadModel
  let d := if d.seqr.cls = clsCold then
      ({ d with pinSideB := strapB } : Dev).setFlag DBL.page DBL.DBL_STAT.SIDE strapB else d
  let d := d.setFlag DBL.page DBL.DBL_STAT.OWN_IN d.pinOwnIn
  let d : Dev := { d with
    refMode := d.get REF.page REF.SWITCH_CMD.MODE, refSlot := d.get REF.page REF.SWITCH_CMD.SLOT
    dbl := { d.dbl with hbLast := d.now, lastEnd := d.now } }
  let d := if d.flag REF.page REF.REF_STAT.HO_READY then (d.setRefState refHoldover).hoEngage.entryTemp else d
  let d := refSlots.foldl (fun (d : Dev) i => if d.flag REF.page REF.SLOT_CFG.ENABLE i then d.slotStart i else d) d
  d.reselect.dblEval

/-- Felt (R146, R349, R381): its read of the time and the ageing sweep start, the lowest reading since release is the
present one (R71), rings rebuilt, pages restored, what the sequencer kept delivered to the recorder, the crossings of
the islands that run resynchronized. -/
def Dev.startFelt (d : Dev) (crcFail : List (BitVec 16)) : Dev :=
  let low := d.get FAB.page FAB.PACE_STAT.MIN
  let d := (d.setReleased unitFelt true).restorePages unitFelt crcFail
  let d : Dev := { d.set FAB.page FAB.PACE_STAT.LOW low with felt := d.now, sweptAt := d.now }
  let d := d.setFlag LOG.page LOG.LOG_STAT.DRAM_OK (d.flag DRM.page DRM.DRM_STAT.TRAINED)
  let d := d.setFlag VOQ.page VOQ.SPILL_STAT.NOT_READY (!d.flag DRM.page DRM.DRM_STAT.TRAINED)
  let d := d.ringRebuild.refreshFdb.blkShow
  let d := (List.range 50).foldl Dev.refreshPFrag d
  let kept := if d.flag LOG.page LOG.LOG_CFG.EN then d.lockSites else []
  let d : Dev := { d with logHeld := d.logHeld ++ kept, lockSites := [] }
  let timed := d.flag RST.page RST.RST_CAUSE.TIME_VALID
  let d := d.record 0x003 0x02 (d.get RST.page RST.RST_CAUSE.CAUSE * 2 ^ 28 + d.get RST.page RST.RST_CAUSE.DETAIL * 2 ^ 24
    + (if timed then 2 ^ 23 else 0)) (late := true) (time := if timed then d.seqr.t0 else d.now)
  let d := [2, 5, 53, 6, 7].foldl (fun (d : Dev) u => if d.released u then d.releaseUnit u else d) d
  d.seqStep 5

/-- The trims at a lane's release (R50, R51): no override holds, and the terminations are set against the fused
reference, to codes that are free values. -/
def Dev.startTrims (d : Dev) (l : Nat) : Dev :=
  let d := (List.range 14).foldl (fun (d : Dev) i => d.set (LNK.page l) LNK.TRIM_VAL.OVERRIDE 0 i) d
  [0x0A, 0x0B].foldl (fun (d : Dev) i =>
    let (k, d) := d.free
    d.setTrim l i (k % 16 : Nat)) d

/-- A lane island (R44): from OFF, unless a power state holds it there; a port whose banks are empty gets them from the
Blocker (R191), one whose loop-back came through the reset or from the option store is marked TEST (R61). A lane whose
ENABLE and GEN_EN have both come through the reset starts its link, not its generator (DESIGN CHOICE, log entry 146). -/
def Dev.startLane (d : Dev) (l : Nat) (crcFail : List (BitVec 16)) : Dev :=
  let d := ((d.releaseUnit (unitLane l)).restorePages (unitLane l) crcFail).startTrims l
  let d := if l < 48 then
      let d := if d.flag (GCL.page l) COM.STAT.RESTORED then d.refreshGcl l
        else if d.flag BLK.page COM.STAT.RESTORED then d.blkRewrite l else d
      let d := (d.setFlag (PRT.page l) PRT.PORT_STAT.TEST (d.loopMode l != 0)).refreshSoft l
      ((d.refreshIdle l).refreshPFrag l).rebalance
    else d
  let d := if d.powerOff l || !d.flag (LNK.page l) LNK.LNK_CFG.ENABLE then d else d.enterSignalWait l
  d.seqStep 6

/-- The PCIe island: the link comes up at a rate and width that the link partner decides (a free value). -/
def Dev.startPcie (d : Dev) (crcFail : List (BitVec 16)) : Dev :=
  let d := (d.releaseUnit 5).restorePages 5 crcFail
  let (k, d) := d.free
  let d := (d.set PCI.page PCI.PCI_STAT.LINK_UP 1).set PCI.page PCI.PCI_STAT.SPEED (pcieSpeed (k % 4 + 1))
  let d := d.set PCI.page PCI.PCI_STAT.WIDTH (pcieWidth (2 ^ (k / 4 % 3)))
  d.setFlag PCI.page PCI.PCI_STAT.W2_READY (d.flag DRM.page DRM.DRM_STAT.TRAINED)

/-! ### The image the cores start (R323, R326) -/

def Dev.slotImage (d : Dev) (i : Nat) : Option FlashImage := tget (fun _ => none) d.flash i

/-- Why a slot does not start: 0 it passes, 1 no image, 2 CRC, 3 signature, 4 version below the fuses'. -/
def imageCause (x : Option FlashImage) : Nat :=
  match x with
  | none => 1
  | some f => if !f.crcOk then 2 else if !(Config.keyFused && f.sigOk) then 3
      else if f.version.toNat < Config.minVersion.toNat then 4 else 0

/-- The slot to start among two: 1 A, 2 B, 0 the boot ROM; the higher version that passes and is confirmed. -/
def Dev.imagePick (d : Dev) : Nat :=
  let v (i : Nat) : Option Nat := match d.slotImage i with
    | some f => if imageCause (some f) = 0 && f.confirmed then some f.version.toNat else none
    | none => none
  match v 0, v 1 with
  | none, none => 0
  | some _, none => 1
  | none, some _ => 2
  | some a, some b => if a < b then 2 else 1

def failField (i : Nat) : Field := if i = 0 then SVC.FW_STAT.FAIL_A else SVC.FW_STAT.FAIL_B

/-- The image shown as the one the cores run. -/
def Dev.showImage (d : Dev) (pick : Nat) : Dev :=
  let v : Word := match d.slotImage (pick - 1) with | some f => if pick = 0 then 0 else f.version | none => 0
  (d.set SVC.page SVC.FW_STAT.IMAGE pick).wr SVC.page SVC.FW_VER.MAJOR.off v

/-- The recorder's note of the firmware's state (R36, R326). -/
def Dev.recordFw (d : Dev) (cause : Nat) : Dev :=
  d.record 0x038 0x10 (cause * 2 ^ 5 + d.get SVC.page SVC.FW_STAT.IMAGE * 2 ^ 3 + d.get SVC.page SVC.FW_STAT.STATE)

/-- FW_IMAGE_SELECT: each slot's cause, the image to start. After a warm reset that struck a trial, the trial's slot
shows cause 7; a slot that passes but has not been confirmed shows 6 (DEDUCED, log entry 31). -/
def Dev.imageSelect (d : Dev) : Dev :=
  let pick := d.imagePick
  let trial := if d.upd.trial then d.upd.target else 0
  let cause (i : Nat) : Nat :=
    let c := imageCause (d.slotImage i)
    if c ≠ 0 then c else if trial = i + 1 then 7
    else match d.slotImage i with | some f => if f.confirmed then 0 else 6 | none => 1
  let d := [0, 1].foldl (fun (d : Dev) i => d.set SVC.page (failField i) (cause i)) d
  let failed := [0, 1].filter (fun i => 2 ≤ cause i && cause i ≤ 4)
  let d := if failed.isEmpty then d else d.raise SVC.page SVC.INT_RAW.IMG_FAIL
  let d := if failed.any (fun i => 3 ≤ cause i) then d.raise SEC.page SEC.INT_RAW.AUTH_FAIL else d
  let d := if trial = 0 then d else d.raise SVC.page SVC.INT_RAW.ROLLBACK
  let d : Dev := { d with upd := { d.upd with trial := false } }
  let d := (d.showImage pick).set SVC.page SVC.FW_STAT.STATE 1
  let d := failed.foldl (fun (d : Dev) i => d.recordFw (cause i)) d
  let d := if trial = 0 then d else d.recordFw 7
  d.set SEC.page SEC.SEC_STAT.BOOT_OK 1

/-- The service cores: SEC checks the flash slots. -/
def Dev.startCores (d : Dev) (crcFail : List (BitVec 16)) : Dev :=
  let d := ((d.releaseUnit 6).restorePages 6 crcFail).imageSelect
  let d := d.set RST.page RST.SEQ_STAT.RELEASE_MS (min ((d.now - d.seqr.t0) / (1000000 * nsU)) 65535)
  d.seqStep 7

/-! ### Commands -/

/-- CLK_GOOD as the sequencer uses it: measured, or forced in JTAG test mode (R29). -/
def Dev.clockGood (d : Dev) (n : Nat) : Bool :=
  (d.get RST.page RST.CLK_GOOD.GOOD).testBit n || (d.testMode && (d.get RST.page RST.FORCE_CFG.FORCE).testBit n)

/-- An island whose clock was only forced good: its crossing holds (R29). -/
def Dev.forcedHold (d : Dev) (n x : Nat) : Dev :=
  if (d.get RST.page RST.CLK_GOOD.GOOD).testBit n then d else d.clockStop x

/-- R353: XO_IN not clock-good by t0 + 100 ms. -/
def execXoAbsentTimeout (s : State) : Host.Outcome State Fault Refusal :=
  onDev (fun d => d.when (d.seqr.cls != 0 && !d.waitsT0 && !d.xoOk) (fun d =>
    (d.set TMB.page TMB.TMB_STAT.BACKUP 1).set RST.page RST.SEQ_STAT.XO_ABSENT 1)) s

/-- Every page that may have an image. -/
def imagePages : List Nat :=
  ((List.range 320).filter hasImage)

/-- R351, R354: DRAM is trained, W2 is ready, the images marked void are written. -/
def execDramTrainingDone (rate : BitVec 16) (attempts : Fin 4) (s : State) : Host.Outcome State Fault Refusal :=
  onDev (fun d => d.when (d.released 53 && !d.flag DRM.page DRM.DRM_STAT.TRAINED && !d.flag RST.page RST.SEQ_STAT.DRAM_FAIL)
    (fun d =>
      let d := (d.set DRM.page DRM.DRM_STAT.TRAINED 1).set DRM.page DRM.DRM_STAT.RATE_MTS rate.toNat
      let d := d.set DRM.page DRM.DRM_STAT.TRAIN_TRY attempts
      let d := if d.released 5 then d.set PCI.page PCI.PCI_STAT.W2_READY 1 else d
      let d := imagePages.foldl (fun (d : Dev) p => if d.flag p COM.STAT.IMAGE_VOID then d.set p COM.STAT.IMAGE_VOID 0 else d) d
      d.seqStep 4)) s

/-- R353: training has failed after its retries. -/
def execDramTrainingFail (s : State) : Host.Outcome State Fault Refusal :=
  onDev (fun d => d.when (d.released 53 && !d.flag DRM.page DRM.DRM_STAT.TRAINED) (fun d =>
    (d.set DRM.page DRM.DRM_STAT.TRAIN_TRY 3).set RST.page RST.SEQ_STAT.DRAM_FAIL 1)) s

/-- Whether islands may leave reset: the options are loaded, supplies are back, and after a warm or clock-failure
reset at least 10 µs have passed (R352). -/
def Dev.mayRelease (d : Dev) : Bool :=
  d.seqr.loaded && !d.seqr.supplies
    && !((d.seqr.cls == clsWarm || d.seqr.cls == clsClock) && decide (d.now < d.seqr.t0 + 10000 * nsU))

/-- Whether the sequencer may go on to Felt: islands may leave reset, DRAM is trained and awake. -/
def Dev.feltReady (d : Dev) : Bool :=
  d.seqr.cls != 0 && d.mayRelease && !d.released unitFelt && d.released 1
    && d.flag DRM.page DRM.DRM_STAT.TRAINED && !d.flag DRM.page DRM.DRM_STAT.SELF_REFRESH
    && !d.flag RST.page RST.SEQ_STAT.DRAM_FAIL && !d.flag RST.page RST.SEQ_STAT.PACE_FAIL

/-- R75, R353: an attempt of the pace check ends: with the last 100 values of MIN at or above TARGET it passes and
Felt is released, or it is tried again, three times in all. Its readings come by PACE_READING. -/
def execPaceCheckAttempt (crcFail : List (BitVec 16)) (s : State) : Host.Outcome State Fault Refusal :=
  onDev (fun d => d.when d.feltReady (fun d =>
    let n := d.get RST.page RST.SEQ_STAT.PACE_TRY + 1
    let d := if n = 1 then d.loopStart else d
    let d := d.set RST.page RST.SEQ_STAT.PACE_TRY (min n 3)
    if d.pace.good = 100 then d.startFelt crcFail else
    let d : Dev := { d with pace := { d.pace with good := 0 } }
    if n < 3 then d.raise RST.page RST.INT_RAW.SEQ_RETRY
    else d.set RST.page RST.SEQ_STAT.PACE_FAIL 1)) s

/-- R351, R352: the sequencer releases a unit whose clock is good and whose turn it is: 1 the keep-alive domain, 2 the
rest of the time-base island, 53 DRAM, 5 PCIe, 64 + lane index, 7 Crown, 6 the service cores (Felt comes with its pace
check). `crcFail` are the pages whose image's CRC fails, `strapB` the level of DBL_SIDE. -/
def execIslandRelease (unit : Fin 128) (crcFail : List (BitVec 16)) (strapB : Bool) (s : State) :
    Host.Outcome State Fault Refusal :=
  onDev (fun d =>
    let u := unit.val
    let xo := d.xoOk || d.flag TMB.page TMB.TMB_STAT.BACKUP || d.clockGood 0
    let on := d.mayRelease && d.pwrState != pwrKeep
    let felt := d.released unitFelt
    if d.released u then d
    else if u = 1 then d.when (on && xo) Dev.startKeepAlive
    else if u = 53 then d.when (d.seqr.cls != 0 && d.released 1 && d.clockGood 4) (fun d =>
      (d.set DRM.page DRM.DRM_STAT.SELF_REFRESH 0).releaseUnit 53 |>.forcedHold 4 53)
    else if u = 2 then d.when (on && d.released 1 && d.clockGood 2) (fun d => (d.startTimeBase crcFail strapB).forcedHold 2 51)
    else if u = 5 then d.when (on && d.clockGood 3 && d.pinPerstN) (fun d => (d.startPcie crcFail).forcedHold 3 52)
    else if u = 7 then d.when (felt && d.clockGood 6) (fun d =>
      (((d.releaseUnit 7).restorePages 7 crcFail).seqStep 6).forcedHold 6 55)
    else if u = 6 then d.when (felt && d.seqr.cls != 0 && d.clockGood 5) (fun d => (d.startCores crcFail).forcedHold 5 54)
    else if 64 ≤ u ∧ u < 115 then d.when (felt && d.clockGood 1) (fun d => (d.startLane (u - 64) crcFail).forcedHold 1 (u - 64))
    else d) s

end Sys2Proof.Machine
end

