-- ==== Sys2Proof/Machine/Restart.lean ====
section
/-!
DEFINITION. Machine/Restart.lean: what services stand on (R302), and restarts of the service cores with trials and rollback
(R325, R326).
-/
namespace Sys2Proof.Machine

/-! ### Services (R302) -/

def Dev.svcDegraded (d : Dev) (n : Nat) : Bool := d.flag SVC.page SVC.SVC_STAT.DEGRADED n

/-- FW_STAT.STATE of running firmware: degraded while a service is (DEDUCED, log entry 32). -/
def Dev.fwStateShow (d : Dev) : Dev :=
  if !d.fwRuns then d else
  d.set SVC.page SVC.FW_STAT.STATE (if (List.range svcCount).any d.svcDegraded then 4 else 2)

/-- A service's commands are answered: it is enabled, a flash image runs, no page of its is taken (R322). -/
def Dev.svcUp (d : Dev) (n : Nat) : Bool := d.svcOn n && d.imageRuns && !d.svcDegraded n

/-! ### Restarts (R325) -/

/-- Whether a channel is in use: it has carried a notice since reset (DESIGN CHOICE, log entry 33), MB30 while the
Doublet link is up. -/
def Dev.mbxInUse (d : Dev) (ch : Nat) : Bool :=
  if ch < 28 then d.mbxGet ch MBX.CH_CNT.SENT_CNT != 0 || d.mbxFull ch false || d.mbxFull ch true
  else ch == 30 && d.twinLink

/-- The bytes of the image in a slot (1 A, 2 B), none for the boot ROM. -/
def Dev.imageBytes (d : Dev) (slot : Nat) : List (BitVec 8) :=
  if slot = 0 then [] else match d.slotImage (slot - 1) with | some f => f.data | none => []

/-- A restart begins onto a slot (0 boot ROM, 1 A, 2 B): running firmware sends RESTARTING on the channels in use and
writes its continuity record (R325). -/
def Dev.restartBegin (d : Dev) (target : Nat) : Dev :=
  let d := if d.fwRuns then (List.range 32).foldl (fun (d : Dev) ch =>
      if d.mbxInUse ch then d.fwSend ch (mkNotice 2 0 0x10 0 0 0) [] else d) d else d
  let d : Dev := { d with upd := { d.upd with
    target := target, startBy := some (d.now + 10 * secU), record := d.imageBytes (d.get SVC.page SVC.FW_STAT.IMAGE) } }
  let d := (d.set SVC.page SVC.FW_STAT.STATE 3).raise SVC.page SVC.INT_RAW.RESTART_START
  d.recordFw 0

/-- A restart on the running image; a trial that runs goes on. -/
def Dev.restartSame (d : Dev) : Dev := d.restartBegin (d.get SVC.page SVC.FW_STAT.IMAGE)

/-- R325: SVC.RESTART_CMD; while a restart runs, or the firmware has not started, it changes nothing. -/
def execSvcRestart (acc : Accessor) (s : State) : Host.Outcome State Fault Refusal :=
  onFw (fun d _ => d.asOwner acc SVC.page SVC.RESTART_CMD.RESTART.off (fun d => d.when d.fwRuns Dev.restartSame)
    SVC.RESTART_CMD.RESTART.strike) s

/-- R319, R325: the cores halt: firmware's WAIT bits clear, FULL flags keep their values, what firmware had read or had
still to send is gone, EP49 is a port that is down. -/
def execRestartCoresHalted (s : State) : Host.Outcome State Fault Refusal :=
  onDev (fun d => d.when (d.get SVC.page SVC.FW_STAT.STATE == 3 && !d.fwDown) (fun d =>
    let d := (List.range 32).foldl (fun (d : Dev) ch => (d.mbxSet ch MBX.CH_STAT.FROMFW_WAIT 0).mbxMirror ch) d
    let d : Dev := { d with fwCmds := [], fwOut := [], fwDown := true }
    (d.txAbort 49).holdStart 49 false)) s

/-- The image runs: it is shown, its services run on their cores. -/
def Dev.servicesStart (d : Dev) (fresh : Bool) : Dev :=
  let d := d.set SVC.page SVC.FW_STAT.STATE 2
  let d := (List.range svcCount).foldl (fun (d : Dev) n =>
    let d := d.svcRefresh n
    let d := if d.imageRuns && n = 8 then d.set SVC.page SVC.SVC_STAT.ON_SEC 1 n else d
    if fresh && d.imageRuns && n < 8 then d.set SVC.page SVC.SVC_STAT.CORE_NOW (d.get SVC.page SVC.SVC_CFG.CORE n) n else d) d
  d.fwStateShow

/-- The first start after a release: the flash image sets the owners, and the release is over (R348, R351). -/
def Dev.firstStart (d : Dev) : Dev :=
  let d := d.servicesStart true
  let d := if d.imageRuns then d.startOwners (List.range 320) else d
  let d : Dev := { d.seqStep 9 with seqr := { d.seqr with cls := 0 } }
  d.recordFw 0

/-- Services that start fresh have nothing of what they held (R325). -/
def Dev.servicesFresh (d : Dev) : Dev :=
  { d with neigh := [], ptpInst := [], ptpPort := [], lldpPort := [], hiRuns := [], latent := [], twinRestart := none
           epashCfg := 0, learn := [], hoNext := none }

/-- The end of a restart: the image it was for, as a trial if it is one; EP49 is up again. Services go on from the
continuity record where the image has its format, and start fresh otherwise; firmware that comes after the boot ROM
sets the owners (R310). -/
def Dev.restartEnd (d : Dev) : Dev :=
  let trial := d.upd.trial
  let was := d.get SVC.page SVC.FW_STAT.IMAGE
  let next := d.imageBytes d.upd.target
  let fresh : Bool := d.upd.record != next && Config.recordFormat d.upd.record != Config.recordFormat next
  let d := (if fresh then d.servicesFresh else d).showImage d.upd.target
  let starts : Bool := trial && !d.flag SVC.page SVC.FW_STAT.TRIAL
  let d : Dev := { d with
    fwDown := false, wdogWarned := false, wdogFrom := d.now
    upd := { d.upd with
      startBy := none, staged := none
      confirmBy := if starts then some (d.now + d.upd.confirmS * secU) else d.upd.confirmBy } }
  let d := d.setFlag SVC.page SVC.FW_STAT.TRIAL trial
  let d := if starts then (d.set SVC.page SVC.UPD_STAT.STATE 3).raise SVC.page SVC.INT_RAW.TRIAL else d
  let d := d.servicesStart fresh
  let d := if was = 0 && d.imageRuns then d.startOwners (List.range 320) else d
  let d := (d.holdRelease 49).raise SVC.page SVC.INT_RAW.RESTART_DONE
  d.recordFw 0

/-- R325, R351: the services run: the end of a restart, or of the start after a release. -/
def execRestartDone (s : State) : Host.Outcome State Fault Refusal :=
  onFw (fun d _ =>
    let st := d.get SVC.page SVC.FW_STAT.STATE
    if !d.released 6 then d
    else if st = 1 then d.firstStart
    else if st = 3 ∧ d.fwDown then d.restartEnd
    else d) s

/-! ### Rollback (R326) -/

/-- The trial's slot fails for a cause, and a restart onto the previous slot begins. UPD_STAT shows failed (DESIGN
CHOICE, log entry 34). -/
def Dev.rollback (d : Dev) (cause : Nat) : Dev :=
  let slot := d.upd.target
  let d := d.set SVC.page (failField (slot - 1)) cause
  let d := (d.set SVC.page SVC.UPD_STAT.STATE 4).set SVC.page SVC.FW_STAT.TRIAL 0
  let d := (d.raise SVC.page SVC.INT_RAW.ROLLBACK).recordFw cause
  let d : Dev := { d with upd := { d.upd with trial := false, confirmBy := none, staged := none } }
  d.restartBegin d.upd.prev

/-- Whether an instant that was set has come. -/
def Dev.due (d : Dev) (t : Option Nat) : Bool := match t with | some t => decide (t ≤ d.now) | none => false

/-- R326: no CONFIRM within the confirmation time. -/
def execTrialConfirmTimeout (s : State) : Host.Outcome State Fault Refusal :=
  onFw (fun d _ => d.when (d.due d.upd.confirmBy && d.upd.trial && d.flag SVC.page SVC.FW_STAT.TRIAL && d.fwRuns) (·.rollback 6)) s

/-- R326: the trial's services do not run within 10 s. -/
def execTrialStartTimeout (s : State) : Host.Outcome State Fault Refusal :=
  onFw (fun d _ => d.when (d.due d.upd.startBy && d.upd.trial && d.get SVC.page SVC.FW_STAT.STATE == 3) (·.rollback 5)) s

end Sys2Proof.Machine
end

