-- ==== Sys2Proof/Machine/Registers.lean ====
section
/-!
DEFINITION. Machine/Registers.lean: single register accesses (R19, R307, R308, R390 to R402): what a read returns, what a
write of any register does, and the commands that stand for register accesses: REGISTER_WRITE, the common part of a page,
the I2C and Crown windows (R337, R345).
-/
namespace Sys2Proof.Machine

/-! ### The instance that a register shows (R308, R397) -/

/-- The value of an accessor's selector. -/
def Dev.selVal (d : Dev) (acc : Accessor) (page : Nat) (f : Field) : Nat := d.get page f acc.idx

/-- The instance of the register file that an access reaches; none: the selector names nothing, which reads 0. -/
def Dev.instOf (d : Dev) (acc : Accessor) (t : PageType) (page off : Nat) : Option Nat :=
  let s (f : Field) (n : Nat) : Option Nat := let v := d.selVal acc page f; if v < n then some v else none
  if perAccessor t off then some acc.idx else
  match t with
  | .glb => if off = GLB.RESTORE_STAT.SOURCE.off then some (d.selVal acc page GLB.RESTORE_SEL.PAGE) else some 0
  | .sec => if off = SEC.KEYHASH.HASH.off then s SEC.KEYHASH_SEL.WORD 12 else some 0
  | .svc => if off = SVC.SVC_CFG.PIN.off || off = SVC.SVC_STAT.LOAD.off then s SVC.SVC_SEL.SVC svcCount else some 0
  | .pci => if off = PCI.PCI_ID.VENDOR.off then some (if acc = .host1 then 1 else 0)
      else if PCI.RING_BASE_LO.BASE_LO.off ≤ off && off ≤ PCI.RING_STAT.HEAD.off then s PCI.RING_SEL.RING 16 else some 0
  | .crn => if off = CRN.TRIP_MAP.HANDLE.off then s CRN.TRIP_SEL.FLAG 32 else some 0
  | .fab => if off = FAB.XING_STAT.STATE.off then s FAB.XING_SEL.INDEX 56 else some 0
  | .buf =>
    if 0x48 ≤ off && off ≤ 0x54 then s BUF.POOL_SEL.POOL 4
    else if off = BUF.INPUT_STAT.USAGE_KIB.off then s BUF.INPUT_SEL.EP 50
    else if off = BUF.BANK_STAT.LOAD.off then s BUF.BANK_SEL.BANK 96 else some 0
  | .sch => if 0x48 ≤ off && off ≤ 0x50 then s SCH.PORT_SEL.EP 50 else some 0
  | .blk =>
    if 0x50 ≤ off && off ≤ 0x54 then s BLK.PORT_SEL.PORT 48
    else if off = BLK.REQ_LO.DATA_LO.off || off = BLK.REQ_MID.DATA_MID.off then
      some (reqSel acc (d.selVal acc page BLK.REQ_ADDR.WORD))
    else some 0
  | .tal =>
    if 0x70 ≤ off && off ≤ 0x78 then s TAL.SMP_SEL.SMP 4
    else if off = TAL.WATCH_CFG.HANDLE.off then s TAL.WATCH_SEL.SET 128 else some 0
  | .ref => if 0x54 ≤ off && off ≤ 0x64 then s REF.SLOT_SEL.SLOT 16 else some 0
  | .evt => s EVT.EVT_SEL.EVT 8
  | .dbl => if off = DBL.RED_CFG.MODE.off then s DBL.RED_SEL.PAIR 4 else some 0
  | .syn =>
    let k := d.selVal acc page SYN.SYN_SEL.SYN
    if SYN.PLAN_N.N_INT.off ≤ off && off ≤ SYN.PLAN_DEN.DEN.off then some (planSel k (d.selVal acc page SYN.PLAN_SEL.PLAN))
    else if off = 0x64 then some 0 else some k
  | .out => s OUT.OUT_SEL.OUT 12
  | .lnk => if off = LNK.TRIM_VAL.VALUE.off then some (d.selVal acc page LNK.TRIM_SEL.INDEX) else some 0
  | .gcl => if 0x4C ≤ off && off ≤ 0x54 then s GCL.BANK_SEL.BANK 2 else some 0
  | _ => some 0

/-! ### Reads -/

/-- STAT.DIRTY: a shadow, of a register or of a table, holds a value that differs from the committed one. -/
def Dev.dirty (d : Dev) (t : PageType) (page : Nat) : Bool :=
  let tab (lo hi : Nat) : Bool := d.tabShadow.any (fun e =>
    decide (lo ≤ e.1 / 67108864) && decide (e.1 / 67108864 ≤ hi) && e.2 != tget resetTable d.tables e.1)
  !(d.dirtyKeys page).isEmpty || (t == .sch && tab 32 35) || (t == .crn && tab 53 53)

/-- COMMIT_STAT.PENDING: an accepted COMMIT waits for its instant (R32). -/
def Dev.commitPending (d : Dev) (t : PageType) (i page : Nat) : Bool :=
  match t with
  | .lkp | .mtr => d.pendingCommit && d.commitPage == page
  | .gcl => (d.gclPort i).swapAt.isSome && !(d.gclPort i).blocker
  | .out => d.outFrom.any (fun e => e.2.isSome)
  | .tal => d.freezeAt.isSome && !d.collecting
  | .ref => !d.refPend.isEmpty
  | _ => false

/-- A field at its place in a word. -/
def Field.place (f : Field) (v : Nat) : Word := setBits 0 f.lo f.wd v

/-- Registers whose contents other state gives. -/
def Dev.computedReg (d : Dev) (acc : Accessor) (t : PageType) (i off : Nat) : Option Word :=
  match t with
  | .voq =>
    if off = VOQ.SPILL_STAT.REFUSING.off then
      some (d.rd VOQ.page off &&& ~~~VOQ.SPILL_STAT.REFUSING.mask
        ||| VOQ.SPILL_STAT.REFUSING.place (if d.refusing spillAny then 1 else 0)) else
    let v := d.selVal acc VOQ.page VOQ.VOQ_SEL.INDEX
    let q := d.voq v
    let on (w : Word) : Option Word := some (if v < 20000 then w else 0)
    if off = VOQ.VOQ_DEPTH.BYTES.off then on (VOQ.VOQ_DEPTH.BYTES.place (d.voqBytes v))
    else if off = VOQ.VOQ_FRAMES.FRAMES.off then
      on (VOQ.VOQ_FRAMES.FRAMES.place (q.sram.length + q.copying.length) ||| VOQ.VOQ_FRAMES.HELD.place (if d.voqHeld v then 1 else 0)
        ||| VOQ.VOQ_FRAMES.SPILLING.place (if q.spilling then 1 else 0))
    else if off = VOQ.VOQ_SPILL.LINES.off then
      on (VOQ.VOQ_SPILL.LINES.place ((q.tail.map (fun n => linesOf (d.frameLen n))).sum))
    else none
  | .blk =>
    let w := (d.rspQueue.head?.getD []).getD (d.selVal acc BLK.page BLK.RSP_ADDR.WORD) 0
    if off = BLK.RSP_LO.DATA_LO.off then some (w.truncate 32)
    else if off = BLK.RSP_MID.DATA_MID.off then some ((w >>> 32).truncate 32)
    else none
  | .tal =>
    let k := d.selVal acc TAL.page TAL.CNT_SEL.INDEX
    let n := if d.flag TAL.page TAL.SNAP_STAT.VALID then tget (fun _ => 0) d.snap k else 0
    if off = TAL.CNT_LO.COUNT_LO.off then some (BitVec.ofNat 32 (d.countShown k))
    else if off = TAL.SNAP_LO.COUNT_LO.off then some (BitVec.ofNat 32 n)
    else if off = TAL.SNAP_HI.COUNT_HI.off then some (BitVec.ofNat 32 (n / 2 ^ 32))
    else none
  | .out => if off = OUT.ALIGN_ERR.PS.off then
      let o := d.selVal acc OUT.page OUT.OUT_SEL.OUT
      some (if o < 12 then (d.showErr o).rd OUT.page off o else 0) else none
  | .gcl => if off = GCL.WINMAX.WIN_NS.off then
      some (GCL.WINMAX.WIN_NS.place (d.winMax i (d.selVal acc (GCL.page i) GCL.WINMAX_SEL.CLASS))) else none
  | .crn => if off = CRN.CRN_STAT.CLK_OK.off then
      some (d.rd CRN.page off ||| CRN.CRN_STAT.CLK_OK.place (if d.clockGood 6 && !d.pageHeld CRN.page then 1 else 0)) else none
  | .mbx =>
    if off < 0x100 ∨ 0x300 ≤ off then none else
    let ch := 16 * i + (off - 0x100) / 32
    let r := (off - 0x100) % 32
    let half (fw : Bool) : Option Word :=
      let n := d.noticeHeld (mbxNo ch fw)
      some (if !d.mbxFull ch fw then 0 else if r % 8 < 4 then n.truncate 32 else (n >>> 32).truncate 32)
    if r < 8 then half false else if r < 16 then half true else none
  | _ => none

/-- What a read of a register returns to an accessor (R394, R397, R307, R308, R20); function 0 and the controller do not
reach MBX[1] (R329). -/
def Dev.readReg (d : Dev) (acc : Accessor) (page off : Nat) : Word :=
  match pageOf page with
  | none => 0
  | some (t, i) =>
    if t = .mbx ∧ i = 1 ∧ (acc = .host0 ∨ acc = .controller) then 0
    else if off = 0x08 then (d.rd page 8 &&& COM.CTRL.OWNER.mask) ||| (d.rd page 8 acc.idx &&& COM.CTRL.VIEW.mask)
    else if off = 0x0C then d.rd page off ||| COM.STAT.DIRTY.place (if d.dirty t page then 1 else 0)
    else if off = 0x18 then d.intPend page
    else if off = 0x20 then d.rd page off ||| COM.COMMIT_STAT.PENDING.place (if d.commitPending t i page then 1 else 0)
    else if off < 0x40 then d.rd page off
    else match d.computedReg acc t i off with
      | some w => w
      | none =>
        match d.instOf acc t page off with
        | none => 0
        | some k => if d.flag page COM.CTRL.VIEW acc.idx then d.rdShadow t page off k else d.rd page off k

/-- A read with what it does: all ones from an island in reset (R392); CNT_LO latches CNT_HI (R367); the die's
temperature is a free value. -/
def Dev.readBy (d : Dev) (acc : Accessor) (page off : Nat) : Word × Dev :=
  if !d.pageUp page then (0xFFFFFFFF, d.accessInReset page)
  else if page = TAL.page ∧ off = TAL.CNT_LO.COUNT_LO.off then
    let n := d.countShown (d.selVal acc page TAL.CNT_SEL.INDEX)
    (BitVec.ofNat 32 n, d.set page TAL.CNT_HI.COUNT_HI (n / 2 ^ 32) acc.idx)
  else if page = GLB.page ∧ off = GLB.JUNCTION.TEMP.off then
    let (k, d) := d.free
    (GLB.JUNCTION.TEMP.place k, d)
  else (d.readReg acc page off, d)

/-- R401: the summary area as a PCIe function sees it. -/
def Dev.readSummary (d : Dev) (fn off : Nat) : Word :=
  if off = 0x40 then BitVec.ofNat 32 d.accStat
  else if off < 0x28 then
    BitVec.ofNat 32 ((List.range 32).foldl (fun n b => if d.summaryBit fn (off / 4 * 32 + b) then n + 2 ^ b else n) 0)
  else 0

/-! ### Writes of the common part (R394, R307, R309) -/

/-- Whether a host write is of the kind that may take a page (R309). -/
def hostWrite (acc : Accessor) : Bool := acc == .host0 || acc == .controller

/-- The host has taken a page from firmware: it is recorded, and the services that write it are degraded. -/
def Dev.pageTaken (d : Dev) (page : Nat) : Dev :=
  if !d.released 6 then d else
  let d := (d.set SVC.page SVC.OWN_TAKEN.PAGE page).raise SVC.page SVC.INT_RAW.OWN_TAKEN
  match pageOf page with
  | none => d
  | some (t, _) =>
    ((List.range svcCount).foldl (fun (d : Dev) n =>
      if (svcWrites n).contains t && d.flag SVC.page SVC.SVC_STAT.RUNNING n && !d.svcDegraded n then
        (d.set SVC.page SVC.SVC_STAT.DEGRADED 1 n).raise SVC.page SVC.INT_RAW.SVC_DOWN
      else d) d).fwStateShow

/-- CTRL written: everyone sets its own VIEW; OWNER and SOFT_RST are the owner's, but that the host may take a page that
is not SECURE (R307, R309). -/
def Dev.writeCtrl (d : Dev) (acc : Accessor) (page : Nat) (v : Word) : Dev :=
  match pageOf page with
  | none => d
  | some (t, _) =>
    let d := d.set page COM.CTRL.VIEW (getBits v COM.CTRL.VIEW.lo 1) acc.idx
    let owner := getBits v COM.CTRL.OWNER.lo 2
    let soft : Bool := getBits v COM.CTRL.SOFT_RST.lo 1 == 1
    let was := d.owner page
    let takes : Bool := hostWrite acc && owner == 0 && was != 2
    let mine := d.owns acc page
    let d := if soft && mine then d.softReset acc page
      else if soft then d.refuseWrite page 8 else d
    if ownerFixed t || !(mine || takes) then d
    else
      let d := d.setOwner page owner
      if takes && (was == 1 || was == 3) then d.pageTaken page else d

/-- INT_RAW written: the bits clear but those that an event raises on the same tick (R395); the vector is sent again
where the summary bit stays (R401). -/
def Dev.clearRaw (d : Dev) (page : Nat) (bits raised : Word) : Dev :=
  match pageOf page with
  | none => d
  | some _ => (d.wr page 0x10 (d.rd page 0x10 &&& ~~~(bits &&& ~~~raised))).sendSummary page

def Dev.writeIntEn (d : Dev) (t : PageType) (page : Nat) (v : Word) : Dev :=
  ((d.wr page 0x14 (v &&& rawMask t)).writeImage page).sendSummary page

/-- ERR_INFO written: a 1 in VALID clears the capture (R394). -/
def Dev.clearErr (d : Dev) (page : Nat) (v : Word) : Dev :=
  if getBits v COM.ERR_INFO.VALID.lo 1 = 1 then d.wr page COM.ERR_INFO.VALID.off 0 else d

/-! ### Writes of block registers by access code (R19) -/

/-- The bits of a register with an access code. -/
def accMask (t : PageType) (off : Nat) (a : Acc) : Word :=
  ((fieldsAt t off).filter (fun f => f.acc == a)).foldl (fun w f => w ||| f.mask) 0

/-- An RW value outside its stated range (R399); a bank's header may stay outside R175 until its swap (R176). -/
def rwBad (t : PageType) (off : Nat) (v : Word) : Bool :=
  match t with
  | .buf => (off == BUF.INPUT_SEL.EP.off && 50 ≤ getBits v 0 6) || (off == BUF.BANK_SEL.BANK.off && 96 ≤ getBits v 0 7)
  | .lnk => off == LNK.PRBS_CFG.PATTERN.off && 6 ≤ getBits v LNK.PRBS_CFG.PATTERN.lo 3
  | _ => false

/-- SH bits go to the shadow, RW bits to the register, a 1 clears a W1C bit; RO bits stay. -/
def Dev.storeReg (d : Dev) (t : PageType) (page off k : Nat) (v : Word) : Dev :=
  let sh := shMask t off
  let rw := accMask t off .rw
  let wc := accMask t off .w1c
  let d := if sh = 0 then d else d.wrShadow t page off k v
  let d := if wc = 0 then d else d.wr page off (d.rd page off k &&& ~~~(v &&& wc)) k
  if rw = 0 then d
  else if rwBad t off v then d.err page 0x08 off
  else
    let d := d.wr page off ((d.rd page off k &&& ~~~rw) ||| (v &&& rw)) k
    if perAccessor t off then d else d.writeImage page

/-- A register that anyone may write (R307, R308): selectors, windows, the Blocker's request words. -/
def anyWrites (t : PageType) (off : Nat) : Bool :=
  perAccessor t off || (t == .blk && (off == BLK.REQ_LO.DATA_LO.off || off == BLK.REQ_MID.DATA_MID.off))

/-- A selector or a window register written. -/
def Dev.writeWindow (d : Dev) (acc : Accessor) (t : PageType) (i page off : Nat) (v : Word) : Dev :=
  match winOf t i with
  | some w =>
    if off = w.index.off then d.winAddress w acc v
    else if off = w.lo.off || off = w.mid.off then d.winWriteData w acc off v
    else if off = w.ecc.off then d
    else d.storeReg t page off ((d.instOf acc t page off).getD acc.idx) v
  | none => d.storeReg t page off ((d.instOf acc t page off).getD acc.idx) v

/-- A bank's header of a gate control list is written while the bank is the shadow, no swap waits and the Blocker does
not own the port; else RESULT 3 (R177, R178). -/
def Dev.writeHeader (d : Dev) (acc : Accessor) (i off k : Nat) (v : Word) : Dev :=
  let p := GCL.page i
  if k = d.activeBank i ∨ d.flag p GCL.GCL_STAT.SWAP_PENDING ∨ d.flag p GCL.GCL_STAT.BLOCKER_OWN then
    d.winResult (gclWin i) acc 3
  else d.storeReg .gcl p off k v

/-- A block register written by an accessor that may write it. -/
def Dev.writeBlockReg (d : Dev) (acc : Accessor) (t : PageType) (i page off : Nat) (v : Word) : Dev :=
  match d.instOf acc t page off with
  | none => d
  | some k =>
    if t = .gcl ∧ 0x4C ≤ off ∧ off ≤ 0x54 then d.writeHeader acc i off k v
    else if t = .rst ∧ off = RST.FORCE_CFG.FORCE.off ∧ !d.testMode then d
    else
      let d := if t = .fab ∧ off = 0x44 then ({ d with avsWritten := true } : Dev) else d
      let d := if t = .syn ∧ SYN.PLAN_N.N_INT.off ≤ off ∧ off ≤ SYN.PLAN_DEN.DEN.off then d.forgetBand (k / 8) (k % 8) else d
      d.storeReg t page off k v

/-! ### Registers with a command of their own -/

/-- What a command leaves; a meaning of this model always answers a next state. -/
def after (f : State → Host.Outcome State Fault Refusal) (s : State) : State :=
  match f s with
  | .next t => t
  | .fault _ => s
  | .refused _ => s

def struck (v : Word) (f : Field) : Bool := getBits v f.lo f.wd != 0

/-- Commands of several bits of one register, in order. -/
def strikes (v : Word) (l : List (Field × (State → Host.Outcome State Fault Refusal))) (s : State) : State :=
  l.foldl (fun s e => if struck v e.1 then after e.2 s else s) s

/-- ENTRY_CMD of a page: the operation that OP names; a reserved one is discarded (DESIGN CHOICE, log entry 35). -/
def entryOp (acc : Accessor) (t : PageType) (i op : Nat) : Option (State → Host.Outcome State Fault Refusal) :=
  match t, op with
  | .lkp, 1 => some (execLkpRead acc)
  | .lkp, 2 => some (execLkpStageWrite acc)
  | .lkp, 3 => some (execLkpStageDelete acc)
  | .lkp, 4 => some (execLkpReadKey acc)
  | .lkp, 5 => some (execLkpLookup acc)
  | .lkp, 6 => some (execLkpStageInsert acc)
  | .lkp, 7 => some (execLkpStageClear acc)
  | .lkp, 8 => some (execLkpFlushDynamic acc)
  | .mtr, 1 => some (execMtrRead acc)
  | .mtr, 2 => some (execMtrStageWrite acc)
  | .mtr, 3 => some (execMtrStageDelete acc)
  | .mtr, 9 => some (execMtrResetState acc)
  | .sch, 1 => some (execSchRead acc)
  | .sch, 2 => some (execSchWriteShadow acc)
  | .sch, 3 => some (execSchReadShadow acc)
  | .sch, 4 => some (execSchReadClr acc)
  | .sch, 5 => some (execSchClearTable acc)
  | .blk, 1 => some (execBlkLaunchRead acc)
  | .blk, 2 => some (execBlkLaunchWrite acc)
  | .blk, 3 => some (execBlkLaunchDelete acc)
  | .dbl, 1 => some (execDblEntryRead acc)
  | .dbl, 2 => some (execDblEntryWrite acc)
  | .dbl, 3 => some (execDblResetRec acc)
  | .crn, 1 => some (execCrnReadLive acc)
  | .crn, 2 => some (execCrnWriteShadow acc)
  | .crn, 3 => some (execCrnReadShadow acc)
  | .crn, 4 => some (execCrnPublish acc)
  | .gcl, 1 => some (execGclRead acc (Fin.ofNat 48 i))
  | .gcl, 2 => some (execGclWrite acc (Fin.ofNat 48 i))
  | _, _ => none

/-- The RW bits of a register that also has command bits, written as the owner's. -/
def rwBits (acc : Accessor) (t : PageType) (page off : Nat) (v : Word) (s : State) : State :=
  { s with dev := s.dev.asOwner acc page off (·.storeReg t page off 0 v) [(off, v)] }

/-- PRBS_CFG written: its pattern, inversion and checker, the generator on or off, and the two commands. A generator
that runs goes on with the new pattern, and the lock ends where the checker goes off or expects another pattern. -/
def writePrbs (acc : Accessor) (i : Nat) (v : Word) (s : State) : State :=
  let lane : Fin 51 := Fin.ofNat 51 i
  let p := LNK.page i
  let off := LNK.PRBS_CFG.GEN_EN.off
  let on := s.dev.flag p LNK.PRBS_CFG.GEN_EN
  if rwBad .lnk off v then { s with dev := s.dev.asOwner acc p off (·.err p 0x08 off) [(off, v)] } else
  let keep := (v &&& ~~~LNK.PRBS_CFG.GEN_EN.mask) ||| (if on then LNK.PRBS_CFG.GEN_EN.mask else 0)
  let was := s.dev
  let s := rwBits acc .lnk p off keep s
  let new : Bool := was.get p LNK.PRBS_CFG.PATTERN != s.dev.get p LNK.PRBS_CFG.PATTERN
    || was.get p LNK.PRBS_CFG.INVERT != s.dev.get p LNK.PRBS_CFG.INVERT
  let d := if new || !s.dev.flag p LNK.PRBS_CFG.CHK_EN then s.dev.set p LNK.PRBS_STAT.LOCK 0 else s.dev
  let d := if new && struck v LNK.PRBS_CFG.GEN_EN && d.laneState i == lanePrbs then d.sendPrbs i else d
  let s : State := { s with dev := d }
  let s := if struck v LNK.PRBS_CFG.GEN_EN && !on then after (execPrbsGenEnable acc lane) s
    else if !struck v LNK.PRBS_CFG.GEN_EN && on then after (execPrbsGenDisable acc lane) s else s
  strikes v [(LNK.PRBS_CFG.CLR, execPrbsClear acc lane), (LNK.PRBS_CFG.ERR_INJECT, execPrbsErrInject acc lane)] s

/-- The registers of a mailbox channel: the LO half is kept per accessor, the MID write sends (R314). -/
def writeMbx (acc : Accessor) (i off : Nat) (v : Word) (s : State) : State :=
  let c : Fin 32 := Fin.ofNat 32 (16 * i + (off - 0x100) / 32)
  let r := (off - 0x100) % 32
  let lo (fw : Bool) : State :=
    { s with dev := s.dev.when (mbxReach acc c) (fun d =>
        if mbxSender acc c fw then { d with mbxLo := tset (fun _ => 0) d.mbxLo (mbxNo c fw * 8 + acc.idx) v }
        else d.when (mbxReceiver acc c fw) (·.err (mbxPage c) 0x91 (mbxNo c fw))) }
  if off < 0x100 ∨ 0x300 ≤ off then s
  else if r = 0 then lo false
  else if r = 4 then after (execMbxSend acc c false v []) s
  else if r = 8 then lo true
  else if r = 12 then after (execMbxSend acc c true v []) s
  else if r = 20 then
    let b (f : Field) : Bool := getBits v f.lo f.wd != 0
    let s := if b MBX.CH_CTRL.WAIT_SET then after (execMbxWaitSet acc c) s else s
    if b MBX.CH_CTRL.WAIT_CLR then after (execMbxWaitClr acc c) s else s
  else s

/-- What a write of a command register does; none: the register has no command of its own. -/
def commandReg (acc : Accessor) (t : PageType) (i off : Nat) (v : Word) : Option (State → State) :=
  match t with
  | .rst =>
    if off = RST.RST_CMD.KEY.off then some (after (execSoftwareReset acc v))
    else if off = RST.WDOG_KICK.KICK.off then some (strikes v [(RST.WDOG_KICK.KICK, execWdogKick acc)]) else none
  | .opt => if off = OPT.OPT_CMD.WRITE.off then some (strikes v [(OPT.OPT_CMD.WRITE, execOptWrite acc)]) else none
  | .svc => if off = SVC.RESTART_CMD.RESTART.off then some (strikes v [(SVC.RESTART_CMD.RESTART, execSvcRestart acc)]) else none
  | .mbx => if 0x100 ≤ off then some (writeMbx acc i off v) else none
  | .pci => if 0x100 ≤ off ∧ off < 0x140 then
      some (after (execRingDoorbell acc (Fin.ofNat 16 ((off - 0x100) / 4)) (v.truncate 16))) else none
  | .fab => if off = FAB.PACE_STAT.LOW_CLR.off then some (strikes v [(FAB.PACE_STAT.LOW_CLR, execPaceLowClr acc)]) else none
  | .buf =>
    if off = BUF.MGR_CTRL.HALT.off then some (after (if struck v BUF.MGR_CTRL.HALT then execMgrHalt acc else execMgrResume acc))
    else if off = BUF.POOL_LOW.CLR.off then some (strikes v [(BUF.POOL_LOW.CLR, execPoolLowClr acc)])
    else if off = BUF.HASH_CMD.REROLL.off then some (strikes v [(BUF.HASH_CMD.REROLL, execHashRerollRequest acc)]) else none
  | .voq => if off = VOQ.FLUSH_CMD.SCOPE.off then
      some (after (execVoqFlushStart acc (BitVec.ofNat 2 (getBits v VOQ.FLUSH_CMD.SCOPE.lo 2)) (BitVec.ofNat 6 (getBits v 0 6))))
    else none
  | .blk =>
    if off = BLK.REQ_CMD.PUSH.off then some (strikes v [(BLK.REQ_CMD.PUSH, execBlkPush acc)])
    else if off = BLK.RSP_CMD.POP.off then some (strikes v [(BLK.RSP_CMD.POP, execBlkPop acc)]) else none
  | .tal => if off = TAL.SW_INC.INDEX.off then some (after (execSwInc acc v)) else none
  | .log => if off = LOG.LOG_CMD.CLEAR.off then some (strikes v [(LOG.LOG_CMD.CLEAR, execLogClear acc)]) else none
  | .tmb =>
    if off = TMB.TIME_CMD.SNAP.off then some (strikes v [(TMB.TIME_CMD.SNAP, execTimeSnapshot acc)])
    else if off = TMB.TRACE_CMD.SET.off then
      some (if struck v TMB.TRACE_CMD.CLR then after (execTraceClr acc)
        else strikes v [(TMB.TRACE_CMD.SET, execTraceSet acc)]) else none
  | .ref =>
    if off = REF.SLOT_FW.QL.off then some (after (execSlotFwWrite acc v))
    else if off = REF.HO_TEMP.TEMP.off then some (after (execHoTempWrite acc (v.truncate 16)))
    else if off = REF.PTP_OFS.PS.off then some (after (execPtpOfsWrite acc v)) else none
  | .evt =>
    if off = EVT.FIFO_CMD.POP.off then
      some (strikes v [(EVT.FIFO_CMD.POP, execEvtFifoPop acc), (EVT.FIFO_CMD.CLR, execEvtFifoClear acc)])
    else if off = EVT.CAL_STAT.RECAL.off then some (fun s =>
      let x := s.dev.free
      strikes v [(EVT.CAL_STAT.RECAL, execInterpRecal acc (x.1 % 2 == 1))] { s with dev := x.2 }) else none
  | .dbl => if off = DBL.DBL_CMD.HANDOVER.off then
      some (strikes v [(DBL.DBL_CMD.HANDOVER, execDblHandover acc), (DBL.DBL_CMD.CANCEL, execDblHandoverCancel acc),
        (DBL.DBL_CMD.FULL_COPY, execDblFullCopy acc)]) else none
  | .syn => if off = SYN.SYN_CMD.SEARCH.off then
      some (strikes v [(SYN.SYN_CMD.FORGET, execSynForget acc), (SYN.SYN_CMD.SEARCH, execSynSearch acc)]) else none
  | .drm => if off = DRM.TEST_CMD.START.off then
      some (strikes v [(DRM.TEST_CMD.START, execDramTestStart acc), (DRM.TEST_CMD.ABORT, execDramTestAbort acc)]) else none
  | .lnk =>
    let lane : Fin 51 := Fin.ofNat 51 i
    if off = LNK.ADAPT_CTRL.RETRAIN.off then
      some (fun s => strikes v [(LNK.ADAPT_CTRL.RETRAIN, execRetrain acc lane)] (rwBits acc .lnk (LNK.page i) off v s))
    else if off = LNK.TRIM_VAL.VALUE.off then some (after (execTrimValWrite acc lane v))
    else if off = LNK.PRBS_CFG.GEN_EN.off then some (writePrbs acc i v) else none
  | .gcl => if off = GCL.LAUNCH_STAT.HWM_CLR.off then
      some (strikes v [(GCL.LAUNCH_STAT.HWM_CLR, execLaunchHwmClr acc (Fin.ofNat 48 i))]) else none
  | .tsu => if off = TSU.TXF_CMD.POP.off then
      some (strikes v [(TSU.TXF_CMD.POP, execTxfPop acc (Fin.ofNat 49 i)), (TSU.TXF_CMD.CLR, execTxfClear acc (Fin.ofNat 49 i))])
    else none
  | _ => none

/-! ### One register written -/

/-- Whether a register of the common part or of a block can be written at all (R20: a reserved offset discards). -/
def writable (t : PageType) (off : Nat) : Bool := (fieldsAt t off).any (fun f => f.acc != .ro)

/-- The registers of the common part. -/
def Dev.writeCommon (d : Dev) (acc : Accessor) (t : PageType) (page off : Nat) (v : Word) : Dev :=
  if off = 0x08 then d.asAny acc page (·.writeCtrl acc page v) [(off, v)]
  else if off = 0x10 then d.asAny acc page (·.clearRaw page v 0) [(off, v)]
  else if off = 0x14 then d.asOwner acc page off (·.writeIntEn t page v) [(off, v)]
  else if off = 0x1C then
    d.asOwner acc page off (fun d =>
      let d := if struck v COM.COMMIT.GO then d.commitAt acc page else d
      if struck v COM.COMMIT.DISCARD then d.discardAt page else d) [(off, v)]
  else if off = 0x24 then d.asOwner acc page off (·.clearErr page v) [(off, v)]
  else d

/-- Registers with a rule of their own about who may write them (R307, R314, R350, R376). -/
def ownRule (t : PageType) (off : Nat) : Bool :=
  match t with
  | .rst => off == RST.WDOG_KICK.KICK.off
  | .tmb => off == TMB.TIME_CMD.SNAP.off
  | .tal => off == TAL.SW_INC.INDEX.off
  | .mbx => true
  | _ => false

/-- A register with a command of its own is its page's owner's to write (R307), whatever the value; firmware waits while
the host holds the page (R311). -/
def ownersCommand (acc : Accessor) (t : PageType) (page off : Nat) (v : Word) (f : State → State) (s : State) : State :=
  if ownRule t off then f s
  else if acc.isFw && s.dev.hostHolds page then { s with dev := s.dev.fwDefer acc page [(off, v)] }
  else if s.dev.owns acc page then f s
  else { s with dev := s.dev.refuseWrite page off }

/-- A write of one register by an accessor, with everything it does: it completes at once where the island is in reset
(R392), and waits at a stopped crossing (R80). -/
def writeReg (acc : Accessor) (page off : Nat) (v : Word) (s : State) : State :=
  match pageOf page with
  | none => s
  | some (t, i) =>
    if t = .mbx ∧ !mbxReach acc (16 * i) then s
    else if !s.dev.pageUp page then { s with dev := s.dev.accessInReset page }
    else if s.dev.pageHeld page then { s with dev := s.dev.holdTransfer acc page [(off, v)] }
    else if off < 0x40 then { s with dev := s.dev.writeCommon acc t page off v }
    else
      let op := match winOf t i with
        | some w => if off = w.result.off then some (entryOp acc t i (getBits v 0 4)) else none
        | none => none
      match op with
      | some (some f) => after f s
      | some none => s
      | none =>
        match commandReg acc t i off v with
        | some f => ownersCommand acc t page off v f s
        | none =>
          { s with dev :=
            if anyWrites t off then s.dev.writeWindow acc t i page off v
            else if writable t off then s.dev.asOwner acc page off (·.writeBlockReg acc t i page off v) [(off, v)]
            else s.dev }

/-- Writes done in order. -/
def writeRegs (acc : Accessor) (l : List (Nat × Nat × Word)) (s : State) : State :=
  l.foldl (fun s e => writeReg acc e.1 e.2.1 e.2.2 s) s

/-- A command whose effect may run any register's own command: everything but the queue of commands. -/
def onState (f : State → State) (s : State) : Host.Outcome State Fault Refusal :=
  .next { (f s) with pending := s.pending }

/-! ### Commands -/

/-- The consecutive registers that a burst from an address reaches, as pages and offsets. -/
def burst (addr : Nat) (data : List Word) : List (Nat × Nat × Word) :=
  (List.range data.length).zipWith (fun k v => ((addr + 4 * k) / 4096, (addr + 4 * k) % 4096, v)) data

/-- R391: whether an access is one the window executes; any other completes with Unsupported Request. -/
def w0Ok (addr : Nat) (byteEn : Nat) (n : Nat) : Bool := addr % 4 == 0 && byteEn == 15 && 1 ≤ n && n ≤ 16

/-- R19, R391: a write access to W0 by an accessor: an aligned register or a burst of whole registers. Page numbers
outside the index and the summary area discard it. -/
def execRegisterWrite (acc : Accessor) (addr : BitVec 26) (byteEn : BitVec 4) (data : List (BitVec 32)) (s : State) :
    Host.Outcome State Fault Refusal :=
  if w0Ok addr.toNat byteEn.toNat data.length then onState (writeRegs acc (burst addr.toNat data)) s
  else onDev (·.emit (.reply "unsupported request" [addr.toNat])) s

/-- R397: COMMIT.GO. -/
def execCommitGo (acc : Accessor) (page : BitVec 16) (s : State) : Host.Outcome State Fault Refusal :=
  onDev (fun d => d.asOwner acc page.toNat COM.COMMIT.GO.off (·.commitAt acc page.toNat) COM.COMMIT.GO.strike) s

/-- R398: COMMIT.DISCARD. -/
def execCommitDiscard (acc : Accessor) (page : BitVec 16) (s : State) : Host.Outcome State Fault Refusal :=
  onDev (fun d => d.asOwner acc page.toNat COM.COMMIT.DISCARD.off (·.discardAt page.toNat) COM.COMMIT.DISCARD.strike) s

/-- R396: CTRL.SOFT_RST. -/
def execSoftReset (acc : Accessor) (page : BitVec 16) (s : State) : Host.Outcome State Fault Refusal :=
  onDev (fun d => d.asOwner acc page.toNat COM.CTRL.SOFT_RST.off (·.softReset acc page.toNat) COM.CTRL.SOFT_RST.strike) s

/-- CTRL as an accessor would write it back: its own VIEW, the page's OWNER. -/
def Dev.ctrlOf (d : Dev) (acc : Accessor) (page : Nat) : Word :=
  (d.rd page 8 &&& COM.CTRL.OWNER.mask) ||| (d.rd page 8 acc.idx &&& COM.CTRL.VIEW.mask)

/-- R309: CTRL.OWNER written; the accessor's VIEW is written back as it is. -/
def execOwnerWrite (acc : Accessor) (page : BitVec 16) (owner : BitVec 2) (s : State) : Host.Outcome State Fault Refusal :=
  onDev (fun d =>
    let v := setBits (d.ctrlOf acc page.toNat) COM.CTRL.OWNER.lo 2 owner.toNat
    d.asAny acc page.toNat (·.writeCtrl acc page.toNat v) [(COM.CTRL.OWNER.off, v)]) s

/-- R307: an accessor sets its own VIEW. -/
def execViewSet (acc : Accessor) (page : BitVec 16) (view : Bool) (s : State) : Host.Outcome State Fault Refusal :=
  onDev (fun d => d.asAny acc page.toNat (fun d => d.when (pageOf page.toNat).isSome
    (·.setFlag page.toNat COM.CTRL.VIEW view acc.idx))
    [(COM.CTRL.VIEW.off, setBits (d.ctrlOf acc page.toNat) COM.CTRL.VIEW.lo 1 (if view then 1 else 0))]) s

/-- R395, R401: a write of ones to INT_RAW; `raised` are the bits that events raise on the same tick. -/
def execIntRawClear (acc : Accessor) (page : BitVec 16) (bits raised : BitVec 32) (s : State) :
    Host.Outcome State Fault Refusal :=
  onDev (fun d => d.asAny acc page.toNat (·.clearRaw page.toNat bits raised) [(COM.INT_RAW.ALL.off, bits)]) s

/-- R394: ERR_INFO.VALID written 1. -/
def execErrInfoClear (acc : Accessor) (page : BitVec 16) (s : State) : Host.Outcome State Fault Refusal :=
  onDev (fun d => d.asOwner acc page.toNat COM.ERR_INFO.VALID.off (·.clearErr page.toNat COM.ERR_INFO.VALID.mask)
    COM.ERR_INFO.VALID.strike) s

/-! ### I2C (R337) -/

/-- R337: an I2C transfer writes a W0 offset and reads 4 bytes; a write to a page is refused. The bus reads as
function 0 does and takes no notice (DESIGN CHOICE, log entry 36). -/
def execI2cTransfer (offset : BitVec 32) (write : Bool) (s : State) : Host.Outcome State Fault Refusal :=
  onDev (fun d =>
    let a := offset.toNat
    let page := a / 4096
    if write then d.emit (.reply "i2c refused" [])
    else if a % 4 ≠ 0 ∨ 0x4000000 ≤ a then d.emit (.reply "i2c" [0])
    else if 0x3FFF000 ≤ a then d.emit (.reply "i2c" [(d.readSummary 0 (a % 4096)).toNat])
    else if !d.pageUp page then (d.accessInReset page).emit (.reply "i2c" [0xFFFFFFFF])
    else if d.pageHeld page then { d with held := d.held ++ [⟨(crossingOf page).getD 0, .host0, page, a % 4096, 0, false, true, []⟩] }
    else if page = MBX.page 0 ∨ page = MBX.page 1 then d.emit (.reply "i2c" [(d.readReg .host0 page (a % 4096)).toNat])
    else
      let x := d.readBy .host0 page (a % 4096)
      x.2.emit (.reply "i2c" [x.1.toNat])) s

/-! ### The Crown page window (R339, R341, R345) -/

/-- A wait access begins: `page` is what has been written to PAGE_SEL, which the row carries; one at a time (R339). -/
def Dev.crownAccess (d : Dev) (w : CrownWait) : Dev :=
  d.when (d.crownOn && d.crown.wait.isNone) (fun d =>
    let d := d.setCrown (fun c => { c with pageSel := w.page })
    if w.write && !d.flag CRN.page CRN.CRN_CFG.CTL_WR then d.err CRN.page 0xB0 CRN.CRN_CFG.CTL_WR.off
    else d.setCrown (fun c => { c with wait := some w }))

/-- R345: a read of the page window: `addr` is the Crown address less 0x400. -/
def execCrownWaitRead (page : BitVec 16) (addr : BitVec 10) (s : State) : Host.Outcome State Fault Refusal :=
  onDev (fun d => d.crownAccess ⟨false, page.toNat, addr.toNat * 4, 0, d.now⟩) s

/-- R345: a write of the page window, with CTL_WR = 1. -/
def execCrownWaitWrite (page : BitVec 16) (addr : BitVec 10) (value : BitVec 32) (s : State) :
    Host.Outcome State Fault Refusal :=
  onDev (fun d => d.crownAccess ⟨true, page.toNat, addr.toNat * 4, value, d.now⟩) s

/-- R345: the page answers: the access takes place; the MBX pages read 0. -/
def execCrownWaitComplete (s : State) : Host.Outcome State Fault Refusal :=
  onState (fun s =>
    match s.dev.crown.wait with
    | none => s
    | some w =>
      if s.dev.pageHeld w.page then s else
      let s : State := { s with dev := s.dev.setCrown (fun c => { c with wait := none }) }
      if w.write then writeReg .controller w.page w.off w.value s
      else if w.page = MBX.page 0 ∨ w.page = MBX.page 1 then { s with dev := s.dev.emit (.reply "crown" [0]) }
      else
        let x := s.dev.readBy .controller w.page w.off
        { s with dev := x.2.emit (.reply "crown" [x.1.toNat]) }) s

/-- WAIT_MAX in ns. -/
def waitMax (code : Nat) : Nat := match code with | 0 => 1000 | 1 => 2000 | 2 => 4000 | 3 => 16000 | _ => 64000

/-- R345: the access has waited WAIT_MAX: a read returns all ones, a write is discarded. -/
def execCrownWaitTimeout (s : State) : Host.Outcome State Fault Refusal :=
  onDev (fun d =>
    match d.crown.wait with
    | none => d
    | some w =>
      if d.now < w.since + waitMax (d.get CRN.page CRN.CRN_CFG.WAIT_MAX) * nsU then d else
      let d := d.setCrown (fun c => { c with wait := none })
      let d := if w.write then d else d.emit (.reply "crown" [0xFFFFFFFF])
      let d := (d.err CRN.page 0xB1 CRN.CRN_STAT.TMO_CNT.off).incSat CRN.page CRN.CRN_STAT.TMO_CNT
      (d.raise CRN.page CRN.INT_RAW.WAIT_TMO).count 0xF83) s

end Sys2Proof.Machine
end

