-- ==== Sys2Proof/Machine/Firmware.lean ====
section
/-!
DEFINITION. Machine/Firmware.lean: what the service cores' firmware does with the commands of the mailboxes (R303, R304,
R311, R315, R319 to R322, R324): reading a notice, the checks that come before a command, and each command.
-/
namespace Sys2Proof.Machine

/-! ### Commands and their checks (R304, R321, R322) -/

/-- The commands of R321 and R324: family, code, bytes of payload it needs, bytes of its reply. -/
def fwCommands : List (Nat × Nat × Nat × Nat) :=
  [(0, 1, 0, 16), (0, 2, 0, 0), (0, 3, 0, 72), (1, 1, 8, 0), (1, 2, 8, 0), (1, 3, 8, 0), (1, 4, 8, 8), (2, 1, 8, 0),
   (2, 2, 8, 0), (2, 3, 8, 0), (2, 4, 16, 0), (3, 1, 8, 0), (3, 2, 0, 56), (3, 3, 0, 0), (4, 1, 8, 0), (4, 2, 24, 0),
   (4, 3, 8, 0), (5, 1, 32, 32), (6, 1, 8, 0), (6, 2, 0, 0), (7, 1, 0, 0), (7, 2, 32, 0), (8, 1, 8, 0), (15, 1, 8, 0),
   (15, 2, 8, 0), (15, 3, 0, 0), (15, 4, 8, 0), (15, 5, 0, 0), (15, 6, 0, 0), (15, 7, 0, 8)]

def fwKnown (n : Data) : Bool := fwCommands.any (fun c => c.1 == noticeFamily n && c.2.1 == noticeCode n)

/-- The service that answers a family; SYS and PAGE are the dispatcher's own. -/
def familyService : Nat → Option Nat
  | 2 => some 0 | 3 => some 2 | 4 => some 3 | 5 => some 4 | 6 => some 5 | 7 => some 6 | 8 => some 7 | 15 => some 8 | _ => none

/-- The families and channels that the boot ROM serves (R304). -/
def bootServes (ch family : Nat) : Bool := (ch == 0 || ch == 16) && (family == 0 || family == 1 || family == 15)

/-- The status that a command gets before it is executed, if it does not pass (R304, R322, R324). -/
def Dev.fwCheck (d : Dev) (ch : Nat) (n : Data) : Option Nat :=
  match fwCommands.find? (fun c => c.1 == noticeFamily n && c.2.1 == noticeCode n) with
  | none => some (if d.fwBoot && !bootServes ch (noticeFamily n) then 8 else 1)
  | some (fam, _, need, reply) =>
    let down : Bool := if d.fwBoot then !bootServes ch fam else
      match familyService fam with | some k => !d.svcUp k | none => false
    if down then some 8
    else if fam = 15 ∧ ch < 16 then some 7
    else if payloadAddr ch n = none then some 3
    else if noticeLen n < need ∨ noticeLen n < reply then some 2
    else none

/-- Commands at the front of a channel that no family has are answered at once; the first that one has stays. -/
def Dev.fwSkim (d : Dev) (ch : Nat) : List Data → Dev
  | [] => d.setFwCmd ch []
  | n :: rest =>
    if fwKnown n then d.setFwCmd ch (n :: rest)
    else Dev.fwSkim (d.fwReply ch n ((d.fwCheck ch n).getD 1) []) ch rest

/-- What firmware has to send goes out. -/
def pump (s : State) : State :=
  let x := s.dev.fwPump s.dram
  { s with dev := x.1, dram := x.2 }

/-- A notice read, with what firmware does with it. -/
def takeNotice (acc : Accessor) (ch : Nat) (fw : Bool) (s : State) : State :=
  let d := s.dev.mbxReceive acc ch fw
  pump { s with dev := d.fwSkim ch (d.fwCmd ch) }

/-- R315: a MID read, with what firmware does with a notice it has read. A read at a stopped crossing waits (R80). -/
def execMbxReceive (acc : Accessor) (ch : Fin 32) (fw : Bool) (s : State) : Host.Outcome State Fault Refusal :=
  onState (fun s =>
    let d := s.dev
    let p := mbxPage ch
    if !mbxReach acc ch then { s with dev := d.emit (.reply "mailbox" [0, 0]) }
    else if !d.pageUp p then { s with dev := (d.accessInReset p).emit (.reply "mailbox" [0xFFFFFFFF, 0xFFFFFFFF]) }
    else if d.pageHeld p then
      { s with dev := { d with held := d.held ++ [⟨54, acc, p, (mbxField ch (mbxDir fw).mid).off, 0, false, false, []⟩] } }
    else takeNotice acc ch fw s) s

/-- Whether a transfer aims at the MID half of a mailbox direction, whose read takes the notice and whose write sends
it. -/
def Held.mid (h : Held) : Bool :=
  (h.page == MBX.page 0 || h.page == MBX.page 1) && decide (0x100 ≤ h.off) && decide (h.off < 0x300) && h.off % 8 == 4
    && decide (h.off % 32 < 16)

/-- The channel of such a transfer, and whether its direction is FROMFW. -/
def Held.channel (h : Held) : Fin 32 × Bool :=
  (Fin.ofNat 32 (16 * (h.page - MBX.page 0) + (h.off - 0x100) / 32), h.off % 32 == 12)

/-- A read that waited at a crossing: of a mailbox's MID half it takes the notice, but by the I2C bus. -/
def replayRead (h : Held) (s : State) : State :=
  let mbx : Bool := h.page == MBX.page 0 || h.page == MBX.page 1
  if h.bus then
    let x := if mbx then (s.dev.readReg h.acc h.page h.off, s.dev) else s.dev.readBy h.acc h.page h.off
    { s with dev := x.2.emit (.reply "i2c" [x.1.toNat]) }
  else if h.mid then takeNotice h.acc h.channel.1 h.channel.2 s
  else
    let x := s.dev.readBy h.acc h.page h.off
    { s with dev := x.2.emit (.reply "read" [x.1.toNat]) }

/-- A transfer that waited at a crossing completes: a write is done, a notice sent with its payload, a read returned,
or done and its completion, the reply alone, discarded where the host has given up (R80). -/
def replay (late : Bool) (h : Held) (s : State) : State :=
  if h.write then
    if h.mid then after (execMbxSend h.acc h.channel.1 h.channel.2 h.value h.payload) s
    else writeReg h.acc h.page h.off h.value s
  else
    let had := s.dev.out
    let s := replayRead h s
    if late then
      let new := s.dev.out.take (s.dev.out.length - had.length)
      let d : Dev := { s.dev with out := new.filter (fun o => match o with | .reply _ _ => false | _ => true) ++ had }
      { s with dev := (d.incSat FAB.page FAB.XING_STAT.TMO_CNT h.island).count 0x786 }
    else s

/-- R78, R80: the clock of an island counts as running again: every held transfer completes in order; of the reads by
the PCIe functions among them, the first `late` were given up by the host. -/
def clockBack (island late : Nat) (s : State) : State :=
  let mine := s.dev.held.filter (fun h => h.island == island)
  let d := ({ s.dev with held := s.dev.held.filter (fun h => h.island != island) } : Dev).clockReturn island
  (mine.foldl (fun (x : State × Nat) h =>
    let isLate : Bool := !h.write && !h.bus && (h.acc == .host0 || h.acc == .host1) && decide (0 < x.2)
    (replay isLate h x.1, if isLate then x.2 - 1 else x.2)) ({ s with dev := d }, late)).1

/-- R78, R80: an island's clock counts as running again, a lane's with LSY (R79). -/
def execClockRunningAgain (island : Fin 56) (late : BitVec 16) (s : State) : Host.Outcome State Fault Refusal :=
  onState (fun s =>
    if island.val < 51 && !s.dev.flag SYN.page SYN.LSY_STAT.LOCK then s else clockBack island late.toNat s) s

/-- XO_IN back ends the backup oscillator's run (R214). -/
def Dev.xoBack (d : Dev) : Dev :=
  let d : Dev := { d with xoOk := true }
  if d.flag TMB.page TMB.TMB_STAT.BACKUP then
    ((d.set TMB.page TMB.TMB_STAT.BACKUP 0).raise TMB.page TMB.INT_RAW.BACKUP_OFF).backupOver.reselect
  else d

/-- R29: an island's clock has been stable for 4,096 cycles: 0 XO_IN, 1 LSY, 2 time base, 3 PCIe, 4 DRAM, 5 service
cores, 6 Crown. A crossing that held for want of that clock, which was forced good or had stopped (R78), holds no
longer. -/
def execIslandClockGood (what : Fin 7) (s : State) : Host.Outcome State Fault Refusal :=
  onState (fun s =>
    let d := s.dev.set RST.page RST.CLK_GOOD.GOOD (putBit (s.dev.get RST.page RST.CLK_GOOD.GOOD) what true)
    let s : State := { s with dev := if what.val = 0 then d.xoBack else d }
    (List.range 56).foldl (fun (s : State) i =>
      if goodBit i = what.val ∧ s.dev.flag FAB.page FAB.XING_STAT.CLK_STOP i then clockBack i 0 s else s) s) s

/-- One command executed: the first of its channel, if it is of this family and code (R320); `body` gets the notice and
its payload. -/
def fwRun (ch : Fin 32) (family code : Nat) (body : Data → List (BitVec 8) → State → State) (s : State) :
    Host.Outcome State Fault Refusal :=
  onState (fun s =>
    let d := s.dev
    match d.fwCmd ch with
    | [] => s
    | n :: rest =>
      if !d.fwRuns ∨ noticeFamily n ≠ family ∨ noticeCode n ≠ code then s else
      let s : State := { s with dev := d.setFwCmd ch rest }
      let s := match d.fwCheck ch n with
        | some st => { s with dev := s.dev.fwReply ch n st [] }
        | none => body n (readPayload s.dram ch n) s
      pump { s with dev := s.dev.fwSkim ch (s.dev.fwCmd ch) }) s

/-- A command that changes the device only. -/
def fwRunDev (ch : Fin 32) (family code : Nat) (body : Data → List Nat → Dev → Dev) (s : State) :
    Host.Outcome State Fault Refusal :=
  fwRun ch family code (fun n bs s => { s with dev := body n (payloadWords bs) s.dev }) s

def wordAt (ws : List Nat) (i : Nat) : Nat := ws.getD i 0
/-- Bits [hi:lo] of a payload word. -/
def fieldAt (ws : List Nat) (i hi lo : Nat) : Nat := wordAt ws i / 2 ^ lo % 2 ^ (hi + 1 - lo)

/-- A response whose payload is bytes. -/
def Dev.fwReplyBytes (d : Dev) (ch : Nat) (cmd : Data) (bs : List (BitVec 8)) : Dev :=
  if noticeLen cmd < bs.length then d.fwReply ch cmd 2 []
  else d.fwSend ch (mkNotice 1 (noticeFamily cmd) 0 (noticeTag cmd) bs.length (noticePtr cmd)) bs

/-- Status and word 0 of PAGE WRITE and of DEVICE_REFUSED: COMMIT_STAT and ERR_INFO of a page. -/
def Dev.commitWord (d : Dev) (page : Nat) : Nat :=
  (d.readReg .firmware page COM.COMMIT_STAT.CODE.off).toNat * 2 ^ 32 + (d.rd page COM.ERR_INFO.CODE.off).toNat

/-- A refusal by the device: STANDBY for code 0x0F, else DEVICE_REFUSED with its word where it fits. -/
def Dev.fwRefused (d : Dev) (ch : Nat) (cmd : Data) (page code : Nat) : Dev :=
  let w := if 8 ≤ noticeLen cmd then [d.commitWord page] else []
  d.fwReply ch cmd (if code = 0x0F then 9 else 0x0A) w

/-- The status with which firmware itself refuses a write of a page: not its own, held by the host, or not reachable. -/
def Dev.fwMayWrite (d : Dev) (acc : Accessor) (page : Nat) : Option Nat :=
  if !d.owns acc page then some 8
  else if d.hostHolds page || !d.pageUp page || d.pageHeld page then some 6
  else none

/-- A command whose writes end in one COMMIT (R320): it is applied, or nothing is and the refusal is captured. -/
def Dev.fwCommit (d : Dev) (ch : Nat) (cmd : Data) (page : Nat) (f : Dev → Dev) : Dev :=
  match d.fwMayWrite .firmware page with
  | some st => d.fwReply ch cmd st []
  | none =>
    let r := (f d).commitAt .firmware page
    if r.flag page COM.COMMIT_STAT.REJECTED then
      let code := r.get page COM.COMMIT_STAT.CODE
      (d.rejectCommit page code (r.get page COM.ERR_INFO.DETAIL)).fwRefused ch cmd page code
    else r.fwReply ch cmd 0 []

/-! ### SYS -/

/-- R321: VERSION. -/
def execSysVersion (ch : Fin 32) (s : State) : Host.Outcome State Fault Refusal :=
  fwRunDev ch 0 1 (fun n _ d =>
    let v := d.rd SVC.page SVC.FW_VER.MAJOR.off
    d.fwReply ch n 0 [getBits v 24 8 * 2 ^ 48 + getBits v 16 8 * 2 ^ 32 + getBits v 0 16, d.get SVC.page SVC.FW_STAT.IMAGE]) s

/-- R321, R325: RESTART; the reply goes before the restart. -/
def execSysRestart (ch : Fin 32) (s : State) : Host.Outcome State Fault Refusal :=
  fwRunDev ch 0 2 (fun n _ d => (d.fwReply ch n 0 []).restartSame) s

/-- R321: PLACEMENT; SEC is core 4. -/
def execSysPlacement (ch : Fin 32) (s : State) : Host.Outcome State Fault Refusal :=
  fwRunDev ch 0 3 (fun n _ d => d.fwReply ch n 0 ((List.range svcCount).map (fun k =>
    (if k = 8 then 4 else d.get SVC.page SVC.SVC_STAT.CORE_NOW k) * 2 ^ 8 + d.get SVC.page SVC.SVC_STAT.LOAD k))) s

/-! ### PAGE (R309, R311) -/

/-- Who asks on a channel: function 0 on a non-secure one, function 1 on a secure one. -/
def chHost (ch : Nat) : Accessor := if ch < 16 then .host0 else .host1

/-- Who acts for a channel: the service cores, or SEC. -/
def chFw (ch : Nat) : Accessor := if ch < 16 then .firmware else .sec

/-- R311: HOLD. -/
def execPageHold (ch : Fin 32) (s : State) : Host.Outcome State Fault Refusal :=
  fwRunDev ch 1 1 (fun n ws d =>
    let page := fieldAt ws 0 15 0
    let ms := fieldAt ws 0 31 16
    if (pageOf page).isNone || ms == 0 || 60000 < ms then d.fwReply ch n 4 []
    else if !d.owns (chHost ch) page then d.fwReply ch n 5 []
    else if d.hostHolds page then d.fwReply ch n 6 []
    else
      let d : Dev := { d with pageHolds := tset (fun _ => none) d.pageHolds page (some (d.now + ms * 1000000 * nsU)) }
      d.fwReply ch n 0 []) s

/-- A hold ends: what firmware has queued for the page is written. -/
def holdOver (page : Nat) (s : State) : State :=
  let mine := s.dev.fwLater.filter (fun h => h.page == page)
  let d : Dev := { s.dev with
    pageHolds := tset (fun _ => none) s.dev.pageHolds page none, fwLater := s.dev.fwLater.filter (fun h => h.page != page) }
  mine.foldl (fun s h => writeReg h.acc h.page h.off h.value s) { s with dev := d }

/-- R311: RELEASE; of a page that is not held it changes nothing. -/
def execPageRelease (ch : Fin 32) (s : State) : Host.Outcome State Fault Refusal :=
  fwRun ch 1 2 (fun n bs s =>
    let page := fieldAt (payloadWords bs) 0 15 0
    if (pageOf page).isNone then { s with dev := s.dev.fwReply ch n 4 [] }
    else
      let s := if s.dev.hostHolds page then holdOver page s else s
      { s with dev := s.dev.fwReply ch n 0 [] }) s

/-- R311: the hold time has passed. -/
def execPageHoldExpiry (page : BitVec 16) (s : State) : Host.Outcome State Fault Refusal :=
  onState (fun s => if s.dev.due (tget (fun _ => none) s.dev.pageHolds page.toNat) then pump (holdOver page.toNat s) else s) s

/-- The host has given a page back: the services that write it and no page that is still taken run again. -/
def Dev.pageGiven (d : Dev) : Dev :=
  ((List.range svcCount).foldl (fun (d : Dev) k =>
    if d.svcDegraded k && !d.svcTaken k then d.set SVC.page SVC.SVC_STAT.DEGRADED 0 k else d) d).fwStateShow

/-- R309, R321: GRANT: the owner gives the page to firmware; under the flash image a page that R310 shares is SHARED
(DEDUCED, log entry 37). -/
def execPageGrant (ch : Fin 32) (s : State) : Host.Outcome State Fault Refusal :=
  fwRunDev ch 1 3 (fun n ws d =>
    let page := fieldAt ws 0 15 0
    match pageOf page with
    | none => d.fwReply ch n 4 []
    | some (t, _) =>
      if ownerFixed t then d.fwReply ch n 4 []
      else if !d.owns (chHost ch) page then d.fwReply ch n 5 []
      else
        let d := d.setOwner page (if d.imageRuns && d.startOwner t == 3 then 3 else 1)
        d.pageGiven.fwReply ch n 0 []) s

/-- The entries of PAGE WRITE: page, offset, value. -/
def writeList (ws : List Nat) : List (Nat × Nat × Word) :=
  ws.map (fun w => (w / 2 ^ 48 % 2 ^ 16, w / 2 ^ 36 % 2 ^ 12, BitVec.ofNat 32 w))

/-- What services write of their own accord in the pages of R302, and a PAGE WRITE therefore leaves alone while they
run (R321; which writes conflict is a DESIGN CHOICE, log entry 132): the servo's increment, step, set, slew and PTP
offset, the reference manager's part of a slot, the redundancy entries, the Blocker's queue, ADD_FRAG. -/
def svcFields : List (Nat × PageType × Field) :=
  [(1, .tmb, TMB.INC_LO.INC_LO), (1, .tmb, TMB.INC_HI.INC_HI), (1, .tmb, TMB.STEP_NS.NS), (1, .tmb, TMB.STEP_FRAC.STEP_EN),
   (1, .tmb, TMB.STEP_FRAC.FRAC), (1, .tmb, TMB.SET_SEC_HI.SET_EN), (1, .tmb, TMB.SLEW_ADD.NS), (1, .ref, REF.PTP_OFS.PS),
   (1, .ref, REF.SLOT_FW.PTP_VALID), (2, .ref, REF.SLOT_FW.QL), (3, .dbl, DBL.ENTRY_CMD.OP), (4, .blk, BLK.REQ_CMD.PUSH),
   (5, .sch, SCH.PORT_PREEMPT.ADD_FRAG)]

/-- Whether a write conflicts with a running service: it would change what the service writes, or command it. -/
def Dev.svcConflict (d : Dev) (acc : Accessor) (t : PageType) (page off : Nat) (v : Word) : Bool :=
  let old := d.rdShadow t page off ((d.instOf acc t page off).getD 0)
  svcFields.any (fun e => d.svcUp e.1 && e.2.1 == t && e.2.2.off == off
    && getBits v e.2.2.lo e.2.2.wd != getBits old e.2.2.lo e.2.2.wd && !(e.2.2 == DBL.ENTRY_CMD.OP && getBits v 0 4 == 1))

/-- Why firmware refuses an entry of PAGE WRITE. -/
def Dev.writeBad (d : Dev) (ch : Nat) (e : Nat × Nat × Word) : Option Nat :=
  match pageOf e.1 with
  | none => some 4
  | some (t, _) =>
    if e.2.1 % 4 ≠ 0 then some 4
    else if (t = .opt ∨ t = .sec) ∧ ch < 16 then some 7
    else if !d.owns (chFw ch) e.1 then some 5
    else if d.svcConflict (chFw ch) t e.1 e.2.1 e.2.2 then some 6
    else match d.fwMayWrite (chFw ch) e.1 with | some _ => some 6 | none => none

/-- Whether a write, once done, shows as refused: a COMMIT that is rejected, an operation of an entry window or a PUSH
whose RESULT is not 0. -/
def Dev.writeRefused (d : Dev) (acc : Accessor) (e : Nat × Nat × Word) : Bool :=
  match pageOf e.1 with
  | none => false
  | some (t, i) =>
    (e.2.1 == COM.COMMIT.GO.off && struck e.2.2 COM.COMMIT.GO && d.flag e.1 COM.COMMIT_STAT.REJECTED)
      || (match winOf t i with | some w => e.2.1 == w.result.off && d.get e.1 w.result acc.idx != 0 | none => false)
      || (t == .blk && e.2.1 == BLK.REQ_CMD.PUSH.off && struck e.2.2 BLK.REQ_CMD.PUSH
        && (d.get e.1 BLK.REQ_CMD.RESULT != 0 || d.copied 1))

/-- The writes done in order; the first that is refused stops them and is named. -/
def pageWrites (acc : Accessor) : List (Nat × Nat × Word) → State → State × Option (Nat × Nat × Word)
  | [], s => (s, none)
  | e :: rest, s =>
    let s := writeReg acc e.1 e.2.1 e.2.2 s
    if s.dev.writeRefused acc e then (s, some e) else pageWrites acc rest s

/-- R320, R321: WRITE: the list takes effect as a whole or not at all. -/
def execPageWrite (ch : Fin 32) (s : State) : Host.Outcome State Fault Refusal :=
  fwRun ch 1 4 (fun n bs s =>
    let l := writeList (payloadWords bs)
    match l.findSome? (s.dev.writeBad ch) with
    | some st => { s with dev := s.dev.fwReply ch n st [] }
    | none =>
      let r := pageWrites (chFw ch) l s
      match r.2 with
      | some (page, off, _) =>
        let code := if off < 0x40 then r.1.dev.get page COM.COMMIT_STAT.CODE else 0
        let d := if off < 0x40 then s.dev.rejectCommit page code (r.1.dev.get page COM.ERR_INFO.DETAIL) else s.dev
        { s with dev := d.fwRefused ch n page code }
      | none =>
        let page := (l.getLast?.map (·.1)).getD 0
        { r.1 with dev := r.1.dev.fwReply ch n 0 [r.1.dev.commitWord page] }) s

/-! ### PTP (R305) -/

/-- R305: INSTANCE: one instance per domain. -/
def execPtpInstance (ch : Fin 32) (s : State) : Host.Outcome State Fault Refusal :=
  fwRunDev ch 2 1 (fun n ws d =>
    let w := wordAt ws 0
    let i := w % 4
    let typ (w : Nat) : Nat := w / 2 ^ 50 % 4
    let on (w : Nat) : Bool := w != 0 && typ w != 2
    let clash : Bool := on w && (List.range 4).any (fun j =>
      let x := tget (fun _ => 0) d.ptpInst j
      j != i && on x && x / 2 ^ 56 == w / 2 ^ 56)
    if 5 < w / 2 ^ 52 % 16 ∨ typ w = 3 ∨ clash then d.fwReply ch n 4 []
    else ({ d with ptpInst := tset (fun _ => 0) d.ptpInst i w } : Dev).fwReply ch n 0 []) s

/-- R305: PORT, with at most 128 Sync/s and 128 Delay_Req/s: intervals of 2^-7 s and longer. -/
def execPtpPort (ch : Fin 32) (s : State) : Host.Outcome State Fault Refusal :=
  fwRunDev ch 2 2 (fun n ws d =>
    let w := wordAt ws 0
    let port := w / 2 ^ 58
    let fast (lo : Nat) : Bool := decide ((BitVec.ofNat 8 (w / 2 ^ lo)).toInt < -7)
    if 48 ≤ port ∨ 1 < w / 2 ^ 54 % 4 ∨ 2 < w / 2 ^ 52 % 4 ∨ fast 40 ∨ fast 24 then d.fwReply ch n 4 []
    else ({ d with ptpPort := tset (fun _ => 0) d.ptpPort port w } : Dev).fwReply ch n 0 []) s

/-- R305: DATASET; its contents are the PTP service's, and come with the row. -/
def execPtpDataset (ch : Fin 32) (dataset : List (BitVec 8)) (s : State) : Host.Outcome State Fault Refusal :=
  fwRunDev ch 2 3 (fun n ws d =>
    if 4 < fieldAt ws 0 7 0 ∨ (fieldAt ws 0 7 0 = 4 ∧ 48 ≤ wordAt ws 0 / 2 ^ 58) then d.fwReply ch n 4 []
    else d.fwReplyBytes ch n dataset) s

/-- A 64-bit two's complement value as a number. -/
def signed64 (v : Nat) : Int := (BitVec.ofNat 64 v).toInt

/-- R321: ASYM: ASYM_PS of the port's TSU page. -/
def execPtpAsym (ch : Fin 32) (s : State) : Host.Outcome State Fault Refusal :=
  fwRunDev ch 2 4 (fun n ws d =>
    let port := wordAt ws 0 / 2 ^ 58
    let v := signed64 (wordAt ws 1)
    if 48 ≤ port ∨ v < -2147483648 ∨ 2147483647 < v then d.fwReply ch n 4 []
    else d.fwCommit ch n (TSU.page port) (·.setSh .tsu (TSU.page port) TSU.ASYM_PS.ASYM (toField TSU.ASYM_PS.ASYM.wd v))) s

/-! ### REF -/

/-- R321: SLOT: SLOT_CFG of a slot. -/
def execRefSlotCmd (ch : Fin 32) (s : State) : Host.Outcome State Fault Refusal :=
  fwRunDev ch 3 1 (fun n ws d =>
    d.fwCommit ch n REF.page (·.wrShadow .ref REF.page REF.SLOT_CFG.ENABLE.off (fieldAt ws 0 35 32)
      (BitVec.ofNat 32 (wordAt ws 0)))) s

/-- R246, R321: MODEL. -/
def execRefModelCmd (ch : Fin 32) (s : State) : Host.Outcome State Fault Refusal :=
  fwRunDev ch 3 2 (fun n _ d =>
    let g (f : Field) : Nat := toField 64 (d.getInt REF.page f)
    d.fwReply ch n 0 [g REF.HO_C1.C1, g REF.HO_C2.C2, g REF.HO_C3.C3, g REF.HO_AGE.AGE, g REF.HO_CFG.T0, d.hoFit.1, d.hoFit.2]) s

/-- R246, R321: STORE: the model to the option store now. -/
def execRefStoreCmd (ch : Fin 32) (s : State) : Host.Outcome State Fault Refusal :=
  fwRunDev ch 3 3 (fun n _ d =>
    if d.optBusy then d.fwReply ch n 6 []
    else if 2 ^ 32 ≤ d.optNextGen then d.fwReply ch n 0x0A []
    else d.storeModel.fwReply ch n 0 []) s

/-! ### RED -/

/-- R321: PAIR: RED_CFG of a pair. -/
def execRedPairCmd (ch : Fin 32) (s : State) : Host.Outcome State Fault Refusal :=
  fwRunDev ch 4 1 (fun n ws d =>
    d.fwCommit ch n DBL.page (·.wrShadow .dbl DBL.page DBL.RED_CFG.MODE.off (fieldAt ws 0 33 32)
      (BitVec.ofNat 32 (wordAt ws 0)))) s

/-- R321: STREAM: a handle's generation and recovery words, written at once. -/
def execRedStreamCmd (ch : Fin 32) (s : State) : Host.Outcome State Fault Refusal :=
  fwRunDev ch 4 2 (fun n ws d =>
    let h := fieldAt ws 0 13 0
    let g : Data := BitVec.ofNat 64 (wordAt ws 1)
    let r : Data := BitVec.ofNat 64 (wordAt ws 2)
    match d.fwMayWrite .firmware DBL.page with
    | some st => d.fwReply ch n st []
    | none =>
      if entryBad .gen g || entryBad .recv r then d.fwReply ch n 4 []
      else ((d.writeDblEntry .gen h g).writeDblEntry .recv h r).fwReply ch n 0 []) s

/-- R321: LATENT: latent error detection of a handle. -/
def execRedLatentCmd (ch : Fin 32) (s : State) : Host.Outcome State Fault Refusal :=
  fwRunDev ch 4 3 (fun n ws d =>
    ({ d with latent := tset (fun _ => 0) d.latent (fieldAt ws 0 13 0) (wordAt ws 0) } : Dev).fwReply ch n 0 []) s

/-! ### BLK -/

/-- R321: REQUEST: pushed to the Blocker, whose response is the reply. -/
def execBlkRequestCmd (ch : Fin 32) (s : State) : Host.Outcome State Fault Refusal :=
  fwRunDev ch 5 1 (fun n ws d =>
    match d.fwMayWrite .firmware BLK.page with
    | some st => d.fwReply ch n st []
    | none =>
      let x := d.blkPush ((List.range 4).map (fun i => BitVec.ofNat 64 (wordAt ws i))) (some (ch.val, n))
      if x.1 = 0 then x.2
      else if x.1 = 7 then x.2.fwReply ch n 9 []
      else x.2.fwReply ch n 0x0A [x.2.commitWord BLK.page]) s

/-! ### LLDP -/

/-- R321: PORT. -/
def execLldpPortCmd (ch : Fin 32) (s : State) : Host.Outcome State Fault Refusal :=
  fwRunDev ch 6 1 (fun n ws d =>
    let port := wordAt ws 0 / 2 ^ 58
    if 48 ≤ port then d.fwReply ch n 4 []
    else ({ d with lldpPort := tset (fun _ => 0) d.lldpPort port (wordAt ws 0) } : Dev).fwReply ch n 0 []) s

/-- R321: NEIGHBOURS: a word for each port with a neighbour, then the chassis IDs. The hash is firmware's own: a free
value for each (log entry 2). -/
def execLldpNeighboursCmd (ch : Fin 32) (s : State) : Host.Outcome State Fault Refusal :=
  fwRunDev ch 6 2 (fun n _ d =>
    let known := (List.range 48).filter (fun p => tget (fun _ => []) d.neigh p != [])
    let x := known.foldl (fun (x : List Nat × Dev) p =>
      let (k, d) := x.2.free
      (x.1 ++ [p * 2 ^ 58 + k % 2 ^ 58], d)) ([], d)
    let ids := (known.map (fun p => tget (fun _ => []) d.neigh p)).flatten
    x.2.fwReplyBytes ch n ((x.1.map (bytesLE 8)).flatten ++ ids)) s

/-! ### LOG -/

/-- The text of a MARK as a record's data: the first byte in [63:56]. -/
def markData (bs : List (BitVec 8)) : Nat := ofBytesBE ((bs ++ List.replicate 8 0).take 8)

/-- The source number of the core that a service runs on. -/
def Dev.svcSource (d : Dev) (n : Nat) : Nat := 0x034 + d.get SVC.page SVC.SVC_STAT.CORE_NOW n

/-- R321, R380: MARK. -/
def execLogMarkCmd (ch : Fin 32) (s : State) : Host.Outcome State Fault Refusal :=
  fwRun ch 7 1 (fun n bs s =>
    let d := s.dev
    if 8 < bs.length then { s with dev := d.fwReply ch n 4 [] }
    else { s with dev := (d.record (d.svcSource 6) 0x11 (markData bs)).fwReply ch n 0 [] }) s

/-- The slots of the ring in the order they were written. -/
def Dev.logOrder (d : Dev) : List Nat :=
  let n := d.logSlots
  let o := d.get LOG.page LOG.OLDEST_IDX.IDX
  (List.range d.logFill).map (fun k => (o + k) % n)

/-- What an export has gathered: the second in force with its SECOND record, whether that record is among the bytes, the
bytes. -/
structure ExportAcc where
  sec : Option Nat
  second : List (BitVec 8)
  given : Bool
  bytes : List (BitVec 8)
  deriving DecidableEq, Repr

/-- One slot of the ring looked at: a SECOND record dates those after it; one that lies within the times is given, after
the SECOND record of its second. Records that cannot be dated are left out (R379). -/
def exportSlot (lo hi : Nat) (a : ExportAcc) (rec : List (BitVec 8)) : ExportAcc :=
  let w0 := ofBytesLE (rec.take 8)
  if w0 / 2 ^ 48 % 64 = 1 then ⟨some (ofBytesLE (rec.drop 8) % 2 ^ 48), rec, false, a.bytes⟩
  else match a.sec with
    | none => a
    | some sec =>
      let t := sec * 1000000000 + w0 / 2 ^ 18 % 2 ^ 30
      if lo ≤ t ∧ t ≤ hi then { a with given := true, bytes := a.bytes ++ (if a.given then [] else a.second) ++ rec } else a

/-- R321, R379: EXPORT: words 0 to 3 are the seconds and nanoseconds of the start and of the end (DEDUCED, log entry
38). -/
def execLogExportCmd (ch : Fin 32) (s : State) : Host.Outcome State Fault Refusal :=
  fwRun ch 7 2 (fun n bs s =>
    let ws := payloadWords bs
    let at_ (i : Nat) : Nat := wordAt ws i * 1000000000 + wordAt ws (i + 1)
    let r := s.dev.logOrder.foldl (fun a i => exportSlot (at_ 0) (at_ 2) a (memRead s.dram (logBase + 16 * i) 16))
      ⟨none, [], false, []⟩
    { s with dev := s.dev.fwReplyBytes ch n r.bytes }) s

/-! ### EPASH -/

/-- R321: CFG: the address, the port, the enable; EPASH_UDP of the LKP page follows. -/
def execEpashCfgCmd (ch : Fin 32) (s : State) : Host.Outcome State Fault Refusal :=
  fwRunDev ch 8 1 (fun n ws d =>
    let r := d.fwCommit ch n LKP.page (fun d =>
      ({ d with epashCfg := wordAt ws 0 } : Dev).setSh .lkp LKP.page LKP.LKP_CFG.EPASH_UDP (fieldAt ws 0 15 0))
    r) s

/-! ### UPD (R324) -/

/-- UPD_STAT.STATE. -/
def Dev.updSt (d : Dev) : Nat := d.get SVC.page SVC.UPD_STAT.STATE
def Dev.setUpdSt (d : Dev) (v : Nat) : Dev := d.set SVC.page SVC.UPD_STAT.STATE v

/-- The slot being written: 0 A, 1 B. -/
def Dev.updSlot (d : Dev) : Nat := d.get SVC.page SVC.UPD_STAT.TARGET

def Dev.setSlotImage (d : Dev) (i : Nat) (x : Option FlashImage) : Dev :=
  { d with flash := tset (fun _ => none) d.flash i x }

/-- BEGIN: the slot that does not run is erased (A under the boot ROM: DESIGN CHOICE, log entry 39). -/
def execUpdBegin (ch : Fin 32) (s : State) : Host.Outcome State Fault Refusal :=
  fwRunDev ch 15 1 (fun n ws d =>
    let size := fieldAt ws 0 31 0
    if size = 0 ∨ 2 ^ 24 < size then d.fwReply ch n 4 []
    else if d.updSt = 3 then d.fwReply ch n 6 []
    else
      let i := if d.get SVC.page SVC.FW_STAT.IMAGE = 1 then 1 else 0
      let d : Dev := { d.setSlotImage i none with upd := { d.upd with size := size, data := [], staged := none } }
      let d := ((d.setUpdSt 1).set SVC.page SVC.UPD_STAT.TARGET i).set SVC.page SVC.UPD_STAT.RX_KIB 0
      d.fwReply ch n 0 []) s

/-- WRITE: data in order. -/
def execUpdWrite (ch : Fin 32) (s : State) : Host.Outcome State Fault Refusal :=
  fwRun ch 15 2 (fun n bs s =>
    let d := s.dev
    let data := bs.drop 8
    let all := d.upd.data ++ data
    let st : Nat := if d.updSt ≠ 1 then 6
      else if wordAt (payloadWords bs) 0 ≠ d.upd.data.length ∨ d.upd.size < all.length ∨ 65520 < data.length then 4 else 0
    if st ≠ 0 then { s with dev := d.fwReply ch n st [] }
    else
      let d : Dev := { d.setSlotImage d.updSlot (some ⟨all, 0, false, false, false⟩) with upd := { d.upd with data := all } }
      { s with dev := (d.set SVC.page SVC.UPD_STAT.RX_KIB (all.length / 1024)).fwReply ch n 0 [] }) s

/-- VERIFY: `crcOk`, `sigOk` and `version` are what the image's bytes give; an image not wholly received fails its
CRC. -/
def execUpdVerify (ch : Fin 32) (crcOk sigOk : Bool) (version : BitVec 32) (s : State) : Host.Outcome State Fault Refusal :=
  fwRunDev ch 15 3 (fun n _ d =>
    if d.updSt ≠ 1 then d.fwReply ch n 6 []
    else
      let x : FlashImage := ⟨d.upd.data, version, crcOk && d.upd.data.length == d.upd.size, sigOk, false⟩
      let c := imageCause (some x)
      let d := (d.setSlotImage d.updSlot (some x)).set SVC.page (failField d.updSlot) c
      if c = 0 then (({ d with upd := { d.upd with staged := some x } } : Dev).setUpdSt 2).fwReply ch n 0 []
      else
        let d := if 3 ≤ c then d.raise SEC.page SEC.INT_RAW.AUTH_FAIL else d
        (d.setUpdSt 4).fwReply ch n 0x0B []) s

/-- Whether the twin reports a restart over MB30 (R326): its RESTARTING holds until it says something else, for at
most the 10 s that a restart may take (DESIGN CHOICE, log entry 131). -/
def Dev.twinRestarts (d : Dev) : Bool :=
  match d.twinRestart with | some t => decide (d.now < t + 10 * secU) | none => false

/-- ACTIVATE: a trial restart on the staged image. -/
def execUpdActivate (ch : Fin 32) (s : State) : Host.Outcome State Fault Refusal :=
  fwRunDev ch 15 4 (fun n ws d =>
    let t := fieldAt ws 0 15 0
    if d.updSt ≠ 2 then d.fwReply ch n 6 []
    else if d.twinRestarts && d.flag DBL.page DBL.DBL_CFG.ENABLE then d.fwReply ch n 0x0C []
    else
      let d := d.fwReply ch n 0 []
      let d : Dev := { d with upd := { d.upd with
        trial := true, confirmS := if t = 0 then 600 else t, prev := d.get SVC.page SVC.FW_STAT.IMAGE } }
      d.restartBegin (d.updSlot + 1)) s

/-- CONFIRM: the running trial image is confirmed. -/
def execUpdConfirm (ch : Fin 32) (s : State) : Host.Outcome State Fault Refusal :=
  fwRunDev ch 15 5 (fun n _ d =>
    if !(d.flag SVC.page SVC.FW_STAT.TRIAL && d.upd.trial) then d.fwReply ch n 6 []
    else
      let i := d.get SVC.page SVC.FW_STAT.IMAGE - 1
      let d := match d.slotImage i with
        | some x => d.setSlotImage i (some { x with confirmed := true })
        | none => d
      let d : Dev := { d with upd := { d.upd with trial := false, confirmBy := none } }
      let d := ((d.setUpdSt 0).set SVC.page SVC.FW_STAT.TRIAL 0).set SVC.page (failField i) 0
      d.fwReply ch n 0 []) s

/-- ABORT: a received or verified image is discarded. -/
def execUpdAbort (ch : Fin 32) (s : State) : Host.Outcome State Fault Refusal :=
  fwRunDev ch 15 6 (fun n _ d =>
    if d.updSt = 3 then d.fwReply ch n 6 []
    else if d.updSt = 0 then d.fwReply ch n 0 []
    else
      let d : Dev := { d.setSlotImage d.updSlot none with upd := { d.upd with size := 0, data := [], staged := none } }
      ((d.setUpdSt 0).set SVC.page SVC.UPD_STAT.RX_KIB 0).fwReply ch n 0 []) s

/-- STATE. -/
def execUpdState (ch : Fin 32) (s : State) : Host.Outcome State Fault Refusal :=
  fwRunDev ch 15 7 (fun n _ d => d.fwReply ch n 0 [(d.rd SVC.page SVC.UPD_STAT.STATE.off).toNat]) s

/-! ### Placement (R303) -/

/-- The running services on a core that may move, the least loaded first (the lower number on a tie). -/
def Dev.movable (d : Dev) (core : Nat) : Option Nat :=
  let l := (List.range 8).filter (fun n => d.flag SVC.page SVC.SVC_STAT.RUNNING n
    && d.get SVC.page SVC.SVC_STAT.CORE_NOW n == core && !d.flag SVC.page SVC.SVC_CFG.PIN n)
  l.foldl (fun (b : Option Nat) n => match b with
    | none => some n
    | some m => if d.get SVC.page SVC.SVC_STAT.LOAD n < d.get SVC.page SVC.SVC_STAT.LOAD m then some n else b) none

/-- The least-loaded core other than one. -/
def leastCore (loads : List Nat) (core : Nat) : Nat :=
  ((List.range 4).filter (fun k => k != core)).foldl (fun b k => if loads.getD k 0 < loads.getD b 0 then k else b)
    (if core = 0 then 1 else 0)

/-- One core looked at: after three periods above HI, one service moves if it leaves its new core below LO. -/
def Dev.placeCore (d : Dev) (loads : List Nat) (core : Nat) : Dev × List Nat :=
  let run := if d.get SVC.page SVC.PLACE_CFG.HI < loads.getD core 0 then tget (fun _ => 0) d.hiRuns core + 1 else 0
  let d : Dev := { d with hiRuns := tset (fun _ => 0) d.hiRuns core (min run 3) }
  if run < 3 then (d, loads) else
  match d.movable core with
  | none => (d, loads)
  | some n =>
    let w := d.get SVC.page SVC.SVC_STAT.LOAD n
    let dst := leastCore loads core
    if loads.getD dst 0 + w < d.get SVC.page SVC.PLACE_CFG.LO then
      let d : Dev := { d with hiRuns := tset (fun _ => 0) d.hiRuns core 0 }
      (d.svcMove n dst, (loads.set core (loads.getD core 0 - w)).set dst (loads.getD dst 0 + w))
    else (d, loads)

/-- R303: a placement period ends; `cores` and `services` are the loads it measured in %. -/
def execPlacementPeriod (cores services : List (BitVec 7)) (s : State) : Host.Outcome State Fault Refusal :=
  onDev (fun d => d.when d.imageRuns (fun d =>
    let c (i : Nat) : Nat := (cores.getD i 0).toNat
    let f : Nat → Field := fun i => match i with
      | 0 => SVC.CORE_LOAD.SC0 | 1 => SVC.CORE_LOAD.SC1 | 2 => SVC.CORE_LOAD.SC2 | _ => SVC.CORE_LOAD.SC3
    let d := [0, 1, 2, 3].foldl (fun (d : Dev) i => d.set SVC.page (f i) (c i)) d
    let d := (List.range svcCount).foldl (fun (d : Dev) n =>
      d.set SVC.page SVC.SVC_STAT.LOAD (services.getD n 0).toNat n) d
    if !d.flag SVC.page SVC.PLACE_CFG.AUTO then { d with hiRuns := [] }
    else ([0, 1, 2, 3].foldl (fun (x : Dev × List Nat) i => x.1.placeCore x.2 i) (d, [0, 1, 2, 3].map c)).1)) s

end Sys2Proof.Machine
end

