-- ==== Sys2Proof/Machine/Epash.lean ====
section
/-!
DEFINITION. Machine/Epash.lean: the Epash agent (R383 to R386).
-/
namespace Sys2Proof.Machine

/-- The agent runs: a flash image, its service, and an enable by EPASH CFG (R383). -/
def Dev.epashOn (d : Dev) : Bool := d.svcUp 7 && d.epashCfg.testBit 16

/-- The bytes of a reply (R384). -/
def epashBytes (op : Nat) (req : EpashReq) (status : Nat) (body : List (BitVec 8)) : List Nat :=
  ([1, BitVec.ofNat 8 op] ++ bytesBE 2 body.length ++ bytesBE 4 req.seq.toNat ++ bytesBE 2 status ++ bytesBE 2 0 ++ body).map
    BitVec.toNat

/-- A request answered with a status and a body: the reply leaves, it is counted, and its copy is the requester's
newest of at most eight (R384, R386). -/
def Dev.epashAnswer (op : Nat) (req : EpashReq) (status : Nat) (body : List (BitVec 8)) (d : Dev) : Dev :=
  let r := epashBytes op req status body
  let d : Dev := { d with epash :=
    (⟨req.requester, req.seq.toNat, op, r⟩ :: d.epash.filter (fun e => e.requester != req.requester)).take 8 }
  (d.emit (.reply "epash" (req.requester :: r))).count (if status = 3 then 0xE72 else 0xE70)

/-- The stored answer to a repeated request. -/
def Dev.epashOld (d : Dev) (op : Nat) (req : EpashReq) : Option EpashReply :=
  d.epash.find? (fun e => e.requester == req.requester && e.seq == req.seq.toNat && e.op == op)

/-- One request of an operation: not answered with another VERSION; a repeat is answered from the copy; else `run` says
the status and the body (R384 to R386). `len` is the length the operation's body has. -/
def Dev.epashDo (d : Dev) (op len : Nat) (req : EpashReq) (run : Dev → List (BitVec 8) → Nat × List (BitVec 8) × Dev) : Dev :=
  if !d.epashOn || req.version != 1 then d else
  match d.epashOld op req with
  | some e => (d.emit (.reply "epash" (req.requester :: e.reply))).count 0xE71
  | none =>
    let x := if req.body.length ≠ len ∨ req.length.toNat ≠ len then (2, [], d) else run d req.body
    Dev.epashAnswer op req x.1 x.2.1 x.2.2

/-- The number in bytes [from, from + n) of a body, most significant first. -/
def reqNum (bs : List (BitVec 8)) (start n : Nat) : Nat := ofBytesBE ((bs.drop start).take n)

def wordsBE (l : List Word) : List (BitVec 8) := (l.map (fun w => bytesBE 4 w.toNat)).flatten

/-- R385: IDENT. -/
def execEpashIdent (req : EpashReq) (s : State) : Host.Outcome State Fault Refusal :=
  onDev (fun d => d.epashDo 1 0 req (fun d _ =>
    let r (p : Nat) (f : Field) : Word := d.readReg .firmware p f.off
    (0, wordsBE [r GLB.page GLB.GLB_ID.PART, r SVC.page SVC.FW_VER.MAJOR, r SVC.page SVC.FW_STAT.IMAGE,
        r DBL.page DBL.DBL_STAT.OWNER] ++ bytesBE 6 (secOf d.now) ++ bytesBE 4 (nsOf d.now) ++ bytesBE 2 (fracOf d.now), d))) s

/-- Registers read in ascending order. -/
def Dev.readMany (d : Dev) (page off : Nat) : Nat → List Word × Dev
  | 0 => ([], d)
  | n + 1 =>
    let x := d.readBy .firmware page off
    let y := x.2.readMany page (off + 4) n
    (x.1 :: y.1, y.2)

/-- R385: READ; a page whose island clock has stopped is answered busy (DESIGN CHOICE, log entry 40). -/
def execEpashRead (req : EpashReq) (s : State) : Host.Outcome State Fault Refusal :=
  onDev (fun d => d.epashDo 2 6 req (fun d bs =>
    let page := reqNum bs 0 2
    let off := reqNum bs 2 2
    let n := reqNum bs 4 2
    let barred : Bool := match pageOf page with
      | some (t, _) => t == .mbx || t == .sec || t == .opt
      | none => false
    if n = 0 ∨ 256 < n ∨ off % 4 ≠ 0 ∨ 4096 < off + 4 * n then (2, [], d)
    else if barred then (3, [], d)
    else if d.pageHeld page then (4, [], d)
    else
      let x := d.readMany page off n
      (0, wordsBE x.1, x.2))) s

/-- Values of 8 bytes from an index on. -/
def values (f : Nat → Nat) (first n : Nat) : List (BitVec 8) :=
  ((List.range n).map (fun k => bytesBE 8 (f (first + k)))).flatten

/-- R385: SNAP. -/
def execEpashSnap (req : EpashReq) (s : State) : Host.Outcome State Fault Refusal :=
  onDev (fun d => d.epashDo 3 4 req (fun d bs =>
    let first := reqNum bs 0 2
    let n := reqNum bs 2 2
    let r (f : Field) : Word := d.readReg .firmware TAL.page f.off
    let v (k : Nat) : Nat := if d.flag TAL.page TAL.SNAP_STAT.VALID then tget (fun _ => 0) d.snap k else 0
    if n = 0 ∨ 180 < n ∨ 4096 < first + n then (2, [], d)
    else (0, wordsBE [r TAL.SNAP_STAT.VALID, r TAL.SNAP_SEC.SEC, r TAL.SNAP_NS.NS] ++ values v first n, d))) s

/-- R385: LIVE. -/
def execEpashLive (req : EpashReq) (s : State) : Host.Outcome State Fault Refusal :=
  onDev (fun d => d.epashDo 4 4 req (fun d bs =>
    let first := reqNum bs 0 2
    let n := reqNum bs 2 2
    if n = 0 ∨ 180 < n ∨ 4096 < first + n then (2, [], d) else (0, values d.countShown first n, d))) s

/-- R385: FREEZE_AT: a timed freeze, where the TAL page is granted to firmware. -/
def execEpashFreezeAt (req : EpashReq) (s : State) : Host.Outcome State Fault Refusal :=
  onDev (fun d => d.epashDo 5 10 req (fun d bs =>
    if !d.owns .firmware TAL.page then (3, [], d)
    else if d.collecting || d.hostHolds TAL.page then (4, [], d)
    else
      let r := d.freezeCommand .firmware [(TAL.FRZ_CFG.ARM.off, frzCfg true true false),
        (TAL.FRZ_SEC.SEC.off, BitVec.ofNat 32 (reqNum bs 0 6)), (TAL.FRZ_NS.NS.off, BitVec.ofNat 32 (reqNum bs 6 4))]
      if r.flag TAL.page COM.COMMIT_STAT.REJECTED then
        (3, [], d.rejectCommit TAL.page (r.get TAL.page COM.COMMIT_STAT.CODE) (r.get TAL.page COM.ERR_INFO.DETAIL))
      else (0, [], r))) s

/-- R385: LOG_READ. -/
def execEpashLogRead (req : EpashReq) (s : State) : Host.Outcome State Fault Refusal :=
  onMem (fun d m => (d.epashDo 6 6 req (fun d bs =>
    let first := reqNum bs 0 4
    let n := reqNum bs 4 2
    let r (f : Field) : Word := d.readReg .firmware LOG.page f.off
    if n = 0 ∨ 90 < n ∨ d.logSlots < first + n then (2, [], d)
    else (0, wordsBE [r LOG.WR_IDX.IDX, r LOG.OLDEST_IDX.IDX] ++ memRead m (logBase + 16 * first) (16 * n), d)), m)) s

/-- R385, R380: MARK. -/
def execEpashMark (req : EpashReq) (s : State) : Host.Outcome State Fault Refusal :=
  onDev (fun d => d.epashDo 7 8 req (fun d bs => (0, [], d.record (d.svcSource 7) 0x11 (markData bs)))) s

end Sys2Proof.Machine
end

