-- ==== Sys2Proof/Machine/Dispatch.lean ====
section
/-!
DEFINITION. Machine/Dispatch.lean: the meaning of each command, one arm for each row of the opcode table.
-/
namespace Sys2Proof.Machine

def exec (i : Instr) (s : State) : Host.Outcome State Fault Refusal :=
  match i with
  | .registerWrite acc addr byteEn data => Sys2Proof.Machine.execRegisterWrite acc addr byteEn data s
  | .commitGo acc page => Sys2Proof.Machine.execCommitGo acc page s
  | .commitDiscard acc page => Sys2Proof.Machine.execCommitDiscard acc page s
  | .softReset acc page => Sys2Proof.Machine.execSoftReset acc page s
  | .ownerWrite acc page owner => Sys2Proof.Machine.execOwnerWrite acc page owner s
  | .viewSet acc page view => Sys2Proof.Machine.execViewSet acc page view s
  | .intRawClear acc page bits raised => Sys2Proof.Machine.execIntRawClear acc page bits raised s
  | .errInfoClear acc page => Sys2Proof.Machine.execErrInfoClear acc page s
  | .losDeassert lane => Sys2Proof.Machine.execLosDeassert lane s
  | .losAssert lane => Sys2Proof.Machine.execLosAssert lane s
  | .lolAssert lane => Sys2Proof.Machine.execLolAssert lane s
  | .lolClear lane => Sys2Proof.Machine.execLolClear lane s
  | .autonegResolved lane partner => Sys2Proof.Machine.execAutonegResolved lane partner s
  | .autonegTimeout lane => Sys2Proof.Machine.execAutonegTimeout lane s
  | .trainingDone lane coef => Sys2Proof.Machine.execTrainingDone lane coef s
  | .trainingTimeout lane => Sys2Proof.Machine.execTrainingTimeout lane s
  | .cdrLocked lane => Sys2Proof.Machine.execCdrLocked lane s
  | .cdrAcquireTimeout lane => Sys2Proof.Machine.execCdrAcquireTimeout lane s
  | .blockLockAchieved lane => Sys2Proof.Machine.execBlockLockAchieved lane s
  | .fecAligned lane => Sys2Proof.Machine.execFecAligned lane s
  | .blockLockTimeout lane => Sys2Proof.Machine.execBlockLockTimeout lane s
  | .latencyMeasured lane meas => Sys2Proof.Machine.execLatencyMeasured lane meas s
  | .latencyMeasureTimeout lane => Sys2Proof.Machine.execLatencyMeasureTimeout lane s
  | .rateSearchTryTimeout lane => Sys2Proof.Machine.execRateSearchTryTimeout lane s
  | .trainingFramesDetected lane => Sys2Proof.Machine.execTrainingFramesDetected lane s
  | .faultTimeout lane => Sys2Proof.Machine.execFaultTimeout lane s
  | .remoteFault lane => Sys2Proof.Machine.execRemoteFault lane s
  | .retrain acc lane => Sys2Proof.Machine.execRetrain acc lane s
  | .blockAlignerShift lane => Sys2Proof.Machine.execBlockAlignerShift lane s
  | .idleEntryDelayExpiry lane => Sys2Proof.Machine.execIdleEntryDelayExpiry lane s
  | .idleRequestReceived lane deep => Sys2Proof.Machine.execIdleRequestReceived lane deep s
  | .idleReplyReceived lane deep => Sys2Proof.Machine.execIdleReplyReceived lane deep s
  | .idleReplyTimeout lane => Sys2Proof.Machine.execIdleReplyTimeout lane s
  | .wakeTrigger lane => Sys2Proof.Machine.execWakeTrigger lane s
  | .wakeComplete lane shifted => Sys2Proof.Machine.execWakeComplete lane shifted s
  | .wakeTimeout lane => Sys2Proof.Machine.execWakeTimeout lane s
  | .refreshBurstSend lane => Sys2Proof.Machine.execRefreshBurstSend lane s
  | .refreshMissing lane => Sys2Proof.Machine.execRefreshMissing lane s
  | .gclWakePort port => Sys2Proof.Machine.execGclWakePort port s
  | .prbsGenEnable acc lane => Sys2Proof.Machine.execPrbsGenEnable acc lane s
  | .prbsGenDisable acc lane => Sys2Proof.Machine.execPrbsGenDisable acc lane s
  | .prbsErrInject acc lane => Sys2Proof.Machine.execPrbsErrInject acc lane s
  | .prbsClear acc lane => Sys2Proof.Machine.execPrbsClear acc lane s
  | .prbsCheckerLock lane => Sys2Proof.Machine.execPrbsCheckerLock lane s
  | .prbsCheckerLoss lane errors bits => Sys2Proof.Machine.execPrbsCheckerLoss lane errors bits s
  | .backgroundCalStep lane dirs => Sys2Proof.Machine.execBackgroundCalStep lane dirs s
  | .eyeRefresh lane height width worst => Sys2Proof.Machine.execEyeRefresh lane height width worst s
  | .pdPhaseRefresh lane phase pcs => Sys2Proof.Machine.execPdPhaseRefresh lane phase pcs s
  | .trimValWrite acc lane value => Sys2Proof.Machine.execTrimValWrite acc lane value s
  | .pauseFrameReceived port pfc enables quanta => Sys2Proof.Machine.execPauseFrameReceived port pfc enables quanta s
  | .pauseExpiry port => Sys2Proof.Machine.execPauseExpiry port s
  | .paceReading readings => Sys2Proof.Machine.execPaceReading readings s
  | .avsLoopRun => Sys2Proof.Machine.execAvsLoopRun s
  | .avsAck => Sys2Proof.Machine.execAvsAck s
  | .avsAckTimeout => Sys2Proof.Machine.execAvsAckTimeout s
  | .paceLowClr acc => Sys2Proof.Machine.execPaceLowClr acc s
  | .handshakeLockup island stage => Sys2Proof.Machine.execHandshakeLockup island stage s
  | .clockStopDetected island => Sys2Proof.Machine.execClockStopDetected island s
  | .clockRunningAgain island late => Sys2Proof.Machine.execClockRunningAgain island late s
  | .xingCompatTimeout island => Sys2Proof.Machine.execXingCompatTimeout island s
  | .xingResyncFlagSeen island => Sys2Proof.Machine.execXingResyncFlagSeen island s
  | .xingResyncAckSeen island => Sys2Proof.Machine.execXingResyncAckSeen island s
  | .xingResyncConfirmed island => Sys2Proof.Machine.execXingResyncConfirmed island s
  | .rxFrameStart port pre bytes whole edge errs => Sys2Proof.Machine.execRxFrameStart port pre bytes whole edge errs s
  | .maxSduExceeded input pre more => Sys2Proof.Machine.execMaxSduExceeded input pre more s
  | .rxFrameEnd port pre more ending errs => Sys2Proof.Machine.execRxFrameEnd port pre more ending errs s
  | .bufferAssignLate input pre more => Sys2Proof.Machine.execBufferAssignLate input pre more s
  | .lenHintOverrun input pre more => Sys2Proof.Machine.execLenHintOverrun input pre more s
  | .holdingAreaGrant input => Sys2Proof.Machine.execHoldingAreaGrant input s
  | .learnWrite => Sys2Proof.Machine.execLearnWrite s
  | .ageingSweep => Sys2Proof.Machine.execAgeingSweep s
  | .streamGateEntryAdvance gate => Sys2Proof.Machine.execStreamGateEntryAdvance gate s
  | .lkpRead acc => Sys2Proof.Machine.execLkpRead acc s
  | .lkpStageWrite acc => Sys2Proof.Machine.execLkpStageWrite acc s
  | .lkpStageDelete acc => Sys2Proof.Machine.execLkpStageDelete acc s
  | .lkpReadKey acc => Sys2Proof.Machine.execLkpReadKey acc s
  | .lkpLookup acc => Sys2Proof.Machine.execLkpLookup acc s
  | .lkpStageInsert acc => Sys2Proof.Machine.execLkpStageInsert acc s
  | .lkpStageClear acc => Sys2Proof.Machine.execLkpStageClear acc s
  | .lkpFlushDynamic acc => Sys2Proof.Machine.execLkpFlushDynamic acc s
  | .mtrRead acc => Sys2Proof.Machine.execMtrRead acc s
  | .mtrStageWrite acc => Sys2Proof.Machine.execMtrStageWrite acc s
  | .mtrStageDelete acc => Sys2Proof.Machine.execMtrStageDelete acc s
  | .mtrResetState acc => Sys2Proof.Machine.execMtrResetState acc s
  | .pendingCommitApply => Sys2Proof.Machine.execPendingCommitApply s
  | .epochAged epoch => Sys2Proof.Machine.execEpochAged epoch s
  | .rerollEmptyCommit => Sys2Proof.Machine.execRerollEmptyCommit s
  | .txFrameDone output errs => Sys2Proof.Machine.execTxFrameDone output errs s
  | .cacheRefillDone pool bad => Sys2Proof.Machine.execCacheRefillDone pool bad s
  | .hashWindowEnd => Sys2Proof.Machine.execHashWindowEnd s
  | .hashRerollRequest acc => Sys2Proof.Machine.execHashRerollRequest acc s
  | .spillCopyDone voq busy => Sys2Proof.Machine.execSpillCopyDone voq busy s
  | .spillRefillDone voq uncorrectable => Sys2Proof.Machine.execSpillRefillDone voq uncorrectable s
  | .holdExpiry port => Sys2Proof.Machine.execHoldExpiry port s
  | .mgrHalt acc => Sys2Proof.Machine.execMgrHalt acc s
  | .mgrResume acc => Sys2Proof.Machine.execMgrResume acc s
  | .mgrHalted => Sys2Proof.Machine.execMgrHalted s
  | .poolLowClr acc => Sys2Proof.Machine.execPoolLowClr acc s
  | .voqFlushStart acc scope ep => Sys2Proof.Machine.execVoqFlushStart acc scope ep s
  | .voqFlushDone => Sys2Proof.Machine.execVoqFlushDone s
  | .bpRefresh port => Sys2Proof.Machine.execBpRefresh port s
  | .egressSelect output errs => Sys2Proof.Machine.execEgressSelect output errs s
  | .verifyMpacketSend port => Sys2Proof.Machine.execVerifyMpacketSend port s
  | .verifyResponseReceived port => Sys2Proof.Machine.execVerifyResponseReceived port s
  | .schRead acc => Sys2Proof.Machine.execSchRead acc s
  | .schWriteShadow acc => Sys2Proof.Machine.execSchWriteShadow acc s
  | .schReadShadow acc => Sys2Proof.Machine.execSchReadShadow acc s
  | .schReadClr acc => Sys2Proof.Machine.execSchReadClr acc s
  | .schClearTable acc => Sys2Proof.Machine.execSchClearTable acc s
  | .launchEnqueue port => Sys2Proof.Machine.execLaunchEnqueue port s
  | .launchTimeReached port => Sys2Proof.Machine.execLaunchTimeReached port s
  | .launchLate port => Sys2Proof.Machine.execLaunchLate port s
  | .gclEntryAdvance port => Sys2Proof.Machine.execGclEntryAdvance port s
  | .gclSwapRequest acc port sec ns => Sys2Proof.Machine.execGclSwapRequest acc port sec ns s
  | .gclSwapCancel acc port => Sys2Proof.Machine.execGclSwapCancel acc port s
  | .gclSwapApply port => Sys2Proof.Machine.execGclSwapApply port s
  | .gclRead acc port => Sys2Proof.Machine.execGclRead acc port s
  | .gclWrite acc port => Sys2Proof.Machine.execGclWrite acc port s
  | .launchHwmClr acc port => Sys2Proof.Machine.execLaunchHwmClr acc port s
  | .blkPush acc => Sys2Proof.Machine.execBlkPush acc s
  | .blkPop acc => Sys2Proof.Machine.execBlkPop acc s
  | .blkAdd => Sys2Proof.Machine.execBlkAdd s
  | .blkRemove => Sys2Proof.Machine.execBlkRemove s
  | .blkReplaceAll => Sys2Proof.Machine.execBlkReplaceAll s
  | .blkQuery => Sys2Proof.Machine.execBlkQuery s
  | .blkResumeAfterSwap => Sys2Proof.Machine.execBlkResumeAfterSwap s
  | .blkLaunchRead acc => Sys2Proof.Machine.execBlkLaunchRead acc s
  | .blkLaunchWrite acc => Sys2Proof.Machine.execBlkLaunchWrite acc s
  | .blkLaunchDelete acc => Sys2Proof.Machine.execBlkLaunchDelete acc s
  | .timeStep acc ns frac => Sys2Proof.Machine.execTimeStep acc ns frac s
  | .timeSet acc secHi secLo ns frac => Sys2Proof.Machine.execTimeSet acc secHi secLo ns frac s
  | .negStepDone => Sys2Proof.Machine.execNegStepDone s
  | .slewDone => Sys2Proof.Machine.execSlewDone s
  | .laneCopyCheck lane differs => Sys2Proof.Machine.execLaneCopyCheck lane differs s
  | .timeSnapshot acc => Sys2Proof.Machine.execTimeSnapshot acc s
  | .traceSet acc => Sys2Proof.Machine.execTraceSet acc s
  | .traceClr acc => Sys2Proof.Machine.execTraceClr acc s
  | .eventMsgStrobe port => Sys2Proof.Machine.execEventMsgStrobe port s
  | .txfPop acc tsu => Sys2Proof.Machine.execTxfPop acc tsu s
  | .txfClear acc tsu => Sys2Proof.Machine.execTxfClear acc tsu s
  | .tcapEdge sub => Sys2Proof.Machine.execTcapEdge sub s
  | .capNsRead => Sys2Proof.Machine.execCapNsRead s
  | .refSecondMeasure ys phase => Sys2Proof.Machine.execRefSecondMeasure ys phase s
  | .driftDwellExpiry slot => Sys2Proof.Machine.execDriftDwellExpiry slot s
  | .majDwellExpiry slot => Sys2Proof.Machine.execMajDwellExpiry slot s
  | .slotActivityFail slot => Sys2Proof.Machine.execSlotActivityFail slot s
  | .slotActivityReturn slot => Sys2Proof.Machine.execSlotActivityReturn slot s
  | .qualTimerExpiry slot => Sys2Proof.Machine.execQualTimerExpiry slot s
  | .wtrExpiry slot => Sys2Proof.Machine.execWtrExpiry slot s
  | .switchMeasureDone delta => Sys2Proof.Machine.execSwitchMeasureDone delta s
  | .lockDetected => Sys2Proof.Machine.execLockDetected s
  | .hoReadySet => Sys2Proof.Machine.execHoReadySet s
  | .holdoverUpdate sensor => Sys2Proof.Machine.execHoldoverUpdate sensor s
  | .ptpOfsWrite acc value => Sys2Proof.Machine.execPtpOfsWrite acc value s
  | .ptpOfsTimeout slot => Sys2Proof.Machine.execPtpOfsTimeout slot s
  | .slotFwWrite acc value => Sys2Proof.Machine.execSlotFwWrite acc value s
  | .hoTempWrite acc temp => Sys2Proof.Machine.execHoTempWrite acc temp s
  | .hoTempStale => Sys2Proof.Machine.execHoTempStale s
  | .switchManual acc slot => Sys2Proof.Machine.execSwitchManual acc slot s
  | .switchForced acc slot => Sys2Proof.Machine.execSwitchForced acc slot s
  | .clrWtr acc slot => Sys2Proof.Machine.execClrWtr acc slot s
  | .absClr acc => Sys2Proof.Machine.execAbsClr acc s
  | .modelLearnSample => Sys2Proof.Machine.execModelLearnSample s
  | .modelFit => Sys2Proof.Machine.execModelFit s
  | .bootromSlotRewrite => Sys2Proof.Machine.execBootromSlotRewrite s
  | .synHop acc syn plan => Sys2Proof.Machine.execSynHop acc syn plan s
  | .synHopDone syn band tune => Sys2Proof.Machine.execSynHopDone syn band tune s
  | .synSearch acc => Sys2Proof.Machine.execSynSearch acc s
  | .synForget acc => Sys2Proof.Machine.execSynForget acc s
  | .tuneLimitReached syn tune => Sys2Proof.Machine.execTuneLimitReached syn tune s
  | .outAlign acc outs walk => Sys2Proof.Machine.execOutAlign acc outs walk s
  | .outAlignCancel acc outs => Sys2Proof.Machine.execOutAlignCancel acc outs s
  | .outAlignDone out => Sys2Proof.Machine.execOutAlignDone out s
  | .evtEdge evt rising sub temp => Sys2Proof.Machine.execEvtEdge evt rising sub temp s
  | .evtFifoPop acc => Sys2Proof.Machine.execEvtFifoPop acc s
  | .evtFifoClear acc => Sys2Proof.Machine.execEvtFifoClear acc s
  | .evtBlankEnd evt => Sys2Proof.Machine.execEvtBlankEnd evt s
  | .measStart acc evt timed gateMs sec ns => Sys2Proof.Machine.execMeasStart acc evt timed gateMs sec ns s
  | .measAbort acc evt => Sys2Proof.Machine.execMeasAbort acc evt s
  | .measGateOpen evt => Sys2Proof.Machine.execMeasGateOpen evt s
  | .measGateClose evt => Sys2Proof.Machine.execMeasGateClose evt s
  | .measResultReady evt => Sys2Proof.Machine.execMeasResultReady evt s
  | .interpCalSwap evt ok => Sys2Proof.Machine.execInterpCalSwap evt ok s
  | .interpRecal acc ok => Sys2Proof.Machine.execInterpRecal acc ok s
  | .dblHbToggle => Sys2Proof.Machine.execDblHbToggle s
  | .dblHbInEdge => Sys2Proof.Machine.execDblHbInEdge s
  | .dblHbTimeout => Sys2Proof.Machine.execDblHbTimeout s
  | .dblOwnInChange level => Sys2Proof.Machine.execDblOwnInChange level s
  | .claimWaitExpiry => Sys2Proof.Machine.execClaimWaitExpiry s
  | .dblCycleEnd fit kib backlog => Sys2Proof.Machine.execDblCycleEnd fit kib backlog s
  | .dblCopyReceived crcOk hdr items edge kib => Sys2Proof.Machine.execDblCopyReceived crcOk hdr items edge kib s
  | .dblAckReceived crcOk hdr mismatch edge => Sys2Proof.Machine.execDblAckReceived crcOk hdr mismatch edge s
  | .dblHandover acc => Sys2Proof.Machine.execDblHandover acc s
  | .dblHandoverCancel acc => Sys2Proof.Machine.execDblHandoverCancel acc s
  | .dblFullCopy acc => Sys2Proof.Machine.execDblFullCopy acc s
  | .handoverRelease => Sys2Proof.Machine.execHandoverRelease s
  | .recoveryResetTimeout handle => Sys2Proof.Machine.execRecoveryResetTimeout handle s
  | .dblEntryRead acc => Sys2Proof.Machine.execDblEntryRead acc s
  | .dblEntryWrite acc => Sys2Proof.Machine.execDblEntryWrite acc s
  | .dblResetRec acc => Sys2Proof.Machine.execDblResetRec acc s
  | .placementPeriod cores services => Sys2Proof.Machine.execPlacementPeriod cores services s
  | .mbxSend acc ch fw mid payload => Sys2Proof.Machine.execMbxSend acc ch fw mid payload s
  | .mbxReceive acc ch fw => Sys2Proof.Machine.execMbxReceive acc ch fw s
  | .mbxWaitSet acc ch => Sys2Proof.Machine.execMbxWaitSet acc ch s
  | .mbxWaitClr acc ch => Sys2Proof.Machine.execMbxWaitClr acc ch s
  | .mbxCrossed ch => Sys2Proof.Machine.execMbxCrossed ch s
  | .mbxTwinDelivery ch what => Sys2Proof.Machine.execMbxTwinDelivery ch what s
  | .sysVersion ch => Sys2Proof.Machine.execSysVersion ch s
  | .sysRestart ch => Sys2Proof.Machine.execSysRestart ch s
  | .sysPlacement ch => Sys2Proof.Machine.execSysPlacement ch s
  | .pageHold ch => Sys2Proof.Machine.execPageHold ch s
  | .pageRelease ch => Sys2Proof.Machine.execPageRelease ch s
  | .pageGrant ch => Sys2Proof.Machine.execPageGrant ch s
  | .pageWrite ch => Sys2Proof.Machine.execPageWrite ch s
  | .pageHoldExpiry page => Sys2Proof.Machine.execPageHoldExpiry page s
  | .ptpInstance ch => Sys2Proof.Machine.execPtpInstance ch s
  | .ptpPort ch => Sys2Proof.Machine.execPtpPort ch s
  | .ptpDataset ch dataset => Sys2Proof.Machine.execPtpDataset ch dataset s
  | .ptpAsym ch => Sys2Proof.Machine.execPtpAsym ch s
  | .refSlotCmd ch => Sys2Proof.Machine.execRefSlotCmd ch s
  | .refModelCmd ch => Sys2Proof.Machine.execRefModelCmd ch s
  | .refStoreCmd ch => Sys2Proof.Machine.execRefStoreCmd ch s
  | .redPairCmd ch => Sys2Proof.Machine.execRedPairCmd ch s
  | .redStreamCmd ch => Sys2Proof.Machine.execRedStreamCmd ch s
  | .redLatentCmd ch => Sys2Proof.Machine.execRedLatentCmd ch s
  | .blkRequestCmd ch => Sys2Proof.Machine.execBlkRequestCmd ch s
  | .lldpPortCmd ch => Sys2Proof.Machine.execLldpPortCmd ch s
  | .lldpNeighboursCmd ch => Sys2Proof.Machine.execLldpNeighboursCmd ch s
  | .logMarkCmd ch => Sys2Proof.Machine.execLogMarkCmd ch s
  | .logExportCmd ch => Sys2Proof.Machine.execLogExportCmd ch s
  | .epashCfgCmd ch => Sys2Proof.Machine.execEpashCfgCmd ch s
  | .updBegin ch => Sys2Proof.Machine.execUpdBegin ch s
  | .updWrite ch => Sys2Proof.Machine.execUpdWrite ch s
  | .updVerify ch crcOk sigOk version => Sys2Proof.Machine.execUpdVerify ch crcOk sigOk version s
  | .updActivate ch => Sys2Proof.Machine.execUpdActivate ch s
  | .updConfirm ch => Sys2Proof.Machine.execUpdConfirm ch s
  | .updAbort ch => Sys2Proof.Machine.execUpdAbort ch s
  | .updState ch => Sys2Proof.Machine.execUpdState ch s
  | .svcRestart acc => Sys2Proof.Machine.execSvcRestart acc s
  | .restartCoresHalted => Sys2Proof.Machine.execRestartCoresHalted s
  | .restartDone => Sys2Proof.Machine.execRestartDone s
  | .trialConfirmTimeout => Sys2Proof.Machine.execTrialConfirmTimeout s
  | .trialStartTimeout => Sys2Proof.Machine.execTrialStartTimeout s
  | .ringDoorbell acc ring tail => Sys2Proof.Machine.execRingDoorbell acc ring tail s
  | .txDescriptorProcess source w1 w2 bytes errs => Sys2Proof.Machine.execTxDescriptorProcess source w1 w2 bytes errs s
  | .rxFrameToHost descs errs => Sys2Proof.Machine.execRxFrameToHost descs errs s
  | .dmaError ring cause index desc => Sys2Proof.Machine.execDmaError ring cause index desc s
  | .coalesceTimer ring => Sys2Proof.Machine.execCoalesceTimer ring s
  | .i2cTransfer offset write => Sys2Proof.Machine.execI2cTransfer offset write s
  | .crownTripClear bits setting => Sys2Proof.Machine.execCrownTripClear bits setting s
  | .templateLaunch tpl data => Sys2Proof.Machine.execTemplateLaunch tpl data s
  | .templateLaunchDequeue errs => Sys2Proof.Machine.execTemplateLaunchDequeue errs s
  | .crownWaitRead page addr => Sys2Proof.Machine.execCrownWaitRead page addr s
  | .crownWaitWrite page addr value => Sys2Proof.Machine.execCrownWaitWrite page addr value s
  | .crownWaitComplete => Sys2Proof.Machine.execCrownWaitComplete s
  | .crownWaitTimeout => Sys2Proof.Machine.execCrownWaitTimeout s
  | .crownBadAccess => Sys2Proof.Machine.execCrownBadAccess s
  | .ctlMsgWrite value => Sys2Proof.Machine.execCtlMsgWrite value s
  | .crnReadLive acc => Sys2Proof.Machine.execCrnReadLive acc s
  | .crnWriteShadow acc => Sys2Proof.Machine.execCrnWriteShadow acc s
  | .crnReadShadow acc => Sys2Proof.Machine.execCrnReadShadow acc s
  | .crnPublish acc => Sys2Proof.Machine.execCrnPublish acc s
  | .powerOnReset => Sys2Proof.Machine.execPowerOnReset s
  | .brownOut => Sys2Proof.Machine.execBrownOut s
  | .resetNLow => Sys2Proof.Machine.execResetNLow s
  | .clockFailureReset => Sys2Proof.Machine.execClockFailureReset s
  | .watchdogWarn => Sys2Proof.Machine.execWatchdogWarn s
  | .watchdogExpiry => Sys2Proof.Machine.execWatchdogExpiry s
  | .wdogKick acc => Sys2Proof.Machine.execWdogKick acc s
  | .softwareReset acc value => Sys2Proof.Machine.execSoftwareReset acc value s
  | .debugWarmReset => Sys2Proof.Machine.execDebugWarmReset s
  | .coreLockup core => Sys2Proof.Machine.execCoreLockup core s
  | .optionLoadDone badA badB => Sys2Proof.Machine.execOptionLoadDone badA badB s
  | .islandClockGood what => Sys2Proof.Machine.execIslandClockGood what s
  | .xoAbsentTimeout => Sys2Proof.Machine.execXoAbsentTimeout s
  | .dramTrainingDone rate attempts => Sys2Proof.Machine.execDramTrainingDone rate attempts s
  | .dramTrainingFail => Sys2Proof.Machine.execDramTrainingFail s
  | .paceCheckAttempt crcFail => Sys2Proof.Machine.execPaceCheckAttempt crcFail s
  | .islandRelease unit crcFail strapB => Sys2Proof.Machine.execIslandRelease unit crcFail strapB s
  | .perstNRise => Sys2Proof.Machine.execPerstNRise s
  | .dozeEntry acc cfg => Sys2Proof.Machine.execDozeEntry acc cfg s
  | .dozeExit acc cfg => Sys2Proof.Machine.execDozeExit acc cfg s
  | .keepEntry acc cfg => Sys2Proof.Machine.execKeepEntry acc cfg s
  | .keepIslandsReset => Sys2Proof.Machine.execKeepIslandsReset s
  | .wakeNLow => Sys2Proof.Machine.execWakeNLow s
  | .wakeTimeReached => Sys2Proof.Machine.execWakeTimeReached s
  | .keepSupplyRestored => Sys2Proof.Machine.execKeepSupplyRestored s
  | .keepSupplyTimeout => Sys2Proof.Machine.execKeepSupplyTimeout s
  | .optWrite acc => Sys2Proof.Machine.execOptWrite acc s
  | .optWriteDone ok => Sys2Proof.Machine.execOptWriteDone ok s
  | .cntLoRead acc => Sys2Proof.Machine.execCntLoRead acc s
  | .freezeArm acc timed sec ns => Sys2Proof.Machine.execFreezeArm acc timed sec ns s
  | .freezeCancel acc => Sys2Proof.Machine.execFreezeCancel acc s
  | .freezeInstant => Sys2Proof.Machine.execFreezeInstant s
  | .snapCollectDone => Sys2Proof.Machine.execSnapCollectDone s
  | .samplerFire smp taken => Sys2Proof.Machine.execSamplerFire smp taken s
  | .swInc acc value => Sys2Proof.Machine.execSwInc acc value s
  | .recordWrite => Sys2Proof.Machine.execRecordWrite s
  | .logClear acc => Sys2Proof.Machine.execLogClear acc s
  | .epashIdent req => Sys2Proof.Machine.execEpashIdent req s
  | .epashRead req => Sys2Proof.Machine.execEpashRead req s
  | .epashSnap req => Sys2Proof.Machine.execEpashSnap req s
  | .epashLive req => Sys2Proof.Machine.execEpashLive req s
  | .epashFreezeAt req => Sys2Proof.Machine.execEpashFreezeAt req s
  | .epashLogRead req => Sys2Proof.Machine.execEpashLogRead req s
  | .epashMark req => Sys2Proof.Machine.execEpashMark req s
  | .dramTestStart acc => Sys2Proof.Machine.execDramTestStart acc s
  | .dramTestAbort acc => Sys2Proof.Machine.execDramTestAbort acc s
  | .dramTestDone errors first => Sys2Proof.Machine.execDramTestDone errors first s
  | .mbistRun => Sys2Proof.Machine.execMbistRun s
  | .timeBaseTick => Sys2Proof.Machine.execTimeBaseTick s
  | .resetNRise => Sys2Proof.Machine.execResetNRise s
  | .refreshBurstReceived lane => Sys2Proof.Machine.execRefreshBurstReceived lane s
  | .pcieLinkChange up speed width => Sys2Proof.Machine.execPcieLinkChange up speed width s
  | .d3hotEntry fn hot => Sys2Proof.Machine.execD3hotEntry fn hot s
  | .lsyLockLoss locked => Sys2Proof.Machine.execLsyLockLoss locked s

end Sys2Proof.Machine
end

