-- ==== Sys2Proof/Safety.lean ====
section
/-!
DEFINITION. Safety.lean: the vocabulary of the statements: that a command completes and with what effect, who can reach
and write a page, what a command leaves alone, and the canonical form of the DRAM bytes.
-/
namespace Sys2Proof.Machine

/-- The command answers a next state in which the queue and the DRAM bytes are as before, and whose device is as
described. -/
def Does (c : Instr) (s : State) (P : Dev → Prop) : Prop := ∃ d, exec c s = .next { s with dev := d } ∧ P d

/-- The command answers a next state in which the queue is as before, and whose device and DRAM bytes are as
described. -/
def DoesMem (c : Instr) (s : State) (P : Dev → List Host.Cell → Prop) : Prop :=
  ∃ d m, exec c s = .next { s with dev := d, dram := m } ∧ P d m

/-- The page's island is out of reset and no stopped clock holds its transfers (R392, R78). -/
abbrev Reach (d : Dev) (page : Nat) : Prop := d.pageUp page = true ∧ d.pageHeld page = false

/-- An accessor's write to a page takes effect now: the page can be reached, the accessor owns it (R306), and firmware
does not wait for the host's PAGE HOLD to end (R311). -/
abbrev MayWrite (d : Dev) (acc : Accessor) (page : Nat) : Prop :=
  Reach d page ∧ (acc.isFw && d.hostHolds page) = false ∧ d.owns acc page = true

/-- No register outside a page has changed. -/
def OnlyPage (page : Nat) (d d' : Dev) : Prop :=
  ∀ k, rkeyPage k ≠ page → tget resetReg d'.regs k = tget resetReg d.regs k

/-- Nothing but registers, counters and what leaves the device has changed. -/
def Quiet (d d' : Dev) : Prop :=
  d'.shadow = d.shadow ∧ d'.freeCtr = d.freeCtr ∧ d'.rel = d.rel ∧ d'.held = d.held ∧ d'.accStat = d.accStat
    ∧ d'.xphase = d.xphase ∧ d'.wins = d.wins ∧ d'.toClocks = d.toClocks ∧ d'.toReferences = d.toReferences
    ∧ d'.toPorts = d.toPorts ∧ d'.toFrames = d.toFrames ∧ d'.toLookup = d.toLookup ∧ d'.toPairing = d.toPairing
    ∧ d'.toServices = d.toServices ∧ d'.toAttached = d.toAttached

/-- The commands that may store to DRAM: those that run any register's own command, mailbox notices and what firmware
answers, resets (the recorder's last records; a cold one loses it all), the recorder and the DRAM test. -/
def stores : Instr → Bool
  | .registerWrite .. | .clockRunningAgain .. | .islandClockGood .. | .crownWaitComplete => true
  | .mbxSend .. | .mbxReceive .. | .mbxTwinDelivery .. => true
  | .pageHoldExpiry .. | .svcRestart .. | .restartDone | .trialConfirmTimeout | .trialStartTimeout => true
  | .blkAdd .. | .blkRemove .. | .blkReplaceAll .. | .blkQuery .. | .blkResumeAfterSwap .. => true
  | .sysVersion .. | .sysRestart .. | .sysPlacement .. | .pageHold .. | .pageRelease .. | .pageGrant .. => true
  | .pageWrite .. | .ptpInstance .. | .ptpPort .. | .ptpDataset .. | .ptpAsym .. | .refSlotCmd .. => true
  | .refModelCmd .. | .refStoreCmd .. | .redPairCmd .. | .redStreamCmd .. | .redLatentCmd .. | .blkRequestCmd .. => true
  | .lldpPortCmd .. | .lldpNeighboursCmd .. | .logMarkCmd .. | .logExportCmd .. | .epashCfgCmd .. | .updBegin .. => true
  | .updWrite .. | .updVerify .. | .updActivate .. | .updConfirm .. | .updAbort .. | .updState .. => true
  | .handshakeLockup .. | .powerOnReset | .brownOut | .resetNLow | .clockFailureReset | .watchdogExpiry => true
  | .softwareReset .. | .debugWarmReset | .coreLockup .. | .perstNRise | .keepIslandsReset | .wakeNLow => true
  | .wakeTimeReached | .keepSupplyTimeout | .recordWrite | .logClear .. | .dramTestStart .. => true
  | _ => false

/-- The DRAM bytes have their canonical form: rising addresses, no byte listed that reads as an unlisted one does. -/
def DramWf (s : State) : Prop := Memory.wf s.dram = true

end Sys2Proof.Machine
end

