-- ==== Sys2Proof/Certificates/Slice0/Obligations.lean ====
section
/-!
DEFINITION. Obligations.lean: the statements for the provers. A statement with several clauses says of each command it
names what the command answers; `Does` and `DoesMem` say that the command completes and describe the device after it.
-/
open Sys2Proof Sys2Proof.Machine

/-- A step takes the command at the front of the queue and runs it with the queue's rest; on an empty queue the block
idles (the model's choice, log entry 41). Where the rules leave a point open this rests on the model's choice in log
entry 41. -/
def Obligations.StepTakesFront : Prop :=
  (∀ (c : Instr) (rest : List Instr) (s : State),
    step { s with pending := c :: rest } = exec c { s with pending := rest })
  ∧ (∀ (s : State), s.pending = [] → step s = .next s)

/-- What reset leaves (R310, R394, R395, R367, R207): nothing waits, the DRAM bytes have their canonical form, the owners,
INT_RAW, INT_EN, COMMIT_STAT and ERR_INFO of every page, every counter, TMB.INC, and a release that waits for its t0.
Where the rules leave a point open this rests on the model's choice in log entries 4, 41, 57. -/
def Obligations.StateAfterReset : Prop :=
  State.reset.pending = [] ∧ DramWf State.reset
  ∧ (∀ (page i : Nat) (t : PageType), pageOf page = some (t, i) →
      State.reset.dev.owner page = (if t = .sec ∨ t = .opt then 2 else if t = .mbx then 3 else 1)
        ∧ State.reset.dev.rd page 0x10 = 0 ∧ State.reset.dev.rd page 0x14 = 0 ∧ State.reset.dev.rd page 0x20 = 0
        ∧ State.reset.dev.rd page 0x24 = 0)
  ∧ (∀ (i : Nat), State.reset.dev.counter i = 0)
  ∧ State.reset.dev.get TMB.page TMB.INC_HI.INC_HI * 2 ^ 32 + State.reset.dev.get TMB.page TMB.INC_LO.INC_LO = 0x01999999999A
  ∧ State.reset.dev.get RST.page RST.RST_CAUSE.CAUSE = 1 ∧ State.reset.dev.waitsT0 = true

/-- Every command of the table ends in a next state, from every state, and leaves the queue of waiting commands to the
step. Where the rules leave a point open this rests on the model's choice in log entry 6. -/
def Obligations.EveryCommandCompletes : Prop :=
  ∀ (c : Instr) (s : State), ∃ t, exec c s = .next t ∧ t.pending = s.pending

/-- The canonical form of the DRAM bytes is an invariant: a step from any state that has it leaves a state that has it.
Where the rules leave a point open this rests on the model's choice in log entry 4. -/
def Obligations.DramStaysCanonical : Prop :=
  ∀ (s t : State), DramWf s → step s = .next t → DramWf t

/-- No byte of DRAM changes but by the commands that store (R314, R377, R378, R389); a mailbox notice that is sent stores
its payload where the notice points, and nowhere else. Where the rules leave a point open this rests on the model's
choice in log entries 4, 18. -/
def Obligations.DramFrame : Prop :=
  (∀ (c : Instr) (s t : State), stores c = false → exec c s = .next t → t.dram = s.dram)
  ∧ (∀ (s t : State) (acc : Accessor) (ch : Fin 32) (fw : Bool) (mid : BitVec 32) (payload : List (BitVec 8)) (n : Data) (base : Nat),
      mbxReach acc ch = true → Reach s.dev (mbxPage ch) → mbxSender acc ch fw = true →
      n = mid ++ tget (fun _ => 0) s.dev.mbxLo (mbxNo ch fw * 8 + acc.idx) → payloadAddr ch n = some base →
      s.dev.flag DRM.page DRM.DRM_STAT.TRAINED = true → payload.length = noticeLen n → payload ≠ [] →
      exec (.mbxSend acc ch fw mid payload) s = .next t →
        memRead t.dram base payload.length = payload
          ∧ ∀ a, (a < base ∨ base + payload.length ≤ a) → memByte t.dram a = memByte s.dram a)

/-- R53, R54, R44, R55: LOS and LOL as they change outside IDLE and WAKE: the flag, its interrupt and counter, the slots
that take the lane's clock, and what the state of the lane then does (R42, R43, R44). R40, R41, R42, R433: what ends
AUTONEG, TRAINING, CDR_ACQUIRE, BLOCK_LOCK and a try of the search, and where the lane goes. Where the rules leave a
point open this rests on the model's choice in log entries 54, 97, 109. -/
def Obligations.LaneDetectorsAndBringUp : Prop :=
  (∀ (s : State) (lane : Fin 51),
     s.dev.released (unitLane lane) = true →
     s.dev.laneState lane ≠ laneIdle →
     s.dev.laneState lane ≠ laneWake →
     s.dev.flag (LNK.page lane) LNK.LNK_STATE.LOS = true →
       exec (.losDeassert lane) s = .next { s with dev := (
           let d := (s.dev.set (LNK.page lane) LNK.LNK_STATE.LOS 0).raise (LNK.page lane) LNK.INT_RAW.LOS_CHG
           let d := if d.flag (LNK.page lane) LNK.LNK_STATE.LOL then d else (d.slotsOfLane lane).foldl (fun d k => d.slotClear k 5) d
           if s.dev.laneState lane = laneSignalWait then d.startLink lane else d) })
  ∧ (∀ (s : State) (lane : Fin 51),
     s.dev.released (unitLane lane) = true →
     s.dev.laneState lane ≠ laneIdle →
     s.dev.laneState lane ≠ laneWake →
     s.dev.flag (LNK.page lane) LNK.LNK_STATE.LOS = false →
       exec (.losAssert lane) s = .next { s with dev := (
           let d := ((s.dev.set (LNK.page lane) LNK.LNK_STATE.LOS 1).raise (LNK.page lane) LNK.INT_RAW.LOS_CHG).countLane lane 27
           let d := (d.disqualifyLane lane 5).cutReception lane
           let st := s.dev.laneState lane
           if (2 ≤ st ∧ st ≤ 7) ∨ st = laneSearch then d.enterSignalWait lane else d) })
  ∧ (∀ (s : State) (lane : Fin 51),
     s.dev.released (unitLane lane) = true →
     s.dev.laneState lane ≠ laneIdle →
     s.dev.laneState lane ≠ laneWake →
     s.dev.flag (LNK.page lane) LNK.LNK_STATE.LOL = false →
       exec (.lolAssert lane) s = .next { s with dev := (
           let d := ((s.dev.set (LNK.page lane) LNK.LNK_STATE.LOL 1).raise (LNK.page lane) LNK.INT_RAW.LOL_CHG).countLane lane 28
           let d := (d.setLane lane { d.lane lane with lolOk := false }).disqualifyLane lane 5
           let d := d.cutReception lane
           if s.dev.laneState lane = laneUp then d.enter lane (if d.media lane = 0 then laneCdr else laneTraining) else d) })
  ∧ (∀ (s : State) (lane : Fin 51),
     s.dev.released (unitLane lane) = true →
     s.dev.laneState lane ≠ laneIdle →
     s.dev.laneState lane ≠ laneWake →
     s.dev.flag (LNK.page lane) LNK.LNK_STATE.LOL = true →
       exec (.lolClear lane) s = .next { s with dev := (
           let d := s.dev.setLane lane { s.dev.lane lane with lolOk := true }
           let d := (d.set (LNK.page lane) LNK.LNK_STATE.LOL 0).raise (LNK.page lane) LNK.INT_RAW.LOL_CHG
           if d.flag (LNK.page lane) LNK.LNK_STATE.LOS then d else (d.slotsOfLane lane).foldl (fun d k => d.slotClear k 5) d) })
  ∧ (∀ (s : State) (lane : Fin 51) (partner : AnPage),
     s.dev.released (unitLane lane) = true →
     s.dev.laneState lane = laneAutoneg →
     s.dev.get (LNK.page lane) LNK.LNK_CFG.RATE = 1 →
       exec (.autonegResolved lane partner) s = .next { s with dev := (s.dev.setRate lane 1 0).toTraining lane })
  ∧ (∀ (s : State) (lane : Fin 51) (partner : AnPage) (rate : Nat),
     s.dev.released (unitLane lane) = true →
     s.dev.laneState lane = laneAutoneg →
     s.dev.get (LNK.page lane) LNK.LNK_CFG.RATE ≠ 1 →
     s.dev.anRate lane partner = some rate →
       exec (.autonegResolved lane partner) s = .next { s with dev := (s.dev.setRate lane rate (s.dev.anFec lane rate partner)).toTraining lane })
  ∧ (∀ (s : State) (lane : Fin 51) (partner : AnPage),
     s.dev.released (unitLane lane) = true →
     s.dev.laneState lane = laneAutoneg →
     s.dev.get (LNK.page lane) LNK.LNK_CFG.RATE ≠ 1 →
     s.dev.anRate lane partner = none →
       exec (.autonegResolved lane partner) s = .next { s with dev := if s.dev.get (LNK.page lane) LNK.LNK_CFG.RATE = 15 then s.dev else s.dev.enter lane laneFault })
  ∧ (∀ (s : State) (lane : Fin 51),
     s.dev.released (unitLane lane) = true →
     s.dev.laneState lane = laneAutoneg →
       exec (.autonegTimeout lane) s = .next { s with dev := if s.dev.get (LNK.page lane) LNK.LNK_CFG.RATE = 15 then s.dev.enterSearch lane 0 else s.dev.enter lane laneFault })
  ∧ (∀ (s : State) (lane : Fin 51),
     s.dev.released (unitLane lane) = true →
     s.dev.laneState lane = laneTraining →
       exec (.trainingTimeout lane) s = .next { s with dev := if (s.dev.lane lane).fromSearch then s.dev.nextTry lane else s.dev.enter lane laneFault })
  ∧ (∀ (s : State) (lane : Fin 51),
     s.dev.released (unitLane lane) = true →
     s.dev.laneState lane = laneCdr →
       exec (.cdrAcquireTimeout lane) s = .next { s with dev := if (s.dev.lane lane).fromSearch then s.dev.nextTry lane else s.dev.enter lane laneFault })
  ∧ (∀ (s : State) (lane : Fin 51),
     s.dev.released (unitLane lane) = true →
     s.dev.laneState lane = laneBlockLock →
       exec (.blockLockTimeout lane) s = .next { s with dev := if (s.dev.lane lane).fromSearch then s.dev.nextTry lane else s.dev.enter lane laneFault })
  ∧ (∀ (s : State) (lane : Fin 51),
     s.dev.released (unitLane lane) = true →
     s.dev.laneState lane = laneLatency →
       exec (.latencyMeasureTimeout lane) s = .next { s with dev := s.dev.enter lane laneFault })
  ∧ (∀ (s : State) (lane : Fin 51),
     s.dev.released (unitLane lane) = true →
     s.dev.laneState lane = laneSearch →
       exec (.rateSearchTryTimeout lane) s = .next { s with dev := s.dev.enterSearch lane ((s.dev.lane lane).tryIdx + 1) })
  ∧ (∀ (s : State) (lane : Fin 51),
     s.dev.released (unitLane lane) = true →
     s.dev.laneState lane = laneSearch →
     s.dev.media lane ≠ 0 →
     1 < s.dev.rateAct lane →
       exec (.trainingFramesDetected lane) s = .next { s with dev := s.dev.enter lane laneTraining })
  ∧ (∀ (s : State) (lane : Fin 51),
     s.dev.released (unitLane lane) = true →
     s.dev.laneState lane = laneFault →
       exec (.faultTimeout lane) s = .next { s with dev := s.dev.enterSignalWait lane })

/-- R42, R433, R41, R46, R47: CDR lock, training's coefficients, PCS block lock and FEC alignment, and the latency report
that ends LATENCY_MEASURE. R43: on a remote fault and on ADAPT_CTRL.RETRAIN an UP lane goes to CDR_ACQUIRE or TRAINING
by MEDIA; on a change of alignment to LATENCY_MEASURE. Where the rules leave a point open this rests on the model's
choice in log entries 97, 128, 142. -/
def Obligations.LaneLinkUpAndLoss : Prop :=
  (∀ (s : State) (lane : Fin 51) (coef : TrainedEq),
     s.dev.released (unitLane lane) = true →
     s.dev.laneState lane = laneTraining →
       exec (.trainingDone lane coef) s = .next { s with dev := (
           let d := (s.dev.set (LNK.page lane) LNK.TX_EQ.PRE coef.pre.toNat).set (LNK.page lane) LNK.TX_EQ.MAIN coef.main.toNat
           let d := d.set (LNK.page lane) LNK.TX_EQ.POST coef.post.toNat
           let d := if d.flag (LNK.page lane) LNK.TRIM_VAL.OVERRIDE 8 then d else d.setTrim lane 8 coef.ctle.toNat
           d.enter lane laneCdr) })
  ∧ (∀ (s : State) (lane : Fin 51),
     s.dev.released (unitLane lane) = true →
     s.dev.laneState lane = laneCdr →
     s.dev.flag (LNK.page lane) LNK.LNK_STATE.LOL = false →
     (s.dev.lane lane).lolOk = true →
       exec (.cdrLocked lane) s = .next { s with dev := s.dev.enter lane laneBlockLock })
  ∧ (∀ (s : State) (lane : Fin 51),
     s.dev.released (unitLane lane) = true →
     s.dev.laneState lane = laneBlockLock →
       exec (.blockLockAchieved lane) s = .next { s with dev := (
           let d := (s.dev.enter lane laneBlockLock).set (LNK.page lane) LNK.LNK_STATE.PCS_LOCK 1
           if d.get (LNK.page lane) LNK.LNK_STATE.FEC_ACT = 0 then d.toLatency lane else d) })
  ∧ (∀ (s : State) (lane : Fin 51),
     s.dev.released (unitLane lane) = true →
     s.dev.laneState lane = laneBlockLock →
     s.dev.flag (LNK.page lane) LNK.LNK_STATE.PCS_LOCK = true →
       exec (.fecAligned lane) s = .next { s with dev := s.dev.toLatency lane })
  ∧ (∀ (s : State) (lane : Fin 51) (meas : LatMeas),
     s.dev.released (unitLane lane) = true →
     s.dev.laneState lane = laneLatency →
     latFits (s.dev.rateAct lane) meas = true →
       exec (.latencyMeasured lane meas) s = .next { s with dev := (
           let base := latBase (s.dev.rateAct lane) (s.dev.get (LNK.page lane) LNK.LNK_STATE.FEC_ACT)
           let unit := gearboxUnit (s.dev.rateAct lane)
           let d := (s.dev.set (LNK.page lane) LNK.LAT_DETAIL.GB_RX meas.gbRx).set (LNK.page lane) LNK.LAT_DETAIL.GB_TX meas.gbTx
           let aRx := (meas.aRx : Int) + d.trim lane
           let aTx := (meas.aTx : Int) + d.trim (0x40 + lane)
           let d := (d.set (LNK.page lane) LNK.LAT_DETAIL.A_RX_PS (termByte aRx)).set (LNK.page lane) LNK.LAT_DETAIL.A_TX_PS (termByte aTx)
           let d := d.set (LNK.page lane) LNK.RX_LAT.LAT_PS (latencySum base.1 meas.gbRx aRx unit)
           let d := d.set (LNK.page lane) LNK.TX_LAT.LAT_PS (latencySum base.2 meas.gbTx aTx unit)
           let d := (d.incWrap (LNK.page lane) LNK.RX_LAT.SEQ).set (LNK.page lane) LNK.TX_LAT.SEQ (d.get (LNK.page lane) LNK.RX_LAT.SEQ + 1)
           ((d.enter lane laneUp).setLatValid lane true).raise (LNK.page lane) LNK.INT_RAW.LAT_NEW) })
  ∧ (∀ (s : State) (lane : Fin 51),
     s.dev.released (unitLane lane) = true →
     s.dev.laneState lane = laneUp →
       exec (.remoteFault lane) s = .next { s with dev := s.dev.enter lane (if s.dev.media lane = 0 then laneCdr else laneTraining) })
  ∧ (∀ (s : State) (acc : Accessor) (lane : Fin 51),
     s.dev.released (unitLane lane) = true →
     s.dev.laneState lane = laneUp →
     MayWrite s.dev acc (LNK.page lane) →
       exec (.retrain acc lane) s = .next { s with dev := s.dev.enter lane (if s.dev.media lane = 0 then laneCdr else laneTraining) })
  ∧ (∀ (s : State) (lane : Fin 51),
     s.dev.released (unitLane lane) = true →
     s.dev.laneState lane = laneUp →
       exec (.blockAlignerShift lane) s = .next { s with dev := s.dev.enter lane laneLatency })

/-- R56 to R59: entering and leaving idle: requests and replies of an UP lane that may idle, refresh bursts, wake and its
failures. R62: the PRBS generator and checker: GEN_EN, ERR_INJECT, CLR, the checker's lock, and what a loss of lock
counts. Where the rules leave a point open this rests on the model's choice in log entries 55, 110, 141. -/
def Obligations.LaneIdleAndPrbs : Prop :=
  (∀ (s : State) (lane : Fin 51),
     s.dev.released (unitLane lane) = true →
     s.dev.laneState lane = laneUp →
     s.dev.mayIdle lane = true →
       exec (.idleEntryDelayExpiry lane) s = .next { s with dev := (
           let kind := s.dev.get (LNK.page lane) LNK.IDLE_CFG.MODE
           (List.range 8).foldl (fun d _ => d.emit (idleSet lane (0x1D1E00 + kind)))
             (s.dev.setLane lane { s.dev.lane lane with reqSent := kind })) })
  ∧ (∀ (s : State) (lane : Fin 51) (deep : Bool),
     s.dev.released (unitLane lane) = true →
     s.dev.laneState lane = laneUp →
     s.dev.mayIdle lane = true →
     s.dev.get (LNK.page lane) LNK.IDLE_CFG.MODE = (if deep then 2 else 1) →
       exec (.idleRequestReceived lane deep) s = .next { s with dev := (
           (s.dev.emit (idleSet lane (0x1D1E80 + (if deep then 2 else 1)))).enterIdle lane (if deep then 2 else 1)) })
  ∧ (∀ (s : State) (lane : Fin 51) (deep : Bool),
     s.dev.released (unitLane lane) = true →
     s.dev.laneState lane = laneUp →
     (s.dev.lane lane).reqSent = (if deep then 2 else 1) →
       exec (.idleReplyReceived lane deep) s = .next { s with dev := s.dev.enterIdle lane (if deep then 2 else 1) })
  ∧ (∀ (s : State) (lane : Fin 51),
     s.dev.released (unitLane lane) = true →
     s.dev.laneState lane = laneUp →
       exec (.idleReplyTimeout lane) s = .next { s with dev := s.dev.setLane lane { s.dev.lane lane with reqSent := 0 } })
  ∧ (∀ (s : State) (lane : Fin 51),
     s.dev.released (unitLane lane) = true →
     s.dev.laneState lane = laneIdle →
       exec (.wakeTrigger lane) s = .next { s with dev := (s.dev.enter lane laneWake).emit (.line lane "wake burst" 0) })
  ∧ (∀ (s : State) (lane : Fin 51) (shifted : Bool),
     s.dev.released (unitLane lane) = true →
     s.dev.laneState lane = laneWake →
       exec (.wakeComplete lane shifted) s = .next { s with dev := s.dev.enter lane (if shifted = true ∨ (s.dev.lane lane).idleKind = 2 then laneLatency else laneUp) })
  ∧ (∀ (s : State) (lane : Fin 51),
     s.dev.released (unitLane lane) = true →
     s.dev.laneState lane = laneWake →
       exec (.wakeTimeout lane) s = .next { s with dev := (s.dev.enter lane laneFault).raise (LNK.page lane) LNK.INT_RAW.IDLE_FAIL })
  ∧ (∀ (s : State) (lane : Fin 51),
     s.dev.released (unitLane lane) = true →
     s.dev.laneState lane = laneIdle →
       exec (.refreshBurstSend lane) s = .next { s with dev := s.dev.emit (.line lane "refresh burst" 64) })
  ∧ (∀ (s : State) (lane : Fin 51),
     s.dev.released (unitLane lane) = true →
     s.dev.laneState lane = laneIdle →
       exec (.refreshBurstReceived lane) s = .next { s with dev := s.dev.setLane lane { s.dev.lane lane with refreshAt := s.dev.now } })
  ∧ (∀ (s : State) (lane : Fin 51),
     s.dev.released (unitLane lane) = true →
     s.dev.laneState lane = laneIdle →
     (s.dev.lane lane).refreshAt + 3000000 * nsU ≤ s.dev.now →
       exec (.refreshMissing lane) s = .next { s with dev := (s.dev.enter lane laneFault).raise (LNK.page lane) LNK.INT_RAW.IDLE_FAIL })
  ∧ (∀ (s : State) (port : Fin 48),
     s.dev.released (unitLane port) = true →
     s.dev.laneState port = laneIdle →
     (s.dev.lane port).idleKind = 1 →
       exec (.gclWakePort port) s = .next { s with dev := (s.dev.enter port laneWake).emit (.line port "wake burst" 0) })
  ∧ (∀ (s : State) (acc : Accessor) (lane : Fin 51),
     MayWrite s.dev acc (LNK.page lane) →
       exec (.prbsGenEnable acc lane) s = .next { s with dev := (
           let d := s.dev.set (LNK.page lane) LNK.PRBS_CFG.GEN_EN 1
           if d.laneState lane = laneOff then d else d.enterPrbs lane) })
  ∧ (∀ (s : State) (acc : Accessor) (lane : Fin 51),
     MayWrite s.dev acc (LNK.page lane) →
       exec (.prbsGenDisable acc lane) s = .next { s with dev := (
           let d := s.dev.set (LNK.page lane) LNK.PRBS_CFG.GEN_EN 0
           if d.laneState lane = lanePrbs then d.enterSignalWait lane else d) })
  ∧ (∀ (s : State) (acc : Accessor) (lane : Fin 51),
     MayWrite s.dev acc (LNK.page lane) →
     s.dev.laneState lane = lanePrbs →
     s.dev.get (LNK.page lane) LNK.LOOP_CFG.MODE = 0 ∨ s.dev.get (LNK.page lane) LNK.LOOP_CFG.MODE = 5 →
       exec (.prbsErrInject acc lane) s = .next { s with dev := s.dev.emit (.line lane "inverted bit" 1) })
  ∧ (∀ (s : State) (acc : Accessor) (lane : Fin 51),
     MayWrite s.dev acc (LNK.page lane) →
     ¬ (s.dev.laneState lane = lanePrbs ∧ (s.dev.get (LNK.page lane) LNK.LOOP_CFG.MODE = 0 ∨ s.dev.get (LNK.page lane) LNK.LOOP_CFG.MODE = 5)) →
       exec (.prbsErrInject acc lane) s = .next { s with dev := s.dev })
  ∧ (∀ (s : State) (acc : Accessor) (lane : Fin 51),
     MayWrite s.dev acc (LNK.page lane) →
       Does (.prbsClear acc lane) s fun d =>
           d.get (LNK.page lane) LNK.PRBS_ERR.ERR_CNT = 0 ∧ d.get (LNK.page lane) LNK.PRBS_BITS.BIT_CNT = 0 ∧ d.get (LNK.page lane) LNK.PRBS_STAT.SAT = 0
             ∧ (d.lane lane).prbsBits = 0 ∧ d.get (LNK.page lane) LNK.PRBS_STAT.LOCK = s.dev.get (LNK.page lane) LNK.PRBS_STAT.LOCK
             ∧ OnlyPage (LNK.page lane) s.dev d)
  ∧ (∀ (s : State) (lane : Fin 51),
     s.dev.released (unitLane lane) = true →
     s.dev.flag (LNK.page lane) LNK.PRBS_CFG.CHK_EN = true →
       exec (.prbsCheckerLock lane) s = .next { s with dev := s.dev.set (LNK.page lane) LNK.PRBS_STAT.LOCK 1 })
  ∧ (∀ (s : State) (lane : Fin 51) (errors bits : Nat),
     s.dev.released (unitLane lane) = true →
     s.dev.flag (LNK.page lane) LNK.PRBS_STAT.LOCK = true →
     1024 < errors →
       Does (.prbsCheckerLoss lane errors bits) s fun d =>
           d.get (LNK.page lane) LNK.PRBS_STAT.LOCK = 0 ∧ d.get (LNK.page lane) LNK.INT_RAW.PRBS_ERR = 1
             ∧ d.get (LNK.page lane) LNK.PRBS_ERR.ERR_CNT = min (s.dev.get (LNK.page lane) LNK.PRBS_ERR.ERR_CNT + errors) 0xFFFFFFFF
             ∧ (0xFFFFFFFF ≤ s.dev.get (LNK.page lane) LNK.PRBS_ERR.ERR_CNT + errors → d.get (LNK.page lane) LNK.PRBS_STAT.SAT = 1)
             ∧ OnlyPage (LNK.page lane) s.dev d)

/-- R48, R50, R51, R52, R434: the eye monitor's sweep, the phase detector's snapshot and what the PCS counted since the
last one, background calibration, and a write of a trim. Where the rules leave a point open this rests on the model's
choice in log entries 56, 97, 111. -/
def Obligations.LaneMonitors : Prop :=
  (∀ (s : State) (lane : Fin 51) (height : BitVec 10) (width : BitVec 8) (worst : BitVec 2),
     s.dev.released (unitLane lane) = true →
     s.dev.laneState lane ≠ laneOff →
     ¬(s.dev.laneState lane = laneIdle ∧ (s.dev.lane lane).idleKind = 2) →
       Does (.eyeRefresh lane height width worst) s fun d =>
           d.get (LNK.page lane) LNK.EYE.WIDTH = width.toNat ∧ d.get (LNK.page lane) LNK.EYE.HEIGHT = height.toNat
             ∧ d.get (LNK.page lane) LNK.EYE.WORST_EYE = (if 4 ≤ s.dev.rateAct lane then worst.toNat else 0)
             ∧ d.get (LNK.page lane) LNK.EYE.REFRESH = (s.dev.get (LNK.page lane) LNK.EYE.REFRESH + 1) % 2 ^ 12
             ∧ OnlyPage (LNK.page lane) s.dev d ∧ Quiet s.dev d)
  ∧ (∀ (s : State) (lane : Fin 51) (phase : BitVec 16) (pcs : PcsCount),
     s.dev.released (unitLane lane) = true →
       exec (.pdPhaseRefresh lane phase pcs) s = .next { s with dev := (s.dev.set (LNK.page lane) LNK.PD_PHASE.PHASE phase.toNat).countPcs lane pcs })
  ∧ (∀ (s : State) (lane : Fin 51) (dirs : List (Nat × Bool)),
     s.dev.released (unitLane lane) = true →
     (3 ≤ s.dev.laneState lane ∧ s.dev.laneState lane ≤ 7) ∨ s.dev.laneState lane = laneSearch ∨ s.dev.laneState lane = lanePrbs →
       exec (.backgroundCalStep lane dirs) s = .next { s with dev := dirs.foldl (fun d x => d.calStep lane x.1 x.2) s.dev })
  ∧ (∀ (s : State) (acc : Accessor) (lane : Fin 51) (value : BitVec 32) (lo hi : Int),
     MayWrite s.dev acc (LNK.page lane) →
     trimRange (s.dev.get (LNK.page lane) LNK.TRIM_SEL.INDEX acc.idx) = some (lo, hi) →
     lo ≤ signed16 (getBits value 0 16) →
     signed16 (getBits value 0 16) ≤ hi →
       exec (.trimValWrite acc lane value) s = .next { s with dev := (
           let i := s.dev.get (LNK.page lane) LNK.TRIM_SEL.INDEX acc.idx
           (s.dev.setTrim lane i (signed16 (getBits value 0 16))).set (LNK.page lane) LNK.TRIM_VAL.OVERRIDE (getBits value 31 1) i) })
  ∧ (∀ (s : State) (acc : Accessor) (lane : Fin 51) (value : BitVec 32) (lo hi : Int),
     MayWrite s.dev acc (LNK.page lane) →
     trimRange (s.dev.get (LNK.page lane) LNK.TRIM_SEL.INDEX acc.idx) = some (lo, hi) →
     signed16 (getBits value 0 16) < lo ∨ hi < signed16 (getBits value 0 16) →
       exec (.trimValWrite acc lane value) s = .next { s with dev := s.dev.err (LNK.page lane) 0x08 LNK.TRIM_VAL.VALUE.off })

/-- R430: a PAUSE frame under FC_MODE 1 pauses the port for its quanta, a PFC frame under FC_MODE 2 the classes of its
enabled priorities; a quanta value of 0 ends a pause; every such frame is counted; pauses whose time has passed end. A
loop-back keeps the line's PAUSE frames from the MAC (R60). Where the rules leave a point open this rests on the
model's choice in log entry 70. -/
def Obligations.PausesReceived : Prop :=
  (∀ (s : State) (port : Fin 48) (enables : BitVec 8) (quanta : List (BitVec 16)),
     s.dev.released (unitLane port) = true →
     linkStates (s.dev.laneState port) = true →
     s.dev.loopMode port = 0 →
     s.dev.get (PRT.page port) PRT.PORT_CFG.FC_MODE = 1 →
       Does (.pauseFrameReceived port false enables quanta) s fun d =>
           d.pauseEnd port 8 = (if (quanta.getD 0 0).toNat = 0 then none
               else some (s.dev.now + (quanta.getD 0 0).toNat * 512 * nsU / rateGbit (s.dev.rateAct port)))
             ∧ d.flag (PRT.page port) PRT.PORT_STAT.PAUSED = !((quanta.getD 0 0).toNat == 0)
             ∧ d.counter (32 * port + 5) = (s.dev.counter (32 * port + 5) + 1) % 2 ^ 48)
  ∧ (∀ (s : State) (port : Fin 48) (enables : BitVec 8) (quanta : List (BitVec 16)),
     s.dev.released (unitLane port) = true →
     linkStates (s.dev.laneState port) = true →
     s.dev.loopMode port = 0 →
     s.dev.get (PRT.page port) PRT.PORT_CFG.FC_MODE = 2 →
       exec (.pauseFrameReceived port true enables quanta) s = .next { s with dev := (
           let en := s.dev.get (PRT.page port) PRT.PORT_CFG.PFC_EN
           ((List.range 8).foldl (fun d p =>
             if enables.toNat.testBit p && en.testBit (d.pcpTc port p) then d.pauseFor port p (quanta.getD p 0).toNat else d)
             (s.dev.countLane port 5)).refreshPause port) })
  ∧ (∀ (s : State) (port : Fin 48) (pfc : Bool) (enables : BitVec 8) (quanta : List (BitVec 16)),
     s.dev.released (unitLane port) = true →
     linkStates (s.dev.laneState port) = true →
     s.dev.loopMode port = 0 →
     s.dev.get (PRT.page port) PRT.PORT_CFG.FC_MODE ≠ (if pfc then 2 else 1) →
       exec (.pauseFrameReceived port pfc enables quanta) s = .next { s with dev := s.dev.countLane port 5 })
  ∧ (∀ (s : State) (port : Fin 48) (pfc : Bool) (enables : BitVec 8) (quanta : List (BitVec 16)),
     s.dev.released (unitLane port) = true →
     s.dev.loopMode port ≠ 0 →
       exec (.pauseFrameReceived port pfc enables quanta) s = .next { s with dev := s.dev })
  ∧ (∀ (s : State) (port : Fin 48),
       exec (.pauseExpiry port) s = .next { s with dev := (
           ((List.range 9).foldl (fun d p => match d.pauseEnd port p with
             | some t => if t ≤ d.now then d.setPause port p none else d
             | none => d) s.dev).refreshPause port) })

/-- R71: a microsecond's 16 readings: MIN holds the lowest of them. LOW_CLR copies MIN into LOW. R73, R74: one run of the
supply loop moves the voltage as the loop's four lines say and waits for the acknowledgement of a change; a run
without a reading since the last, one that is off, stopped or waiting for an acknowledgement leaves the voltage; an
acknowledgement and its time-out, both without effect where no write waits. Where the rules leave a point open this
rests on the model's choice in log entries 64, 113, 130. -/
def Obligations.PaceAndSupplyLoop : Prop :=
  (∀ (s : State) (readings : List (BitVec 10)),
     readings.length = 16 →
       Does (.paceReading readings) s fun d =>
           (∀ r ∈ readings, d.get FAB.page FAB.PACE_STAT.MIN ≤ r.toNat)
             ∧ ∃ r ∈ readings, d.get FAB.page FAB.PACE_STAT.MIN = r.toNat)
  ∧ (∀ (s : State) (acc : Accessor),
     MayWrite s.dev acc FAB.page →
       Does (.paceLowClr acc) s fun d =>
           d.get FAB.page FAB.PACE_STAT.LOW = s.dev.get FAB.page FAB.PACE_STAT.MIN
             ∧ d.get FAB.page FAB.PACE_STAT.MIN = s.dev.get FAB.page FAB.PACE_STAT.MIN ∧ OnlyPage FAB.page s.dev d ∧ Quiet s.dev d)
  ∧ (∀ (s : State) (p : Nat),
     s.dev.pace.periodMin = some p →
     s.dev.get FAB.page FAB.AVS_CFG.MODE ≠ 0 →
     s.dev.flag FAB.page FAB.AVS_STAT.FAIL = false →
     s.dev.pace.waiting = false →
       Does (.avsLoopRun) s fun d =>
           let floor := s.dev.get FAB.page FAB.PACE_CFG.FLOOR
           let target := s.dev.get FAB.page FAB.PACE_CFG.TARGET
           let step := avsStep (s.dev.get FAB.page FAB.AVS_CFG.STEP)
           let vmax := 100 * s.dev.get FAB.page FAB.AVS_LIMIT.VMAX
           let vmin := 100 * s.dev.get FAB.page FAB.AVS_LIMIT.VMIN
           d.pace.v = (if p < floor then min (s.dev.pace.v + 4 * step) vmax
               else if p < target then min (s.dev.pace.v + step) vmax
               else if target + s.dev.get FAB.page FAB.PACE_CFG.HYST < p then max (s.dev.pace.v - step) vmin
               else s.dev.pace.v)
             ∧ (d.pace.waiting = true ↔ d.pace.v ≠ s.dev.pace.v) ∧ d.pace.periodMin = none
             ∧ (d.flag FAB.page FAB.AVS_STAT.AT_VMIN = true ↔ d.pace.v = vmin)
             ∧ (d.flag FAB.page FAB.AVS_STAT.AT_VMAX = true → d.pace.v = vmax)
             ∧ (d.pace.v = vmax → p < target → d.flag FAB.page FAB.AVS_STAT.AT_VMAX = true))
  ∧ (∀ (s : State),
     s.dev.pace.waiting = true →
       Does (.avsAck) s fun d =>
           d.pace.waiting = false ∧ d.pace.acked = s.dev.pace.v ∧ d.pace.v = s.dev.pace.v
             ∧ d.get FAB.page FAB.AVS_STAT.VOUT = s.dev.pace.v / 100 % 2 ^ 10)
  ∧ (∀ (s : State),
     s.dev.pace.periodMin = none →
       exec (.avsLoopRun) s = .next { s with dev := s.dev })
  ∧ (∀ (s : State) (p : Nat),
     s.dev.pace.periodMin = some p →
     s.dev.get FAB.page FAB.AVS_CFG.MODE = 0 ∨ s.dev.flag FAB.page FAB.AVS_STAT.FAIL = true ∨ s.dev.pace.waiting = true →
       exec (.avsLoopRun) s = .next { s with dev := { s.dev with pace := { s.dev.pace with periodMin := none } } })
  ∧ (∀ (s : State),
     s.dev.pace.waiting = false →
       exec (.avsAck) s = .next { s with dev := s.dev })
  ∧ (∀ (s : State),
     s.dev.pace.waiting = true →
       Does (.avsAckTimeout) s fun d =>
           d.pace.waiting = false ∧ d.pace.v = s.dev.pace.acked ∧ d.pace.acked = s.dev.pace.acked
             ∧ d.flag FAB.page FAB.AVS_STAT.FAIL = true ∧ d.get FAB.page FAB.INT_RAW.AVS_FAIL = 1
             ∧ OnlyPage FAB.page s.dev d)
  ∧ (∀ (s : State),
     s.dev.pace.waiting = false →
       exec (.avsAckTimeout) s = .next { s with dev := s.dev })

/-- R78, R79, R81: a clock that stops (a lane's only while LSY has no lock) holds the crossing of its island, which
reports it; with COMPAT set, the oldest transfer that waits there is abandoned with code 0x01. R83: the handshake of a
resynchronization: the flag, the acknowledgement, and the confirmation that opens the crossing, counts it and raises
XING_RESYNC. R78, R80: an island's clock counts as running again: every held transfer completes in order. Where the
rules leave a point open this rests on the model's choice in log entry 48. -/
def Obligations.CrossingsAndHeldTransfers : Prop :=
  (∀ (s : State) (island : Fin 56),
     s.dev.flag FAB.page FAB.XING_STAT.CLK_STOP island = false →
     s.dev.xing island ≠ xReset →
     ¬ (island.val < 51 ∧ s.dev.flag SYN.page SYN.LSY_STAT.LOCK = true) →
       Does (.clockStopDetected island) s fun d =>
           d.xing island = xHeld ∧ d.flag FAB.page FAB.XING_STAT.CLK_STOP island = true ∧ d.get FAB.page FAB.INT_RAW.XING_HELD = 1
             ∧ d.held = s.dev.held)
  ∧ (∀ (s : State) (island : Fin 56) (h : Held),
     s.dev.held.find? (fun h => h.island == island.val) = some h →
     s.dev.xing island = xHeld →
     (s.dev.get FAB.page FAB.XING_CFG.COMPAT).testBit (islandClass island) = true →
       Does (.xingCompatTimeout island) s fun d =>
           d.held = s.dev.held.erase h ∧ d.get FAB.page COM.ERR_INFO.CODE = 1 ∧ d.xing island = xHeld
             ∧ d.get FAB.page FAB.INT_RAW.XING_TMO = 1
             ∧ d.get FAB.page FAB.XING_STAT.TMO_CNT island = min (s.dev.get FAB.page FAB.XING_STAT.TMO_CNT island + 1) 0xFFFF)
  ∧ (∀ (s : State) (island : Fin 56),
     s.dev.xing island = xResync →
     s.dev.xph island = 1 →
       exec (.xingResyncFlagSeen island) s = .next { s with dev := s.dev.setXph island 2 })
  ∧ (∀ (s : State) (island : Fin 56),
     s.dev.xing island = xResync →
     s.dev.xph island = 2 →
       exec (.xingResyncAckSeen island) s = .next { s with dev := s.dev.setXph island 3 })
  ∧ (∀ (s : State) (island : Fin 56),
     s.dev.xing island = xResync →
     s.dev.xph island = 3 →
       Does (.xingResyncConfirmed island) s fun d =>
           d.xing island = xOpen ∧ d.xph island = 0 ∧ d.get FAB.page FAB.INT_RAW.XING_RESYNC = 1
             ∧ d.get FAB.page FAB.XING_STAT.RESYNC_CNT island = min (s.dev.get FAB.page FAB.XING_STAT.RESYNC_CNT island + 1) 0xFF)
  ∧ (∀ (s : State) (island : Fin 56) (late : BitVec 16),
     island.val < 51 →
     s.dev.flag SYN.page SYN.LSY_STAT.LOCK = false →
       exec (.clockRunningAgain island late) s = .next s)
  ∧ (∀ (s : State) (island : Fin 56) (d : Dev),
     51 ≤ island.val ∨ s.dev.flag SYN.page SYN.LSY_STAT.LOCK = true →
     d = ({ s.dev with held := s.dev.held.filter (fun h => h.island != island.val) } : Dev).clockReturn island →
       exec (.clockRunningAgain island 0) s =
         .next { (s.dev.held.filter (fun h => h.island == island.val)).foldl (fun t h => replay false h t) { s with dev := d }
           with pending := s.pending })

/-- R207, R210, R211, R242: one tick of the time base: it adds INC + HO_CORR, or, while a negative step is absorbed, a
sixteenth of it (never withholding more than the deficit), and the slew's part in full; SLEW_REM falls by the slew's
part and the deficit by what is withheld. R209, R210, R211: a TMB COMMIT that steps or sets the time base: refused by
the first rule it breaks, with every old value kept, else applied; a finished negative step and a finished slew are
reported. Where the rules leave a point open this rests on the model's choice in log entries 42, 61, 80. -/
def Obligations.TimeTickAndCorrections : Prop :=
  (∀ (s : State),
     s.dev.released 1 = true →
       Does (.timeBaseTick) s fun d =>
           let withheld := if s.dev.negOn then min s.dev.deficit (s.dev.rate - s.dev.rate / 16) else 0
           d.now = ((s.dev.now : Int) + ((s.dev.rate : Int) - withheld + s.dev.slewStep)).toNat % timeWrap
             ∧ d.slewRem = s.dev.slewRem - s.dev.slewStep ∧ d.deficit = s.dev.deficit - withheld
             ∧ d.negOn = s.dev.negOn)
  ∧ (∀ (s : State) (acc : Accessor) (ns frac : BitVec 32) (d : Dev),
     MayWrite s.dev acc TMB.page →
     d = (s.dev.wrShadow .tmb TMB.page TMB.STEP_NS.NS.off 0 ns).wrShadow .tmb TMB.page TMB.STEP_FRAC.FRAC.off 0
        (frac ||| TMB.STEP_FRAC.STEP_EN.mask) →
     (d.tmbRules acc).find? (·.1) = none →
       exec (.timeStep acc ns frac) s = .next { s with dev := Dev.tmbEffect d (d.acceptCommit TMB.page) })
  ∧ (∀ (s : State) (acc : Accessor) (secHi : BitVec 16) (secLo : BitVec 32) (ns : BitVec 30) (frac : BitVec 16) (d : Dev),
     MayWrite s.dev acc TMB.page →
     d = (((s.dev.wrShadow .tmb TMB.page TMB.SET_SEC_HI.SEC_HI.off 0 (secHi.setWidth 32 ||| TMB.SET_SEC_HI.SET_EN.mask)).wrShadow
        .tmb TMB.page TMB.SET_SEC_LO.SEC_LO.off 0 secLo).wrShadow .tmb TMB.page TMB.SET_NS.NS.off 0 (ns.setWidth 32)).wrShadow
        .tmb TMB.page TMB.SET_FRAC.FRAC.off 0 (frac.setWidth 32) →
     (d.tmbRules acc).find? (·.1) = none →
       exec (.timeSet acc secHi secLo ns frac) s = .next { s with dev := Dev.tmbEffect d (d.acceptCommit TMB.page) })
  ∧ (∀ (s : State) (acc : Accessor) (secHi : BitVec 16) (secLo : BitVec 32) (ns : BitVec 30) (frac : BitVec 16) (d : Dev) (code off : Nat),
     MayWrite s.dev acc TMB.page →
     d = (((s.dev.wrShadow .tmb TMB.page TMB.SET_SEC_HI.SEC_HI.off 0 (secHi.setWidth 32 ||| TMB.SET_SEC_HI.SET_EN.mask)).wrShadow
        .tmb TMB.page TMB.SET_SEC_LO.SEC_LO.off 0 secLo).wrShadow .tmb TMB.page TMB.SET_NS.NS.off 0 (ns.setWidth 32)).wrShadow
        .tmb TMB.page TMB.SET_FRAC.FRAC.off 0 (frac.setWidth 32) →
     (d.tmbRules acc).find? (·.1) = some (true, code, off) →
       Does (.timeSet acc secHi secLo ns frac) s fun e =>
           e.toClocks = s.dev.toClocks ∧ e.inc = s.dev.inc ∧ e.get TMB.page COM.COMMIT_STAT.REJECTED = 1
             ∧ e.get TMB.page COM.COMMIT_STAT.CODE = code % 256 ∧ e.get TMB.page COM.ERR_INFO.CODE = code % 256)
  ∧ (∀ (s : State),
     s.dev.negOn = true →
     s.dev.deficit = 0 →
       Does (.negStepDone) s fun d =>
           d.negOn = false ∧ d.get TMB.page TMB.INT_RAW.STEP_DONE = 1 ∧ d.get TMB.page TMB.TMB_STAT.NEG_STEP = 0 ∧ d.now = s.dev.now)
  ∧ (∀ (s : State),
     s.dev.slewOn = true →
     s.dev.slewRem = 0 →
       Does (.slewDone) s fun d =>
           d.slewOn = false ∧ d.slewRem = 0 ∧ d.get TMB.page TMB.INT_RAW.SLEW_DONE = 1)

/-- R25, R208, R213: a snapshot shows the time base and its trace mark; TRACE_CMD sets and clears TRACEABLE; a lane copy
that differs is counted and reported. Where the rules leave a point open this rests on the model's choice in log
entries 62, 105. -/
def Obligations.TimeSnapshotAndTrace : Prop :=
  (∀ (s : State) (acc : Accessor),
     Reach s.dev TMB.page →
       Does (.timeSnapshot acc) s fun d =>
           d.get TMB.page TMB.TIME_SEC_HI.SEC_HI = secOf s.dev.now / 2 ^ 32 ∧ d.get TMB.page TMB.TIME_SEC_LO.SEC_LO = secOf s.dev.now % 2 ^ 32
             ∧ d.get TMB.page TMB.TIME_NS.NS = nsOf s.dev.now ∧ d.get TMB.page TMB.TIME_FRAC.FRAC = fracOf s.dev.now
             ∧ d.flag TMB.page TMB.TIME_SEC_HI.UNTRACE = s.dev.untrace ∧ OnlyPage TMB.page s.dev d ∧ Quiet s.dev d)
  ∧ (∀ (s : State) (acc : Accessor),
     MayWrite s.dev acc TMB.page →
     s.dev.flag TMB.page TMB.TMB_STAT.BACKUP = false →
       exec (.traceSet acc) s = .next { s with dev := s.dev.set TMB.page TMB.TMB_STAT.TRACEABLE 1 })
  ∧ (∀ (s : State) (acc : Accessor),
     MayWrite s.dev acc TMB.page →
     s.dev.flag TMB.page TMB.TMB_STAT.BACKUP = true →
       exec (.traceSet acc) s = .next { s with dev := s.dev })
  ∧ (∀ (s : State) (acc : Accessor),
     MayWrite s.dev acc TMB.page →
       Does (.traceClr acc) s fun d =>
           d.flag TMB.page TMB.TMB_STAT.TRACEABLE = false
             ∧ (s.dev.flag TMB.page TMB.TMB_STAT.TRACEABLE = true → d.get TMB.page TMB.INT_RAW.TRACE_LOST = 1))
  ∧ (∀ (s : State) (lane : Fin 51) (differs : Bool),
     differs = true ∨ s.dev.laneNow lane ≠ s.dev.now →
       Does (.laneCopyCheck lane differs) s fun d =>
           d.laneNow lane = s.dev.now ∧
           d.get TMB.page TMB.COPY_STAT.LAST_LANE = lane ∧ d.get TMB.page TMB.INT_RAW.COPY_ERR = 1
             ∧ d.get TMB.page TMB.COPY_STAT.RELOADS = min (s.dev.get TMB.page TMB.COPY_STAT.RELOADS + 1) 0xFFFF
             ∧ d.now = s.dev.now ∧ OnlyPage TMB.page s.dev d)
  ∧ (∀ (s : State) (lane : Fin 51),
     s.dev.laneNow lane = s.dev.now →
       exec (.laneCopyCheck lane false) s = .next { s with dev := s.dev })

/-- R220, R223, R226: the strobe of an event message, of which a SOFT port's stores the time, the transmit timestamp
FIFO's POP and CLR, and the Crown capture's edges and read. Where the rules leave a point open this rests on the
model's choice in log entries 2, 67, 128. -/
def Obligations.StampsTaken : Prop :=
  (∀ (s : State) (port : Fin 48) (d : Dev),
     d = s.dev.eventBegins port s.dev.now →
     d.isSoft port = true →
       exec (.eventMsgStrobe port) s = .next { s with dev := (
           let d : Dev := { d with softMsg := tset (fun _ => 0) d.softMsg port d.now }
           d.emit (.coreInt 0 "strobe")) })
  ∧ (∀ (s : State) (port : Fin 48) (d : Dev),
     d = s.dev.eventBegins port s.dev.now →
     d.isSoft port = false →
       exec (.eventMsgStrobe port) s = .next { s with dev := d })
  ∧ (∀ (s : State) (acc : Accessor) (tsu : Fin 49),
     MayWrite s.dev acc (TSU.page tsu) →
       Does (.txfPop acc tsu) s fun d =>
           d.txfOf tsu = (s.dev.txfOf tsu).tail ∧ d.get (TSU.page tsu) TSU.TXF_STAT.FILL = (s.dev.txfOf tsu).tail.length % 2 ^ 7)
  ∧ (∀ (s : State) (acc : Accessor) (tsu : Fin 49),
     MayWrite s.dev acc (TSU.page tsu) →
       Does (.txfClear acc tsu) s fun d =>
           d.txfOf tsu = [] ∧ d.get (TSU.page tsu) TSU.TXF_STAT.FILL = 0 ∧ d.get (TSU.page tsu) TSU.TXF_STAT.LOST_CNT = 0)
  ∧ (∀ (s : State) (sub : Fin 16),
     (∀ l, s.dev.cap.lastEdge = some l → l + 100 * nsU ≤ s.dev.now + sub * s.dev.rate / 16) →
       exec (.tcapEdge sub) s = .next { s with dev := (
           let t := s.dev.now + sub * s.dev.rate / 16
           { s.dev with cap := { s.dev.cap with
             time := t, seq := (s.dev.cap.seq + 1) % 256, untrace := s.dev.untrace, lastEdge := some t } }) })
  ∧ (∀ (s : State) (sub : Fin 16) (l : Nat),
     s.dev.cap.lastEdge = some l →
     s.dev.now + sub * s.dev.rate / 16 < l + 100 * nsU →
       exec (.tcapEdge sub) s = .next { s with dev := { s.dev with cap := { s.dev.cap with overrun := true, ignored := s.dev.cap.ignored + 1 } } })
  ∧ (∀ (s : State),
     s.dev.crownOn = true →
       exec (.capNsRead) s = .next { s with dev := (
           let c := s.dev.cap
           let d : Dev := { s.dev with cap := { c with overrun := false, latchedTime := c.time, latchedSeq := c.seq } }
           d.emit (.reply "crown" (s.dev.crownFast 0x000 :: (List.range 255).map (fun i => d.crownFast (i + 1))))) })

/-- R230 to R233, R237, R242: the measurement of a second, the dwell times, lock and readiness, and the holdover engine's
update. Where the rules leave a point open this rests on the model's choice in log entries 10, 59, 64, 106. -/
def Obligations.ReferenceSeconds : Prop :=
  (∀ (s : State) (ys : List (Fin 16 × Int)) (phase : Option Int) (d e f : Dev),
     d = (ys.foldl (fun d e => d.measureSlot s.dev.predictPpt e.1 e.2) s.dev).majority →
     e = refSlots.foldl (fun d i =>
      d.set REF.page REF.SLOT_STAT.TIMER_S (d.get REF.page REF.SLOT_STAT.TIMER_S i - 1) i) d →
     f = (match Option.or (match e.refSelected with | some k => e.slotPhase k | none => none) phase with
      | some p => e.setPhaseErr p
      | none => e) →
     ¬(f.refState = refLocked ∧ f.flag REF.page REF.REF_STAT.SWITCHING = false) →
       exec (.refSecondMeasure ys phase) s = .next { s with dev := f })
  ∧ (∀ (s : State) (ys : List (Fin 16 × Int)) (phase : Option Int) (d e f : Dev),
     d = (ys.foldl (fun d e => d.measureSlot s.dev.predictPpt e.1 e.2) s.dev).majority →
     e = refSlots.foldl (fun d i =>
      d.set REF.page REF.SLOT_STAT.TIMER_S (d.get REF.page REF.SLOT_STAT.TIMER_S i - 1) i) d →
     f = (match Option.or (match e.refSelected with | some k => e.slotPhase k | none => none) phase with
      | some p => e.setPhaseErr p
      | none => e) →
     f.refState = refLocked →
     f.flag REF.page REF.REF_STAT.SWITCHING = false →
       exec (.refSecondMeasure ys phase) s = .next { s with dev := (if f.lockOk then
         (if f.hoFrozen then f else { f with hoHist := (f.rate :: f.hoHist).take (f.get REF.page REF.HO_CFG.AVG_S) })
       else f.setRefState refAcquiring) })
  ∧ (∀ (s : State) (slot : Fin 16),
     (s.dev.get REF.page REF.SLOT_CFG.DRIFT_LIM slot * 1000 : Int) < (s.dev.getInt REF.page REF.SLOT_DRIFT.PPT slot.val).natAbs →
       exec (.driftDwellExpiry slot) s = .next { s with dev := s.dev.slotFail slot 3 })
  ∧ (∀ (s : State) (slot : Fin 16),
     s.dev.flag REF.page REF.SLOT_STAT.MAJ_OUT slot.val = true →
     s.dev.flag REF.page REF.REF_CFG.MAJ_ACT = true →
     2 * s.dev.outliers.length ≤ s.dev.compared.length →
       exec (.majDwellExpiry slot) s = .next { s with dev := s.dev.slotFail slot 4 })
  ∧ (∀ (s : State),
     s.dev.refState = refAcquiring →
     s.dev.lockOk = true →
     s.dev.flag REF.page REF.REF_STAT.SWITCHING = false →
       exec (.lockDetected) s = .next { s with dev := s.dev.setRefState refLocked })
  ∧ (∀ (s : State),
     s.dev.refState = refLocked →
       Does (.hoReadySet) s fun d =>
           d.get REF.page REF.REF_STAT.HO_READY = 1 ∧ d.refState = refLocked ∧ OnlyPage REF.page s.dev d ∧ Quiet s.dev d)
  ∧ (∀ (s : State) (sensor : Int) (t : Int),
     t = (if s.dev.flag REF.page REF.HO_CFG.TEMP_SRC ∧ s.dev.flag REF.page REF.HO_STAT.TEMP_STALE = false
          then s.dev.getInt REF.page REF.HO_TEMP.TEMP else sensor) →
     s.dev.flag REF.page REF.HO_STAT.ACTIVE = false →
       exec (.holdoverUpdate sensor) s = .next { s with dev := s.dev.set REF.page REF.HO_STAT.TEMP (toField 16 t) })
  ∧ (∀ (s : State) (sensor : Int) (t : Int) (target : Rat) (e : Dev),
     t = (if s.dev.flag REF.page REF.HO_CFG.TEMP_SRC ∧ s.dev.flag REF.page REF.HO_STAT.TEMP_STALE = false
          then s.dev.getInt REF.page REF.HO_TEMP.TEMP else sensor) →
     e = s.dev.set REF.page REF.HO_STAT.TEMP (toField 16 t) →
     s.dev.flag REF.page REF.HO_STAT.ACTIVE = true →
     e.hoTarget = some target →
       exec (.holdoverUpdate sensor) s = .next { s with dev := (e.set REF.page REF.HO_CORR.CORR (toField 32 (ratRound (target - (e.inc : Rat))))).checkPpm })
  ∧ (∀ (s : State),
     s.dev.imageRuns = true →
     s.dev.refState = refLocked →
     s.dev.rate ≠ 0 →
       exec (.modelLearnSample) s = .next { s with dev := ({ s.dev with learn := s.dev.learn
           ++ [(ratRound ((17592186044416 / 10 / (s.dev.rate : Rat) - 1) * 1000000000000), s.dev.hoTemp, s.dev.now)] }) })

/-- R227, R229, R231, R236, R243: activity lost and returned, the qualification and wait-to-restore times, and what
firmware writes about a slot. Where the rules leave a point open this rests on the model's choice in log entry 59. -/
def Obligations.ReferenceSlots : Prop :=
  (∀ (s : State) (slot : Fin 16),
       exec (.slotActivityFail slot) s = .next { s with dev := s.dev.slotFail slot (if s.dev.slotType slot = 2 then 6 else 1) })
  ∧ (∀ (s : State) (slot : Fin 16) (i : Nat),
     i = s.dev.slotIndex slot →
     s.dev.slotType slot ≠ 2 →
     (s.dev.slotType slot = 1 → s.dev.flag (LNK.page i) LNK.LNK_STATE.LOS = false ∧ s.dev.flag (LNK.page i) LNK.LNK_STATE.LOL = false
        ∧ s.dev.flag (PRT.page i) PRT.PORT_STAT.LINK_UP = true) →
     (s.dev.slotType slot = 4 → s.dev.flag EVT.page EVT.EVT_CFG.ENABLE i = true ∧ s.dev.get EVT.page EVT.EVT_CFG.SLOPE i ≠ 2) →
     (s.dev.slotType slot = 5 → s.dev.flag DBL.page DBL.DBL_STAT.DL0_UP = true ∧ s.dev.flag DBL.page DBL.DBL_STAT.STALE = false) →
       exec (.slotActivityReturn slot) s = .next { s with dev := (s.dev.slotClear slot 1).slotClear slot 5 })
  ∧ (∀ (s : State) (slot : Fin 16) (i : Nat),
     i = s.dev.slotIndex slot →
     s.dev.slotType slot = 2
        ∨ s.dev.slotType slot = 1 ∧ (s.dev.flag (LNK.page i) LNK.LNK_STATE.LOS = true ∨ s.dev.flag (LNK.page i) LNK.LNK_STATE.LOL = true
          ∨ s.dev.flag (PRT.page i) PRT.PORT_STAT.LINK_UP = false)
        ∨ s.dev.slotType slot = 4 ∧ (s.dev.flag EVT.page EVT.EVT_CFG.ENABLE i = false ∨ s.dev.get EVT.page EVT.EVT_CFG.SLOPE i = 2)
        ∨ s.dev.slotType slot = 5 ∧ (s.dev.flag DBL.page DBL.DBL_STAT.DL0_UP = false ∨ s.dev.flag DBL.page DBL.DBL_STAT.STALE = true) →
       exec (.slotActivityReturn slot) s = .next { s with dev := s.dev })
  ∧ (∀ (s : State) (slot : Fin 16),
     s.dev.slotState slot = slotQualifying →
     (s.dev.slot slot).first = false →
     s.dev.get REF.page REF.REF_CFG.WTR_S ≠ 0 →
       Does (.qualTimerExpiry slot) s fun d =>
           d.slotState slot = slotWtr ∧ d.get REF.page REF.SLOT_STAT.TIMER_S slot = s.dev.get REF.page REF.REF_CFG.WTR_S
             ∧ OnlyPage REF.page s.dev d ∧ Quiet s.dev d)
  ∧ (∀ (s : State) (slot : Fin 16),
     s.dev.slotState slot = slotQualifying →
     (s.dev.slot slot).first = true ∨ s.dev.get REF.page REF.REF_CFG.WTR_S = 0 →
       exec (.qualTimerExpiry slot) s = .next { s with dev := (s.dev.setSlot slot { s.dev.slot slot with first := false }).toQualified slot })
  ∧ (∀ (s : State) (slot : Fin 16),
     s.dev.slotState slot = slotWtr →
       exec (.wtrExpiry slot) s = .next { s with dev := s.dev.toQualified slot })
  ∧ (∀ (s : State) (acc : Accessor) (value : BitVec 32),
     MayWrite s.dev acc REF.page →
       exec (.ptpOfsWrite acc value) s = .next { s with dev := s.dev.ptpSample (s.dev.slotSel acc) value })
  ∧ (∀ (s : State) (slot : Fin 16),
     s.dev.slotType slot = 2 →
       exec (.ptpOfsTimeout slot) s = .next { s with dev := s.dev.slotFail slot 6 })
  ∧ (∀ (s : State) (acc : Accessor) (value : BitVec 32),
     MayWrite s.dev acc REF.page →
       exec (.slotFwWrite acc value) s = .next { s with dev := s.dev.slotFwWrite (s.dev.slotSel acc) value })
  ∧ (∀ (s : State) (acc : Accessor) (temp : BitVec 16),
     MayWrite s.dev acc REF.page →
       Does (.hoTempWrite acc temp) s fun d =>
           d.get REF.page REF.HO_TEMP.TEMP = temp.toNat ∧ d.get REF.page REF.HO_STAT.TEMP_STALE = 0
             ∧ OnlyPage REF.page s.dev d ∧ Quiet s.dev d)
  ∧ (∀ (s : State),
     s.dev.flag REF.page REF.HO_CFG.TEMP_SRC = true →
       exec (.hoTempStale) s = .next { s with dev := s.dev.set REF.page REF.HO_STAT.TEMP_STALE 1 })

/-- R235, R240, R241: the switch commands are commits of the REF page: refused by the first rule broken, else applied; a
measured switch absorbs its offset and ends. Where the rules leave a point open this rests on the model's choice in
log entries 42, 60, 107. -/
def Obligations.SwitchCommands : Prop :=
  (∀ (s : State) (acc : Accessor) (slot : Fin 16) (d : Dev),
     MayWrite s.dev acc REF.page →
     d = s.dev.wrShadow .ref REF.page REF.SWITCH_CMD.MODE.off 0 (s.dev.switchWord [(REF.SWITCH_CMD.MODE, 1), (REF.SWITCH_CMD.SLOT, slot)]) →
     d.refRules.find? (·.1) = none →
       exec (.switchManual acc slot) s = .next { s with dev := Dev.refEffect d (d.acceptCommit REF.page) })
  ∧ (∀ (s : State) (acc : Accessor) (slot : Fin 16) (d : Dev) (code off : Nat),
     MayWrite s.dev acc REF.page →
     d = s.dev.wrShadow .ref REF.page REF.SWITCH_CMD.MODE.off 0 (s.dev.switchWord [(REF.SWITCH_CMD.MODE, 1), (REF.SWITCH_CMD.SLOT, slot)]) →
     d.refRules.find? (·.1) = some (true, code, off) →
       exec (.switchManual acc slot) s = .next { s with dev := d.rejectCommit REF.page code off })
  ∧ (∀ (s : State) (acc : Accessor) (slot : Fin 16) (d : Dev),
     MayWrite s.dev acc REF.page →
     d = s.dev.wrShadow .ref REF.page REF.SWITCH_CMD.MODE.off 0 (s.dev.switchWord [(REF.SWITCH_CMD.MODE, 2), (REF.SWITCH_CMD.SLOT, slot)]) →
     d.refRules.find? (·.1) = none →
       exec (.switchForced acc slot) s = .next { s with dev := Dev.refEffect d (d.acceptCommit REF.page) })
  ∧ (∀ (s : State) (acc : Accessor) (slot : Fin 16) (d : Dev) (code off : Nat),
     MayWrite s.dev acc REF.page →
     d = s.dev.wrShadow .ref REF.page REF.SWITCH_CMD.MODE.off 0 (s.dev.switchWord [(REF.SWITCH_CMD.MODE, 2), (REF.SWITCH_CMD.SLOT, slot)]) →
     d.refRules.find? (·.1) = some (true, code, off) →
       exec (.switchForced acc slot) s = .next { s with dev := d.rejectCommit REF.page code off })
  ∧ (∀ (s : State) (acc : Accessor) (slot : Fin 16) (d : Dev),
     MayWrite s.dev acc REF.page →
     d = s.dev.wrShadow .ref REF.page REF.SWITCH_CMD.MODE.off 0 (s.dev.switchWord [(REF.SWITCH_CMD.CLR_WTR, 1), (REF.SWITCH_CMD.SLOT, slot)]) →
     d.refRules.find? (·.1) = none →
       exec (.clrWtr acc slot) s = .next { s with dev := Dev.refEffect d (d.acceptCommit REF.page) })
  ∧ (∀ (s : State) (acc : Accessor) (slot : Fin 16) (d : Dev) (code off : Nat),
     MayWrite s.dev acc REF.page →
     d = s.dev.wrShadow .ref REF.page REF.SWITCH_CMD.MODE.off 0 (s.dev.switchWord [(REF.SWITCH_CMD.CLR_WTR, 1), (REF.SWITCH_CMD.SLOT, slot)]) →
     d.refRules.find? (·.1) = some (true, code, off) →
       exec (.clrWtr acc slot) s = .next { s with dev := d.rejectCommit REF.page code off })
  ∧ (∀ (s : State) (acc : Accessor) (d : Dev),
     MayWrite s.dev acc REF.page →
     d = s.dev.wrShadow .ref REF.page REF.SWITCH_CMD.MODE.off 0 (s.dev.switchWord [(REF.SWITCH_CMD.ABS_CLR, 1)]) →
     d.refRules.find? (·.1) = none →
       exec (.absClr acc) s = .next { s with dev := Dev.refEffect d (d.acceptCommit REF.page) })
  ∧ (∀ (s : State) (acc : Accessor) (d : Dev) (code off : Nat),
     MayWrite s.dev acc REF.page →
     d = s.dev.wrShadow .ref REF.page REF.SWITCH_CMD.MODE.off 0 (s.dev.switchWord [(REF.SWITCH_CMD.ABS_CLR, 1)]) →
     d.refRules.find? (·.1) = some (true, code, off) →
       exec (.absClr acc) s = .next { s with dev := d.rejectCommit REF.page code off })
  ∧ (∀ (s : State) (delta dl : Int) (new : Nat),
     s.dev.refTarget = some new →
     s.dev.flag REF.page REF.REF_STAT.SWITCHING = true →
     dl = (match s.dev.slotPhase new with | some ps => ps * 65536 / 1000 | none => delta) →
     isTimeType (s.dev.slotType new) = true →
       exec (.switchMeasureDone delta) s = .next { s with dev := ((((({ s.dev with absOfs := dl * 2 ^ 24, refZero := 0 } : Dev).addSlew (dl * 2 ^ 24)).set REF.page REF.PHASE_ERR.PS 0).record
           0x001 0x0A (dl % (2 ^ 64 : Int)).toNat).switchEnd new) })
  ∧ (∀ (s : State) (delta dl : Int) (new : Nat),
     s.dev.refTarget = some new →
     s.dev.flag REF.page REF.REF_STAT.SWITCHING = true →
     dl = (match s.dev.slotPhase new with | some ps => ps * 65536 / 1000 | none => delta) →
     isTimeType (s.dev.slotType new) = false →
       exec (.switchMeasureDone delta) s = .next { s with dev := (((({ s.dev with refZero := dl * 1000 / 65536 % (max 1 (s.dev.refPeriod new) : Nat) } : Dev).set REF.page REF.PHASE_ERR.PS 0).record
           0x001 0x0A (dl % (2 ^ 64 : Int)).toNat).switchEnd new) })
  ∧ (∀ (s : State) (ports : List Nat) (d : Dev),
     s.dev.bootRomRuns = true →
     s.dev.owner REF.page = 1 ∨ s.dev.owner REF.page = 3 →
     ports = ((List.range 48).filter (fun p => s.dev.flag (PRT.page p) PRT.PORT_STAT.LINK_UP)).take 16 →
     d = refSlots.foldl (fun d i =>
        match ports[i]? with
        | some p =>
          if d.flag REF.page REF.SLOT_CFG.ENABLE i && d.slotType i == 1 && d.slotIndex i == p then d
          else ((d.setSh .ref REF.page REF.SLOT_CFG.ENABLE 1 i).setSh .ref REF.page REF.SLOT_CFG.TYPE 1 i).setSh
            .ref REF.page REF.SLOT_CFG.INDEX p i
        | none => d.setSh .ref REF.page REF.SLOT_CFG.ENABLE 0 i) s.dev →
       exec (.bootromSlotRewrite) s = .next { s with dev := if (d.dirtyKeys REF.page).isEmpty then d else d.commitRef })

/-- R262, R263, R264: ALIGN and CANCEL are commits of the OUT page; an alignment whose instant has come puts the output on
its grid and publishes the instant. R253, R254, R79: a hop by COMMIT, the search, FORGET, the end of a hop, the end of
the tuning range, and LSY's lock. Where the rules leave a point open this rests on the model's choice in log entries
20, 42, 95, 122, 151, 152. -/
def Obligations.SynthesizersAndOutputs : Prop :=
  (∀ (s : State) (acc : Accessor) (outs : BitVec 12) (walk : Bool) (d : Dev),
     MayWrite s.dev acc OUT.page →
     d = (List.range 12).foldl (fun d o =>
        if outs.getLsbD o then [(OUT.OUT_ALIGN.ALIGN, 1), (OUT.OUT_ALIGN.WALK, if walk then 1 else 0)].foldl (fun d x => d.setSh .out OUT.page x.1 x.2 o) d else d) s.dev →
     d.outRules.find? (·.1) = none →
       exec (.outAlign acc outs walk) s = .next { s with dev := Dev.outEffect d (d.acceptCommit OUT.page) })
  ∧ (∀ (s : State) (acc : Accessor) (outs : BitVec 12) (walk : Bool) (d : Dev) (code off : Nat),
     MayWrite s.dev acc OUT.page →
     d = (List.range 12).foldl (fun d o =>
        if outs.getLsbD o then [(OUT.OUT_ALIGN.ALIGN, 1), (OUT.OUT_ALIGN.WALK, if walk then 1 else 0)].foldl (fun d x => d.setSh .out OUT.page x.1 x.2 o) d else d) s.dev →
     d.outRules.find? (·.1) = some (true, code, off) →
       exec (.outAlign acc outs walk) s = .next { s with dev := d.rejectCommit OUT.page code off })
  ∧ (∀ (s : State) (acc : Accessor) (outs : BitVec 12) (d : Dev),
     MayWrite s.dev acc OUT.page →
     d = (List.range 12).foldl (fun d o =>
        if outs.getLsbD o then [(OUT.OUT_ALIGN.CANCEL, 1)].foldl (fun d x => d.setSh .out OUT.page x.1 x.2 o) d else d) s.dev →
     d.outRules.find? (·.1) = none →
       exec (.outAlignCancel acc outs) s = .next { s with dev := Dev.outEffect d (d.acceptCommit OUT.page) })
  ∧ (∀ (s : State) (acc : Accessor) (outs : BitVec 12) (d : Dev) (code off : Nat),
     MayWrite s.dev acc OUT.page →
     d = (List.range 12).foldl (fun d o =>
        if outs.getLsbD o then [(OUT.OUT_ALIGN.CANCEL, 1)].foldl (fun d x => d.setSh .out OUT.page x.1 x.2 o) d else d) s.dev →
     d.outRules.find? (·.1) = some (true, code, off) →
       exec (.outAlignCancel acc outs) s = .next { s with dev := d.rejectCommit OUT.page code off })
  ∧ (∀ (s : State) (out : Fin 12) (t : Nat),
     s.dev.alignAt out = some t →
     t ≤ s.dev.now →
       Does (.outAlignDone out) s fun d =>
           d.get OUT.page OUT.ALIGN_SEC.SEC out = secOf t % 2 ^ 32 ∧ d.get OUT.page OUT.ALIGN_NS.NS out = nsOf t
             ∧ d.get OUT.page OUT.OUT_STAT.ALIGNED out = 1 ∧ d.get OUT.page OUT.OUT_STAT.ALIGN_PENDING out = 0
             ∧ d.get OUT.page OUT.ALIGN_ERR.PS out = 0 ∧ tget (fun _ => none) d.outFrom out = none)
  ∧ (∀ (s : State) (acc : Accessor) (syn : Fin 4) (plan : Fin 8) (d : Dev),
     MayWrite s.dev acc SYN.page →
     d = s.dev.setSh .syn SYN.page SYN.SYN_CFG.ACTIVE plan syn →
     d.synRules.find? (·.1) = none →
       exec (.synHop acc syn plan) s = .next { s with dev := Dev.synEffect d (d.acceptCommit SYN.page) })
  ∧ (∀ (s : State) (acc : Accessor) (syn : Fin 4) (plan : Fin 8) (d : Dev) (code off : Nat),
     MayWrite s.dev acc SYN.page →
     d = s.dev.setSh .syn SYN.page SYN.SYN_CFG.ACTIVE plan syn →
     d.synRules.find? (·.1) = some (true, code, off) →
       exec (.synHop acc syn plan) s = .next { s with dev := d.rejectCommit SYN.page code off })
  ∧ (∀ (s : State) (acc : Accessor) (k : Nat),
     MayWrite s.dev acc SYN.page →
     k = s.dev.get SYN.page SYN.SYN_SEL.SYN acc.idx →
     s.dev.synOn k = true →
       exec (.synSearch acc) s = .next { s with dev := Dev.hopStart s.dev s.dev k true })
  ∧ (∀ (s : State) (acc : Accessor),
     MayWrite s.dev acc SYN.page →
     s.dev.synOn (s.dev.get SYN.page SYN.SYN_SEL.SYN acc.idx) = false →
       exec (.synSearch acc) s = .next { s with dev := s.dev })
  ∧ (∀ (s : State) (acc : Accessor) (k plan : Nat),
     MayWrite s.dev acc SYN.page →
     k = s.dev.get SYN.page SYN.SYN_SEL.SYN acc.idx →
     plan = s.dev.get SYN.page SYN.PLAN_SEL.PLAN acc.idx →
       exec (.synForget acc) s = .next { s with dev := if plan = s.dev.synActive k then s.dev else s.dev.forgetBand k plan })
  ∧ (∀ (s : State) (syn : Fin 4) (band : BitVec 6) (tune : BitVec 16) (plan : Nat) (searched : Bool) (d e : Dev),
     s.dev.flag SYN.page SYN.SYN_STAT.HOPPING syn = true →
     plan = s.dev.synActive syn →
     searched = s.dev.flag SYN.page SYN.SYN_STAT.SEARCHING syn →
     d = (if searched then
          ((s.dev.set SYN.page SYN.PLAN_N.BAND_VALID 1 (planSel syn plan)).set SYN.page SYN.PLAN_N.BAND band.toNat (planSel syn plan)).set
            SYN.page SYN.SYN_STAT.BAND_VALID (putBit (((s.dev.set SYN.page SYN.PLAN_N.BAND_VALID 1 (planSel syn plan)).set
              SYN.page SYN.PLAN_N.BAND band.toNat (planSel syn plan)).get SYN.page SYN.SYN_STAT.BAND_VALID syn) plan true) syn
        else s.dev) →
     e = (((((((d.set SYN.page SYN.SYN_STAT.BAND_NOW (d.get SYN.page SYN.PLAN_N.BAND (planSel syn plan)) syn).set
        SYN.page SYN.SYN_STAT.ACTIVE_NOW plan syn).set SYN.page SYN.SYN_STAT.LOCK 1 syn).set
        SYN.page SYN.SYN_STAT.HOPPING 0 syn).set SYN.page SYN.SYN_STAT.SEARCHING 0 syn).set
        SYN.page SYN.SYN_STAT.TUNE_LIMIT 0 syn).showTune syn tune) →
       exec (.synHopDone syn band tune) s = .next { s with dev := ((Dev.outsNewPeriod s.dev ((((e.raise SYN.page SYN.INT_RAW.HOP_DONE syn).count (0xD48 + syn)).record (0x006 + syn) 0x0C
         ((if searched then 32 else 0) + plan * 4 + syn)).refreshRepeat) syn).outsLocked syn) })
  ∧ (∀ (s : State) (syn : Fin 4) (tune : BitVec 16) (d : Dev),
     s.dev.synOn syn = true →
     s.dev.flag SYN.page SYN.SYN_STAT.HOPPING syn = false →
     tune = 0x7FFF ∨ tune = 0x8000 →
     s.dev.flag SYN.page SYN.SYN_STAT.TUNE_LIMIT syn = false →
     d = ((s.dev.showTune syn tune).set SYN.page SYN.SYN_STAT.TUNE_LIMIT 1 syn).set SYN.page SYN.SYN_STAT.LOCK 0 syn →
       exec (.tuneLimitReached syn tune) s = .next { s with dev := (Dev.refreshOutsAs s.dev false (Dev.outsHalt s.dev
         (((d.raise SYN.page SYN.INT_RAW.TUNE_LIMIT syn).raise SYN.page SYN.INT_RAW.UNLOCK syn).count (0xD4C + syn)) syn)) })
  ∧ (∀ (s : State) (syn : Fin 4) (tune : BitVec 16),
     s.dev.synOn syn = true →
     s.dev.flag SYN.page SYN.SYN_STAT.HOPPING syn = false →
     tune ≠ 0x7FFF →
     tune ≠ 0x8000 →
     s.dev.flag SYN.page SYN.SYN_STAT.TUNE_LIMIT syn = true →
       exec (.tuneLimitReached syn tune) s = .next { s with dev := ((((s.dev.showTune syn tune).set SYN.page SYN.SYN_STAT.TUNE_LIMIT 0 syn).set
         SYN.page SYN.SYN_STAT.LOCK 1 syn).outsLocked syn) })
  ∧ (∀ (s : State) (syn : Fin 4) (tune : BitVec 16),
     s.dev.synOn syn = true →
     s.dev.flag SYN.page SYN.SYN_STAT.HOPPING syn = false →
     ((tune = 0x7FFF ∨ tune = 0x8000) ↔ s.dev.flag SYN.page SYN.SYN_STAT.TUNE_LIMIT syn = true) →
       exec (.tuneLimitReached syn tune) s = .next { s with dev := s.dev.showTune syn tune })
  ∧ (∀ (s : State) (locked : Bool),
     s.dev.flag SYN.page SYN.LSY_STAT.LOCK = locked →
       exec (.lsyLockLoss locked) s = .next { s with dev := s.dev })
  ∧ (∀ (s : State),
     s.dev.flag SYN.page SYN.LSY_STAT.LOCK = false →
       exec (.lsyLockLoss true) s = .next { s with dev := (s.dev.set SYN.page SYN.LSY_STAT.LOCK 1).outsLocked 4 })
  ∧ (∀ (s : State) (d : Dev),
     s.dev.flag SYN.page SYN.LSY_STAT.LOCK = true →
     d = (s.dev.set SYN.page SYN.LSY_STAT.LOCK 0).raise SYN.page SYN.INT_RAW.LSY_UNLOCK →
       exec (.lsyLockLoss false) s = .next { s with dev := (Dev.refreshOutsAs s.dev false (Dev.outsHop s.dev
         ((List.range 51).foldl (fun d i => if d.released (unitLane i) then d.clockStop i else d) (d.setGood 1 false)) 4)) })

/-- R268, R269, R271, R272: an edge that an input takes is counted; of every N one is stamped, if it comes more than 40 ns
after the last stamped one, and enters the FIFO; POP and CLR; the end of blanking. Where the rules leave a point open
this rests on the model's choice in log entries 96, 149. -/
def Obligations.EventEdges : Prop :=
  (∀ (s : State) (evt : Fin 8) (rising : Bool) (sub temp : BitVec 16),
     s.dev.pageUp EVT.page = false ∨ s.dev.flag EVT.page EVT.EVT_CFG.ENABLE evt = false ∨ (s.dev.evtIn evt).blanked s.dev.now = true
      ∨ s.dev.get EVT.page EVT.EVT_CFG.SLOPE evt = (if rising then 1 else 0) →
       exec (.evtEdge evt rising sub temp) s = .next { s with dev := s.dev })
  ∧ (∀ (s : State) (evt : Fin 8) (rising : Bool) (sub temp : BitVec 16) (d : Dev),
     s.dev.pageUp EVT.page = true →
     s.dev.flag EVT.page EVT.EVT_CFG.ENABLE evt = true →
     (s.dev.evtIn evt).blanked s.dev.now = false →
     s.dev.get EVT.page EVT.EVT_CFG.SLOPE evt = 2 ∨ s.dev.get EVT.page EVT.EVT_CFG.SLOPE evt = (if rising then 0 else 1) →
     d = s.dev.setEvtIn evt { s.dev.evtIn evt with count := (s.dev.evtIn evt).count + 1 } →
     (s.dev.evtIn evt).count.succ % d.get EVT.page EVT.EVT_PRESCALE.N evt ≠ 0 →
       exec (.evtEdge evt rising sub temp) s = .next { s with dev := d.showEvt evt })
  ∧ (∀ (s : State) (evt : Fin 8) (rising : Bool) (sub temp : BitVec 16) (d : Dev) (at_ t : Nat),
     s.dev.pageUp EVT.page = true →
     s.dev.flag EVT.page EVT.EVT_CFG.ENABLE evt = true →
     (s.dev.evtIn evt).blanked s.dev.now = false →
     s.dev.get EVT.page EVT.EVT_CFG.SLOPE evt = 2 ∨ s.dev.get EVT.page EVT.EVT_CFG.SLOPE evt = (if rising then 0 else 1) →
     d = s.dev.setEvtIn evt { s.dev.evtIn evt with count := (s.dev.evtIn evt).count + 1 } →
     (s.dev.evtIn evt).count.succ % d.get EVT.page EVT.EVT_PRESCALE.N evt = 0 →
     at_ = d.now + sub.toNat * d.rate / 65536 →
     (s.dev.evtIn evt).lastStamped = some t →
     at_ ≤ t + 40 * nsU →
       exec (.evtEdge evt rising sub temp) s = .next { s with dev := ((d.incSat EVT.page EVT.FIFO_STAT.MISSED evt).count (0xD68 + evt)).showEvt evt })
  ∧ (∀ (s : State) (evt : Fin 8) (rising : Bool) (sub temp : BitVec 16) (d e : Dev) (at_ t : Nat),
     s.dev.pageUp EVT.page = true →
     s.dev.flag EVT.page EVT.EVT_CFG.ENABLE evt = true →
     (s.dev.evtIn evt).blanked s.dev.now = false →
     s.dev.get EVT.page EVT.EVT_CFG.SLOPE evt = 2 ∨ s.dev.get EVT.page EVT.EVT_CFG.SLOPE evt = (if rising then 0 else 1) →
     d = s.dev.setEvtIn evt { s.dev.evtIn evt with count := (s.dev.evtIn evt).count + 1 } →
     (s.dev.evtIn evt).count.succ % d.get EVT.page EVT.EVT_PRESCALE.N evt = 0 →
     at_ = d.now + sub.toNat * d.rate / 65536 →
     (∀ u, (s.dev.evtIn evt).lastStamped = some u → u + 40 * nsU < at_) →
     t = d.evtStamp evt sub.toNat temp.toInt →
     e = d.setEvtIn evt { d.evtIn evt with lastStamped := some at_, lastStamp := some t } →
       exec (.evtEdge evt rising sub temp) s = .next { s with dev := ((e.evtPush evt t rising).gateStamp evt t).showEvt evt })
  ∧ (∀ (s : State) (acc : Accessor) (e : Nat),
     MayWrite s.dev acc EVT.page →
     e = s.dev.evtSel acc →
       exec (.evtFifoPop acc) s = .next { s with dev := (s.dev.setEvtIn e { s.dev.evtIn e with fifo := (s.dev.evtIn e).fifo.tail }).showEvt e })
  ∧ (∀ (s : State) (acc : Accessor) (e : Nat),
     MayWrite s.dev acc EVT.page →
     e = s.dev.evtSel acc →
       exec (.evtFifoClear acc) s = .next { s with dev := ((((s.dev.setEvtIn e { s.dev.evtIn e with fifo := [] }).showEvt e).set EVT.page EVT.FIFO_STAT.LOST_CNT 0 e).set
         EVT.page EVT.FIFO_STAT.MISSED 0 e) })
  ∧ (∀ (s : State) (evt : Fin 8),
     (s.dev.evtIn evt).blanked s.dev.now = false →
       Does (.evtBlankEnd evt) s fun d =>
           (d.evtIn evt).blankTo = none ∧ d.regs = s.dev.regs ∧ Quiet { s.dev with evts := d.evts } d)
  ∧ (∀ (s : State) (evt : Fin 8),
     (s.dev.evtIn evt).blanked s.dev.now = true →
       exec (.evtBlankEnd evt) s = .next { s with dev := s.dev })

/-- R274, R275, R276, R278: START and ABORT are commits of the EVT page; a gate opens and closes at its times; the fit is
published, or RESULT says why there is none. Where the rules leave a point open this rests on the model's choice in
log entries 21, 42, 96. -/
def Obligations.Measurements : Prop :=
  (∀ (s : State) (acc : Accessor) (evt : Fin 8) (gateMs : BitVec 20) (sec : BitVec 32) (ns : BitVec 30) (d : Dev),
     MayWrite s.dev acc EVT.page →
     d = [(EVT.MEAS_CFG.START, 1), (EVT.MEAS_CFG.TIMED, 1), (EVT.MEAS_CFG.GATE_MS, gateMs.toNat),
        (EVT.MEAS_START_SEC.SEC, sec.toNat), (EVT.MEAS_START_NS.NS, ns.toNat)].foldl (fun d x => d.setSh .evt EVT.page x.1 x.2 evt) s.dev →
     d.evtRules.find? (·.1) = none →
       exec (.measStart acc evt true gateMs sec ns) s = .next { s with dev := Dev.evtEffect d (d.acceptCommit EVT.page) })
  ∧ (∀ (s : State) (acc : Accessor) (evt : Fin 8) (gateMs : BitVec 20) (sec : BitVec 32) (ns : BitVec 30) (d : Dev) (code off : Nat),
     MayWrite s.dev acc EVT.page →
     d = [(EVT.MEAS_CFG.START, 1), (EVT.MEAS_CFG.TIMED, 1), (EVT.MEAS_CFG.GATE_MS, gateMs.toNat),
        (EVT.MEAS_START_SEC.SEC, sec.toNat), (EVT.MEAS_START_NS.NS, ns.toNat)].foldl (fun d x => d.setSh .evt EVT.page x.1 x.2 evt) s.dev →
     d.evtRules.find? (·.1) = some (true, code, off) →
       exec (.measStart acc evt true gateMs sec ns) s = .next { s with dev := d.rejectCommit EVT.page code off })
  ∧ (∀ (s : State) (acc : Accessor) (evt : Fin 8) (gateMs : BitVec 20) (sec : BitVec 32) (ns : BitVec 30) (d : Dev),
     MayWrite s.dev acc EVT.page →
     d = [(EVT.MEAS_CFG.START, 1), (EVT.MEAS_CFG.TIMED, 0), (EVT.MEAS_CFG.GATE_MS, gateMs.toNat)].foldl (fun d x => d.setSh .evt EVT.page x.1 x.2 evt) s.dev →
     d.evtRules.find? (·.1) = none →
       exec (.measStart acc evt false gateMs sec ns) s = .next { s with dev := Dev.evtEffect d (d.acceptCommit EVT.page) })
  ∧ (∀ (s : State) (acc : Accessor) (evt : Fin 8) (gateMs : BitVec 20) (sec : BitVec 32) (ns : BitVec 30) (d : Dev) (code off : Nat),
     MayWrite s.dev acc EVT.page →
     d = [(EVT.MEAS_CFG.START, 1), (EVT.MEAS_CFG.TIMED, 0), (EVT.MEAS_CFG.GATE_MS, gateMs.toNat)].foldl (fun d x => d.setSh .evt EVT.page x.1 x.2 evt) s.dev →
     d.evtRules.find? (·.1) = some (true, code, off) →
       exec (.measStart acc evt false gateMs sec ns) s = .next { s with dev := d.rejectCommit EVT.page code off })
  ∧ (∀ (s : State) (acc : Accessor) (evt : Fin 8) (d : Dev),
     MayWrite s.dev acc EVT.page →
     d = s.dev.setSh .evt EVT.page EVT.MEAS_CFG.ABORT 1 evt →
     d.evtRules.find? (·.1) = none →
       exec (.measAbort acc evt) s = .next { s with dev := Dev.evtEffect d (d.acceptCommit EVT.page) })
  ∧ (∀ (s : State) (acc : Accessor) (evt : Fin 8) (d : Dev) (code off : Nat),
     MayWrite s.dev acc EVT.page →
     d = s.dev.setSh .evt EVT.page EVT.MEAS_CFG.ABORT 1 evt →
     d.evtRules.find? (·.1) = some (true, code, off) →
       exec (.measAbort acc evt) s = .next { s with dev := d.rejectCommit EVT.page code off })
  ∧ (∀ (s : State) (evt : Fin 8) (m : Meas),
     (s.dev.evtIn evt).meas = some m →
     m.opened = false →
     m.openAt ≤ s.dev.now →
       exec (.measGateOpen evt) s = .next { s with dev := s.dev.gateOpens evt m })
  ∧ (∀ (s : State) (evt : Fin 8) (m : Meas),
     (s.dev.evtIn evt).meas = some m →
     m.opened = true →
     m.closed = false →
     m.openAt + m.gate ≤ s.dev.now →
       exec (.measGateClose evt) s = .next { s with dev := s.dev.gateCloses evt m false })
  ∧ (∀ (s : State) (evt : Fin 8) (m : Meas),
     (s.dev.evtIn evt).meas = some m →
     m.closed = true →
     m.n < 3 →
       exec (.measResultReady evt) s = .next { s with dev := (s.dev.set EVT.page EVT.MEAS_N.N m.n evt).measEnd evt 2 true })
  ∧ (∀ (s : State) (evt : Fin 8) (m : Meas) (freq rms unc : Nat) (d : Dev),
     (s.dev.evtIn evt).meas = some m →
     m.closed = true →
     3 ≤ m.n →
     m.fit = some (freq, rms, unc) →
     d = s.dev.set EVT.page EVT.MEAS_N.N m.n evt →
       exec (.measResultReady evt) s = .next { s with dev := (((((d.set EVT.page EVT.FREQ_INT.HZ (freq / 2 ^ 32) evt).set EVT.page EVT.FREQ_FRAC.FRAC freq evt).set
         EVT.page EVT.RES_RMS.FS rms evt).set EVT.page EVT.RES_UNC.E18 unc evt).measEnd evt 1 true) })
  ∧ (∀ (s : State) (evt : Fin 8) (m : Meas) (d : Dev),
     (s.dev.evtIn evt).meas = some m →
     m.closed = true →
     3 ≤ m.n →
     m.fit = none →
     d = s.dev.set EVT.page EVT.MEAS_N.N m.n evt →
       exec (.measResultReady evt) s = .next { s with dev := (let a := d.free
       let b := a.2.free
       let c := b.2.free
       ((((c.2.set EVT.page EVT.FREQ_INT.HZ (a.1 / 2 ^ 32) evt).set EVT.page EVT.FREQ_FRAC.FRAC a.1 evt).set
         EVT.page EVT.RES_RMS.FS b.1 evt).set EVT.page EVT.RES_UNC.E18 c.1 evt).measEnd evt 1 true) })
  ∧ (∀ (s : State) (evt : Fin 8) (ok : Bool),
     s.dev.pageUp EVT.page = true →
       exec (.interpCalSwap evt ok) s = .next { s with dev := s.dev.interpSwap evt ok })
  ∧ (∀ (s : State) (acc : Accessor) (ok : Bool),
     MayWrite s.dev acc EVT.page →
       exec (.interpRecal acc ok) s = .next { s with dev := s.dev.interpSwap (s.dev.evtSel acc) ok })

/-- R60, R65, R86, R88, R97, R108, R125, R337, R434: a frame's first bytes enter the pipeline, a short one after the MAC
checks; a loop-back takes, ignores or returns what the line brings; a frame's end, an excess over MAX_SDU and over the
hinted buffer. Number 48 is the management lane, whose frames go to firmware as they arrive. Where the rules leave a
point open this rests on the model's choice in log entries 13, 14, 15, 49, 71, 101, 118, 119, 120, 121, 133, 136, 137. -/
def Obligations.FramesReceived : Prop :=
  (∀ (s : State) (port : Fin 49) (pre : Bool) (bytes : List (BitVec 8)) (edge : RxEdge) (errs : WordErrors) (k : Nat) (d : Dev),
     k = rxKey port pre →
     port ≠ 48 →
     s.dev.macOn port = true →
     s.dev.released unitFelt = true →
     s.dev.loopMode port = 0 →
     d = (if (parseFrame (s.dev.profileOf port) bytes false).ptp ≠ 0 ∧ (parseFrame (s.dev.profileOf port) bytes false).ptpType ≤ 3
          then s.dev.eventBegins port (s.dev.edgeTick edge) else s.dev) →
       exec (.rxFrameStart port pre bytes none edge errs) s = .next { s with dev := (d.rxCut port pre).lineStart port k bytes false (d.portStamp port edge) errs })
  ∧ (∀ (s : State) (port : Fin 49) (pre : Bool) (bytes : List (BitVec 8)) (e : RxEnd) (edge : RxEdge) (errs : WordErrors) (k : Nat) (d : Dev),
     k = rxKey port pre →
     port ≠ 48 →
     s.dev.macOn port = true →
     s.dev.released unitFelt = true →
     s.dev.loopMode port = 0 →
     d = (if (parseFrame (s.dev.profileOf port) bytes true).ptp ≠ 0 ∧ (parseFrame (s.dev.profileOf port) bytes true).ptpType ≤ 3
          then s.dev.eventBegins port (s.dev.edgeTick edge) else s.dev) →
       exec (.rxFrameStart port pre bytes (some e) edge errs) s = .next { s with dev := (if ((d.rxCut port pre).countRx port (bytes.length + 4) pre e (d.portStamp port edge).time).macOk port (bytes.length + 4) e then
         (((d.rxCut port pre).countRx port (bytes.length + 4) pre e (d.portStamp port edge).time).lineStart port k bytes true
           (d.portStamp port edge) errs).rxFinish port k .good true
       else (d.rxCut port pre).countRx port (bytes.length + 4) pre e (d.portStamp port edge).time) })
  ∧ (∀ (s : State) (port : Fin 49) (pre : Bool) (bytes : List (BitVec 8)) (edge : RxEdge) (errs : WordErrors) (k : Nat) (d : Dev),
     k = rxKey port pre →
     port ≠ 48 →
     s.dev.macOn port = true →
     s.dev.released unitFelt = true →
     s.dev.loopMode port = 5 →
     d = (if (parseFrame (s.dev.profileOf port) bytes false).ptp ≠ 0 ∧ (parseFrame (s.dev.profileOf port) bytes false).ptpType ≤ 3
          then s.dev.eventBegins port (s.dev.edgeTick edge) else s.dev) →
       exec (.rxFrameStart port pre bytes none edge errs) s = .next { s with dev := (d.rxCut port pre).setRx k (some (rx0 bytes.length (d.portStamp port edge).time)) })
  ∧ (∀ (s : State) (port : Fin 49) (pre : Bool) (bytes : List (BitVec 8)) (whole : Option RxEnd) (edge : RxEdge) (errs : WordErrors),
     port ≠ 48 →
     s.dev.macOn port = true →
     s.dev.released unitFelt = true →
     s.dev.loopMode port ≠ 0 →
     s.dev.loopMode port < 5 →
       exec (.rxFrameStart port pre bytes whole edge errs) s = .next { s with dev := s.dev })
  ∧ (∀ (s : State) (port : Fin 49) (pre : Bool) (bytes : List (BitVec 8)) (whole : Option RxEnd) (edge : RxEdge) (errs : WordErrors),
     port ≠ 48 →
     s.dev.macOn port = true →
     s.dev.released unitFelt = true →
     6 ≤ s.dev.loopMode port →
       exec (.rxFrameStart port pre bytes whole edge errs) s = .next { s with dev := s.dev.emit (.looped port (s.dev.loopMode port) bytes) })
  ∧ (∀ (s : State) (pre : Bool) (bytes : List (BitVec 8)) (edge : RxEdge) (errs : WordErrors),
     s.dev.macOn 50 = true →
     s.dev.get (LNK.page 50) LNK.LOOP_CFG.MODE = 0 →
       exec (.rxFrameStart 48 pre bytes none edge errs) s = .next { s with dev := ((s.dev.emit (.reply "ml" ((s.dev.portStamp 50 edge).time :: bytes.map BitVec.toNat))).setRx (rxKey 50 false)
         (some (rx0 bytes.length (s.dev.portStamp 50 edge).time))) })
  ∧ (∀ (s : State) (pre : Bool) (bytes : List (BitVec 8)) (e : RxEnd) (edge : RxEdge) (errs : WordErrors),
     s.dev.macOn 50 = true →
     s.dev.get (LNK.page 50) LNK.LOOP_CFG.MODE = 0 →
       exec (.rxFrameStart 48 pre bytes (some e) edge errs) s = .next { s with dev := (((s.dev.emit (.reply "ml" ((s.dev.portStamp 50 edge).time :: bytes.map BitVec.toNat))).setRx (rxKey 50 false) none).countRx 50
         (bytes.length + fcsBytes e.status) false e (s.dev.portStamp 50 edge).time) })
  ∧ (∀ (s : State) (port : Fin 49) (pre : Bool) (more : List (BitVec 8)) (ending : RxEnd) (errs : WordErrors) (k : Nat) (d : Dev) (r : Rx),
     k = rxKey port pre →
     port ≠ 48 →
     s.dev.macOn port = true →
     s.dev.loopMode port < 6 →
     d = s.dev.arrive k more →
     d.rx k = some r →
     d.macOn port = true →
       exec (.rxFrameEnd port pre more ending errs) s = .next { s with dev := (((d.countRx port (r.bytes + 4) pre ending r.stamp).wordErrors errs).rxFinish port k ending.status
         (d.macOk port (r.bytes + 4) ending && !errs.bad)) })
  ∧ (∀ (s : State) (port : Fin 49) (pre : Bool) (more : List (BitVec 8)) (ending : RxEnd) (errs : WordErrors) (k : Nat) (d : Dev) (r : Rx),
     k = rxKey port pre →
     port ≠ 48 →
     s.dev.macOn port = false →
     d = s.dev.arrive k more →
     d.rx k = some r →
     d.macOn port = false →
       exec (.rxFrameEnd port pre more ending errs) s = .next { s with dev := d.rxCut port pre })
  ∧ (∀ (s : State) (pre : Bool) (more : List (BitVec 8)) (ending : RxEnd) (errs : WordErrors) (d : Dev) (r : Rx),
     d = s.dev.setRx (rxKey 50 false) none →
     s.dev.rx (rxKey 50 false) = some r →
     d.macOn 50 = true →
       exec (.rxFrameEnd 48 pre more ending errs) s = .next { s with dev := ((d.countRx 50 (r.bytes + more.length + fcsBytes ending.status) false ending r.stamp).emit
         (.reply "ml end" ((if ending.status = .good then 1 else 0) :: more.map BitVec.toNat))) })
  ∧ (∀ (s : State) (input : Fin 50) (pre : Bool) (more : List (BitVec 8)) (k : Nat) (d : Dev),
     k = rxKey input pre →
     d = s.dev.arrive k more →
     (d.tooLong k).1 = true →
       exec (.maxSduExceeded input pre more) s = .next { s with dev := d.sduExceeded k })
  ∧ (∀ (s : State) (input : Fin 50) (pre : Bool) (more : List (BitVec 8)) (k : Nat) (d : Dev),
     k = rxKey input pre →
     d = s.dev.arrive k more →
     (d.tooLong k).2 = true →
       exec (.lenHintOverrun input pre more) s = .next { s with dev := d.hintOverrun k })

/-- R101, R102, R103, R109, R116, R117, R431: a learn request refreshes, moves, takes a way or is refused, and leaves a
reserved way as it is; the sweep that is due; commits and epochs that wait. Where the rules leave a point open this
rests on the model's choice in log entries 1, 24, 65, 67, 114, 118, 134. -/
def Obligations.LearningAndAgeing : Prop :=
  (∀ (s : State),
     s.dev.learnQ = [] →
       exec (.learnWrite) s = .next { s with dev := s.dev })
  ∧ (∀ (s : State) (q : LearnReq) (rest : List LearnReq) (d e : Dev) (i : Nat) (w : Data),
     s.dev.learnQ = q :: rest →
     d = ({ s.dev with learnQ := rest } : Dev).drawFdbKey →
     e = d.reads .fdb (d.fdbWays q.fid q.mac) →
     e.fdbFind q.fid q.mac = some i →
     e.reserved .fdb i = false →
     w = e.lookupWord .fdb i →
     bitOf w 60 = false →
     bitsOf w 59 48 = q.ep →
       exec (.learnWrite) s = .next { s with dev := e.setEntry .fdb i (putBits w 61 61 1) })
  ∧ (∀ (s : State) (q : LearnReq) (rest : List LearnReq) (d e : Dev) (i : Nat) (w : Data),
     s.dev.learnQ = q :: rest →
     d = ({ s.dev with learnQ := rest } : Dev).drawFdbKey →
     e = d.reads .fdb (d.fdbWays q.fid q.mac) →
     e.fdbFind q.fid q.mac = some i →
     e.reserved .fdb i = false →
     w = e.lookupWord .fdb i →
     bitOf w 60 = true ∨ bitsOf w 59 48 ≠ q.ep →
     bitOf w 62 = true →
       exec (.learnWrite) s = .next { s with dev := (e.count 0x668).raise LKP.page LKP.INT_RAW.STATIC_MOVE })
  ∧ (∀ (s : State) (q : LearnReq) (rest : List LearnReq) (d e : Dev) (i : Nat) (w : Data),
     s.dev.learnQ = q :: rest →
     d = ({ s.dev with learnQ := rest } : Dev).drawFdbKey →
     e = d.reads .fdb (d.fdbWays q.fid q.mac) →
     e.fdbFind q.fid q.mac = some i →
     e.reserved .fdb i = false →
     w = e.lookupWord .fdb i →
     bitOf w 60 = true ∨ bitsOf w 59 48 ≠ q.ep →
     bitOf w 62 = false →
       exec (.learnWrite) s = .next { s with dev := (e.setEntry .fdb i (putBits (putBits (putBits w 59 48 q.ep) 60 60 0) 61 61 1)).count 0x667 })
  ∧ (∀ (s : State) (q : LearnReq) (rest : List LearnReq) (d e : Dev) (i : Nat),
     s.dev.learnQ = q :: rest →
     d = ({ s.dev with learnQ := rest } : Dev).drawFdbKey →
     e = d.reads .fdb (d.fdbWays q.fid q.mac) →
     e.fdbFind q.fid q.mac = some i →
     e.reserved .fdb i = true →
       exec (.learnWrite) s = .next { s with dev := e })
  ∧ (∀ (s : State) (q : LearnReq) (rest : List LearnReq) (d e : Dev) (i : Nat),
     s.dev.learnQ = q :: rest →
     d = ({ s.dev with learnQ := rest } : Dev).drawFdbKey →
     e = d.reads .fdb (d.fdbWays q.fid q.mac) →
     e.fdbFind q.fid q.mac = none →
     e.fdbWay (d.fdbMix q.fid q.mac).1 = some i →
       exec (.learnWrite) s = .next { s with dev := ((e.setEntry .fdb i (learnWord q.ep (d.fdbMix q.fid q.mac).2)).count 0x664).refreshFdb })
  ∧ (∀ (s : State) (q : LearnReq) (rest : List LearnReq) (d e : Dev),
     s.dev.learnQ = q :: rest →
     d = ({ s.dev with learnQ := rest } : Dev).drawFdbKey →
     e = d.reads .fdb (d.fdbWays q.fid q.mac) →
     e.fdbFind q.fid q.mac = none →
     e.fdbWay (d.fdbMix q.fid q.mac).1 = none →
       exec (.learnWrite) s = .next { s with dev := (e.count 0x665).raise LKP.page LKP.INT_RAW.LEARN_FULL })
  ∧ (∀ (s : State) (d : Dev),
     s.dev.get LKP.page LKP.LKP_CFG.AGE_TIME ≠ 0 →
     s.dev.sweptAt + s.dev.get LKP.page LKP.LKP_CFG.AGE_TIME * secU / 2 ≤ s.dev.now →
     d = { s.dev.reads .fdb (s.dev.listed .fdb) with sweptAt := s.dev.now } →
       exec (.ageingSweep) s = .next { s with dev := (((d.listed .fdb).foldl (fun d i =>
           if !bitOf (d.lookupWord .fdb i) 63 || bitOf (d.lookupWord .fdb i) 62 then d
           else if bitOf (d.lookupWord .fdb i) 61 then d.setEntry .fdb i (putBits (d.lookupWord .fdb i) 61 61 0)
           else d.setEntry .fdb i 0) d).refreshFdb) })
  ∧ (∀ (s : State) (gate : Fin 4096),
       exec (.streamGateEntryAdvance gate) s = .next { s with dev := s.dev.readTime.2.setGateRun gate (s.dev.readTime.2.gateNow gate s.dev.readTime.1) })
  ∧ (∀ (s : State) (page : Nat) (d e : Dev),
     s.dev.pendingCommit = true →
     s.dev.epochBlocked = false →
     s.dev.commitDevice = false →
     page = s.dev.commitPage →
     d = (({ s.dev with
          shadow := s.dev.waitShadow ++ s.dev.shadow.filter (fun e => rkeyPage e.1 != page)
          waitShadow := [] } : Dev).applyShadows page).writeImage page →
     e = (((s.dev.shadow.filter (fun e => rkeyPage e.1 == page)).foldl (fun d e => match pageOf page with
          | some (t, _) => d.wrShadow t page (rkeyOff e.1) (rkeySel e.1) e.2
          | none => d) d).set LKP.page LKP.EPOCH_STAT.PENDING 0).set page COM.STAT.BUSY 0 →
       exec (.pendingCommitApply) s = .next { s with dev := (({ e with staging := [] } : Dev).applyTables e.staging false).refreshStage })
  ∧ (∀ (s : State),
     s.dev.pendingCommit = true →
     s.dev.epochBlocked = false →
     s.dev.commitDevice = true →
       exec (.pendingCommitApply) s = .next { s with dev := ((({ s.dev with commitDevice := false } : Dev).set LKP.page LKP.EPOCH_STAT.PENDING 0).applyTables [] true) })
  ∧ (∀ (s : State) (epoch : Fin 16) (d e : Dev),
     tget (fun _ => 0) s.dev.epochSince epoch + max 1 (s.dev.get BUF.page BUF.HOLD_CFG.HOLD_MS) * 1000000 * nsU ≤ s.dev.now →
     (epoch : Nat) ≠ s.dev.get LKP.page LKP.EPOCH_STAT.CUR →
     (s.dev.get LKP.page LKP.EPOCH_STAT.OUTSTANDING).testBit epoch = true →
     d = s.dev.frames.foldl (fun d x => match x.2 with
          | some f => if f.epoch = epoch then d.setFrame x.1 (some { f with aged := true }) else d
          | none => d) s.dev →
     e = (d.drainEpoch epoch).set LKP.page LKP.EPOCH_AGED.AGED_FRAMES d.agedFrames →
       exec (.epochAged epoch) s = .next { s with dev := ((e.incSat LKP.page LKP.EPOCH_AGED.AGED_EPOCHS).raise LKP.page LKP.INT_RAW.EPOCH_AGED).count 0x674 })
  ∧ (∀ (s : State),
     s.dev.flag BUF.page BUF.HASH_STAT.PENDING = true →
     s.dev.rerollAt + 1000000 * nsU ≤ s.dev.now →
     s.dev.pendingCommit = false →
     s.dev.epochBlocked = false →
       exec (.rerollEmptyCommit) s = .next { s with dev := s.dev.applyTables [] true })
  ∧ (∀ (s : State),
     s.dev.flag BUF.page BUF.HASH_STAT.PENDING = true →
     s.dev.rerollAt + 1000000 * nsU ≤ s.dev.now →
     s.dev.pendingCommit = false →
     s.dev.epochBlocked = true →
       exec (.rerollEmptyCommit) s = .next { s with dev := ({ s.dev with commitDevice := true, commitPage := 0 } : Dev).set LKP.page LKP.EPOCH_STAT.PENDING 1 })

/-- R113, R115, R400, R431: the lookup and meter tables' windows: reading, staging writes, deletes and inserts, clearing
the list, flushing dynamic entries, resetting a meter. Where the rules leave a point open this rests on the model's
choice in log entries 1, 65, 66, 99, 116, 117, 135. -/
def Obligations.TableWindows : Prop :=
  (∀ (s : State) (acc : Accessor) (t : TableId),
     Reach s.dev LKP.page →
     lkpTable (winTable s.dev lkpWin acc) = some t →
     winIndex s.dev lkpWin acc < tableSize t →
     winWord s.dev lkpWin acc < tableWords t →
       exec (.lkpRead acc) s = .next { s with dev := s.dev.winCapture lkpWin acc ((List.range (tableWords t)).map (fun k => s.dev.stored t (winIndex s.dev lkpWin acc) k)) })
  ∧ (∀ (s : State) (acc : Accessor),
     Reach s.dev LKP.page →
     (∀ t, lkpTable (winTable s.dev lkpWin acc) = some t → tableSize t ≤ winIndex s.dev lkpWin acc ∨ tableWords t ≤ winWord s.dev lkpWin acc) →
       exec (.lkpRead acc) s = .next { s with dev := s.dev.winResult lkpWin acc 4 })
  ∧ (∀ (s : State) (acc : Accessor) (t : TableId),
     MayWrite s.dev acc LKP.page →
     lkpTable (winTable s.dev lkpWin acc) = some t →
       exec (.lkpStageWrite acc) s = .next { s with dev := s.dev.stageWrite lkpWin acc t })
  ∧ (∀ (s : State) (acc : Accessor),
     MayWrite s.dev acc LKP.page →
     lkpTable (winTable s.dev lkpWin acc) = none →
       exec (.lkpStageWrite acc) s = .next { s with dev := s.dev.stageRefuse lkpWin acc (if s.dev.pendingCommit then 6 else 4) })
  ∧ (∀ (s : State) (acc : Accessor) (t : TableId),
     MayWrite s.dev acc LKP.page →
     lkpTable (winTable s.dev lkpWin acc) = some t →
       exec (.lkpStageDelete acc) s = .next { s with dev := s.dev.stageDelete lkpWin acc t })
  ∧ (∀ (s : State) (acc : Accessor),
     MayWrite s.dev acc LKP.page →
     lkpTable (winTable s.dev lkpWin acc) = none →
       exec (.lkpStageDelete acc) s = .next { s with dev := s.dev.stageRefuse lkpWin acc (if s.dev.pendingCommit then 6 else 4) })
  ∧ (∀ (s : State) (acc : Accessor) (i : Nat) (d : Dev),
     Reach s.dev LKP.page →
     lkpTable (winTable s.dev lkpWin acc) = some .fdb →
     i = winIndex s.dev lkpWin acc →
     d = s.dev.reads .fdb [i] →
     bitOf (d.lookupWord .fdb i) 63 = true →
       exec (.lkpReadKey acc) s = .next { s with dev := ((d.showKey acc ((Config.mix60 (BitVec.ofNat 60 d.fdbKey)).symm
         (BitVec.ofNat 60 (bitsOf (d.lookupWord .fdb i) 44 0 * 32768 + i / 8))).toNat).winResult lkpWin acc 0) })
  ∧ (∀ (s : State) (acc : Accessor) (i : Nat) (d : Dev),
     Reach s.dev LKP.page →
     lkpTable (winTable s.dev lkpWin acc) = some .sid →
     i = winIndex s.dev lkpWin acc →
     i < 16384 →
     d = s.dev.reads .sid [i] →
     bitOf (d.lookupWord .sid i) 63 = true →
       exec (.lkpReadKey acc) s = .next { s with dev := ((d.showKey acc ((Config.mix61 (BitVec.ofNat 61 d.sidKey)).symm
         (BitVec.ofNat 61 (bitsOf (d.lookupWord .sid i) 48 0 * 4096 + i / 4))).toNat).winResult lkpWin acc 0) })
  ∧ (∀ (s : State) (acc : Accessor) (t : TableId) (i : Nat) (d : Dev),
     Reach s.dev LKP.page →
     lkpTable (winTable s.dev lkpWin acc) = some t →
     i = winIndex s.dev lkpWin acc →
     d = s.dev.reads t [i] →
     t = .fdb ∨ (t = .sid ∧ i < 16384) →
     bitOf (d.lookupWord t i) 63 = false →
       exec (.lkpReadKey acc) s = .next { s with dev := d.winResult lkpWin acc 1 })
  ∧ (∀ (s : State) (acc : Accessor) (m v mac i : Nat) (d : Dev),
     Reach s.dev LKP.page →
     winKeyOf s.dev acc = (m, v, mac) →
     s.dev.get LKP.page LKP.ENTRY_AUX.TARGET acc.idx = 0 →
     s.dev.fdbFind v mac = some i →
     d = s.dev.reads .fdb (s.dev.fdbWays v mac) →
       exec (.lkpLookup acc) s = .next { s with dev := (((d.set LKP.page LKP.ENTRY_ADDR.TABLE 2 acc.idx).set
         LKP.page LKP.ENTRY_ADDR.INDEX i acc.idx).winResult lkpWin acc 0) })
  ∧ (∀ (s : State) (acc : Accessor) (m v mac i : Nat) (d : Dev),
     Reach s.dev LKP.page →
     winKeyOf s.dev acc = (m, v, mac) →
     s.dev.get LKP.page LKP.ENTRY_AUX.TARGET acc.idx = 1 →
     s.dev.sidFind m v mac = some i →
     d = s.dev.reads .sid (s.dev.sidWays m v mac) →
       exec (.lkpLookup acc) s = .next { s with dev := (((d.set LKP.page LKP.ENTRY_ADDR.TABLE 4 acc.idx).set
         LKP.page LKP.ENTRY_ADDR.INDEX i acc.idx).winResult lkpWin acc 0) })
  ∧ (∀ (s : State) (acc : Accessor) (m v mac : Nat) (d : Dev),
     Reach s.dev LKP.page →
     winKeyOf s.dev acc = (m, v, mac) →
     (s.dev.get LKP.page LKP.ENTRY_AUX.TARGET acc.idx = 0 ∧ s.dev.fdbFind v mac = none ∧ d = s.dev.reads .fdb (s.dev.fdbWays v mac))
        ∨ (s.dev.get LKP.page LKP.ENTRY_AUX.TARGET acc.idx = 1 ∧ s.dev.sidFind m v mac = none ∧ d = s.dev.reads .sid (s.dev.sidWays m v mac)) →
       exec (.lkpLookup acc) s = .next { s with dev := d.winResult lkpWin acc 1 })
  ∧ (∀ (s : State) (acc : Accessor),
     MayWrite s.dev acc LKP.page →
       exec (.lkpStageInsert acc) s = .next { s with dev := s.dev.stageInsert acc })
  ∧ (∀ (s : State) (acc : Accessor),
     MayWrite s.dev acc LKP.page →
     s.dev.pendingCommit = false →
       exec (.lkpStageClear acc) s = .next { s with dev := (({ s.dev with staging := [] } : Dev).refreshStage).winResult lkpWin acc 0 })
  ∧ (∀ (s : State) (acc : Accessor),
     MayWrite s.dev acc LKP.page →
     s.dev.pendingCommit = true →
       exec (.lkpStageClear acc) s = .next { s with dev := s.dev.stageRefuse lkpWin acc 6 })
  ∧ (∀ (s : State) (acc : Accessor) (ep : Nat),
     MayWrite s.dev acc LKP.page →
     ep = s.dev.get LKP.page LKP.ENTRY_LO.DATA_LO acc.idx % 64 →
     ep ≤ 49 ∨ ep = 63 →
       exec (.lkpFlushDynamic acc) s = .next { s with dev := (((s.dev.listed .fdb).foldl (fun d i =>
         let d := d.reads .fdb [i]
         if bitOf (d.lookupWord .fdb i) 63 && !bitOf (d.lookupWord .fdb i) 62 && (ep == 63 || (!bitOf (d.lookupWord .fdb i) 60
           && bitsOf (d.lookupWord .fdb i) 59 48 == ep)) then d.setEntry .fdb i 0
         else d) s.dev).refreshFdb.winResult lkpWin acc 0) })
  ∧ (∀ (s : State) (acc : Accessor),
     MayWrite s.dev acc LKP.page →
     49 < s.dev.get LKP.page LKP.ENTRY_LO.DATA_LO acc.idx % 64 →
     s.dev.get LKP.page LKP.ENTRY_LO.DATA_LO acc.idx % 64 ≠ 63 →
       exec (.lkpFlushDynamic acc) s = .next { s with dev := s.dev.winResult lkpWin acc 4 })
  ∧ (∀ (s : State) (acc : Accessor),
     Reach s.dev MTR.page →
     winTable s.dev mtrWin acc = 0 →
     winWord s.dev mtrWin acc = 0 ∨ winWord s.dev mtrWin acc = 1 →
       exec (.mtrRead acc) s = .next { s with dev := s.dev.winCapture mtrWin acc ((List.range 2).map (fun k => s.dev.stored .meterCfg (winIndex s.dev mtrWin acc) k)) })
  ∧ (∀ (s : State) (acc : Accessor),
     Reach s.dev MTR.page →
     winTable s.dev mtrWin acc = 1 →
     winWord s.dev mtrWin acc < 3 →
       exec (.mtrRead acc) s = .next { s with dev := s.dev.winCapture mtrWin acc (s.dev.meterWords (winIndex s.dev mtrWin acc)) })
  ∧ (∀ (s : State) (acc : Accessor),
     MayWrite s.dev acc MTR.page →
     winTable s.dev mtrWin acc = 0 →
       exec (.mtrStageWrite acc) s = .next { s with dev := s.dev.stageWrite mtrWin acc .meterCfg })
  ∧ (∀ (s : State) (acc : Accessor),
     MayWrite s.dev acc MTR.page →
     winTable s.dev mtrWin acc ≠ 0 →
       exec (.mtrStageWrite acc) s = .next { s with dev := s.dev.stageRefuse mtrWin acc (if s.dev.pendingCommit then 6 else 4) })
  ∧ (∀ (s : State) (acc : Accessor),
     MayWrite s.dev acc MTR.page →
     winTable s.dev mtrWin acc = 0 →
       exec (.mtrStageDelete acc) s = .next { s with dev := s.dev.stageDelete mtrWin acc .meterCfg })
  ∧ (∀ (s : State) (acc : Accessor),
     MayWrite s.dev acc MTR.page →
     winTable s.dev mtrWin acc ≠ 0 →
       exec (.mtrStageDelete acc) s = .next { s with dev := s.dev.stageRefuse mtrWin acc (if s.dev.pendingCommit then 6 else 4) })
  ∧ (∀ (s : State) (acc : Accessor) (i t : Nat) (d : Dev),
     MayWrite s.dev acc MTR.page →
     i = winIndex s.dev mtrWin acc →
     (t, d) = (s.dev.reads .meterCfg [i]).readTime →
       exec (.mtrResetState acc) s = .next { s with dev := (d.setMeter i (d.fullMeter i t)).winResult mtrWin acc 0 })

/-- R118 to R125, R132, R134, R136: buffers granted late, the pool caches refilled, the hash window and Reroll, halting
and resuming, the low mark. Where the rules leave a point open this rests on the model's choice in log entries 9, 49,
100, 101, 102, 104, 138, 139. -/
def Obligations.BufferManager : Prop :=
  (∀ (s : State) (input : Fin 50),
       exec (.holdingAreaGrant input) s = .next { s with dev := s.dev.serveArea input })
  ∧ (∀ (s : State) (input : Fin 50) (pre : Bool) (more : List (BitVec 8)) (d : Dev),
     d = s.dev.arrive (rxKey input pre) more →
       exec (.bufferAssignLate input pre more) s = .next { s with dev := d.serveArea input })
  ∧ (∀ (s : State) (pool : Fin 4) (bad : Fin 65),
     (s.dev.pool pool).inFlight = 0 →
       exec (.cacheRefillDone pool bad) s = .next { s with dev := s.dev })
  ∧ (∀ (s : State) (pool : Fin 4) (q : Pool) (n : Nat),
     q = s.dev.pool pool →
     n = min 64 q.inFlight →
     0 < n →
     s.dev.dramOpen = true →
       exec (.cacheRefillDone pool 0) s = .next { s with dev := ((s.dev.setPool pool { q with inFlight := q.inFlight - n, cached := q.cached + n }).refillPool pool).rebalance })
  ∧ (∀ (s : State) (pool : Fin 4) (bad : Fin 65) (q : Pool) (n : Nat) (d : Dev),
     q = s.dev.pool pool →
     n = min 64 q.inFlight →
     0 < n →
     s.dev.dramOpen = true →
     d = s.dev.setPool pool { q with inFlight := q.inFlight - n, cached := q.cached + (n - min bad.val n) } →
       exec (.cacheRefillDone pool bad) s = .next { s with dev := ((((List.range (min bad.val n)).foldl (fun d _ =>
         let busy := d.busyIdx pool
         let (k, d) := d.free
         let i := kthFree busy (k % (d.poolCount pool - busy.length))
         let d := d.setBufRec pool i { d.bufRec pool i with lost := true }
         (((d.err BUF.page 0x21 BUF.POOL_STAT.FREE.off).raise BUF.page BUF.INT_RAW.RING_ECC).count 0x706).dramUncorr) d).refillPool pool).rebalance) })
  ∧ (∀ (s : State) (pool : Fin 4) (bad : Fin 65),
     s.dev.dramOpen = false →
       exec (.cacheRefillDone pool bad) s = .next { s with dev := s.dev })
  ∧ (∀ (s : State) (total hot : Nat) (hotter : Bool) (d e : Dev),
     total = ((List.range 96).map (fun b => tget (fun _ => 0) s.dev.bankCount b)).sum →
     hot = (List.range 96).foldl (fun h b => if tget (fun _ => 0) s.dev.bankCount h < tget (fun _ => 0) s.dev.bankCount b then b else h) 0 →
     d = ((List.range 96).foldl (fun d b =>
        (d.set BUF.page BUF.BANK_STAT.LOAD
          (if total = 0 then 0 else min (tget (fun _ => 0) s.dev.bankCount b * 96 * 64 / total) 255) b).set
          BUF.page BUF.BANK_STAT.ACC_K (tget (fun _ => 0) s.dev.bankCount b / 1024) b) s.dev).set BUF.page BUF.HASH_STAT.HOT_BANK hot →
     hotter = decide (total * d.get BUF.page BUF.HASH_CFG.RATIO < tget (fun _ => 0) s.dev.bankCount hot * 96 * 64) →
     e = { d with bankCount := [], hashOver := if hotter then d.hashOver + 1 else 0 } →
       exec (.hashWindowEnd) s = .next { s with dev := if hotter && e.flag BUF.page BUF.HASH_CFG.AUTO && e.get BUF.page BUF.HASH_CFG.DWELL ≤ e.hashOver then e.rerollRequest else e })
  ∧ (∀ (s : State) (acc : Accessor),
     MayWrite s.dev acc BUF.page →
       exec (.hashRerollRequest acc) s = .next { s with dev := s.dev.rerollRequest })
  ∧ (∀ (s : State) (acc : Accessor),
     MayWrite s.dev acc BUF.page →
       exec (.mgrHalt acc) s = .next { s with dev := (s.dev.holding.map Prod.fst).foldl Dev.serveArea (s.dev.set BUF.page BUF.MGR_CTRL.HALT 1) })
  ∧ (∀ (s : State) (acc : Accessor),
     MayWrite s.dev acc BUF.page →
     s.dev.holding = [] →
       Does (.mgrHalt acc) s fun d =>
           d.get BUF.page BUF.MGR_CTRL.HALT = 1 ∧ d.get BUF.page BUF.MGR_CTRL.HALTED = s.dev.get BUF.page BUF.MGR_CTRL.HALTED
             ∧ OnlyPage BUF.page s.dev d ∧ Quiet s.dev d)
  ∧ (∀ (s : State) (acc : Accessor),
     MayWrite s.dev acc BUF.page →
       Does (.mgrResume acc) s fun d =>
           d.get BUF.page BUF.MGR_CTRL.HALT = 0 ∧ d.get BUF.page BUF.MGR_CTRL.HALTED = 0
             ∧ OnlyPage BUF.page s.dev d ∧ Quiet s.dev d)
  ∧ (∀ (s : State),
     s.dev.flag BUF.page BUF.MGR_CTRL.HALT = true →
       exec (.mgrHalted) s = .next { s with dev := s.dev.set BUF.page BUF.MGR_CTRL.HALTED 1 })
  ∧ (∀ (s : State) (acc : Accessor) (p : Nat),
     MayWrite s.dev acc BUF.page →
     p = s.dev.get BUF.page BUF.POOL_SEL.POOL acc.idx →
       exec (.poolLowClr acc) s = .next { s with dev := s.dev.set BUF.page BUF.POOL_LOW.LOW (s.dev.get BUF.page BUF.POOL_STAT.FREE p) p })

/-- R66, R138 to R146: a copy to the spill area is made or refused, a refill returns a frame, neither while the DRAM
crossing is not open; the hold time and flushes; back-pressure signalled again. Where the rules leave a point open
this rests on the model's choice in log entries 49, 100, 103, 136, 138. -/
def Obligations.QueuesAndSpill : Prop :=
  (∀ (s : State) (voq : Fin 20000) (busy : Bool) (n : Nat) (rest : List Nat) (f : Frame) (d : Dev),
     s.dev.dramOpen = true →
     (s.dev.voq voq).copying = n :: rest →
     s.dev.frame n = some f →
     f.ended = true →
     f.mcast = false →
     s.dev.spillRefused (voqInput voq) (linesOf f.len) busy = false →
     d = (s.dev.setRefused (spillKey (voqInput voq) (voqTc voq)) none).countLines n →
       exec (.spillCopyDone voq busy) s = .next { s with dev := (let d := d.setVoq voq { s.dev.voq voq with tail := (s.dev.voq voq).tail ++ [n], copying := rest, spilling := true }
       let d := d.setSpill (voqInput voq) (d.spillOf (voqInput voq) + linesOf f.len)
       let d := match f.buf with
         | some h => d.freeBuffer h 0x023
         | none => d
       ((d.setFrame n (some { f with buf := none, spilled := true })).count 0x710).refreshSpill) })
  ∧ (∀ (s : State) (voq : Fin 20000) (busy : Bool) (n : Nat) (rest : List Nat) (f : Frame),
     s.dev.dramOpen = true →
     (s.dev.voq voq).copying = n :: rest →
     s.dev.frame n = some f →
     f.ended = true →
     f.mcast = false →
     s.dev.spillRefused (voqInput voq) (linesOf f.len) busy = true →
       exec (.spillCopyDone voq busy) s = .next { s with dev := (((((s.dev.setRefused (spillKey (voqInput voq) (voqTc voq)) (some s.dev.now)).setRefused spillAny (some s.dev.now)).raise
         VOQ.page VOQ.INT_RAW.SPILL_REFUSED).count 0x712).rebalance) })
  ∧ (∀ (s : State) (voq : Fin 20000) (busy : Bool) (n : Nat) (rest : List Nat) (f : Frame),
     s.dev.dramOpen = true →
     (s.dev.voq voq).copying = n :: rest →
     s.dev.frame n = some f →
     f.ended = true →
     f.mcast = true →
       exec (.spillCopyDone voq busy) s = .next { s with dev := (if (s.dev.voq voq).tail.isEmpty then
         s.dev.setVoq voq { s.dev.voq voq with sram := (s.dev.voq voq).sram ++ [n], copying := rest }
       else s.dev) })
  ∧ (∀ (s : State) (voq : Fin 20000) (n : Nat) (rest : List Nat) (f : Frame) (d : Dev),
     s.dev.dramOpen = true →
     (s.dev.voq voq).tail = n :: rest →
     s.dev.frame n = some f →
     d = (s.dev.setSpill (voqInput voq) (s.dev.spillOf (voqInput voq) - linesOf f.len)).setVoq
        voq
        ((s.dev.setSpill (voqInput voq) (s.dev.spillOf (voqInput voq) - linesOf f.len)).spillEnd
          ((s.dev.setSpill (voqInput voq) (s.dev.spillOf (voqInput voq) - linesOf f.len)).framePool n) { s.dev.voq voq with tail := rest }) →
       exec (.spillRefillDone voq true) s = .next { s with dev := ((((d.count 0x713).err VOQ.page 0x28 VOQ.VOQ_SPILL.LINES.off).clearDest
         n (voqOutput voq) 0x023).dramUncorr.refreshSpill) })
  ∧ (∀ (s : State) (voq : Fin 20000) (n : Nat) (rest : List Nat) (f : Frame),
     s.dev.dramOpen = true →
     (s.dev.voq voq).tail = n :: rest →
     s.dev.frame n = some f →
     s.dev.flag BUF.page BUF.MGR_CTRL.HALT = true →
       exec (.spillRefillDone voq false) s = .next { s with dev := s.dev })
  ∧ (∀ (s : State) (voq : Fin 20000) (n : Nat) (rest : List Nat) (f : Frame) (p : Nat),
     s.dev.dramOpen = true →
     (s.dev.voq voq).tail = n :: rest →
     s.dev.frame n = some f →
     s.dev.choosePool (voqInput voq) f.len = some p →
     s.dev.flag BUF.page BUF.MGR_CTRL.HALT = false →
     1024 * s.dev.get VOQ.page VOQ.SPILL_CFG.REFILL_LVL ≤ ((s.dev.voq voq).sram.map s.dev.frameLen).sum ∨ (s.dev.pool p).press = true →
       exec (.spillRefillDone voq false) s = .next { s with dev := s.dev })
  ∧ (∀ (s : State) (voq : Fin 20000) (n : Nat) (rest : List Nat) (f : Frame) (p : Nat) (b : Handle × Nat) (d e : Dev),
     s.dev.dramOpen = true →
     (s.dev.voq voq).tail = n :: rest →
     s.dev.frame n = some f →
     s.dev.choosePool (voqInput voq) f.len = some p →
     ((s.dev.voq voq).sram.map s.dev.frameLen).sum < 1024 * s.dev.get VOQ.page VOQ.SPILL_CFG.REFILL_LVL →
     (s.dev.pool p).press = false →
     s.dev.flag BUF.page BUF.MGR_CTRL.HALT = false →
     d = s.dev.setSpill (voqInput voq) (s.dev.spillOf (voqInput voq) - linesOf f.len) →
     d.takeBuffer p (voqInput voq) false = (b, e) →
       exec (.spillRefillDone voq false) s = .next { s with dev := (let x := (e.setFrame n (some { f with buf := some b.1, startBank := b.2 })).countLines n
       ((x.setVoq voq (x.spillEnd p { s.dev.voq voq with sram := (s.dev.voq voq).sram ++ [n], tail := rest })).count 0x711).refreshSpill) })
  ∧ (∀ (s : State) (voq : Fin 20000) (busy : Bool),
     s.dev.dramOpen = false →
       exec (.spillCopyDone voq busy) s = .next { s with dev := s.dev })
  ∧ (∀ (s : State) (voq : Fin 20000) (bad : Bool),
     s.dev.dramOpen = false →
       exec (.spillRefillDone voq bad) s = .next { s with dev := s.dev })
  ∧ (∀ (s : State) (port : Fin 50),
     s.dev.holdDue port = true →
       exec (.holdExpiry port) s = .next { s with dev := s.dev.holdEnd port })
  ∧ (∀ (s : State) (acc : Accessor) (scope : BitVec 2) (ep : BitVec 6),
     MayWrite s.dev acc VOQ.page →
     scope = 3 ∨ (scope ≠ 0 ∧ 49 < ep.toNat) →
       exec (.voqFlushStart acc scope ep) s = .next { s with dev := s.dev.err VOQ.page 0x08 VOQ.FLUSH_CMD.SCOPE.off })
  ∧ (∀ (s : State) (acc : Accessor) (scope : BitVec 2) (ep : BitVec 6) (d : Dev),
     MayWrite s.dev acc VOQ.page →
     scope ≠ 3 →
     scope = 0 ∨ ep.toNat ≤ 49 →
     s.dev.flag VOQ.page VOQ.FLUSH_CMD.BUSY = false →
     d = s.dev.set VOQ.page VOQ.FLUSH_CMD.BUSY 1 →
       exec (.voqFlushStart acc scope ep) s = .next { s with dev := { d with flushing := d.flushScope scope.toNat ep.toNat (s.dev.get VOQ.page VOQ.VOQ_SEL.INDEX acc.idx) } })
  ∧ (∀ (s : State) (n : Nat) (d : Dev),
     s.dev.flag VOQ.page VOQ.FLUSH_CMD.BUSY = true →
     n = (s.dev.flushing.map (fun v => (s.dev.voq v).all.length)).sum →
     d = s.dev.flushing.foldl (fun d v => d.flushVoq v none) { s.dev with flushing := [] } →
       exec (.voqFlushDone) s = .next { s with dev := ((d.count 0x714 n).set VOQ.page VOQ.FLUSH_CMD.BUSY 0).rebalance.raise VOQ.page VOQ.INT_RAW.FLUSH_DONE })
  ∧ (∀ (s : State) (port : Fin 48),
       exec (.bpRefresh port) s = .next { s with dev := s.dev.signalBp port 0 (s.dev.get BUF.page BUF.INPUT_STAT.BP_TC port) })

/-- R148, R157 to R162, R172, R173: an output that is free or reaches a launch time selects a frame; a transmission ends;
the verify protocol of preemption, which a loop-back keeps from the line (R60). Where the rules leave a point open
this rests on the model's choice in log entries 16, 49, 68, 72, 122, 154. -/
def Obligations.Egress : Prop :=
  (∀ (s : State) (output : Fin 50) (errs : WordErrors),
       exec (.egressSelect output errs) s = .next { s with dev := s.dev.select output errs })
  ∧ (∀ (s : State) (port : Fin 48) (n : Nat),
     s.dev.launchHead port = some n →
     s.dev.launchDue port n = true →
       exec (.launchTimeReached port) s = .next { s with dev := s.dev.select port noErrors })
  ∧ (∀ (s : State) (output : Fin 50) (errs : WordErrors),
     (output : Nat) ≠ 48 →
       exec (.txFrameDone output errs) s = .next { s with dev := s.dev.txDone output errs })
  ∧ (∀ (s : State) (port : Fin 48) (x : Output_),
     s.dev.get SCH.page SCH.PORT_STAT.VERIFY_STATE port = 2 →
     x = s.dev.output port →
     x.verifyTries < 3 →
       exec (.verifyMpacketSend port) s = .next { s with dev := (if s.dev.loopMode port = 0 then
         (s.dev.setOutput port { x with verifyTries := x.verifyTries + 1 }).emit (.line port "verify mPacket" x.verifyTries)
       else s.dev.setOutput port { x with verifyTries := x.verifyTries + 1 }) })
  ∧ (∀ (s : State) (port : Fin 48),
     s.dev.get SCH.page SCH.PORT_STAT.VERIFY_STATE port = 2 →
     3 ≤ (s.dev.output port).verifyTries →
       exec (.verifyMpacketSend port) s = .next { s with dev := (s.dev.setPreempt port false 4).raise SCH.page SCH.INT_RAW.VERIFY_FAIL })
  ∧ (∀ (s : State) (port : Fin 48),
     s.dev.get SCH.page SCH.PORT_STAT.VERIFY_STATE port = 2 →
     s.dev.loopMode port < 5 →
       exec (.verifyResponseReceived port) s = .next { s with dev := s.dev.setPreempt port true 3 })

/-- R151, R167, R168, R400: the scheduler's window: reading live entries and credits, reading and writing shadows, reading
and clearing counters. Where the rules leave a point open this rests on the model's choice in log entry 16. -/
def Obligations.SchedulerWindow : Prop :=
  (∀ (s : State) (acc : Accessor) (t : TableId),
     Reach s.dev SCH.page →
     winTable s.dev schWin acc ≠ 6 →
     schTable (winTable s.dev schWin acc) = some t →
     winIndex s.dev schWin acc < schSize t →
     winWord s.dev schWin acc < schWords t →
       exec (.schRead acc) s = .next { s with dev := s.dev.winCapture schWin acc ((List.range (schWords t)).map (fun k => s.dev.stored t (winIndex s.dev schWin acc) k)) })
  ∧ (∀ (s : State) (acc : Accessor) (i : Nat),
     Reach s.dev SCH.page →
     winTable s.dev schWin acc = 6 →
     i = winIndex s.dev schWin acc →
     i < 4546 →
     winWord s.dev schWin acc = 0 →
       exec (.schRead acc) s = .next { s with dev := s.dev.winCapture schWin acc [encodeNative (s.dev.nodeWord i)] })
  ∧ (∀ (s : State) (acc : Accessor),
     Reach s.dev SCH.page →
     winTable s.dev schWin acc ≠ 6 →
     (∀ t, schTable (winTable s.dev schWin acc) = some t → schSize t ≤ winIndex s.dev schWin acc ∨ schWords t ≤ winWord s.dev schWin acc) →
       exec (.schRead acc) s = .next { s with dev := s.dev.winResult schWin acc 4 })
  ∧ (∀ (s : State) (acc : Accessor) (t : TableId),
     Reach s.dev SCH.page →
     schTable (winTable s.dev schWin acc) = some t →
     winTable s.dev schWin acc ≤ 3 →
     winIndex s.dev schWin acc < schSize t →
     winWord s.dev schWin acc < schWords t →
       exec (.schReadShadow acc) s = .next { s with dev := s.dev.winCapture schWin acc ((List.range (schWords t)).map (fun k => encodeNative (s.dev.shEntry t (winIndex s.dev schWin acc) k))) })
  ∧ (∀ (s : State) (acc : Accessor),
     MayWrite s.dev acc SCH.page →
     schTable (winTable s.dev schWin acc) = none ∨ 3 < winTable s.dev schWin acc →
       exec (.schWriteShadow acc) s = .next { s with dev := s.dev.winResult schWin acc 4 })
  ∧ (∀ (s : State) (acc : Accessor) (t : TableId) (x : Dev × Option (List Data)),
     MayWrite s.dev acc SCH.page →
     schTable (winTable s.dev schWin acc) = some t →
     winTable s.dev schWin acc ≤ 3 →
     winIndex s.dev schWin acc < schSize t →
     winWord s.dev schWin acc < schWords t →
     t ≠ .voqAttach ∨ winIndex s.dev schWin acc % 8 ≤ 5 →
     x = s.dev.winCollect schWin acc (schWords t - 1) →
       exec (.schWriteShadow acc) s = .next { s with dev := (match x.2 with
       | none => x.1.winResult schWin acc 0
       | some ws => ({ x.1 with
           tabShadow := (maskWords t ws).zipIdx.foldl (fun (sh : Tbl Data) (y : Data × Nat) =>
             tset (fun _ => x.1.lookupWord t (winIndex s.dev schWin acc) y.2) sh (tkey t (winIndex s.dev schWin acc) y.2) y.1)
             x.1.tabShadow } : Dev).winResult schWin acc 0) })
  ∧ (∀ (s : State) (acc : Accessor) (t : TableId) (i : Nat),
     MayWrite s.dev acc SCH.page →
     schTable (winTable s.dev schWin acc) = some t →
     i = winIndex s.dev schWin acc →
     i < schSize t →
     winWord s.dev schWin acc = 0 →
     4 ≤ winTable s.dev schWin acc →
       exec (.schReadClr acc) s = .next { s with dev := (s.dev.winCapture schWin acc [s.dev.stored t i]).setEntry t i 0 })
  ∧ (∀ (s : State) (acc : Accessor) (t : TableId),
     MayWrite s.dev acc SCH.page →
     schTable (winTable s.dev schWin acc) = some t →
     4 ≤ winTable s.dev schWin acc →
       exec (.schClearTable acc) s = .next { s with dev := ((s.dev.listed t).foldl (fun d i => d.setEntry t i 0) s.dev).winResult schWin acc 0 })

/-- R153, R154, R169 to R175: entries advance and swaps take place; a swap is asked for or withdrawn by COMMIT; the
window; launch queues. Where the rules leave a point open this rests on the model's choice in log entries 12, 42, 63,
122. -/
def Obligations.GateControlLists : Prop :=
  (∀ (s : State) (port : Fin 48),
       exec (.gclEntryAdvance port) s = .next { s with dev := s.dev.refreshGcl port })
  ∧ (∀ (s : State) (port : Fin 48),
       exec (.gclSwapApply port) s = .next { s with dev := s.dev.applySwap port })
  ∧ (∀ (s : State) (acc : Accessor) (port : Fin 48) (sec : BitVec 32) (ns : BitVec 30),
     MayWrite s.dev acc (GCL.page port) →
       exec (.gclSwapRequest acc port sec ns) s = .next { s with dev := ((((s.dev.setSh .gcl (GCL.page port) GCL.SWAP_SEC.SEC sec.toNat).setSh .gcl (GCL.page port) GCL.SWAP_NS.NS ns.toNat).setSh
         .gcl (GCL.page port) GCL.SWAP_CTRL.SWAP 1).commitGcl port) })
  ∧ (∀ (s : State) (acc : Accessor) (port : Fin 48),
     MayWrite s.dev acc (GCL.page port) →
       exec (.gclSwapCancel acc port) s = .next { s with dev := (s.dev.setSh .gcl (GCL.page port) GCL.SWAP_CTRL.CANCEL 1).commitGcl port })
  ∧ (∀ (s : State) (acc : Accessor) (port : Fin 48),
     Reach s.dev (GCL.page port) →
       exec (.gclRead acc port) s = .next { s with dev := (s.dev.winCapture (gclWin port) acc
         [s.dev.stored .gcl (gclIndex port (winTable s.dev (gclWin port) acc) (winIndex s.dev (gclWin port) acc))]) })
  ∧ (∀ (s : State) (acc : Accessor) (port : Fin 48) (bank : Nat),
     MayWrite s.dev acc (GCL.page port) →
     bank = winTable s.dev (gclWin port) acc →
     bank ≠ s.dev.activeBank port →
     s.dev.flag (GCL.page port) GCL.GCL_STAT.SWAP_PENDING = false →
     s.dev.flag (GCL.page port) GCL.GCL_STAT.BLOCKER_OWN = false →
       exec (.gclWrite acc port) s = .next { s with dev := (((s.dev.setEntry .gcl (gclIndex port bank (winIndex s.dev (gclWin port) acc))
         (winData s.dev (gclWin port) acc &&& gclMask)).writeImage (GCL.page port)).winResult (gclWin port) acc 0) })
  ∧ (∀ (s : State) (acc : Accessor) (port : Fin 48),
     MayWrite s.dev acc (GCL.page port) →
     winTable s.dev (gclWin port) acc = s.dev.activeBank port ∨ s.dev.flag (GCL.page port) GCL.GCL_STAT.SWAP_PENDING = true
        ∨ s.dev.flag (GCL.page port) GCL.GCL_STAT.BLOCKER_OWN = true →
       exec (.gclWrite acc port) s = .next { s with dev := s.dev.winResult (gclWin port) acc 3 })
  ∧ (∀ (s : State) (port : Fin 48),
     96 ≤ (s.dev.launchOf port).length →
       exec (.launchEnqueue port) s = .next { s with dev := s.dev })
  ∧ (∀ (s : State) (port : Fin 48) (v n l : Nat) (d : Dev),
     (s.dev.launchOf port).length < 96 →
     s.dev.timedWaiting port = some (v, n) →
     l = (match s.dev.frame n with | some f => (s.dev.launchAt f).getD 0 | none => 0) →
     d = (s.dev.unqueue v n).modFrame n (fun f => { f with launch := some l }) →
       exec (.launchEnqueue port) s = .next { s with dev := (if d.launchPassed port l then d.dropLate port n
       else if d.now + secU < l then (d.countLane port 16).clearDest n port (0x0C0 + port)
       else d.setLaunch port (d.launchInsert n (d.launchOf port))) })
  ∧ (∀ (s : State) (port : Fin 48),
       exec (.launchLate port) s = .next { s with dev := s.dev.lateLaunches port })
  ∧ (∀ (s : State) (acc : Accessor) (port : Fin 48),
     MayWrite s.dev acc (GCL.page port) →
       exec (.launchHwmClr acc port) s = .next { s with dev := s.dev.set (GCL.page port) GCL.LAUNCH_STAT.HWM (s.dev.get (GCL.page port) GCL.LAUNCH_STAT.PENDING) })

/-- R182, R183, R187, R188: a request is pushed and served at the head of the queue, waits for a pending swap, and its
response is popped. R172, R190: the Blocker page's window: launch entries and reservations read, an entry the Blocker
does not hold written and deleted. Where the rules leave a point open this rests on the model's choice in log entries
73, 74. -/
def Obligations.BlockerRequestsAndLaunchTable : Prop :=
  (∀ (s : State) (acc : Accessor) (x : Nat × Dev),
     MayWrite s.dev acc BLK.page →
     x = s.dev.blkPush ((List.range 4).map (s.dev.reqWord acc)) none →
     x.1 ≠ 7 →
       exec (.blkPush acc) s = .next { s with dev := x.2.set BLK.page BLK.REQ_CMD.RESULT x.1 })
  ∧ (∀ (s : State) (acc : Accessor) (x : Nat × Dev),
     MayWrite s.dev acc BLK.page →
     x = s.dev.blkPush ((List.range 4).map (s.dev.reqWord acc)) none →
     x.1 = 7 →
       exec (.blkPush acc) s = .next { s with dev := x.2 })
  ∧ (∀ (s : State) (acc : Accessor),
     MayWrite s.dev acc BLK.page →
       exec (.blkPop acc) s = .next { s with dev := ({ s.dev with rspQueue := s.dev.rspQueue.tail } : Dev).rspFill })
  ∧ (∀ (s : State) (q : BlkReq),
     s.dev.blkHead 1 = some q →
     s.dev.blkWaits = false →
       exec (.blkAdd) s = .next { s with dev := ((s.dev.blkAdd q).fwPump s.dram).1, dram := ((s.dev.blkAdd q).fwPump s.dram).2 })
  ∧ (∀ (s : State) (q : BlkReq),
     s.dev.blkHead 2 = some q →
     s.dev.blkWaits = false →
       exec (.blkRemove) s = .next { s with dev := ((s.dev.blkRemove q).fwPump s.dram).1, dram := ((s.dev.blkRemove q).fwPump s.dram).2 })
  ∧ (∀ (s : State) (q : BlkReq),
     s.dev.blkHead 3 = some q →
     s.dev.blkWaits = false →
       exec (.blkReplaceAll) s = .next { s with dev := ((s.dev.blkReplaceAll q).fwPump s.dram).1, dram := ((s.dev.blkReplaceAll q).fwPump s.dram).2 })
  ∧ (∀ (s : State) (q : BlkReq),
     s.dev.blkHead 4 = some q →
     s.dev.blkWaits = false →
       exec (.blkQuery) s = .next { s with dev := ((s.dev.blkQuery q).fwPump s.dram).1, dram := ((s.dev.blkQuery q).fwPump s.dram).2 })
  ∧ (∀ (s : State) (q : BlkReq) (rest : List BlkReq) (d' : Dev),
     s.dev.blkPlan = none →
     s.dev.blkWaits = true →
     s.dev.reqQueue = q :: rest →
     d' = ({ s.dev with blkWaits := false } : Dev).blkRun (breqOf q.words).op →
       exec (.blkResumeAfterSwap) s = .next { s with dev := (d'.fwPump s.dram).1, dram := (d'.fwPump s.dram).2 })
  ∧ (∀ (s : State) (plan : List (Nat × Place)) (d' : Dev),
     s.dev.blkPlan = some plan →
     d' = s.dev.blkReplaceCommit (s.dev.planned plan) →
       exec (.blkResumeAfterSwap) s = .next { s with dev := (d'.fwPump s.dram).1, dram := (d'.fwPump s.dram).2 })
  ∧ (∀ (s : State),
     s.dev.blkPlan = none →
     s.dev.blkWaits = false →
       exec (.blkResumeAfterSwap) s = .next { s with dev := ((s.dev).fwPump s.dram).1, dram := ((s.dev).fwPump s.dram).2 })
  ∧ (∀ (s : State) (acc : Accessor) (i : Nat),
     Reach s.dev BLK.page →
     i = winIndex s.dev blkWin acc →
     winTable s.dev blkWin acc = 0 →
     winWord s.dev blkWin acc ≤ 1 →
       exec (.blkLaunchRead acc) s = .next { s with dev := s.dev.winCapture blkWin acc (s.dev.blkWords 0 i) })
  ∧ (∀ (s : State) (acc : Accessor) (i : Nat) (p : Place),
     Reach s.dev BLK.page →
     i = winIndex s.dev blkWin acc →
     winTable s.dev blkWin acc = 1 →
     winWord s.dev blkWin acc ≤ 3 →
     i ≤ 4095 →
     s.dev.place i = some p →
       exec (.blkLaunchRead acc) s = .next { s with dev := s.dev.winCapture blkWin acc (s.dev.blkWords 1 i) })
  ∧ (∀ (s : State) (acc : Accessor) (i : Nat),
     Reach s.dev BLK.page →
     i = winIndex s.dev blkWin acc →
     winTable s.dev blkWin acc = 1 →
     winWord s.dev blkWin acc ≤ 3 →
     i ≤ 4095 →
     s.dev.place i = none →
       exec (.blkLaunchRead acc) s = .next { s with dev := s.dev.winResult blkWin acc 1 })
  ∧ (∀ (s : State) (acc : Accessor),
     MayWrite s.dev acc BLK.page →
     s.dev.copied 1 = true →
       exec (.blkLaunchWrite acc) s = .next { s with dev := s.dev.rejectCommit BLK.page 0x0F BLK.ENTRY_CMD.OP.off })
  ∧ (∀ (s : State) (acc : Accessor) (i : Nat) (x : Dev × Option (List Data)),
     MayWrite s.dev acc BLK.page →
     i = winIndex s.dev blkWin acc →
     s.dev.copied 1 = false →
     winTable s.dev blkWin acc = 0 →
     winWord s.dev blkWin acc ≤ 1 →
     x = s.dev.winCollect blkWin acc 1 →
       exec (.blkLaunchWrite acc) s = .next { s with dev := (match x.2 with
       | none => x.1.winResult blkWin acc 0
       | some ws =>
         let w0 := putBits (ws.getD 0 0) 30 0 0
         let w1 := putBits (ws.getD 1 0) 3 0 0
         if bitOf (s.dev.lookupWord .launch i) 61 || bitOf w0 61 then x.1.winResult blkWin acc 3
         else if launchBad w0 w1 then x.1.winResult blkWin acc 4
         else (((x.1.setEntry .launch i w0 0).setEntry .launch i w1 1).writeImage BLK.page).winResult blkWin acc 0) })
  ∧ (∀ (s : State) (acc : Accessor) (i : Nat),
     MayWrite s.dev acc BLK.page →
     i = winIndex s.dev blkWin acc →
     s.dev.copied 1 = false →
     winTable s.dev blkWin acc = 0 →
     bitOf (s.dev.lookupWord .launch i) 61 = false →
       exec (.blkLaunchDelete acc) s = .next { s with dev := ((s.dev.zeroEntry .launch i 2).writeImage BLK.page).winResult blkWin acc 0 })
  ∧ (∀ (s : State) (acc : Accessor),
     MayWrite s.dev acc BLK.page →
     s.dev.copied 1 = false →
     winTable s.dev blkWin acc = 0 →
     bitOf (s.dev.lookupWord .launch (winIndex s.dev blkWin acc)) 61 = true →
       exec (.blkLaunchDelete acc) s = .next { s with dev := s.dev.winResult blkWin acc 3 })

/-- R282, R283, R284, R298: heartbeats, the interlock's inputs, the claim that waits, a commanded handover and its
release. Where the rules leave a point open this rests on the model's choice in log entries 22, 24, 123, 144, 145. -/
def Obligations.DoubletOwnership : Prop :=
  (∀ (s : State),
     s.dev.pageUp DBL.page = true →
     s.dev.dbl.hbFrom ≤ s.dev.now →
       exec (.dblHbToggle) s = .next { s with dev := (s.dev.setDbl (fun x => { x with hbOut := !s.dev.dbl.hbOut })).emit (.pin "DBL_HB_OUT" (!s.dev.dbl.hbOut)) })
  ∧ (∀ (s : State),
     s.dev.pageUp DBL.page = true →
       exec (.dblHbInEdge) s = .next { s with dev := ((s.dev.setDbl (fun b => { b with hbLast := s.dev.now, hbAbsent := false })).set DBL.page DBL.DBL_STAT.HB_OK 1).dblEval })
  ∧ (∀ (s : State) (d : Dev),
     s.dev.pageUp DBL.page = true →
     s.dev.flag DBL.page DBL.DBL_STAT.HB_OK = true →
     s.dev.dbl.hbLast + 2000 * nsU ≤ s.dev.now →
     d = (s.dev.set DBL.page DBL.DBL_STAT.HB_OK 0).setDbl (fun b => { b with hbAbsent := true }) →
       exec (.dblHbTimeout) s = .next { s with dev := (d.raise DBL.page DBL.INT_RAW.HB_LOST).dblEval })
  ∧ (∀ (s : State),
     s.dev.pageUp DBL.page = true →
     s.dev.flag DBL.page DBL.DBL_STAT.HB_OK = true →
     s.dev.now < s.dev.dbl.hbLast + 2000 * nsU →
       exec (.dblHbTimeout) s = .next { s with dev := s.dev })
  ∧ (∀ (s : State) (d : Dev),
     s.dev.pageUp DBL.page = true →
     s.dev.flag DBL.page DBL.DBL_STAT.HB_OK = false →
     d = (s.dev.set DBL.page DBL.DBL_STAT.HB_OK 0).setDbl (fun b => { b with hbAbsent := true }) →
       exec (.dblHbTimeout) s = .next { s with dev := d.dblEval })
  ∧ (∀ (s : State) (level : Bool),
     s.dev.pageUp DBL.page = true →
       exec (.dblOwnInChange level) s = .next { s with dev := ((({ s.dev with pinOwnIn := level } : Dev).setFlag DBL.page DBL.DBL_STAT.OWN_IN level).reselect).dblEval })
  ∧ (∀ (s : State) (t : Nat),
     s.dev.dbl.claimSince = some t →
     s.dev.isOwner = false →
     s.dev.pinOwnIn = false →
     s.dev.flag DBL.page DBL.DBL_STAT.HB_OK = true →
     s.dev.sideB = false →
     s.dev.flag DBL.page DBL.DBL_CFG.AUTO_CLAIM = true →
     t + s.dev.get DBL.page DBL.DBL_CFG.CLAIM_WAIT_MS * 1000000 * nsU ≤ s.dev.now →
       exec (.claimWaitExpiry) s = .next { s with dev := s.dev.claim false })
  ∧ (∀ (s : State) (acc : Accessor),
     MayWrite s.dev acc DBL.page →
     s.dev.isOwner = true →
     s.dev.dblOn = true →
     s.dev.dblUp = true →
     s.dev.flag DBL.page DBL.DBL_STAT.TWIN_READY = true →
     s.dev.dbl.hand = none →
       exec (.dblHandover acc) s = .next { s with dev := (s.dev.setDbl (fun b => { b with hand := some ⟨none, false⟩ })).set DBL.page DBL.DBL_STAT.HANDOVER_PEND 1 })
  ∧ (∀ (s : State) (acc : Accessor),
     MayWrite s.dev acc DBL.page →
     s.dev.isOwner = false ∨ s.dev.dblOn = false ∨ s.dev.dblUp = false
        ∨ s.dev.flag DBL.page DBL.DBL_STAT.TWIN_READY = false ∨ s.dev.dbl.hand ≠ none →
       exec (.dblHandover acc) s = .next { s with dev := s.dev.err DBL.page 0x81 DBL.DBL_CMD.HANDOVER.off })
  ∧ (∀ (s : State) (acc : Accessor),
     MayWrite s.dev acc DBL.page →
       exec (.dblHandoverCancel acc) s = .next { s with dev := (s.dev.setDbl (fun b => { b with hand := none })).set DBL.page DBL.DBL_STAT.HANDOVER_PEND 0 })
  ∧ (∀ (s : State) (e1 e2 t : Nat),
     s.dev.dbl.hand = some ⟨some e1, true⟩ →
     e2 = (e1 / s.dev.dblCycle + 1) * s.dev.dblCycle →
     t = s.dev.now / s.dev.dblCycle * s.dev.dblCycle →
     e2 ≤ t →
     s.dev.pulsesLow t = true ∨ e2 + secU ≤ t →
       exec (.handoverRelease) s = .next { s with dev := s.dev.release_ true })

/-- R285 to R292, R296, R299: a cycle ends, a cycle's copy arrives or an acknowledgement does, with the check of each.
Where the rules leave a point open this rests on the model's choice in log entries 23, 77, 123. -/
def Obligations.DoubletCopy : Prop :=
  (∀ (s : State) (fit : Nat) (kib : BitVec 10) (backlog : BitVec 22),
     s.dev.dblOn = true →
     s.dev.pageUp DBL.page = true →
     s.dev.cycleDue = true →
       exec (.dblCycleEnd fit kib backlog) s = .next { s with dev := (if s.dev.isOwner then
         s.dev.ownerCycle (s.dev.now / s.dev.dblCycle * s.dev.dblCycle) fit kib.toNat backlog.toNat
       else s.dev.standbyCycle (s.dev.now / s.dev.dblCycle * s.dev.dblCycle)) })
  ∧ (∀ (s : State) (crcOk : Bool) (hdr : TwinHeader) (items : List CopyItem) (edge : RxEdge) (kib : BitVec 10),
     s.dev.dblOn = false ∨ s.dev.pageUp DBL.page = false ∨ s.dev.dblUp = false →
       exec (.dblCopyReceived crcOk hdr items edge kib) s = .next { s with dev := s.dev })
  ∧ (∀ (s : State) (hdr : TwinHeader) (items : List CopyItem) (edge : RxEdge) (kib : BitVec 10),
     s.dev.dblOn = true →
     s.dev.pageUp DBL.page = true →
     s.dev.dblUp = true →
       exec (.dblCopyReceived false hdr items edge kib) s = .next { s with dev := ((s.dev.incSat DBL.page DBL.COPY_ERR.CRC_CNT).raise DBL.page DBL.INT_RAW.COPY_ERR).count 0xD82 })
  ∧ (∀ (s : State) (hdr : TwinHeader) (items : List CopyItem) (edge : RxEdge) (kib : BitVec 10) (d : Dev),
     s.dev.dblOn = true →
     s.dev.pageUp DBL.page = true →
     s.dev.dblUp = true →
     d = s.dev.checkTwin hdr →
     d.isOwner = true ∨ d.dbl.sameSide = true ∨ d.dbl.taken = some hdr.time →
       exec (.dblCopyReceived true hdr items edge kib) s = .next { s with dev := d })
  ∧ (∀ (s : State) (hdr : TwinHeader) (items : List CopyItem) (edge : RxEdge) (kib : BitVec 10) (t2 : Nat) (accept : Bool) (d e f g x : Dev),
     s.dev.dblOn = true →
     s.dev.pageUp DBL.page = true →
     s.dev.dblUp = true →
     d = s.dev.checkTwin hdr →
     d.isOwner = false →
     d.dbl.sameSide = false →
     d.dbl.taken ≠ some hdr.time →
     t2 = d.rxStamp 48 edge →
     e = (if (d.dbl.t2 != 0) && d.flag DBL.page DBL.DBL_STAT.DL0_UP then
          d.set DBL.page DBL.TWIN_OFS.PS
            (toField 32 (twinOfs (d.getInt DBL.page DBL.DL_ASYM_PS.ASYM) hdr.t1 d.dbl.t2 d.dbl.t3 hdr.t4)) else d) →
     f = items.foldl Dev.takeItem ((e.count 0xD81).set DBL.page DBL.COPY_STAT.LAST_KIB (min kib.toNat 256)) →
     g = (f.setFlag DBL.page DBL.DBL_STAT.FULL_COPY hdr.full).setDbl (fun b => { b with
          got := true, part := hdr.more, complete := b.complete || (f.flag DBL.page DBL.DBL_STAT.FULL_COPY && !hdr.full) }) →
     x = (if hdr.full then (g.setStale true).setReady false else g) →
     accept = (hdr.notice && x.flag DBL.page DBL.DBL_STAT.READY) →
       exec (.dblCopyReceived true hdr items edge kib) s = .next { s with dev := (let y := x.setDbl (fun b => { b with
         accepted := if accept then some (b.accepted.getD hdr.time) else none, t2 := t2, t3 := x.txStampAt 48 x.now, taken := some hdr.time })
       let r := [0, 1, 2, 3, 4].foldl (fun (z : List Nat × Dev) _ => let w := z.2.free; (w.1 % 2 ^ 32 :: z.1, w.2)) ([], y)
       (r.2.sendCopy true (r.2.header hdr.time accept false) []).emit (.doublet "digests" r.1)) })
  ∧ (∀ (s : State) (crcOk : Bool) (hdr : TwinHeader) (mismatch : BitVec 5) (edge : RxEdge),
     s.dev.dblOn = false ∨ s.dev.pageUp DBL.page = false ∨ s.dev.dblUp = false ∨ s.dev.isOwner = false →
       exec (.dblAckReceived crcOk hdr mismatch edge) s = .next { s with dev := s.dev })
  ∧ (∀ (s : State) (hdr : TwinHeader) (mismatch : BitVec 5) (edge : RxEdge),
     s.dev.dblOn = true →
     s.dev.pageUp DBL.page = true →
     s.dev.dblUp = true →
     s.dev.isOwner = true →
       exec (.dblAckReceived false hdr mismatch edge) s = .next { s with dev := s.dev.copyMiss DBL.COPY_ERR.CRC_CNT 0xD82 })
  ∧ (∀ (s : State) (hdr : TwinHeader) (mismatch : BitVec 5) (edge : RxEdge) (c d e : Dev),
     s.dev.dblOn = true →
     s.dev.pageUp DBL.page = true →
     s.dev.dblUp = true →
     s.dev.isOwner = true →
     c = ((s.dev.checkTwin hdr).setDbl (fun b => { b with
          awaiting := false, sent := [], t4 := s.dev.rxStamp 48 edge })).setFlag DBL.page DBL.DBL_STAT.TWIN_READY hdr.ready →
     d = (if c.dbl.queue.isEmpty && !c.dbl.needFull then c.set DBL.page DBL.DBL_STAT.FULL_COPY 0 else c) →
     e = (if mismatch = 0 then d else
          let x := ((d.incSat DBL.page DBL.COPY_ERR.DIGEST_CNT).raise DBL.page DBL.INT_RAW.DIGEST).count 0xD84
          let again := (x.fullCopy (x.now + 1)).filter (fun i => (itemOrder i == 2 && mismatch.getLsbD 0)
            || (itemOrder i == 3 && mismatch.getLsbD 2) || (itemOrder i == 4 && mismatch.getLsbD 1))
          (x.setDbl (fun b => { b with queue := b.queue ++ again })).setFlag DBL.page DBL.DBL_STAT.FULL_COPY
            (x.flag DBL.page DBL.DBL_STAT.FULL_COPY || !again.isEmpty)) →
     (∀ h, e.dbl.hand = some h → h.e1 = none) →
       exec (.dblAckReceived true hdr mismatch edge) s = .next { s with dev := e })
  ∧ (∀ (s : State) (hdr : TwinHeader) (mismatch : BitVec 5) (edge : RxEdge) (c d : Dev) (h : Handover),
     s.dev.dblOn = true →
     s.dev.pageUp DBL.page = true →
     s.dev.dblUp = true →
     s.dev.isOwner = true →
     mismatch = 0 →
     c = ((s.dev.checkTwin hdr).setDbl (fun b => { b with
          awaiting := false, sent := [], t4 := s.dev.rxStamp 48 edge })).setFlag DBL.page DBL.DBL_STAT.TWIN_READY hdr.ready →
     d = (if c.dbl.queue.isEmpty && !c.dbl.needFull then c.set DBL.page DBL.DBL_STAT.FULL_COPY 0 else c) →
     d.dbl.hand = some h →
     h.e1 ≠ none →
       exec (.dblAckReceived true hdr mismatch edge) s = .next { s with dev := (if hdr.notice then d.setDbl (fun b => { b with hand := some { h with accepted := true } })
       else if h.accepted then d
       else ((d.setDbl (fun b => { b with hand := none })).set DBL.page DBL.DBL_STAT.HANDOVER_PEND 0).err DBL.page 0x81
         DBL.DBL_CMD.HANDOVER.off) })
  ∧ (∀ (s : State) (acc : Accessor),
     MayWrite s.dev acc DBL.page →
       exec (.dblFullCopy acc) s = .next { s with dev := if s.dev.isOwner then s.dev.askFull else s.dev })

/-- R293, R294, R296: the window of the generation and recovery tables, the reset of a recovery function, and its
time-out. -/
def Obligations.RecoveryWindow : Prop :=
  (∀ (s : State) (acc : Accessor) (t : TableId),
     Reach s.dev DBL.page →
     dblTable (winTable s.dev dblWin acc) = some t →
       exec (.dblEntryRead acc) s = .next { s with dev := s.dev.winCapture dblWin acc [s.dev.stored t (winIndex s.dev dblWin acc)] })
  ∧ (∀ (s : State) (acc : Accessor),
     Reach s.dev DBL.page →
     dblTable (winTable s.dev dblWin acc) = none →
       exec (.dblEntryRead acc) s = .next { s with dev := s.dev.winResult dblWin acc 4 })
  ∧ (∀ (s : State) (acc : Accessor) (t : TableId),
     MayWrite s.dev acc DBL.page →
     dblTable (winTable s.dev dblWin acc) = some t →
     entryBad t (winData s.dev dblWin acc) = false →
       exec (.dblEntryWrite acc) s = .next { s with dev := (s.dev.writeDblEntry t (winIndex s.dev dblWin acc) (winData s.dev dblWin acc)).winResult dblWin acc 0 })
  ∧ (∀ (s : State) (acc : Accessor),
     MayWrite s.dev acc DBL.page →
     (∀ t, dblTable (winTable s.dev dblWin acc) = some t → entryBad t (winData s.dev dblWin acc) = true) →
       exec (.dblEntryWrite acc) s = .next { s with dev := s.dev.winResult dblWin acc 4 })
  ∧ (∀ (s : State) (acc : Accessor),
     MayWrite s.dev acc DBL.page →
     winTable s.dev dblWin acc = 1 →
       exec (.dblResetRec acc) s = .next { s with dev := (s.dev.takeAny (winIndex s.dev dblWin acc)).winResult dblWin acc 0 })
  ∧ (∀ (s : State) (acc : Accessor),
     MayWrite s.dev acc DBL.page →
     winTable s.dev dblWin acc ≠ 1 →
       exec (.dblResetRec acc) s = .next { s with dev := s.dev.winResult dblWin acc 4 })
  ∧ (∀ (s : State) (handle : Fin 16384) (w : Data),
     w = s.dev.lookupWord .recv handle →
     bitOf w 63 = true →
     bitOf w 60 = false →
     tget (fun _ => 0) s.dev.recLast handle + bitsOf w 54 48 * 1000000 * nsU ≤ s.dev.now →
       exec (.recoveryResetTimeout handle) s = .next { s with dev := (s.dev.takeAny handle).watch handle 3 })

/-- R314, R315, R316: a MID write completes a notice into an empty direction, is refused where it is full or the link is
down, and is discarded on the receiver's side; a MID read takes it. R315, R329: a MID read of a mailbox direction:
nothing where it is empty, the notice on the sender's side, and on the receiver's side the notice taken, with what
firmware then does. Where the rules leave a point open this rests on the model's choice in log entries 18, 75. -/
def Obligations.MailboxSendAndReceive : Prop :=
  (∀ (s : State) (acc : Accessor) (ch : Fin 32) (fw : Bool) (mid : BitVec 32) (payload : List (BitVec 8)) (n : Data) (m : List Host.Cell) (d : Dev),
     mbxReach acc ch = true →
     s.dev.pageUp (mbxPage ch) = true →
     s.dev.pageHeld (mbxPage ch) = false →
     mbxSender acc ch fw = true →
     n = s.dev.mbxNotice acc ch fw mid →
     m = s.dev.storePayload s.dram acc ch fw mid payload →
     (28 ≤ (ch : Nat) → s.dev.twinLink = true) →
     s.dev.mbxFull ch fw = false →
     d = ((s.dev.mbxStore ch fw n).mbxRing ch fw).mbxCarry ch n (readPayload m ch n) →
       exec (.mbxSend acc ch fw mid payload) s = .next { s with dev := d, dram := m })
  ∧ (∀ (s : State) (acc : Accessor) (ch : Fin 32) (fw : Bool) (mid : BitVec 32) (payload : List (BitVec 8)) (n : Data) (m : List Host.Cell),
     mbxReach acc ch = true →
     s.dev.pageUp (mbxPage ch) = true →
     s.dev.pageHeld (mbxPage ch) = false →
     mbxSender acc ch fw = true →
     n = s.dev.mbxNotice acc ch fw mid →
     m = s.dev.storePayload s.dram acc ch fw mid payload →
     (28 ≤ (ch : Nat) → s.dev.twinLink = true) →
     s.dev.mbxFull ch fw = true →
       exec (.mbxSend acc ch fw mid payload) s = .next { s with dev := s.dev.mbxRefuse ch fw 1, dram := m })
  ∧ (∀ (s : State) (acc : Accessor) (ch : Fin 32) (fw : Bool) (mid : BitVec 32) (payload : List (BitVec 8)) (n : Data) (m : List Host.Cell),
     mbxReach acc ch = true →
     s.dev.pageUp (mbxPage ch) = true →
     s.dev.pageHeld (mbxPage ch) = false →
     mbxSender acc ch fw = true →
     n = s.dev.mbxNotice acc ch fw mid →
     m = s.dev.storePayload s.dram acc ch fw mid payload →
     28 ≤ (ch : Nat) →
     s.dev.twinLink = false →
       exec (.mbxSend acc ch fw mid payload) s = .next { s with dev := s.dev.mbxRefuse ch fw 2, dram := m })
  ∧ (∀ (s : State) (acc : Accessor) (ch : Fin 32) (fw : Bool) (mid : BitVec 32) (payload : List (BitVec 8)),
     mbxReach acc ch = true →
     s.dev.pageUp (mbxPage ch) = true →
     s.dev.pageHeld (mbxPage ch) = false →
     mbxSender acc ch fw = false →
     mbxReceiver acc ch fw = true →
       exec (.mbxSend acc ch fw mid payload) s = .next { s with dev := s.dev.err (mbxPage ch) 0x91 (mbxNo ch fw), dram := s.dram })
  ∧ (∀ (s : State) (acc : Accessor) (ch : Fin 32) (fw : Bool),
     mbxReach acc ch = false →
       exec (.mbxReceive acc ch fw) s = .next { s with dev := s.dev.emit (.reply "mailbox" [0, 0]) })
  ∧ (∀ (s : State) (acc : Accessor) (ch : Fin 32) (fw : Bool),
     mbxReach acc ch = true →
     s.dev.pageUp (mbxPage ch) = false →
       exec (.mbxReceive acc ch fw) s = .next { s with dev := (s.dev.accessInReset (mbxPage ch)).emit (.reply "mailbox" [0xFFFFFFFF, 0xFFFFFFFF]) })
  ∧ (∀ (s : State) (acc : Accessor) (ch : Fin 32) (fw : Bool) (e : Dev),
     mbxReach acc ch = true →
     s.dev.pageUp (mbxPage ch) = true →
     s.dev.pageHeld (mbxPage ch) = false →
     s.dev.mbxFull ch fw = false →
     e = s.dev.emit (.reply "mailbox" [0, 0]) →
       exec (.mbxReceive acc ch fw) s = .next { pump { s with dev := e.fwSkim ch (e.fwCmd ch) } with pending := s.pending })
  ∧ (∀ (s : State) (acc : Accessor) (ch : Fin 32) (fw : Bool) (n : Data) (e : Dev),
     mbxReach acc ch = true →
     s.dev.pageUp (mbxPage ch) = true →
     s.dev.pageHeld (mbxPage ch) = false →
     s.dev.mbxFull ch fw = true →
     acc.isFw = fw ∨ (28 ≤ (ch : Nat) ∧ acc.isFw = false) →
     n = s.dev.noticeHeld (mbxNo ch fw) →
     e = (s.dev.seen .notice (mbxNo ch fw)).emit (.reply "mailbox" [bitsOf n 31 0, bitsOf n 63 32]) →
       exec (.mbxReceive acc ch fw) s = .next { pump { s with dev := e.fwSkim ch (e.fwCmd ch) } with pending := s.pending })
  ∧ (∀ (s : State) (acc : Accessor) (ch : Fin 32) (fw : Bool) (n : Data) (d e : Dev),
     mbxReach acc ch = true →
     s.dev.pageUp (mbxPage ch) = true →
     s.dev.pageHeld (mbxPage ch) = false →
     s.dev.mbxFull ch fw = true →
     acc.isFw ≠ fw →
     (ch : Nat) < 28 ∨ acc.isFw = true →
     s.dev.readNative .notice (mbxNo ch fw) = .clean n →
     d = (((((s.dev.mbxSet ch (mbxDir fw).ecc 0).mbxEmpty ch fw).mbxAck ch fw).mbxMirror ch).emit (.reply "mailbox" [bitsOf n 31 0, bitsOf n 63 32])).twinReports ch n →
     e = (if !fw && noticeKind n == 0 && decide ((ch : Nat) < 28) then d.setFwCmd ch (d.fwCmd ch ++ [n]) else d) →
       exec (.mbxReceive acc ch fw) s = .next { pump { s with dev := e.fwSkim ch (e.fwCmd ch) } with pending := s.pending })

/-- R316, R317, R318: WAIT set and cleared, a crossed wait, and what the Doublet link brings of MB28 to MB31. Where the
rules leave a point open this rests on the model's choice in log entry 76. -/
def Obligations.MailboxWaits : Prop :=
  (∀ (s : State) (acc : Accessor) (ch : Fin 32),
     mbxReach acc ch = true →
     MayWrite s.dev acc (mbxPage ch) →
       exec (.mbxWaitSet acc ch) s = .next { s with dev := s.dev.mbxWait acc ch true })
  ∧ (∀ (s : State) (acc : Accessor) (ch : Fin 32),
     mbxReach acc ch = true →
     MayWrite s.dev acc (mbxPage ch) →
       exec (.mbxWaitClr acc ch) s = .next { s with dev := s.dev.mbxWait acc ch false })
  ∧ (∀ (s : State) (ch : Fin 32) (p w : Nat) (d e : Dev),
     s.dev.mbxFull ch false = true →
     s.dev.mbxFull ch true = true →
     s.dev.mbxGet ch MBX.CH_STAT.TOFW_WAIT = 1 →
     s.dev.mbxGet ch MBX.CH_STAT.FROMFW_WAIT = 1 →
     s.dev.mbxGet ch MBX.CH_STAT.CROSSED = 0 →
     p = mbxPage ch →
     d = (s.dev.mbxSet ch MBX.CH_STAT.CROSSED 1).mbxSet ch MBX.CH_CNT.CROSSED_CNT
        (min ((s.dev.mbxSet ch MBX.CH_STAT.CROSSED 1).mbxGet ch MBX.CH_CNT.CROSSED_CNT + 1) 255) →
     w = d.get p MBX.MB_CROSSED.CROSSED →
     e = d.set p MBX.MB_CROSSED.CROSSED (if w.testBit (ch % 16) then w else w + 2 ^ ((ch : Nat) % 16)) →
       exec (.mbxCrossed ch) s = .next { s with dev := ((((if s.dev.asserted p then e else e.sendSummary p).emit (.coreInt (if (ch : Nat) < 16 then 0 else 4) "crossed")).count
         0xF40).record (if (ch : Nat) < 16 then 0x034 else 0x038) 0x0F ch) })
  ∧ (∀ (s : State) (ch : Fin 4) (what : TwinMbx),
     s.dev.twinLink = false →
       exec (.mbxTwinDelivery ch what) s = .next { s with dev := s.dev, dram := s.dram })
  ∧ (∀ (s : State) (ch : Fin 4) (n : Data) (payload : List (BitVec 8)) (m : List Host.Cell),
     s.dev.twinLink = true →
     s.dev.mbxFull (28 + ch) false = false →
     m = (match payloadAddr (28 + ch) n with
        | some a => memWrite s.dram a ((payload.take 4096).take (noticeLen n))
        | none => s.dram) →
       exec (.mbxTwinDelivery ch (.notice n payload)) s = .next { s with dev := ((s.dev.mbxStore (28 + ch) false n).mbxRing (28 + ch) false).mbxMirror (28 + ch), dram := m })
  ∧ (∀ (s : State) (ch : Fin 4) (full wait : Bool) (d : Dev),
     s.dev.twinLink = true →
     d = (if full then s.dev else if s.dev.mbxFull (28 + ch) true then (s.dev.mbxEmpty (28 + ch) true).mbxAck (28 + ch) true else s.dev) →
       exec (.mbxTwinDelivery ch (.mirror full wait)) s = .next { s with dev := d.mbxSet (28 + ch) MBX.CH_STAT.TOFW_WAIT (if wait then 1 else 0), dram := s.dram })

/-- R309, R311, R320, R321: VERSION, RESTART, PLACEMENT; HOLD, RELEASE, GRANT and WRITE of pages; a hold that ends. Where
the rules leave a point open this rests on the model's choice in log entries 37, 51, 52, 132. -/
def Obligations.SystemAndPageCommands : Prop :=
  (∀ (s : State) (ch : Fin 32) (n : Data) (rest : List Data) (ws : List Nat) (d e : Dev),
     s.dev.fwCmd ch = n :: rest →
     s.dev.fwRuns = true →
     noticeFamily n = 0 →
     noticeCode n = 1 →
     s.dev.fwCheck ch n = none →
     d = s.dev.setFwCmd ch rest →
     ws = payloadWords (readPayload s.dram ch n) →
     e = (d.fwReply ch n 0
        [getBits (d.rd SVC.page SVC.FW_VER.MAJOR.off) 24 8 * 2 ^ 48 + getBits (d.rd SVC.page SVC.FW_VER.MAJOR.off) 16 8 * 2 ^ 32
          + getBits (d.rd SVC.page SVC.FW_VER.MAJOR.off) 0 16, d.get SVC.page SVC.FW_STAT.IMAGE]) →
       exec (.sysVersion ch) s = .next (pump { s with dev := e.fwSkim ch (e.fwCmd ch) }))
  ∧ (∀ (s : State) (ch : Fin 32) (n : Data) (rest : List Data) (ws : List Nat) (d e : Dev),
     s.dev.fwCmd ch = n :: rest →
     s.dev.fwRuns = true →
     noticeFamily n = 0 →
     noticeCode n = 2 →
     s.dev.fwCheck ch n = none →
     d = s.dev.setFwCmd ch rest →
     ws = payloadWords (readPayload s.dram ch n) →
     e = (d.fwReply ch n 0 []).restartSame →
       exec (.sysRestart ch) s = .next (pump { s with dev := e.fwSkim ch (e.fwCmd ch) }))
  ∧ (∀ (s : State) (ch : Fin 32) (n : Data) (rest : List Data) (ws : List Nat) (d e : Dev),
     s.dev.fwCmd ch = n :: rest →
     s.dev.fwRuns = true →
     noticeFamily n = 0 →
     noticeCode n = 3 →
     s.dev.fwCheck ch n = none →
     d = s.dev.setFwCmd ch rest →
     ws = payloadWords (readPayload s.dram ch n) →
     e = (d.fwReply ch n 0 ((List.range svcCount).map (fun k =>
        (if k = 8 then 4 else d.get SVC.page SVC.SVC_STAT.CORE_NOW k) * 2 ^ 8 + d.get SVC.page SVC.SVC_STAT.LOAD k))) →
       exec (.sysPlacement ch) s = .next (pump { s with dev := e.fwSkim ch (e.fwCmd ch) }))
  ∧ (∀ (s : State) (ch : Fin 32) (n : Data) (rest : List Data) (ws : List Nat) (d e : Dev) (page ms : Nat),
     s.dev.fwCmd ch = n :: rest →
     s.dev.fwRuns = true →
     noticeFamily n = 1 →
     noticeCode n = 1 →
     s.dev.fwCheck ch n = none →
     d = s.dev.setFwCmd ch rest →
     ws = payloadWords (readPayload s.dram ch n) →
     page = fieldAt ws 0 15 0 →
     ms = fieldAt ws 0 31 16 →
     (pageOf page).isSome = true →
     0 < ms →
     ms ≤ 60000 →
     d.owns (chHost ch) page = true →
     d.hostHolds page = false →
     e = ({ d with pageHolds := tset (fun _ => none) d.pageHolds page (some (d.now + ms * 1000000 * nsU)) } : Dev).fwReply ch n 0 [] →
       exec (.pageHold ch) s = .next (pump { s with dev := e.fwSkim ch (e.fwCmd ch) }))
  ∧ (∀ (s : State) (ch : Fin 32) (n : Data) (rest : List Data) (ws : List Nat) (d e : Dev) (page ms : Nat),
     s.dev.fwCmd ch = n :: rest →
     s.dev.fwRuns = true →
     noticeFamily n = 1 →
     noticeCode n = 1 →
     s.dev.fwCheck ch n = none →
     d = s.dev.setFwCmd ch rest →
     ws = payloadWords (readPayload s.dram ch n) →
     page = fieldAt ws 0 15 0 →
     ms = fieldAt ws 0 31 16 →
     (pageOf page).isSome = true →
     0 < ms →
     ms ≤ 60000 →
     d.owns (chHost ch) page = false →
     e = d.fwReply ch n 5 [] →
       exec (.pageHold ch) s = .next (pump { s with dev := e.fwSkim ch (e.fwCmd ch) }))
  ∧ (∀ (s : State) (ch : Fin 32) (n : Data) (rest : List Data) (ws : List Nat) (d e : Dev) (page ms : Nat),
     s.dev.fwCmd ch = n :: rest →
     s.dev.fwRuns = true →
     noticeFamily n = 1 →
     noticeCode n = 1 →
     s.dev.fwCheck ch n = none →
     d = s.dev.setFwCmd ch rest →
     ws = payloadWords (readPayload s.dram ch n) →
     page = fieldAt ws 0 15 0 →
     ms = fieldAt ws 0 31 16 →
     (pageOf page).isSome = true →
     0 < ms →
     ms ≤ 60000 →
     d.owns (chHost ch) page = true →
     d.hostHolds page = true →
     e = d.fwReply ch n 6 [] →
       exec (.pageHold ch) s = .next (pump { s with dev := e.fwSkim ch (e.fwCmd ch) }))
  ∧ (∀ (s : State) (ch : Fin 32) (n : Data) (rest : List Data) (bs : List (BitVec 8)) (r t : State) (page : Nat) (u : State),
     s.dev.fwCmd ch = n :: rest →
     s.dev.fwRuns = true →
     noticeFamily n = 1 →
     noticeCode n = 2 →
     s.dev.fwCheck ch n = none →
     r = { s with dev := s.dev.setFwCmd ch rest } →
     bs = readPayload s.dram ch n →
     page = fieldAt (payloadWords bs) 0 15 0 →
     (pageOf page).isSome = true →
     u = (if r.dev.hostHolds page then holdOver page r else r) →
     t = { u with dev := u.dev.fwReply ch n 0 [] } →
       exec (.pageRelease ch) s = .next { pump { t with dev := t.dev.fwSkim ch (t.dev.fwCmd ch) } with pending := s.pending })
  ∧ (∀ (s : State) (page : BitVec 16) (t : Nat),
     tget (fun _ => none) s.dev.pageHolds page.toNat = some t →
     t ≤ s.dev.now →
       exec (.pageHoldExpiry page) s = .next { pump (holdOver page.toNat s) with pending := s.pending })
  ∧ (∀ (s : State) (page : BitVec 16),
     (∀ t, tget (fun _ => none) s.dev.pageHolds page.toNat = some t → s.dev.now < t) →
       exec (.pageHoldExpiry page) s = .next s)
  ∧ (∀ (s : State) (ch : Fin 32) (n : Data) (rest : List Data) (ws : List Nat) (d e : Dev) (page i : Nat) (t : PageType),
     s.dev.fwCmd ch = n :: rest →
     s.dev.fwRuns = true →
     noticeFamily n = 1 →
     noticeCode n = 3 →
     s.dev.fwCheck ch n = none →
     d = s.dev.setFwCmd ch rest →
     ws = payloadWords (readPayload s.dram ch n) →
     page = fieldAt ws 0 15 0 →
     pageOf page = some (t, i) →
     ownerFixed t = false →
     d.owns (chHost ch) page = true →
     e = (d.setOwner page (if d.imageRuns && d.startOwner t == 3 then 3 else 1)).pageGiven.fwReply ch n 0 [] →
       exec (.pageGrant ch) s = .next (pump { s with dev := e.fwSkim ch (e.fwCmd ch) }))
  ∧ (∀ (s : State) (ch : Fin 32) (n : Data) (rest : List Data) (bs : List (BitVec 8)) (r t : State) (x : State × Option (Nat × Nat × Word)),
     s.dev.fwCmd ch = n :: rest →
     s.dev.fwRuns = true →
     noticeFamily n = 1 →
     noticeCode n = 4 →
     s.dev.fwCheck ch n = none →
     r = { s with dev := s.dev.setFwCmd ch rest } →
     bs = readPayload s.dram ch n →
     (writeList (payloadWords bs)).findSome? (r.dev.writeBad ch) = none →
     x = pageWrites (chFw ch) (writeList (payloadWords bs)) r →
     x.2 = none →
     t = { x.1 with dev := x.1.dev.fwReply ch n 0 [x.1.dev.commitWord (((writeList (payloadWords bs)).getLast?.map (·.1)).getD 0)] } →
       exec (.pageWrite ch) s = .next { pump { t with dev := t.dev.fwSkim ch (t.dev.fwCmd ch) } with pending := s.pending })
  ∧ (∀ (s : State) (ch : Fin 32) (n : Data) (rest : List Data) (bs : List (BitVec 8)) (r t : State) (x : State × Option (Nat × Nat × Word)) (page off : Nat) (v : Word),
     s.dev.fwCmd ch = n :: rest →
     s.dev.fwRuns = true →
     noticeFamily n = 1 →
     noticeCode n = 4 →
     s.dev.fwCheck ch n = none →
     r = { s with dev := s.dev.setFwCmd ch rest } →
     bs = readPayload s.dram ch n →
     (writeList (payloadWords bs)).findSome? (r.dev.writeBad ch) = none →
     x = pageWrites (chFw ch) (writeList (payloadWords bs)) r →
     x.2 = some (page, off, v) →
     off < 0x40 →
     t = ({ r with dev := ((r.dev.rejectCommit page (x.1.dev.get page COM.COMMIT_STAT.CODE) (x.1.dev.get page COM.ERR_INFO.DETAIL)).fwRefused
          ch n page (x.1.dev.get page COM.COMMIT_STAT.CODE)) }) →
       exec (.pageWrite ch) s = .next { pump { t with dev := t.dev.fwSkim ch (t.dev.fwCmd ch) } with pending := s.pending })
  ∧ (∀ (s : State) (ch : Fin 32) (n : Data) (rest : List Data) (bs : List (BitVec 8)) (r t : State) (x : State × Option (Nat × Nat × Word)) (page off : Nat) (v : Word),
     s.dev.fwCmd ch = n :: rest →
     s.dev.fwRuns = true →
     noticeFamily n = 1 →
     noticeCode n = 4 →
     s.dev.fwCheck ch n = none →
     r = { s with dev := s.dev.setFwCmd ch rest } →
     bs = readPayload s.dram ch n →
     (writeList (payloadWords bs)).findSome? (r.dev.writeBad ch) = none →
     x = pageWrites (chFw ch) (writeList (payloadWords bs)) r →
     x.2 = some (page, off, v) →
     0x40 ≤ off →
     t = { r with dev := r.dev.fwRefused ch n page 0 } →
       exec (.pageWrite ch) s = .next { pump { t with dev := t.dev.fwSkim ch (t.dev.fwCmd ch) } with pending := s.pending })
  ∧ (∀ (s : State) (ch : Fin 32) (n : Data) (rest : List Data) (bs : List (BitVec 8)) (r t : State) (st : Nat),
     s.dev.fwCmd ch = n :: rest →
     s.dev.fwRuns = true →
     noticeFamily n = 1 →
     noticeCode n = 4 →
     s.dev.fwCheck ch n = none →
     r = { s with dev := s.dev.setFwCmd ch rest } →
     bs = readPayload s.dram ch n →
     (writeList (payloadWords bs)).findSome? (r.dev.writeBad ch) = some st →
     t = { r with dev := r.dev.fwReply ch n st [] } →
       exec (.pageWrite ch) s = .next { pump { t with dev := t.dev.fwSkim ch (t.dev.fwCmd ch) } with pending := s.pending })

/-- R305, R321: the PTP, REF, RED, BLK, LLDP, LOG and EPASH commands with valid fields. Where the rules leave a point open
this rests on the model's choice in log entries 38, 50, 52, 85. -/
def Obligations.ServiceCommands : Prop :=
  (∀ (s : State) (ch : Fin 32) (n : Data) (rest : List Data) (ws : List Nat) (d e : Dev),
     s.dev.fwCmd ch = n :: rest →
     s.dev.fwRuns = true →
     noticeFamily n = 2 →
     noticeCode n = 1 →
     s.dev.fwCheck ch n = none →
     d = s.dev.setFwCmd ch rest →
     ws = payloadWords (readPayload s.dram ch n) →
     wordAt ws 0 / 2 ^ 52 % 16 ≤ 5 →
     wordAt ws 0 / 2 ^ 50 % 4 ≠ 3 →
     (∀ j < 4, j ≠ wordAt ws 0 % 4 → wordAt ws 0 ≠ 0 → wordAt ws 0 / 2 ^ 50 % 4 ≠ 2 →
        tget (fun _ => 0) d.ptpInst j ≠ 0 → tget (fun _ => 0) d.ptpInst j / 2 ^ 50 % 4 ≠ 2 →
        tget (fun _ => 0) d.ptpInst j / 2 ^ 56 ≠ wordAt ws 0 / 2 ^ 56) →
     e = ({ d with ptpInst := tset (fun _ => 0) d.ptpInst (wordAt ws 0 % 4) (wordAt ws 0) } : Dev).fwReply ch n 0 [] →
       exec (.ptpInstance ch) s = .next (pump { s with dev := e.fwSkim ch (e.fwCmd ch) }))
  ∧ (∀ (s : State) (ch : Fin 32) (n : Data) (rest : List Data) (ws : List Nat) (d e : Dev),
     s.dev.fwCmd ch = n :: rest →
     s.dev.fwRuns = true →
     noticeFamily n = 2 →
     noticeCode n = 2 →
     s.dev.fwCheck ch n = none →
     d = s.dev.setFwCmd ch rest →
     ws = payloadWords (readPayload s.dram ch n) →
     wordAt ws 0 / 2 ^ 58 < 48 →
     wordAt ws 0 / 2 ^ 54 % 4 ≤ 1 →
     wordAt ws 0 / 2 ^ 52 % 4 ≤ 2 →
     -7 ≤ (BitVec.ofNat 8 (wordAt ws 0 / 2 ^ 40)).toInt →
     -7 ≤ (BitVec.ofNat 8 (wordAt ws 0 / 2 ^ 24)).toInt →
     e = ({ d with ptpPort := tset (fun _ => 0) d.ptpPort (wordAt ws 0 / 2 ^ 58) (wordAt ws 0) } : Dev).fwReply ch n 0 [] →
       exec (.ptpPort ch) s = .next (pump { s with dev := e.fwSkim ch (e.fwCmd ch) }))
  ∧ (∀ (s : State) (ch : Fin 32) (n : Data) (rest : List Data) (ws : List Nat) (d e : Dev) (dataset : List (BitVec 8)),
     s.dev.fwCmd ch = n :: rest →
     s.dev.fwRuns = true →
     noticeFamily n = 2 →
     noticeCode n = 3 →
     s.dev.fwCheck ch n = none →
     d = s.dev.setFwCmd ch rest →
     ws = payloadWords (readPayload s.dram ch n) →
     fieldAt ws 0 7 0 ≤ 4 →
     (fieldAt ws 0 7 0 = 4 → wordAt ws 0 / 2 ^ 58 < 48) →
     e = d.fwReplyBytes ch n dataset →
       exec (.ptpDataset ch dataset) s = .next (pump { s with dev := e.fwSkim ch (e.fwCmd ch) }))
  ∧ (∀ (s : State) (ch : Fin 32) (n : Data) (rest : List Data) (ws : List Nat) (d e : Dev) (port : Nat),
     s.dev.fwCmd ch = n :: rest →
     s.dev.fwRuns = true →
     noticeFamily n = 2 →
     noticeCode n = 4 →
     s.dev.fwCheck ch n = none →
     d = s.dev.setFwCmd ch rest →
     ws = payloadWords (readPayload s.dram ch n) →
     port = wordAt ws 0 / 2 ^ 58 →
     port < 48 →
     -2147483648 ≤ signed64 (wordAt ws 1) →
     signed64 (wordAt ws 1) ≤ 2147483647 →
     e = d.fwCommit ch n (TSU.page port) (·.setSh .tsu (TSU.page port) TSU.ASYM_PS.ASYM (toField TSU.ASYM_PS.ASYM.wd (signed64 (wordAt ws 1)))) →
       exec (.ptpAsym ch) s = .next (pump { s with dev := e.fwSkim ch (e.fwCmd ch) }))
  ∧ (∀ (s : State) (ch : Fin 32) (n : Data) (rest : List Data) (ws : List Nat) (d e : Dev),
     s.dev.fwCmd ch = n :: rest →
     s.dev.fwRuns = true →
     noticeFamily n = 3 →
     noticeCode n = 1 →
     s.dev.fwCheck ch n = none →
     d = s.dev.setFwCmd ch rest →
     ws = payloadWords (readPayload s.dram ch n) →
     e = (d.fwCommit ch n REF.page (·.wrShadow .ref REF.page REF.SLOT_CFG.ENABLE.off (fieldAt ws 0 35 32)
        (BitVec.ofNat 32 (wordAt ws 0)))) →
       exec (.refSlotCmd ch) s = .next (pump { s with dev := e.fwSkim ch (e.fwCmd ch) }))
  ∧ (∀ (s : State) (ch : Fin 32) (n : Data) (rest : List Data) (ws : List Nat) (d e : Dev),
     s.dev.fwCmd ch = n :: rest →
     s.dev.fwRuns = true →
     noticeFamily n = 3 →
     noticeCode n = 2 →
     s.dev.fwCheck ch n = none →
     d = s.dev.setFwCmd ch rest →
     ws = payloadWords (readPayload s.dram ch n) →
     e = (d.fwReply ch n 0 [toField 64 (d.getInt REF.page REF.HO_C1.C1), toField 64 (d.getInt REF.page REF.HO_C2.C2),
        toField 64 (d.getInt REF.page REF.HO_C3.C3), toField 64 (d.getInt REF.page REF.HO_AGE.AGE),
        toField 64 (d.getInt REF.page REF.HO_CFG.T0), d.hoFit.1, d.hoFit.2]) →
       exec (.refModelCmd ch) s = .next (pump { s with dev := e.fwSkim ch (e.fwCmd ch) }))
  ∧ (∀ (s : State) (ch : Fin 32) (n : Data) (rest : List Data) (ws : List Nat) (d e : Dev),
     s.dev.fwCmd ch = n :: rest →
     s.dev.fwRuns = true →
     noticeFamily n = 3 →
     noticeCode n = 3 →
     s.dev.fwCheck ch n = none →
     d = s.dev.setFwCmd ch rest →
     ws = payloadWords (readPayload s.dram ch n) →
     d.optBusy = false →
     d.optNextGen < 2 ^ 32 →
     e = d.storeModel.fwReply ch n 0 [] →
       exec (.refStoreCmd ch) s = .next (pump { s with dev := e.fwSkim ch (e.fwCmd ch) }))
  ∧ (∀ (s : State) (ch : Fin 32) (n : Data) (rest : List Data) (ws : List Nat) (d e : Dev),
     s.dev.fwCmd ch = n :: rest →
     s.dev.fwRuns = true →
     noticeFamily n = 3 →
     noticeCode n = 3 →
     s.dev.fwCheck ch n = none →
     d = s.dev.setFwCmd ch rest →
     ws = payloadWords (readPayload s.dram ch n) →
     d.optBusy = true →
     e = d.fwReply ch n 6 [] →
       exec (.refStoreCmd ch) s = .next (pump { s with dev := e.fwSkim ch (e.fwCmd ch) }))
  ∧ (∀ (s : State) (ch : Fin 32) (n : Data) (rest : List Data) (ws : List Nat) (d e : Dev),
     s.dev.fwCmd ch = n :: rest →
     s.dev.fwRuns = true →
     noticeFamily n = 4 →
     noticeCode n = 1 →
     s.dev.fwCheck ch n = none →
     d = s.dev.setFwCmd ch rest →
     ws = payloadWords (readPayload s.dram ch n) →
     e = (d.fwCommit ch n DBL.page (·.wrShadow .dbl DBL.page DBL.RED_CFG.MODE.off (fieldAt ws 0 33 32)
        (BitVec.ofNat 32 (wordAt ws 0)))) →
       exec (.redPairCmd ch) s = .next (pump { s with dev := e.fwSkim ch (e.fwCmd ch) }))
  ∧ (∀ (s : State) (ch : Fin 32) (n : Data) (rest : List Data) (ws : List Nat) (d e : Dev),
     s.dev.fwCmd ch = n :: rest →
     s.dev.fwRuns = true →
     noticeFamily n = 4 →
     noticeCode n = 2 →
     s.dev.fwCheck ch n = none →
     d = s.dev.setFwCmd ch rest →
     ws = payloadWords (readPayload s.dram ch n) →
     d.fwMayWrite .firmware DBL.page = none →
     entryBad .gen (BitVec.ofNat 64 (wordAt ws 1)) = false →
     entryBad .recv (BitVec.ofNat 64 (wordAt ws 2)) = false →
     e = (((d.writeDblEntry .gen (fieldAt ws 0 13 0) (BitVec.ofNat 64 (wordAt ws 1))).writeDblEntry
        .recv (fieldAt ws 0 13 0) (BitVec.ofNat 64 (wordAt ws 2))).fwReply ch n 0 []) →
       exec (.redStreamCmd ch) s = .next (pump { s with dev := e.fwSkim ch (e.fwCmd ch) }))
  ∧ (∀ (s : State) (ch : Fin 32) (n : Data) (rest : List Data) (ws : List Nat) (d e : Dev),
     s.dev.fwCmd ch = n :: rest →
     s.dev.fwRuns = true →
     noticeFamily n = 4 →
     noticeCode n = 3 →
     s.dev.fwCheck ch n = none →
     d = s.dev.setFwCmd ch rest →
     ws = payloadWords (readPayload s.dram ch n) →
     e = ({ d with latent := tset (fun _ => 0) d.latent (fieldAt ws 0 13 0) (wordAt ws 0) } : Dev).fwReply ch n 0 [] →
       exec (.redLatentCmd ch) s = .next (pump { s with dev := e.fwSkim ch (e.fwCmd ch) }))
  ∧ (∀ (s : State) (ch : Fin 32) (n : Data) (rest : List Data) (ws : List Nat) (d e : Dev) (x : Nat × Dev),
     s.dev.fwCmd ch = n :: rest →
     s.dev.fwRuns = true →
     noticeFamily n = 5 →
     noticeCode n = 1 →
     s.dev.fwCheck ch n = none →
     d = s.dev.setFwCmd ch rest →
     ws = payloadWords (readPayload s.dram ch n) →
     d.fwMayWrite .firmware BLK.page = none →
     x = d.blkPush ((List.range 4).map (fun i => BitVec.ofNat 64 (wordAt ws i))) (some ((ch : Nat), n)) →
     e = (if x.1 = 0 then x.2 else if x.1 = 7 then x.2.fwReply ch n 9 []
      else x.2.fwReply ch n 0x0A [x.2.commitWord BLK.page]) →
       exec (.blkRequestCmd ch) s = .next (pump { s with dev := e.fwSkim ch (e.fwCmd ch) }))
  ∧ (∀ (s : State) (ch : Fin 32) (n : Data) (rest : List Data) (ws : List Nat) (d e : Dev),
     s.dev.fwCmd ch = n :: rest →
     s.dev.fwRuns = true →
     noticeFamily n = 6 →
     noticeCode n = 1 →
     s.dev.fwCheck ch n = none →
     d = s.dev.setFwCmd ch rest →
     ws = payloadWords (readPayload s.dram ch n) →
     wordAt ws 0 / 2 ^ 58 < 48 →
     e = ({ d with lldpPort := tset (fun _ => 0) d.lldpPort (wordAt ws 0 / 2 ^ 58) (wordAt ws 0) } : Dev).fwReply ch n 0 [] →
       exec (.lldpPortCmd ch) s = .next (pump { s with dev := e.fwSkim ch (e.fwCmd ch) }))
  ∧ (∀ (s : State) (ch : Fin 32) (n : Data) (rest : List Data) (ws : List Nat) (d e : Dev) (known : List Nat) (x : List Nat × Dev),
     s.dev.fwCmd ch = n :: rest →
     s.dev.fwRuns = true →
     noticeFamily n = 6 →
     noticeCode n = 2 →
     s.dev.fwCheck ch n = none →
     d = s.dev.setFwCmd ch rest →
     ws = payloadWords (readPayload s.dram ch n) →
     known = (List.range 48).filter (fun p => tget (fun _ => []) d.neigh p != []) →
     x = known.foldl (fun (x : List Nat × Dev) p => (x.1 ++ [p * 2 ^ 58 + x.2.free.1 % 2 ^ 58], x.2.free.2)) ([], d) →
     e = x.2.fwReplyBytes ch n ((x.1.map (bytesLE 8)).flatten ++ (known.map (fun p => tget (fun _ => []) d.neigh p)).flatten) →
       exec (.lldpNeighboursCmd ch) s = .next (pump { s with dev := e.fwSkim ch (e.fwCmd ch) }))
  ∧ (∀ (s : State) (ch : Fin 32) (n : Data) (rest : List Data) (bs : List (BitVec 8)) (r t : State),
     s.dev.fwCmd ch = n :: rest →
     s.dev.fwRuns = true →
     noticeFamily n = 7 →
     noticeCode n = 1 →
     s.dev.fwCheck ch n = none →
     r = { s with dev := s.dev.setFwCmd ch rest } →
     bs = readPayload s.dram ch n →
     bs.length ≤ 8 →
     t = { r with dev := (r.dev.record (r.dev.svcSource 6) 0x11 (markData bs)).fwReply ch n 0 [] } →
       exec (.logMarkCmd ch) s = .next { pump { t with dev := t.dev.fwSkim ch (t.dev.fwCmd ch) } with pending := s.pending })
  ∧ (∀ (s : State) (ch : Fin 32) (n : Data) (rest : List Data) (bs : List (BitVec 8)) (r t : State),
     s.dev.fwCmd ch = n :: rest →
     s.dev.fwRuns = true →
     noticeFamily n = 7 →
     noticeCode n = 2 →
     s.dev.fwCheck ch n = none →
     r = { s with dev := s.dev.setFwCmd ch rest } →
     bs = readPayload s.dram ch n →
     t = ({ r with dev := (r.dev.fwReplyBytes ch n (r.dev.logOrder.foldl (fun a i =>
          exportSlot (wordAt (payloadWords bs) 0 * 1000000000 + wordAt (payloadWords bs) 1)
            (wordAt (payloadWords bs) 2 * 1000000000 + wordAt (payloadWords bs) 3) a (memRead r.dram (logBase + 16 * i) 16))
          ⟨none, [], false, []⟩).bytes) }) →
       exec (.logExportCmd ch) s = .next { pump { t with dev := t.dev.fwSkim ch (t.dev.fwCmd ch) } with pending := s.pending })
  ∧ (∀ (s : State) (ch : Fin 32) (n : Data) (rest : List Data) (ws : List Nat) (d e : Dev),
     s.dev.fwCmd ch = n :: rest →
     s.dev.fwRuns = true →
     noticeFamily n = 8 →
     noticeCode n = 1 →
     s.dev.fwCheck ch n = none →
     d = s.dev.setFwCmd ch rest →
     ws = payloadWords (readPayload s.dram ch n) →
     e = (d.fwCommit ch n LKP.page (fun d =>
        ({ d with epashCfg := wordAt ws 0 } : Dev).setSh .lkp LKP.page LKP.LKP_CFG.EPASH_UDP (fieldAt ws 0 15 0))) →
       exec (.epashCfgCmd ch) s = .next (pump { s with dev := e.fwSkim ch (e.fwCmd ch) }))

/-- R324, R326: BEGIN, WRITE, VERIFY, ACTIVATE, CONFIRM, ABORT and STATE, in the states that allow them. Where the rules
leave a point open this rests on the model's choice in log entries 24, 39, 85, 131. -/
def Obligations.UpdateCommands : Prop :=
  (∀ (s : State) (ch : Fin 32) (n : Data) (rest : List Data) (ws : List Nat) (d e : Dev) (size i : Nat),
     s.dev.fwCmd ch = n :: rest →
     s.dev.fwRuns = true →
     noticeFamily n = 15 →
     noticeCode n = 1 →
     s.dev.fwCheck ch n = none →
     d = s.dev.setFwCmd ch rest →
     ws = payloadWords (readPayload s.dram ch n) →
     size = fieldAt ws 0 31 0 →
     0 < size →
     size ≤ 2 ^ 24 →
     d.updSt ≠ 3 →
     i = (if d.get SVC.page SVC.FW_STAT.IMAGE = 1 then 1 else 0) →
     e = ((((({ d.setSlotImage i none with upd := { d.upd with size := size, data := [], staged := none } } : Dev).setUpdSt 1).set
        SVC.page SVC.UPD_STAT.TARGET i).set SVC.page SVC.UPD_STAT.RX_KIB 0).fwReply ch n 0 []) →
       exec (.updBegin ch) s = .next (pump { s with dev := e.fwSkim ch (e.fwCmd ch) }))
  ∧ (∀ (s : State) (ch : Fin 32) (n : Data) (rest : List Data) (bs : List (BitVec 8)) (r t : State) (all : List (BitVec 8)),
     s.dev.fwCmd ch = n :: rest →
     s.dev.fwRuns = true →
     noticeFamily n = 15 →
     noticeCode n = 2 →
     s.dev.fwCheck ch n = none →
     r = { s with dev := s.dev.setFwCmd ch rest } →
     bs = readPayload s.dram ch n →
     all = r.dev.upd.data ++ bs.drop 8 →
     r.dev.updSt = 1 →
     wordAt (payloadWords bs) 0 = r.dev.upd.data.length →
     all.length ≤ r.dev.upd.size →
     (bs.drop 8).length ≤ 65520 →
     t = ({ r with dev := ((({ r.dev.setSlotImage r.dev.updSlot (some ⟨all, 0, false, false, false⟩) with
          upd := { r.dev.upd with data := all } } : Dev).set SVC.page SVC.UPD_STAT.RX_KIB (all.length / 1024)).fwReply ch n 0 []) }) →
       exec (.updWrite ch) s = .next { pump { t with dev := t.dev.fwSkim ch (t.dev.fwCmd ch) } with pending := s.pending })
  ∧ (∀ (s : State) (ch : Fin 32) (n : Data) (rest : List Data) (ws : List Nat) (d e : Dev) (crcOk sigOk : Bool) (version : BitVec 32) (x : FlashImage) (c : Nat) (y : Dev),
     s.dev.fwCmd ch = n :: rest →
     s.dev.fwRuns = true →
     noticeFamily n = 15 →
     noticeCode n = 3 →
     s.dev.fwCheck ch n = none →
     d = s.dev.setFwCmd ch rest →
     ws = payloadWords (readPayload s.dram ch n) →
     d.updSt = 1 →
     x = ⟨d.upd.data, version, crcOk && d.upd.data.length == d.upd.size, sigOk, false⟩ →
     c = imageCause (some x) →
     y = (d.setSlotImage d.updSlot (some x)).set SVC.page (failField d.updSlot) c →
     e = (if c = 0 then ((({ y with upd := { y.upd with staged := some x } } : Dev).setUpdSt 2)).fwReply ch n 0 []
        else (((if 3 ≤ c then y.raise SEC.page SEC.INT_RAW.AUTH_FAIL else y).setUpdSt 4)).fwReply ch n 0x0B []) →
       exec (.updVerify ch crcOk sigOk version) s = .next (pump { s with dev := e.fwSkim ch (e.fwCmd ch) }))
  ∧ (∀ (s : State) (ch : Fin 32) (n : Data) (rest : List Data) (ws : List Nat) (d e : Dev) (y : Dev),
     s.dev.fwCmd ch = n :: rest →
     s.dev.fwRuns = true →
     noticeFamily n = 15 →
     noticeCode n = 4 →
     s.dev.fwCheck ch n = none →
     d = s.dev.setFwCmd ch rest →
     ws = payloadWords (readPayload s.dram ch n) →
     d.updSt = 2 →
     d.twinRestarts = false ∨ d.flag DBL.page DBL.DBL_CFG.ENABLE = false →
     y = d.fwReply ch n 0 [] →
     e = (({ y with
          upd := { y.upd with
            trial := true
            confirmS := if fieldAt ws 0 15 0 = 0 then 600 else fieldAt ws 0 15 0
            prev := y.get SVC.page SVC.FW_STAT.IMAGE } } : Dev).restartBegin (y.updSlot + 1)) →
       exec (.updActivate ch) s = .next (pump { s with dev := e.fwSkim ch (e.fwCmd ch) }))
  ∧ (∀ (s : State) (ch : Fin 32) (n : Data) (rest : List Data) (ws : List Nat) (d e : Dev),
     s.dev.fwCmd ch = n :: rest →
     s.dev.fwRuns = true →
     noticeFamily n = 15 →
     noticeCode n = 4 →
     s.dev.fwCheck ch n = none →
     d = s.dev.setFwCmd ch rest →
     ws = payloadWords (readPayload s.dram ch n) →
     d.updSt = 2 →
     d.twinRestarts = true →
     d.flag DBL.page DBL.DBL_CFG.ENABLE = true →
     e = d.fwReply ch n 0x0C [] →
       exec (.updActivate ch) s = .next (pump { s with dev := e.fwSkim ch (e.fwCmd ch) }))
  ∧ (∀ (s : State) (ch : Fin 32) (n : Data) (rest : List Data) (ws : List Nat) (d e : Dev) (i : Nat) (y : Dev),
     s.dev.fwCmd ch = n :: rest →
     s.dev.fwRuns = true →
     noticeFamily n = 15 →
     noticeCode n = 5 →
     s.dev.fwCheck ch n = none →
     d = s.dev.setFwCmd ch rest →
     ws = payloadWords (readPayload s.dram ch n) →
     d.flag SVC.page SVC.FW_STAT.TRIAL = true →
     d.upd.trial = true →
     i = d.get SVC.page SVC.FW_STAT.IMAGE - 1 →
     y = (match d.slotImage i with
        | some x => d.setSlotImage i (some { x with confirmed := true })
        | none => d) →
     e = (((({ y with upd := { y.upd with trial := false, confirmBy := none } } : Dev).setUpdSt 0).set SVC.page SVC.FW_STAT.TRIAL 0 |>.set
        SVC.page (failField i) 0).fwReply ch n 0 []) →
       exec (.updConfirm ch) s = .next (pump { s with dev := e.fwSkim ch (e.fwCmd ch) }))
  ∧ (∀ (s : State) (ch : Fin 32) (n : Data) (rest : List Data) (ws : List Nat) (d e : Dev),
     s.dev.fwCmd ch = n :: rest →
     s.dev.fwRuns = true →
     noticeFamily n = 15 →
     noticeCode n = 6 →
     s.dev.fwCheck ch n = none →
     d = s.dev.setFwCmd ch rest →
     ws = payloadWords (readPayload s.dram ch n) →
     d.updSt = 0 →
     e = d.fwReply ch n 0 [] →
       exec (.updAbort ch) s = .next (pump { s with dev := e.fwSkim ch (e.fwCmd ch) }))
  ∧ (∀ (s : State) (ch : Fin 32) (n : Data) (rest : List Data) (ws : List Nat) (d e : Dev),
     s.dev.fwCmd ch = n :: rest →
     s.dev.fwRuns = true →
     noticeFamily n = 15 →
     noticeCode n = 6 →
     s.dev.fwCheck ch n = none →
     d = s.dev.setFwCmd ch rest →
     ws = payloadWords (readPayload s.dram ch n) →
     d.updSt ≠ 0 →
     d.updSt ≠ 3 →
     e = (((({ d.setSlotImage d.updSlot none with upd := { d.upd with size := 0, data := [], staged := none } } : Dev).setUpdSt 0).set
        SVC.page SVC.UPD_STAT.RX_KIB 0).fwReply ch n 0 []) →
       exec (.updAbort ch) s = .next (pump { s with dev := e.fwSkim ch (e.fwCmd ch) }))
  ∧ (∀ (s : State) (ch : Fin 32) (n : Data) (rest : List Data) (ws : List Nat) (d e : Dev),
     s.dev.fwCmd ch = n :: rest →
     s.dev.fwRuns = true →
     noticeFamily n = 15 →
     noticeCode n = 7 →
     s.dev.fwCheck ch n = none →
     d = s.dev.setFwCmd ch rest →
     ws = payloadWords (readPayload s.dram ch n) →
     e = d.fwReply ch n 0 [(d.rd SVC.page SVC.UPD_STAT.STATE.off).toNat] →
       exec (.updState ch) s = .next (pump { s with dev := e.fwSkim ch (e.fwCmd ch) }))

/-- R325, R326, R351: a restart asked for, the cores halted, the services running again, and the two ways a trial ends.
R303: a placement period ends: the loads of cores and services are shown, and with AUTO each core is looked at in
turn. Where the rules leave a point open this rests on the model's choice in log entries 33, 34, 53. -/
def Obligations.ServiceRestartsAndPlacement : Prop :=
  (∀ (s : State) (acc : Accessor),
     MayWrite s.dev acc SVC.page →
     s.dev.fwRuns = true →
       exec (.svcRestart acc) s = .next { s with dev := ((s.dev.restartSame).fwPump s.dram).1, dram := ((s.dev.restartSame).fwPump s.dram).2 })
  ∧ (∀ (s : State) (d : Dev),
     s.dev.get SVC.page SVC.FW_STAT.STATE = 3 →
     s.dev.fwDown = false →
     d = (List.range 32).foldl (fun (d : Dev) ch => (d.mbxSet ch MBX.CH_STAT.FROMFW_WAIT 0).mbxMirror ch) s.dev →
       exec (.restartCoresHalted) s = .next { s with dev := (({ d with fwCmds := [], fwOut := [], fwDown := true } : Dev).txAbort 49).holdStart 49 false })
  ∧ (∀ (s : State),
     s.dev.released 6 = false →
       exec (.restartDone) s = .next { s with dev := ((s.dev).fwPump s.dram).1, dram := ((s.dev).fwPump s.dram).2 })
  ∧ (∀ (s : State),
     s.dev.released 6 = true →
     s.dev.get SVC.page SVC.FW_STAT.STATE = 1 →
       exec (.restartDone) s = .next { s with dev := ((s.dev.firstStart).fwPump s.dram).1, dram := ((s.dev.firstStart).fwPump s.dram).2 })
  ∧ (∀ (s : State),
     s.dev.released 6 = true →
     s.dev.get SVC.page SVC.FW_STAT.STATE = 3 →
     s.dev.fwDown = true →
       exec (.restartDone) s = .next { s with dev := ((s.dev.restartEnd).fwPump s.dram).1, dram := ((s.dev.restartEnd).fwPump s.dram).2 })
  ∧ (∀ (s : State),
     s.dev.due s.dev.upd.confirmBy = true →
     s.dev.upd.trial = true →
     s.dev.flag SVC.page SVC.FW_STAT.TRIAL = true →
     s.dev.fwRuns = true →
       exec (.trialConfirmTimeout) s = .next { s with dev := ((s.dev.rollback 6).fwPump s.dram).1, dram := ((s.dev.rollback 6).fwPump s.dram).2 })
  ∧ (∀ (s : State),
     s.dev.due s.dev.upd.startBy = true →
     s.dev.upd.trial = true →
     s.dev.get SVC.page SVC.FW_STAT.STATE = 3 →
       exec (.trialStartTimeout) s = .next { s with dev := ((s.dev.rollback 5).fwPump s.dram).1, dram := ((s.dev.rollback 5).fwPump s.dram).2 })
  ∧ (∀ (s : State) (cores services : List (BitVec 7)),
     s.dev.imageRuns = false →
       exec (.placementPeriod cores services) s = .next { s with dev := s.dev })
  ∧ (∀ (s : State) (cores services : List (BitVec 7)) (c : Nat → Nat) (d : Dev),
     s.dev.imageRuns = true →
     c = (fun i => (cores.getD i 0).toNat) →
     d = (List.range svcCount).foldl (fun (d : Dev) n => d.set SVC.page SVC.SVC_STAT.LOAD (services.getD n 0).toNat n)
        ((((s.dev.set SVC.page SVC.CORE_LOAD.SC0 (c 0)).set SVC.page SVC.CORE_LOAD.SC1 (c 1)).set SVC.page SVC.CORE_LOAD.SC2 (c 2)).set
          SVC.page SVC.CORE_LOAD.SC3 (c 3)) →
     d.flag SVC.page SVC.PLACE_CFG.AUTO = false →
       exec (.placementPeriod cores services) s = .next { s with dev := { d with hiRuns := [] } })
  ∧ (∀ (s : State) (cores services : List (BitVec 7)) (c : Nat → Nat) (d : Dev),
     s.dev.imageRuns = true →
     c = (fun i => (cores.getD i 0).toNat) →
     d = (List.range svcCount).foldl (fun (d : Dev) n => d.set SVC.page SVC.SVC_STAT.LOAD (services.getD n 0).toNat n)
        ((((s.dev.set SVC.page SVC.CORE_LOAD.SC0 (c 0)).set SVC.page SVC.CORE_LOAD.SC1 (c 1)).set SVC.page SVC.CORE_LOAD.SC2 (c 2)).set
          SVC.page SVC.CORE_LOAD.SC3 (c 3)) →
     d.flag SVC.page SVC.PLACE_CFG.AUTO = true →
       exec (.placementPeriod cores services) s = .next { s with dev := ([0, 1, 2, 3].foldl (fun (x : Dev × List Nat) i => x.1.placeCore x.2 i) (d, [c 0, c 1, c 2, c 3])).1 })

/-- R332 to R336: the doorbell hands descriptors over; a host descriptor's frame, one of firmware for a class, and one for
the management lane are taken; a frame goes to the host; coalescing; DMA errors; link and D3hot. Where the rules leave
a point open this rests on the model's choice in log entries 82, 115, 126, 143. -/
def Obligations.FrameRings : Prop :=
  (∀ (s : State) (acc : Accessor) (ring : Fin 16) (tail : BitVec 16),
     MayWrite s.dev acc PCI.page →
       Does (.ringDoorbell acc ring tail) s fun d =>
           d.get PCI.page (PCI.RING_DB.TAIL.nth ring) = tail.toNat ∧ OnlyPage PCI.page s.dev d ∧ Quiet s.dev d)
  ∧ (∀ (s : State) (ring : Fin 16) (t : Nat),
     (s.dev.ring ring).since = some t →
     s.dev.pageUp PCI.page = true →
     t + s.dev.get PCI.page PCI.RING_CFG.COAL_US ring * 1000 * nsU ≤ s.dev.now →
       exec (.coalesceTimer ring) s = .next { s with dev := s.dev.ringVector ring })
  ∧ (∀ (s : State) (ring : Fin 8) (w1 w2 : BitVec 64) (bytes : List (BitVec 8)) (errs : WordErrors),
     s.dev.ringRuns ring = false ∨ s.dev.ringOwned ring ≤ s.dev.txPending ring ∨ (s.dev.bpOf 48).testBit ring = true
        ∨ s.dev.released unitFelt = false →
       exec (.txDescriptorProcess (.ring ring) w1 w2 bytes errs) s = .next { s with dev := s.dev })
  ∧ (∀ (s : State) (ring : Fin 8) (w1 w2 : BitVec 64) (bytes : List (BitVec 8)) (errs : WordErrors) (st : Nat),
     s.dev.ringRuns ring = true →
     s.dev.txPending ring < s.dev.ringOwned ring →
     (s.dev.bpOf 48).testBit ring = false →
     s.dev.released unitFelt = true →
     s.dev.txDescBad ring w1 = some st →
       exec (.txDescriptorProcess (.ring ring) w1 w2 bytes errs) s = .next { s with dev := s.dev.txTake ring st w1 })
  ∧ (∀ (s : State) (ring : Fin 8) (w1 w2 : BitVec 64) (bytes : List (BitVec 8)) (errs : WordErrors) (n : Nat) (d : Dev),
     s.dev.ringRuns ring = true →
     s.dev.txPending ring < s.dev.ringOwned ring →
     (s.dev.bpOf 48).testBit ring = false →
     s.dev.released unitFelt = true →
     s.dev.txDescBad ring w1 = none →
     bytes.length = bitsOf w1 63 50 →
     n = s.dev.nextFrame →
     d = (s.dev.txPut ring (some n) 1 w1).txEnter 48 0x032 bytes (txReq ring w1 w2 (bitOf w1 45) (bitOf w1 46)) errs →
       exec (.txDescriptorProcess (.ring ring) w1 w2 bytes errs) s = .next { s with dev := ((if d.nextFrame = n then d.txNoFrame n else d).count (0xF60 + ring)).txSettle })
  ∧ (∀ (s : State) (cls : Fin 8) (w1 w2 : BitVec 64) (bytes : List (BitVec 8)) (errs : WordErrors),
     s.dev.fwRuns = true →
     s.dev.released 6 = true →
     s.dev.xing 54 = 0 →
     (s.dev.bpOf 49).testBit cls = false →
     s.dev.released unitFelt = true →
     bytes.length = bitsOf w1 63 50 →
       exec (.txDescriptorProcess (.firmware cls) w1 w2 bytes errs) s = .next { s with dev := s.dev.txEnter 49 0x034 bytes (txReq cls w1 w2 false (bitOf w1 46 && cls.val == 6)) errs })
  ∧ (∀ (s : State) (cls : Fin 8) (w1 w2 : BitVec 64) (bytes : List (BitVec 8)) (errs : WordErrors),
     (s.dev.bpOf 49).testBit cls = true →
       exec (.txDescriptorProcess (.firmware cls) w1 w2 bytes errs) s = .next { s with dev := s.dev })
  ∧ (∀ (s : State) (w1 w2 : BitVec 64) (bytes : List (BitVec 8)) (errs : WordErrors) (first stamp mode : Nat) (soft : Bool) (p : Parsed) (d : Dev) (x : List (BitVec 8) × Bool),
     s.dev.fwRuns = true →
     s.dev.released 6 = true →
     s.dev.laneState 50 = laneUp →
     bytes.length = bitsOf w1 63 50 →
     first = s.dev.now + 64 * nsU / rateGbit (s.dev.rateAct 50) →
     soft = s.dev.isSoft 50 →
     stamp = (if soft then softStamp first else s.dev.txStampAt 50 first) →
     mode = s.dev.get (LNK.page 50) LNK.LOOP_CFG.MODE →
     p = parseFrame mlProfile bytes true →
     d = (s.dev.countFrame 50 8 1 stamp).countFrame 50 9 (bytes.length + 4) stamp →
     x = (if bitOf w1 47 && d.flag (TSU.page 48) TSU.TSU_CFG.ONE_STEP_EN && p.ptp != 0 && decide (p.ptpType ≤ 3)
          then ptpOneStep bytes p.ptp p.ptpOfs stamp else (bytes, false)) →
       exec (.txDescriptorProcess .ml w1 w2 bytes errs) s = .next { s with dev := (let d := d.when x.2 (·.tcSkipOn 48 50)
       let d := d.when (bitOf w1 48 && decide (mode < 6)) (·.txfPush 48 (bitsOf w1 31 16) stamp soft d.untrace)
       let d := d.when (x.2 && decide (mode < 6)) (·.txfPush 48 (bitsOf w1 31 16) stamp soft d.untrace)
       if mode = 0 then d.emit (.frame 50 0 (x.1.length + 4) x.1 false stamp)
       else if mode ≤ 5 then d.free.2.mlArrive x.1 (some ⟨.good, 1⟩) (d.free.2.portStamp 50 ⟨0, BitVec.ofNat 16 d.free.1, 0⟩)
       else d) })
  ∧ (∀ (s : State) (descs : List (BitVec 64 × BitVec 64)) (errs : WordErrors),
     (s.dev.output 48).tx = none →
       exec (.rxFrameToHost descs errs) s = .next { s with dev := s.dev })
  ∧ (∀ (s : State) (descs : List (BitVec 64 × BitVec 64)) (errs : WordErrors) (t : Tx) (f : Frame) (ring : Nat) (parts : List (BitVec 64 × BitVec 64 × List (BitVec 8))),
     (s.dev.output 48).tx = some t →
     s.dev.frame t.frame = some f →
     ring = 8 + t.tc →
     f.ended = true →
     s.dev.ringRuns ring = true →
     splitFrame (s.dev.outBytes f 48 f.hdr) (descs.take (s.dev.ringOwned ring)) = some parts →
       exec (.rxFrameToHost descs errs) s = .next { s with dev := (let last := parts.length - 1
       let reason := match f.reasons.find? (fun x => x.2 == 48) with | some x => x.1 | none => 0
       let head := s.dev.ringHead ring
       let d := ((List.range parts.length).zip parts).foldl (fun (d : Dev) x =>
         let (i, w0, _, bs) := x
         let w1 := bs.length % 2 ^ 14 * 2 ^ 50 + (if i = last then 2 ^ 48 else 0) + (if i = 0 then 2 ^ 47 else 0)
           + f.input % 64 * 2 ^ 41 + reason % 16 * 2 ^ 37
         let w2 := if i = 0 then (stampWord f.stamp f.untrace f.src).toNat else 0
         let w3 := if i = 0 then (match f.handle with | some h => 2 ^ 14 + h % 2 ^ 14 | none => 0) else 0
         let d := d.emit (.hostMem w0.toNat bs)
         d.emit (.hostMem (d.ringBase ring + 32 * ((head + i) % d.ringSize ring) + 8)
           (bytesLE 8 w1 ++ bytesLE 8 w2 ++ bytesLE 8 w3))) s.dev
       ((d.count (0xF60 + ring)).ringAdvance ring parts.length).txDone 48 errs) })
  ∧ (∀ (s : State) (ring : Fin 16) (cause : Fin 4) (index : BitVec 16) (desc : Option (BitVec 64)) (d : Dev),
     s.dev.ringRuns ring = true →
     d = (match desc with
        | some w1 => if ring.val < 8 ∧ s.dev.txPending ring < s.dev.ringOwned ring then s.dev.txTake ring 4 w1 else s.dev
        | none => s.dev) →
       exec (.dmaError ring cause index desc) s = .next { s with dev := (let e := ((d.set PCI.page PCI.RING_STAT.ERR 1 ring).set PCI.page PCI.DMA_ERR.RING ring).set PCI.page PCI.DMA_ERR.CAUSE cause
       let e := e.set PCI.page PCI.DMA_ERR.INDEX index.toNat
       ((e.err PCI.page 0xA2 PCI.DMA_ERR.INDEX.off).raise PCI.page PCI.INT_RAW.RING_ERR).count 0xF70) })
  ∧ (∀ (s : State) (up : Bool) (speed width : BitVec 3) (d : Dev),
     s.dev.pageUp PCI.page = true →
     d = ((s.dev.setFlag PCI.page PCI.PCI_STAT.LINK_UP up).set PCI.page PCI.PCI_STAT.SPEED (if up then pcieSpeed speed.toNat else 0)).set
        PCI.page PCI.PCI_STAT.WIDTH (if up then pcieWidth width.toNat else 0) →
       exec (.pcieLinkChange up speed width) s = .next { s with dev := (if up then { d with pciD3 := [] } else d).raise PCI.page PCI.INT_RAW.LINK_CHG })
  ∧ (∀ (s : State) (fn : Fin 2) (hot : Bool),
     s.dev.pageUp PCI.page = true →
       exec (.d3hotEntry fn hot) s = .next { s with dev := { s.dev with pciD3 := tset (fun _ => false) s.dev.pciD3 fn hot } })

/-- R203, R338 to R344: trip flags clear where their level has ended, bad accesses count, a controller message; a template
is launched, refused, or taken from the queue into the device; the window of the templates. Where the rules leave a
point open this rests on the model's choice in log entries 24, 83, 129, 140. -/
def Obligations.CrownBus : Prop :=
  (∀ (s : State) (bits setting : BitVec 32),
     s.dev.crownOn = true →
       exec (.crownTripClear bits setting) s = .next { s with dev := (s.dev.wr CRN.page CRN.TRIP_FLAGS.FLAGS.off
         (s.dev.rd CRN.page CRN.TRIP_FLAGS.FLAGS.off &&& ~~~(bits &&& ~~~setting))) })
  ∧ (∀ (s : State),
     s.dev.crownOn = true →
       exec (.crownBadAccess) s = .next { s with dev := (s.dev.incSat CRN.page CRN.CRN_STAT.BAD_CNT).count 0xF82 })
  ∧ (∀ (s : State) (value : BitVec 32),
     s.dev.crownOn = true →
       Does (.ctlMsgWrite value) s fun d =>
           d.get CRN.page CRN.CTL_MSG.DATA = value.toNat ∧ d.get CRN.page CRN.INT_RAW.CTL_MSG = 1 ∧ OnlyPage CRN.page s.dev d ∧ Quiet s.dev d)
  ∧ (∀ (s : State) (tpl : Fin 64) (data : BitVec 32) (filter : Nat) (y : Dev),
     s.dev.crownOn = true →
     y = s.dev.seenWords .template tpl 34 →
     filter = bitsOf (y.template tpl 0) 53 40 →
     bitOf (y.template tpl 0) 63 = false ∨ y.tc7Filter filter = false →
       exec (.templateLaunch tpl data) s = .next { s with dev := y.launchRefused tpl 1 })
  ∧ (∀ (s : State) (tpl : Fin 64) (data : BitVec 32) (filter : Nat) (y : Dev),
     s.dev.crownOn = true →
     y = s.dev.seenWords .template tpl 34 →
     filter = bitsOf (y.template tpl 0) 53 40 →
     bitOf (y.template tpl 0) 63 = true →
     y.tc7Filter filter = true →
     16 ≤ y.crown.launches.length ∨ y.xing 55 ≠ 0 →
       exec (.templateLaunch tpl data) s = .next { s with dev := y.launchRefused tpl 2 })
  ∧ (∀ (s : State) (tpl : Fin 64) (data : BitVec 32) (filter : Nat) (y : Dev) (l : Launch) (d e : Dev),
     s.dev.crownOn = true →
     y = s.dev.seenWords .template tpl 34 →
     filter = bitsOf (y.template tpl 0) 53 40 →
     bitOf (y.template tpl 0) 63 = true →
     y.tc7Filter filter = true →
     y.crown.launches.length < 16 →
     y.xing 55 = 0 →
     l = ⟨y.templateBytes tpl data, filter, bitsOf (y.template tpl 1) 47 0, softStamp y.now, y.untrace⟩ →
     d = y.setCrown (fun c => { c with launches := c.launches ++ [l] }) →
     e = d.setCrown (fun c => { c with accepted := (c.accepted + 1) % 65536, last := tpl }) →
       exec (.templateLaunch tpl data) s = .next { s with dev := (e.incWrap CRN.page CRN.LAUNCH_STAT.ACCEPTED).count 0xF80 })
  ∧ (∀ (s : State) (errs : WordErrors),
     s.dev.crown.launches = [] ∨ s.dev.xing 55 ≠ 0 ∨ s.dev.released unitFelt = false →
       exec (.templateLaunchDequeue errs) s = .next { s with dev := s.dev })
  ∧ (∀ (s : State) (errs : WordErrors) (l : Launch) (rest : List Launch) (d e : Dev) (c : Ctx),
     s.dev.crown.launches = l :: rest →
     s.dev.xing 55 = 0 →
     s.dev.released unitFelt = true →
     d = (s.dev.setCrown (fun c => { c with launches := rest })).wordErrors errs →
     errs.bad = false →
     stepMeter d (d.launchCtx l) = .drop e c →
       exec (.templateLaunchDequeue errs) s = .next { s with dev := e.setCrown (fun c => { c with cause := 3 }) })
  ∧ (∀ (s : State) (errs : WordErrors) (l : Launch) (rest : List Launch) (d e : Dev) (c : Ctx),
     s.dev.crown.launches = l :: rest →
     s.dev.xing 55 = 0 →
     s.dev.released unitFelt = true →
     d = (s.dev.setCrown (fun c => { c with launches := rest })).wordErrors errs →
     errs.bad = false →
     stepMeter d (d.launchCtx l) = .go e c →
       exec (.templateLaunchDequeue errs) s = .next { s with dev := (match stepTc7 e c with
       | .drop d _ => d
       | .go d c =>
         if c.dests.isEmpty then d.count 0x677 else
         let f := d.newFrame c l.bytes ⟨l.stamp, 0x031, false, l.untrace⟩ [] none false
         let n := d.nextFrame
         let d : Dev := { d.setFrame n (some f) with nextFrame := n + 1 }
         let d := c.dests.foldl (fun d e => if e < 48 then d.wake e else d) d
         d.allocate n) })
  ∧ (∀ (s : State) (errs : WordErrors) (l : Launch) (rest : List Launch),
     s.dev.crown.launches = l :: rest →
     s.dev.xing 55 = 0 →
     s.dev.released unitFelt = true →
     errs.bad = true →
       exec (.templateLaunchDequeue errs) s = .next { s with dev := (s.dev.setCrown (fun c => { c with launches := rest })).wordErrors errs })
  ∧ (∀ (s : State) (acc : Accessor),
     Reach s.dev CRN.page →
     winWord s.dev crnWin acc ≤ 33 →
       exec (.crnReadLive acc) s = .next { s with dev := s.dev.winCapture crnWin acc ((List.range 34).map (fun w => s.dev.stored .template (winIndex s.dev crnWin acc) w)) })
  ∧ (∀ (s : State) (acc : Accessor),
     Reach s.dev CRN.page →
     winWord s.dev crnWin acc ≤ 33 →
       exec (.crnReadShadow acc) s = .next { s with dev := s.dev.winCapture crnWin acc ((List.range 34).map (fun w => encodeNative (s.dev.templateShadow (winIndex s.dev crnWin acc) w))) })
  ∧ (∀ (s : State) (acc : Accessor) (t w : Nat) (v : Data),
     MayWrite s.dev acc CRN.page →
     t = winIndex s.dev crnWin acc →
     w = winWord s.dev crnWin acc →
     v = winData s.dev crnWin acc &&& tableMask .template w →
     w ≤ 33 →
     (w = 0 → templateBad v = false) →
       exec (.crnWriteShadow acc) s = .next { s with dev := (({ s.dev with
           tabShadow := tset (fun _ => s.dev.template t w) s.dev.tabShadow (tkey .template t w) v } : Dev).winResult crnWin acc 0) })
  ∧ (∀ (s : State) (acc : Accessor),
     MayWrite s.dev acc CRN.page →
     33 < winWord s.dev crnWin acc
        ∨ (winWord s.dev crnWin acc = 0 ∧ templateBad (winData s.dev crnWin acc &&& tableMask .template (winWord s.dev crnWin acc)) = true) →
       exec (.crnWriteShadow acc) s = .next { s with dev := s.dev.winResult crnWin acc 4 })
  ∧ (∀ (s : State) (acc : Accessor),
     MayWrite s.dev acc CRN.page →
       exec (.crnPublish acc) s = .next { s with dev := (s.dev.publish (winIndex s.dev crnWin acc)).winResult crnWin acc 0 })

/-- R358 to R361: a power state is asked for by a COMMIT of the GLB page, which enters it or refuses it. R360, R361, R407:
KEEP is entered, each wake trigger leaves it, and the supplies removed in it come back or do not. Where the rules
leave a point open this rests on the model's choice in log entries 42, 86, 87. -/
def Obligations.PowerStatesAndWake : Prop :=
  (∀ (s : State) (acc : Accessor) (cfg : BitVec 32) (d : Dev),
     MayWrite s.dev acc GLB.page →
     d = s.dev.wrShadow .glb GLB.page GLB.PWR_CFG.TARGET.off 0 (setBits cfg GLB.PWR_CFG.TARGET.lo GLB.PWR_CFG.TARGET.wd pwrDoze) →
       exec (.dozeEntry acc cfg) s = .next { s with dev := d.commitGlb })
  ∧ (∀ (s : State) (acc : Accessor) (cfg : BitVec 32) (d : Dev),
     MayWrite s.dev acc GLB.page →
     d = s.dev.wrShadow .glb GLB.page GLB.PWR_CFG.TARGET.off 0 (setBits cfg GLB.PWR_CFG.TARGET.lo GLB.PWR_CFG.TARGET.wd pwrRun) →
       exec (.dozeExit acc cfg) s = .next { s with dev := d.commitGlb })
  ∧ (∀ (s : State) (acc : Accessor) (cfg : BitVec 32) (d : Dev),
     MayWrite s.dev acc GLB.page →
     d = s.dev.wrShadow .glb GLB.page GLB.PWR_CFG.TARGET.off 0 (setBits cfg GLB.PWR_CFG.TARGET.lo GLB.PWR_CFG.TARGET.wd pwrKeep) →
       exec (.keepEntry acc cfg) s = .next { s with dev := d.commitGlb })
  ∧ (∀ (s : State) (x : Dev × List Host.Cell) (d : Dev),
     s.dev.flag GLB.page GLB.PWR_STAT.CHANGING = true →
     x = s.dev.flushFirst false s.dram →
     d = (x.1.islandsReset.set DRM.page DRM.DRM_STAT.SELF_REFRESH 1).set GLB.page GLB.PWR_STAT.CHANGING 0 →
       exec (.keepIslandsReset) s = .next { s with dev := (((d.set GLB.page GLB.PWR_STAT.STATE pwrKeep).raise GLB.page GLB.INT_RAW.STATE_CHG).emit (.pin "PWR_KEEP_OUT" true)), dram := x.2 })
  ∧ (∀ (s : State) (x : Dev × List Host.Cell),
     s.dev.keeps = true →
     s.dev.flag GLB.page GLB.PWR_CFG.WAKE_N_EN = true →
     x = Dev.wakeUp 2 s.dev s.dram →
       exec (.wakeNLow) s = .next { s with dev := x.1, dram := x.2 })
  ∧ (∀ (s : State) (x : Dev × List Host.Cell),
     s.dev.keeps = true →
     s.dev.flag GLB.page GLB.PWR_CFG.WAKE_TIME_EN = true →
     s.dev.wakeCome = true →
     x = Dev.wakeUp 3 s.dev s.dram →
       exec (.wakeTimeReached) s = .next { s with dev := x.1, dram := x.2 })
  ∧ (∀ (s : State),
     s.dev.keeps = false ∨ s.dev.flag GLB.page GLB.PWR_CFG.WAKE_TIME_EN = false ∨ s.dev.wakeCome = false →
       exec (.wakeTimeReached) s = .next { s with dev := s.dev, dram := s.dram })
  ∧ (∀ (s : State),
     s.dev.keeps = false ∨ s.dev.flag GLB.page GLB.PWR_CFG.WAKE_N_EN = false →
       exec (.wakeNLow) s = .next { s with dev := s.dev, dram := s.dram })
  ∧ (∀ (s : State) (d : Dev) (x : Dev × List Host.Cell),
     s.dev.keeps = true →
     d = { s.dev with pinPerstN := true } →
     x = Dev.wakeUp 4 d s.dram →
       exec (.perstNRise) s = .next { s with dev := x.1, dram := x.2 })
  ∧ (∀ (s : State),
     s.dev.keeps = false →
       exec (.perstNRise) s = .next { s with dev := { s.dev with pinPerstN := true }, dram := s.dram })
  ∧ (∀ (s : State),
       exec (.keepSupplyRestored) s = .next { s with dev := { s.dev with seqr := { s.dev.seqr with supplies := false } } })
  ∧ (∀ (s : State),
     s.dev.seqr.supplies = false →
       exec .keepSupplyTimeout s = .next { s with dev := s.dev })
  ∧ (∀ (s : State) (code : Nat),
     s.dev.seqr.supplies = true →
     code = (if s.dev.waitsT0 then min 2 (s.dev.get RST.page RST.RST_CAUSE.CAUSE) else 2) →
       exec .keepSupplyTimeout s = .next { s with dev := s.dev.coldReset code, dram := [] })

/-- R246, R247, R354 to R357, R365: the option store is loaded, a write is started and ends, a model is fitted. Where the
rules leave a point open this rests on the model's choice in log entries 93, 94, 108. -/
def Obligations.OptionStore : Prop :=
  (∀ (s : State) (badA badB : Bool) (d : Dev),
     s.dev.flag OPT.page OPT.OPT_STAT.LOADING = true →
     d = (s.dev.optLoad badA badB).seqStep 2 →
     d.seqr.cls = 3 →
       exec (.optionLoadDone badA badB) s = .next { s with dev := d.applyRecs GLB.page })
  ∧ (∀ (s : State) (badA badB : Bool) (d : Dev),
     s.dev.flag OPT.page OPT.OPT_STAT.LOADING = true →
     d = (s.dev.optLoad badA badB).seqStep 2 →
     d.seqr.cls ≠ 3 →
       exec (.optionLoadDone badA badB) s = .next { s with dev := d })
  ∧ (∀ (s : State) (acc : Accessor),
     MayWrite s.dev acc OPT.page →
       exec (.optWrite acc) s = .next { s with dev := s.dev.optWriteCmd s.dram, dram := s.dram })
  ∧ (∀ (s : State) (w : OptWrite) (d : Dev),
     s.dev.optWrite = some w →
     d = ((({ s.dev with optWrite := none } : Dev).set OPT.page OPT.OPT_STAT.WRITING 0).set OPT.page OPT.OPT_CMD.BUSY 0).setOptImage w.target ⟨true, false, w.gen, w.body⟩ →
       exec (.optWriteDone true) s = .next { s with dev := ((d.set OPT.page OPT.OPT_STAT.LAST_WRITE 1).set OPT.page (if w.target = 0 then OPT.GEN_A.GEN else OPT.GEN_B.GEN) w.gen).raise OPT.page OPT.INT_RAW.WRITE_DONE })
  ∧ (∀ (s : State) (w : OptWrite) (d : Dev),
     s.dev.optWrite = some w →
     d = (({ s.dev with optWrite := none } : Dev).set OPT.page OPT.OPT_STAT.WRITING 0).set OPT.page OPT.OPT_CMD.BUSY 0 →
       exec (.optWriteDone false) s = .next { s with dev := ((d.set OPT.page OPT.OPT_STAT.LAST_WRITE 2).err OPT.page 0xC9 OPT.OPT_CMD.WRITE.off).raise OPT.page OPT.INT_RAW.WRITE_FAIL })
  ∧ (∀ (s : State) (m : HoSet) (span : Nat) (d : Dev),
     s.dev.imageRuns = true →
     s.dev.refState = refLocked →
     s.dev.learn ≠ [] →
     s.dev.fitModel = (m, span) →
     d = { s.dev with hoNext := some m, hoFit := (m.residual, span), learn := [] } →
       exec (.modelFit) s = .next { s with dev := if s.dev.modelWorth m.residual then d.storeModel else d })
  ∧ (∀ (s : State),
     s.dev.imageRuns = false ∨ s.dev.refState ≠ refLocked ∨ s.dev.learn = [] →
       exec (.modelFit) s = .next { s with dev := s.dev })

/-- R348 to R353, R72, R214: a clock becomes good, XO_IN is absent, DRAM trains or fails, the pace check passes or is
tried again. R351, R352: each island leaves reset when the rows before it and its clock allow it, and restores its
pages. Where the rules leave a point open this rests on the model's choice in log entries 90, 92, 97, 146, 147. -/
def Obligations.ReleaseSequence : Prop :=
  (∀ (s : State) (what : Fin 7) (d : Dev),
     (what : Nat) ≠ 0 →
     (∀ i < 56, goodBit i = what → s.dev.flag FAB.page FAB.XING_STAT.CLK_STOP i = false) →
     d = s.dev.set RST.page RST.CLK_GOOD.GOOD (putBit (s.dev.get RST.page RST.CLK_GOOD.GOOD) what true) →
       exec (.islandClockGood what) s = .next { s with dev := d })
  ∧ (∀ (s : State) (what : Fin 7) (d : Dev),
     d = s.dev.set RST.page RST.CLK_GOOD.GOOD (putBit (s.dev.get RST.page RST.CLK_GOOD.GOOD) what true) →
       exec (.islandClockGood what) s = .next { (List.range 56).foldl (fun (t : State) i =>
         if goodBit i = what ∧ t.dev.flag FAB.page FAB.XING_STAT.CLK_STOP i then clockBack i 0 t else t)
         { s with dev := if (what : Nat) = 0 then d.xoBack else d } with pending := s.pending })
  ∧ (∀ (s : State),
     s.dev.seqr.cls ≠ 0 →
     s.dev.waitsT0 = false →
     s.dev.xoOk = false →
       Does (.xoAbsentTimeout) s fun d =>
           d.get TMB.page TMB.TMB_STAT.BACKUP = 1 ∧ d.get RST.page RST.SEQ_STAT.XO_ABSENT = 1 ∧ Quiet s.dev d)
  ∧ (∀ (s : State) (rate : BitVec 16) (attempts : Fin 4) (d e : Dev),
     s.dev.released 53 = true →
     s.dev.flag DRM.page DRM.DRM_STAT.TRAINED = false →
     s.dev.flag RST.page RST.SEQ_STAT.DRAM_FAIL = false →
     d = ((s.dev.set DRM.page DRM.DRM_STAT.TRAINED 1).set DRM.page DRM.DRM_STAT.RATE_MTS rate.toNat).set DRM.page DRM.DRM_STAT.TRAIN_TRY attempts →
     e = (if d.released 5 then d.set PCI.page PCI.PCI_STAT.W2_READY 1 else d) →
       exec (.dramTrainingDone rate attempts) s = .next { s with dev := ((imagePages.foldl (fun (d : Dev) p =>
         if d.flag p COM.STAT.IMAGE_VOID then d.set p COM.STAT.IMAGE_VOID 0 else d) e).seqStep 4) })
  ∧ (∀ (s : State),
     s.dev.released 53 = true →
     s.dev.flag DRM.page DRM.DRM_STAT.TRAINED = false →
       exec (.dramTrainingFail) s = .next { s with dev := (s.dev.set DRM.page DRM.DRM_STAT.TRAIN_TRY 3).set RST.page RST.SEQ_STAT.DRAM_FAIL 1 })
  ∧ (∀ (s : State) (crcFail : List (BitVec 16)) (n : Nat) (d : Dev),
     s.dev.feltReady = true →
     n = s.dev.get RST.page RST.SEQ_STAT.PACE_TRY + 1 →
     d = (if n = 1 then s.dev.loopStart else s.dev).set RST.page RST.SEQ_STAT.PACE_TRY (min n 3) →
     d.pace.good = 100 →
       exec (.paceCheckAttempt crcFail) s = .next { s with dev := d.startFelt crcFail })
  ∧ (∀ (s : State) (crcFail : List (BitVec 16)) (n : Nat) (d : Dev),
     s.dev.feltReady = true →
     n = s.dev.get RST.page RST.SEQ_STAT.PACE_TRY + 1 →
     d = (if n = 1 then s.dev.loopStart else s.dev).set RST.page RST.SEQ_STAT.PACE_TRY (min n 3) →
     d.pace.good ≠ 100 →
       exec (.paceCheckAttempt crcFail) s = .next { s with dev := (if n < 3 then ({ d with pace := { d.pace with good := 0 } } : Dev).raise RST.page RST.INT_RAW.SEQ_RETRY
       else ({ d with pace := { d.pace with good := 0 } } : Dev).set RST.page RST.SEQ_STAT.PACE_FAIL 1) })
  ∧ (∀ (s : State) (unit : Fin 128) (crcFail : List (BitVec 16)) (strapB : Bool),
     s.dev.released unit = true →
       exec (.islandRelease unit crcFail strapB) s = .next { s with dev := s.dev })
  ∧ (∀ (s : State) (crcFail : List (BitVec 16)) (strapB : Bool),
     s.dev.released 1 = false →
     s.dev.mayRelease = true →
     s.dev.pwrState ≠ pwrKeep →
     s.dev.xoOk = true ∨ s.dev.flag TMB.page TMB.TMB_STAT.BACKUP = true ∨ s.dev.clockGood 0 = true →
       exec (.islandRelease 1 crcFail strapB) s = .next { s with dev := s.dev.startKeepAlive })
  ∧ (∀ (s : State) (crcFail : List (BitVec 16)) (strapB : Bool),
     s.dev.released 53 = false →
     s.dev.seqr.cls ≠ 0 →
     s.dev.released 1 = true →
     s.dev.clockGood 4 = true →
       exec (.islandRelease 53 crcFail strapB) s = .next { s with dev := ((s.dev.set DRM.page DRM.DRM_STAT.SELF_REFRESH 0).releaseUnit 53).forcedHold 4 53 })
  ∧ (∀ (s : State) (crcFail : List (BitVec 16)) (strapB : Bool),
     s.dev.released 2 = false →
     s.dev.mayRelease = true →
     s.dev.pwrState ≠ pwrKeep →
     s.dev.released 1 = true →
     s.dev.clockGood 2 = true →
       exec (.islandRelease 2 crcFail strapB) s = .next { s with dev := (s.dev.startTimeBase crcFail strapB).forcedHold 2 51 })
  ∧ (∀ (s : State) (crcFail : List (BitVec 16)) (strapB : Bool),
     s.dev.released 5 = false →
     s.dev.mayRelease = true →
     s.dev.pwrState ≠ pwrKeep →
     s.dev.clockGood 3 = true →
     s.dev.pinPerstN = true →
       exec (.islandRelease 5 crcFail strapB) s = .next { s with dev := (s.dev.startPcie crcFail).forcedHold 3 52 })
  ∧ (∀ (s : State) (crcFail : List (BitVec 16)) (strapB : Bool),
     s.dev.released 7 = false →
     s.dev.released unitFelt = true →
     s.dev.clockGood 6 = true →
       exec (.islandRelease 7 crcFail strapB) s = .next { s with dev := (((s.dev.releaseUnit 7).restorePages 7 crcFail).seqStep 6).forcedHold 6 55 })
  ∧ (∀ (s : State) (crcFail : List (BitVec 16)) (strapB : Bool),
     s.dev.released 6 = false →
     s.dev.released unitFelt = true →
     s.dev.seqr.cls ≠ 0 →
     s.dev.clockGood 5 = true →
       exec (.islandRelease 6 crcFail strapB) s = .next { s with dev := (s.dev.startCores crcFail).forcedHold 5 54 })
  ∧ (∀ (s : State) (unit : Fin 128) (crcFail : List (BitVec 16)) (strapB : Bool) (lane : Nat),
     (unit : Nat) = 64 + lane →
     lane < 51 →
     s.dev.released unit = false →
     s.dev.released unitFelt = true →
     s.dev.clockGood 1 = true →
       exec (.islandRelease unit crcFail strapB) s = .next { s with dev := (s.dev.startLane lane crcFail).forcedHold 1 lane })

/-- R367, R368, R371, R373, R374, R375: a counter is read and counted by software; a freeze is armed, taken and collected;
a sampler fires. Where the rules leave a point open this rests on the model's choice in log entries 42, 79, 124, 127,
153. -/
def Obligations.TallyCounters : Prop :=
  (∀ (s : State) (acc : Accessor) (n : Nat) (d : Dev),
     s.dev.pageUp TAL.page = true →
     n = s.dev.countShown (s.dev.get TAL.page TAL.CNT_SEL.INDEX acc.idx) →
     d = s.dev.set TAL.page TAL.CNT_HI.COUNT_HI (n / 2 ^ 32) acc.idx →
       exec (.cntLoRead acc) s = .next { s with dev := d.emit (.reply "read" [n % 2 ^ 32]) })
  ∧ (∀ (s : State) (acc : Accessor),
     s.dev.pageUp TAL.page = false →
       exec (.cntLoRead acc) s = .next { s with dev := (s.dev.accessInReset TAL.page).emit (.reply "read" [0xFFFFFFFF]) })
  ∧ (∀ (s : State) (acc : Accessor) (value : BitVec 32) (i : Nat),
     s.dev.pageUp TAL.page = true →
     acc.isFw = true →
     i = getBits value TAL.SW_INC.INDEX.lo TAL.SW_INC.INDEX.wd →
     0xE00 ≤ i →
     i ≤ 0xEFF →
       Does (.swInc acc value) s fun d =>
           d.counter i = (s.dev.counter i + getBits value TAL.SW_INC.AMOUNT.lo TAL.SW_INC.AMOUNT.wd) % 2 ^ 48
             ∧ (∀ j, j ≠ i → d.counter j = s.dev.counter j) ∧ d.regs = s.dev.regs)
  ∧ (∀ (s : State) (acc : Accessor) (value : BitVec 32),
     s.dev.pageUp TAL.page = true →
     acc.isFw = false →
       exec (.swInc acc value) s = .next { s with dev := s.dev.refuseWrite TAL.page TAL.SW_INC.INDEX.off })
  ∧ (∀ (s : State) (t : Nat),
     s.dev.freezeAt = some t →
     s.dev.collecting = false →
     t ≤ s.dev.now →
       exec (.freezeInstant) s = .next { s with dev := s.dev.freeze t })
  ∧ (∀ (s : State) (t : Nat) (d : Dev),
     s.dev.freezeAt = some t →
     s.dev.collecting = true →
     t + 10000 * nsU ≤ s.dev.now →
     d = ({ s.dev with collecting := false, freezeAt := none, snapHeld := false } : Dev).set TAL.page TAL.SNAP_STAT.VALID 1 →
       exec (.snapCollectDone) s = .next { s with dev := (((((d.incWrap TAL.page TAL.SNAP_STAT.SEQ).set TAL.page TAL.SNAP_SEC.SEC (secOf t)).set TAL.page TAL.SNAP_NS.NS (nsOf t)).setFlag
         TAL.page TAL.SNAP_STAT.INCOMPLETE s.dev.snapHeld).raise TAL.page TAL.INT_RAW.SNAP_DONE) })
  ∧ (∀ (s : State) (acc : Accessor) (timed : Bool) (sec : BitVec 32) (ns : BitVec 30) (d : Dev),
     MayWrite s.dev acc TAL.page →
     d = [(TAL.FRZ_CFG.ARM.off, frzCfg true timed false), (TAL.FRZ_SEC.SEC.off, sec),
        (TAL.FRZ_NS.NS.off, ns.setWidth 32)].foldl (fun d w => d.wrShadow .tal TAL.page w.1 0 w.2) s.dev →
     d.talRules.find? (·.1) = none →
       exec (.freezeArm acc timed sec ns) s = .next { s with dev := Dev.talEffect d (d.acceptCommit TAL.page) })
  ∧ (∀ (s : State) (acc : Accessor) (timed : Bool) (sec : BitVec 32) (ns : BitVec 30) (d : Dev) (code off : Nat),
     MayWrite s.dev acc TAL.page →
     d = [(TAL.FRZ_CFG.ARM.off, frzCfg true timed false), (TAL.FRZ_SEC.SEC.off, sec),
        (TAL.FRZ_NS.NS.off, ns.setWidth 32)].foldl (fun d w => d.wrShadow .tal TAL.page w.1 0 w.2) s.dev →
     d.talRules.find? (·.1) = some (true, code, off) →
       exec (.freezeArm acc timed sec ns) s = .next { s with dev := d.rejectCommit TAL.page code off })
  ∧ (∀ (s : State) (acc : Accessor) (d : Dev),
     MayWrite s.dev acc TAL.page →
     d = [(TAL.FRZ_CFG.ARM.off, frzCfg false (s.dev.flag TAL.page TAL.FRZ_CFG.TIMED) true)].foldl (fun d w => d.wrShadow .tal TAL.page w.1 0 w.2) s.dev →
     d.talRules.find? (·.1) = none →
       exec (.freezeCancel acc) s = .next { s with dev := Dev.talEffect d (d.acceptCommit TAL.page) })
  ∧ (∀ (s : State) (acc : Accessor) (d : Dev) (code off : Nat),
     MayWrite s.dev acc TAL.page →
     d = [(TAL.FRZ_CFG.ARM.off, frzCfg false (s.dev.flag TAL.page TAL.FRZ_CFG.TIMED) true)].foldl (fun d w => d.wrShadow .tal TAL.page w.1 0 w.2) s.dev →
     d.talRules.find? (·.1) = some (true, code, off) →
       exec (.freezeCancel acc) s = .next { s with dev := d.rejectCommit TAL.page code off })
  ∧ (∀ (s : State) (smp : Fin 4) (taken : Bool) (n c : Nat) (d : Dev),
     n = s.dev.get TAL.page TAL.SMP_PERIOD.N smp →
     c = tget (fun _ => 0) s.dev.smpCount smp →
     d = (if taken then s.dev.set TAL.page TAL.SMP_STAT.PENDING 0 smp else s.dev) →
     d.pageUp TAL.page = true →
     d.flag TAL.page TAL.SMP_CFG.EN smp = true →
     n ≤ c ∨ coreCounter (d.get TAL.page TAL.SMP_CFG.INDEX smp) = true →
       exec (.samplerFire smp taken) s = .next { s with dev := (let e : Dev := { d with smpCount := tset (fun _ => 0) d.smpCount smp (c - n) }
       if e.flag TAL.page TAL.SMP_STAT.PENDING smp then
         (e.incSat TAL.page TAL.SMP_STAT.MISSED smp).raise TAL.page TAL.INT_RAW.SMP_MISS
       else (e.set TAL.page TAL.SMP_STAT.PENDING 1 smp).emit (.coreInt (e.get TAL.page TAL.SMP_CFG.CORE smp) "sample")) })
  ∧ (∀ (s : State) (smp : Fin 4) (taken : Bool) (d : Dev),
     d = (if taken then s.dev.set TAL.page TAL.SMP_STAT.PENDING 0 smp else s.dev) →
     d.pageUp TAL.page = false ∨ d.flag TAL.page TAL.SMP_CFG.EN smp = false ∨ (tget (fun _ => 0) s.dev.smpCount smp < s.dev.get TAL.page TAL.SMP_PERIOD.N smp ∧ coreCounter (d.get TAL.page TAL.SMP_CFG.INDEX smp) = false) →
       exec (.samplerFire smp taken) s = .next { s with dev := d })

/-- R379, R381, R382, R387, R389: a held record reaches DRAM, the ring is cleared, the DRAM test starts, is aborted and
ends. Where the rules leave a point open this rests on the model's choice in log entries 26, 27, 78, 79. -/
def Obligations.RecorderAndTests : Prop :=
  (∀ (s : State),
     nextRecord s.dev.logHeld = none →
       exec (.recordWrite) s = .next { s with dev := s.dev, dram := s.dram })
  ∧ (∀ (s : State) (r : LogRec) (d : Dev) (m : List Host.Cell),
     nextRecord s.dev.logHeld = some r →
     s.dev.released unitFelt = true →
     s.dev.flag LOG.page LOG.LOG_STAT.DRAM_OK = true →
     r.late = true ∨ r.time + 8000 * nsU ≤ s.dev.now →
     ({ s.dev with logHeld := s.dev.logHeld.erase r } : Dev).logWrite s.dram r = (d, m) →
       exec (.recordWrite) s = .next { s with dev := d, dram := m })
  ∧ (∀ (s : State) (acc : Accessor),
     MayWrite s.dev acc LOG.page →
       exec (.logClear acc) s = .next { s with dev := s.dev.logClear, dram := memZero s.dram logBase (16 * s.dev.logSlots) })
  ∧ (∀ (s : State) (acc : Accessor),
     MayWrite s.dev acc DRM.page →
     s.dev.testRefused = false →
       exec (.dramTestStart acc) s = .next { s with dev := s.dev.testStart, dram := if s.dev.flag DRM.page DRM.TEST_CFG.FULL then memZero s.dram 0 0x200000000 else memZero s.dram 0x1C0000000 0x40000000 })
  ∧ (∀ (s : State) (acc : Accessor),
     MayWrite s.dev acc DRM.page →
     s.dev.testRefused = true →
       exec (.dramTestStart acc) s = .next { s with dev := s.dev.testStart, dram := s.dram })
  ∧ (∀ (s : State) (acc : Accessor),
     MayWrite s.dev acc DRM.page →
       exec (.dramTestAbort acc) s = .next { s with dev := s.dev.testAbort })
  ∧ (∀ (s : State) (errors : BitVec 32) (first : BitVec 27) (d : Dev),
     s.dev.dramTest = true →
     d = ((({ s.dev with dramTest := false } : Dev).set DRM.page DRM.TEST_STAT.BUSY 0).setFlag DRM.page DRM.TEST_STAT.PASS (errors == 0)).setFlag
        DRM.page DRM.TEST_STAT.FAIL (errors != 0) →
       exec (.dramTestDone errors first) s = .next { s with dev := (let e := d.set DRM.page DRM.TEST_STAT.ERR_CNT (min errors.toNat 65535)
       (if errors = 0 then e else e.set DRM.page DRM.TEST_ERR.LINE first.toNat).raise DRM.page DRM.INT_RAW.TEST_DONE) })
  ∧ (∀ (s : State),
     s.dev.testMode = true →
       exec (.mbistRun) s = .next { s with dev := s.dev.emit (.reply "jtag" [0]) })

/-- R383 to R386: each operation's reply to a request that is not a repeat, and a repeat. Where the rules leave a point
open this rests on the model's choice in log entry 40. -/
def Obligations.EpashRequests : Prop :=
  (∀ (s : State) (req : EpashReq),
     s.dev.epashOn = true →
     req.version = 1 →
     s.dev.epashOld 1 req = none →
     req.body.length = 0 →
     req.length.toNat = 0 →
       exec (.epashIdent req) s = .next { s with dev := (Dev.epashAnswer 1 req 0 (wordsBE [(s.dev.readReg .firmware GLB.page GLB.GLB_ID.PART.off), (s.dev.readReg .firmware SVC.page SVC.FW_VER.MAJOR.off),
         (s.dev.readReg .firmware SVC.page SVC.FW_STAT.IMAGE.off), (s.dev.readReg .firmware DBL.page DBL.DBL_STAT.OWNER.off)] ++ bytesBE 6 (secOf s.dev.now)
           ++ bytesBE 4 (nsOf s.dev.now) ++ bytesBE 2 (fracOf s.dev.now)) s.dev) })
  ∧ (∀ (s : State) (req : EpashReq) (page off n : Nat) (x : List Word × Dev),
     s.dev.epashOn = true →
     req.version = 1 →
     s.dev.epashOld 2 req = none →
     req.body.length = 6 →
     req.length.toNat = 6 →
     page = reqNum req.body 0 2 →
     off = reqNum req.body 2 2 →
     n = reqNum req.body 4 2 →
     0 < n →
     n ≤ 256 →
     off % 4 = 0 →
     off + 4 * n ≤ 4096 →
     (∀ t i, pageOf page = some (t, i) → t ≠ .mbx ∧ t ≠ .sec ∧ t ≠ .opt) →
     s.dev.pageHeld page = false →
     x = s.dev.readMany page off n →
       exec (.epashRead req) s = .next { s with dev := Dev.epashAnswer 2 req 0 (wordsBE x.1) x.2 })
  ∧ (∀ (s : State) (req : EpashReq) (page off n i : Nat) (t : PageType),
     s.dev.epashOn = true →
     req.version = 1 →
     s.dev.epashOld 2 req = none →
     req.body.length = 6 →
     req.length.toNat = 6 →
     page = reqNum req.body 0 2 →
     off = reqNum req.body 2 2 →
     n = reqNum req.body 4 2 →
     0 < n →
     n ≤ 256 →
     off % 4 = 0 →
     off + 4 * n ≤ 4096 →
     pageOf page = some (t, i) →
     t = .mbx ∨ t = .sec ∨ t = .opt →
       exec (.epashRead req) s = .next { s with dev := Dev.epashAnswer 2 req 3 [] s.dev })
  ∧ (∀ (s : State) (req : EpashReq) (first n : Nat),
     s.dev.epashOn = true →
     req.version = 1 →
     s.dev.epashOld 3 req = none →
     req.body.length = 4 →
     req.length.toNat = 4 →
     first = reqNum req.body 0 2 →
     n = reqNum req.body 2 2 →
     0 < n →
     n ≤ 180 →
     first + n ≤ 4096 →
       exec (.epashSnap req) s = .next { s with dev := (Dev.epashAnswer 3 req 0 (wordsBE [(s.dev.readReg .firmware TAL.page TAL.SNAP_STAT.VALID.off), (s.dev.readReg .firmware TAL.page TAL.SNAP_SEC.SEC.off),
         (s.dev.readReg .firmware TAL.page TAL.SNAP_NS.NS.off)] ++ values (fun k => if s.dev.flag TAL.page TAL.SNAP_STAT.VALID then tget (fun _ => 0) s.dev.snap k else 0) first n) s.dev) })
  ∧ (∀ (s : State) (req : EpashReq) (first n : Nat),
     s.dev.epashOn = true →
     req.version = 1 →
     s.dev.epashOld 4 req = none →
     req.body.length = 4 →
     req.length.toNat = 4 →
     first = reqNum req.body 0 2 →
     n = reqNum req.body 2 2 →
     0 < n →
     n ≤ 180 →
     first + n ≤ 4096 →
       exec (.epashLive req) s = .next { s with dev := Dev.epashAnswer 4 req 0 (values s.dev.countShown first n) s.dev })
  ∧ (∀ (s : State) (req : EpashReq),
     s.dev.epashOn = true →
     req.version = 1 →
     s.dev.epashOld 4 req = none →
     req.body.length = 4 →
     req.length.toNat = 4 →
     reqNum req.body 2 2 = 0 ∨ 180 < reqNum req.body 2 2 ∨ 4096 < reqNum req.body 0 2 + reqNum req.body 2 2 →
       exec (.epashLive req) s = .next { s with dev := Dev.epashAnswer 4 req 2 [] s.dev })
  ∧ (∀ (s : State) (req : EpashReq) (r : Dev),
     s.dev.epashOn = true →
     req.version = 1 →
     s.dev.epashOld 5 req = none →
     req.body.length = 10 →
     req.length.toNat = 10 →
     s.dev.owns .firmware TAL.page = true →
     s.dev.collecting = false →
     s.dev.hostHolds TAL.page = false →
     r = s.dev.freezeCommand .firmware [(TAL.FRZ_CFG.ARM.off, frzCfg true true false),
        (TAL.FRZ_SEC.SEC.off, BitVec.ofNat 32 (reqNum req.body 0 6)), (TAL.FRZ_NS.NS.off, BitVec.ofNat 32 (reqNum req.body 6 4))] →
     r.flag TAL.page COM.COMMIT_STAT.REJECTED = false →
       exec (.epashFreezeAt req) s = .next { s with dev := Dev.epashAnswer 5 req 0 [] r })
  ∧ (∀ (s : State) (req : EpashReq),
     s.dev.epashOn = true →
     req.version = 1 →
     s.dev.epashOld 5 req = none →
     req.body.length = 10 →
     req.length.toNat = 10 →
     s.dev.owns .firmware TAL.page = false →
       exec (.epashFreezeAt req) s = .next { s with dev := Dev.epashAnswer 5 req 3 [] s.dev })
  ∧ (∀ (s : State) (req : EpashReq) (first n : Nat),
     s.dev.epashOn = true →
     req.version = 1 →
     s.dev.epashOld 6 req = none →
     req.body.length = 6 →
     req.length.toNat = 6 →
     first = reqNum req.body 0 4 →
     n = reqNum req.body 4 2 →
     0 < n →
     n ≤ 90 →
     first + n ≤ s.dev.logSlots →
       exec (.epashLogRead req) s = .next { s with dev := (Dev.epashAnswer 6 req 0 (wordsBE [(s.dev.readReg .firmware LOG.page LOG.WR_IDX.IDX.off), (s.dev.readReg .firmware LOG.page LOG.OLDEST_IDX.IDX.off)] ++ memRead s.dram (logBase + 16 * first) (16 * n)) s.dev), dram := s.dram })
  ∧ (∀ (s : State) (req : EpashReq),
     s.dev.epashOn = true →
     req.version = 1 →
     s.dev.epashOld 7 req = none →
     req.body.length = 8 →
     req.length.toNat = 8 →
       exec (.epashMark req) s = .next { s with dev := Dev.epashAnswer 7 req 0 [] (s.dev.record (s.dev.svcSource 7) 0x11 (markData req.body)) })
  ∧ (∀ (s : State) (req : EpashReq) (e : EpashReply),
     s.dev.epashOn = true →
     req.version = 1 →
     s.dev.epashOld 7 req = some e →
       exec (.epashMark req) s = .next { s with dev := (s.dev.emit (.reply "epash" (req.requester :: e.reply))).count 0xE71 })
  ∧ (∀ (s : State) (req : EpashReq) (e : EpashReply),
     s.dev.epashOn = true →
     req.version = 1 →
     s.dev.epashOld 5 req = some e →
       exec (.epashFreezeAt req) s = .next { s with dev := (s.dev.emit (.reply "epash" (req.requester :: e.reply))).count 0xE71 })

/-- R346, R348: a cold source starts the whole machine again; of several while the release waits for its t0, the lowest
code stands; RESET_N rising, or the supplies, begin the release. Where the rules leave a point open this rests on the
model's choice in log entries 91, 94. -/
def Obligations.ColdSources : Prop :=
  (∀ (s : State),
     s.dev.waitsT0 = false →
       exec (.powerOnReset) s = .next { s with dev := (s.dev.coldReset 1), dram := [] })
  ∧ (∀ (s : State),
     s.dev.waitsT0 = false →
       exec (.brownOut) s = .next { s with dev := (s.dev.coldReset 2), dram := [] })
  ∧ (∀ (s : State) (d : Dev),
     s.dev.waitsT0 = false →
     d = { s.dev with pinResetN := false } →
       exec (.resetNLow) s = .next { s with dev := (d.coldReset 3), dram := [] })
  ∧ (∀ (s : State),
     s.dev.waitsT0 = true →
       exec (.brownOut) s = .next { s with dev := (s.dev.coldReset (min 2 (s.dev.get RST.page RST.RST_CAUSE.CAUSE))), dram := [] })
  ∧ (∀ (s : State) (d : Dev),
     s.dev.waitsT0 = true →
     d = { s.dev with pinResetN := true } →
       exec (.resetNRise) s = .next { s with dev := d.optLoadStart.seqStart })
  ∧ (∀ (s : State),
     s.dev.waitsT0 = false →
       exec (.resetNRise) s = .next { s with dev := { s.dev with pinResetN := true } })

/-- R346, R347, R350: the sources of a warm or a clock-failure reset, when each of them acts, and when it does not; the
watchdog's warning and its kick. Where the rules leave a point open this rests on the model's choice in log entries
30, 91, 112, 125, 148. -/
def Obligations.WarmSources : Prop :=
  (∀ (s : State) (gates : List Nat) (x : Dev × List Host.Cell),
     s.dev.xoOk = true →
     s.dev.waitsT0 = false →
     gates = (List.range 8).filter (fun e => (s.dev.evtIn e).open_) →
     x = Dev.warmReset 4 0 clsClock false s.dev s.dram →
       exec (.clockFailureReset) s = .next { s with dev := (x.1.toBackup.gatesBackup gates), dram := x.2 })
  ∧ (∀ (s : State),
     s.dev.xoOk = false ∨ s.dev.waitsT0 = true →
       exec (.clockFailureReset) s = .next { s with dev := s.dev, dram := s.dram })
  ∧ (∀ (s : State),
     s.dev.wdogRuns = true →
     s.dev.wdogWarned = false →
     s.dev.wdogPassed 1 = true →
       exec (.watchdogWarn) s = .next { s with dev := (({ s.dev with wdogWarned := true } : Dev).raise RST.page RST.INT_RAW.WDOG_WARN).count 0xF90 })
  ∧ (∀ (s : State),
     s.dev.wdogRuns = true →
     s.dev.wdogWarned = true →
     s.dev.wdogPassed 2 = true →
       exec (.watchdogExpiry) s = .next { s with dev := (Dev.warmReset 5 0 clsWarm false s.dev s.dram).1, dram := (Dev.warmReset 5 0 clsWarm false s.dev s.dram).2 })
  ∧ (∀ (s : State),
     s.dev.wdogRuns = false ∨ s.dev.wdogWarned = false ∨ s.dev.wdogPassed 2 = false →
       exec (.watchdogExpiry) s = .next { s with dev := s.dev, dram := s.dram })
  ∧ (∀ (s : State) (acc : Accessor),
     acc.isFw = true →
       exec (.wdogKick acc) s = .next { s with dev := { s.dev with wdogWarned := false, wdogFrom := s.dev.now } })
  ∧ (∀ (s : State) (acc : Accessor),
     acc.isFw = false →
       exec (.wdogKick acc) s = .next { s with dev := s.dev.refuseWrite RST.page RST.WDOG_KICK.KICK.off })
  ∧ (∀ (s : State) (acc : Accessor) (value : BitVec 32),
     MayWrite s.dev acc RST.page →
     getBits value RST.RST_CMD.WARM.lo 1 = 1 →
     getBits value RST.RST_CMD.KEY.lo RST.RST_CMD.KEY.wd = 0xA5C3 →
       exec (.softwareReset acc value) s = .next { s with dev := (Dev.warmReset 6 0 clsWarm false s.dev s.dram).1, dram := (Dev.warmReset 6 0 clsWarm false s.dev s.dram).2 })
  ∧ (∀ (s : State) (acc : Accessor) (value : BitVec 32),
     MayWrite s.dev acc RST.page →
     getBits value RST.RST_CMD.WARM.lo 1 = 1 →
     getBits value RST.RST_CMD.KEY.lo RST.RST_CMD.KEY.wd ≠ 0xA5C3 →
       exec (.softwareReset acc value) s = .next { s with dev := (s.dev.err RST.page 0xC0 RST.RST_CMD.KEY.off), dram := s.dram })
  ∧ (∀ (s : State),
     s.dev.flag SEC.page SEC.SEC_STAT.DEBUG_LOCKED = false →
       exec (.debugWarmReset) s = .next { s with dev := (Dev.warmReset 7 0 clsWarm false s.dev s.dram).1, dram := (Dev.warmReset 7 0 clsWarm false s.dev s.dram).2 })
  ∧ (∀ (s : State),
     s.dev.flag SEC.page SEC.SEC_STAT.DEBUG_LOCKED = true →
       exec (.debugWarmReset) s = .next { s with dev := s.dev, dram := s.dram })
  ∧ (∀ (s : State) (island : Fin 64) (stage : BitVec 8),
     s.dev.released unitFelt = true →
     56 ≤ island.val ∨ s.dev.xing island.val ≠ xHeld →
       exec (.handshakeLockup island stage) s = .next { s with dev := (Dev.warmReset 8 0 clsWarm true (s.dev.recordAlwaysOn 0x08 (stage.toNat * 2 ^ 8 + (if 56 ≤ island.val then 0x3F else island.val))) s.dram).1, dram := (Dev.warmReset 8 0 clsWarm true (s.dev.recordAlwaysOn 0x08 (stage.toNat * 2 ^ 8 + (if 56 ≤ island.val then 0x3F else island.val))) s.dram).2 })
  ∧ (∀ (s : State) (island : Fin 64) (stage : BitVec 8),
     island.val < 56 →
     s.dev.xing island.val = xHeld →
       exec (.handshakeLockup island stage) s = .next { s with dev := s.dev, dram := s.dram })
  ∧ (∀ (s : State) (core : Fin 5),
     s.dev.released 6 = true →
       exec (.coreLockup core) s = .next { s with dev := (Dev.warmReset 9 (core.val + 1) clsWarm false s.dev s.dram).1, dram := (Dev.warmReset 9 (core.val + 1) clsWarm false s.dev s.dram).2 })

/-- R307, R309, R395 to R398: COMMIT.GO and DISCARD, a soft reset, a change of owner and of VIEW, INT_RAW and ERR_INFO
cleared. Where the rules leave a point open this rests on the model's choice in log entries 46, 47, 89, 150. -/
def Obligations.PageCommands : Prop :=
  (∀ (s : State) (acc : Accessor) (page : BitVec 16),
     MayWrite s.dev acc page.toNat →
       exec (.commitGo acc page) s = .next { s with dev := s.dev.commitAt acc page.toNat })
  ∧ (∀ (s : State) (acc : Accessor) (page : BitVec 16) (t : PageType) (i : Nat),
     MayWrite s.dev acc page.toNat →
     pageOf page.toNat = some (t, i) →
     hasShadow t = false →
       exec (.commitGo acc page) s = .next { s with dev := s.dev })
  ∧ (∀ (s : State) (acc : Accessor) (page : BitVec 16) (t : PageType) (i : Nat),
     MayWrite s.dev acc page.toNat →
     pageOf page.toNat = some (t, i) →
     hasShadow t = true →
       exec (.commitDiscard acc page) s = .next { s with dev := (s.dev.dropShadows page.toNat).dropTabShadow t })
  ∧ (∀ (s : State) (acc : Accessor) (page : BitVec 16) (t : PageType) (i : Nat),
     MayWrite s.dev acc page.toNat →
     pageOf page.toNat = some (t, i) →
     softRstOk t = false →
       exec (.softReset acc page) s = .next { s with dev := s.dev.err page.toNat 0x03 0x08 })
  ∧ (∀ (s : State) (acc : Accessor) (page : BitVec 16) (t : PageType) (i : Nat) (r : Dev),
     MayWrite s.dev acc page.toNat →
     pageOf page.toNat = some (t, i) →
     softRstOk t = true →
     hasShadow t = true →
     r = ((s.dev.coldFirst t i).coldShadows t page.toNat).commitAt acc page.toNat →
     r.flag page.toNat COM.COMMIT_STAT.REJECTED = true →
       exec (.softReset acc page) s = .next { s with dev := s.dev.rejectCommit page.toNat (r.get page.toNat COM.COMMIT_STAT.CODE) (r.get page.toNat COM.ERR_INFO.DETAIL) })
  ∧ (∀ (s : State) (acc : Accessor) (page : BitVec 16) (t : PageType) (i : Nat) (q r : Dev),
     MayWrite s.dev acc page.toNat →
     pageOf page.toNat = some (t, i) →
     softRstOk t = true →
     q = ((s.dev.coldFirst t i).coldShadows t page.toNat).commitAt acc page.toNat →
     q.flag page.toNat COM.COMMIT_STAT.REJECTED = false ∨ hasShadow t = false →
     r = (q.coldThen t i).coldRw t page.toNat →
       exec (.softReset acc page) s = .next { s with dev := ((((((r.wr page.toNat 0x10 0).wr page.toNat 0x20 0).wr page.toNat 0x24 0).set page.toNat COM.STAT.RESTORED 0).set GLB.page
         GLB.RESTORE_STAT.SOURCE 1 page.toNat).writeImage page.toNat) })
  ∧ (∀ (s : State) (acc : Accessor) (page : BitVec 16) (owner : BitVec 2) (t : PageType) (i : Nat) (v : Nat),
     Reach s.dev page.toNat →
     pageOf page.toNat = some (t, i) →
     ownerFixed t = false →
     s.dev.owns acc page.toNat = true →
     hostWrite acc = false ∨ owner ≠ 0 ∨ s.dev.owner page.toNat = 0 →
     v = s.dev.get page.toNat COM.CTRL.VIEW acc.idx →
       exec (.ownerWrite acc page owner) s = .next { s with dev := (s.dev.set page.toNat COM.CTRL.VIEW v acc.idx).setOwner page.toNat owner.toNat })
  ∧ (∀ (s : State) (acc : Accessor) (page : BitVec 16) (view : Bool) (t : PageType) (i : Nat),
     Reach s.dev page.toNat →
     pageOf page.toNat = some (t, i) →
       exec (.viewSet acc page view) s = .next { s with dev := s.dev.setFlag page.toNat COM.CTRL.VIEW view acc.idx })
  ∧ (∀ (s : State) (acc : Accessor) (page : BitVec 16) (bits raised : BitVec 32) (t : PageType) (i : Nat),
     Reach s.dev page.toNat →
     pageOf page.toNat = some (t, i) →
       exec (.intRawClear acc page bits raised) s = .next { s with dev := (s.dev.wr page.toNat 0x10 (s.dev.rd page.toNat 0x10 &&& ~~~(bits &&& ~~~raised))).sendSummary page.toNat })
  ∧ (∀ (s : State) (acc : Accessor) (page : BitVec 16),
     MayWrite s.dev acc page.toNat →
       exec (.errInfoClear acc page) s = .next { s with dev := s.dev.wr page.toNat COM.ERR_INFO.VALID.off 0 })

/-- R19, R20, R307, R308, R390, R391: an access that W0 does not execute, a burst, and one register written: a block
register by its owner, a selector or window register by anyone, a read-only, reserved or undefined offset by nobody;
the common part. Where the rules leave a point open this rests on the model's choice in log entries 47, 58. -/
def Obligations.RegisterWrites : Prop :=
  (∀ (s : State) (acc : Accessor) (addr : BitVec 26) (byteEn : BitVec 4) (data : List Word),
     w0Ok addr.toNat byteEn.toNat data.length = false →
       exec (.registerWrite acc addr byteEn data) s = .next { s with dev := s.dev.emit (.reply "unsupported request" [addr.toNat]) })
  ∧ (∀ (s : State) (acc : Accessor) (addr : BitVec 26) (byteEn : BitVec 4) (v : Word) (data : List Word) (t : State),
     w0Ok addr.toNat byteEn.toNat (data.length + 1) = true →
     addr.toNat + 4 * data.length < 2 ^ 26 →
     t = writeReg acc (addr.toNat / 4096) (addr.toNat % 4096) v s →
       exec (.registerWrite acc addr byteEn (v :: data)) s = .next { writeRegs acc (burst (addr.toNat + 4) data) t with pending := s.pending })
  ∧ (∀ (s : State) (acc : Accessor) (addr : BitVec 26) (v : Word) (page off : Nat),
     addr.toNat = page * 4096 + off →
     off < 4096 →
     off % 4 = 0 →
     pageOf page = none →
       exec (.registerWrite acc addr 15 [v]) s = .next { s with dev := s.dev })
  ∧ (∀ (s : State) (acc : Accessor) (addr : BitVec 26) (v : Word) (page off : Nat) (t : PageType) (i : Nat),
     addr.toNat = page * 4096 + off →
     off < 4096 →
     off % 4 = 0 →
     pageOf page = some (t, i) →
     (t = .mbx → mbxReach acc (16 * i) = true) →
     Reach s.dev page →
     0x40 ≤ off →
     (∀ w ∈ winOf t i, off ≠ w.result.off) →
     commandReg acc t i off v = none →
     anyWrites t off = false →
     writable t off = true →
     MayWrite s.dev acc page →
       exec (.registerWrite acc addr 15 [v]) s = .next { s with dev := s.dev.writeBlockReg acc t i page off v })
  ∧ (∀ (s : State) (acc : Accessor) (addr : BitVec 26) (v : Word) (page off : Nat) (t : PageType) (i : Nat),
     addr.toNat = page * 4096 + off →
     off < 4096 →
     off % 4 = 0 →
     pageOf page = some (t, i) →
     (t = .mbx → mbxReach acc (16 * i) = true) →
     Reach s.dev page →
     0x40 ≤ off →
     (∀ w ∈ winOf t i, off ≠ w.result.off) →
     commandReg acc t i off v = none →
     anyWrites t off = true →
       exec (.registerWrite acc addr 15 [v]) s = .next { s with dev := s.dev.writeWindow acc t i page off v })
  ∧ (∀ (s : State) (acc : Accessor) (addr : BitVec 26) (v : Word) (page off : Nat) (t : PageType) (i : Nat),
     addr.toNat = page * 4096 + off →
     off < 4096 →
     off % 4 = 0 →
     pageOf page = some (t, i) →
     (t = .mbx → mbxReach acc (16 * i) = true) →
     Reach s.dev page →
     0x40 ≤ off →
     (∀ w ∈ winOf t i, off ≠ w.result.off) →
     commandReg acc t i off v = none →
     anyWrites t off = false →
     writable t off = false →
       exec (.registerWrite acc addr 15 [v]) s = .next { s with dev := s.dev })
  ∧ (∀ (s : State) (acc : Accessor) (addr : BitVec 26) (v : Word) (page off : Nat) (t : PageType) (i : Nat),
     addr.toNat = page * 4096 + off →
     off < 4096 →
     off % 4 = 0 →
     pageOf page = some (t, i) →
     (t = .mbx → mbxReach acc (16 * i) = true) →
     Reach s.dev page →
     off < 0x40 →
       exec (.registerWrite acc addr 15 [v]) s = .next { s with dev := s.dev.writeCommon acc t page off v })

/-- R329, R337, R339, R341, R345: I2C reads, a write to a page over it is refused; the Crown page window's waits begin,
complete and time out. Where the rules leave a point open this rests on the model's choice in log entry 36. -/
def Obligations.PageWindows : Prop :=
  (∀ (s : State) (offset : BitVec 32),
       exec (.i2cTransfer offset true) s = .next { s with dev := s.dev.emit (.reply "i2c refused" []) })
  ∧ (∀ (s : State) (offset : BitVec 32),
     offset.toNat % 4 ≠ 0 ∨ 0x4000000 ≤ offset.toNat →
       exec (.i2cTransfer offset false) s = .next { s with dev := s.dev.emit (.reply "i2c" [0]) })
  ∧ (∀ (s : State) (offset : BitVec 32) (page off : Nat) (x : Word × Dev),
     offset.toNat = page * 4096 + off →
     off < 4096 →
     off % 4 = 0 →
     page < 0x3FFF →
     s.dev.pageUp page = true →
     s.dev.pageHeld page = false →
     page ≠ MBX.page 0 →
     page ≠ MBX.page 1 →
     x = s.dev.readBy .host0 page off →
       exec (.i2cTransfer offset false) s = .next { s with dev := x.2.emit (.reply "i2c" [x.1.toNat]) })
  ∧ (∀ (s : State) (offset : BitVec 32) (page off : Nat),
     offset.toNat = page * 4096 + off →
     off < 4096 →
     off % 4 = 0 →
     page < 0x3FFF →
     s.dev.pageUp page = false →
       exec (.i2cTransfer offset false) s = .next { s with dev := (s.dev.accessInReset page).emit (.reply "i2c" [0xFFFFFFFF]) })
  ∧ (∀ (s : State) (page : BitVec 16) (addr : BitVec 10),
     s.dev.crownOn = true →
     s.dev.crown.wait = none →
       exec (.crownWaitRead page addr) s = .next { s with dev := s.dev.setCrown (fun c => { c with pageSel := page.toNat, wait := some ⟨false, page.toNat, addr.toNat * 4, 0, s.dev.now⟩ }) })
  ∧ (∀ (s : State) (page : BitVec 16) (addr : BitVec 10) (value : BitVec 32),
     s.dev.crownOn = true →
     s.dev.crown.wait = none →
     s.dev.flag CRN.page CRN.CRN_CFG.CTL_WR = true →
       exec (.crownWaitWrite page addr value) s = .next { s with dev := s.dev.setCrown (fun c => { c with pageSel := page.toNat, wait := some ⟨true, page.toNat, addr.toNat * 4, value, s.dev.now⟩ }) })
  ∧ (∀ (s : State) (page : BitVec 16) (addr : BitVec 10) (value : BitVec 32) (d : Dev),
     s.dev.crownOn = true →
     s.dev.crown.wait = none →
     s.dev.flag CRN.page CRN.CRN_CFG.CTL_WR = false →
     d = s.dev.setCrown (fun c => { c with pageSel := page.toNat }) →
       exec (.crownWaitWrite page addr value) s = .next { s with dev := d.err CRN.page 0xB0 CRN.CRN_CFG.CTL_WR.off })
  ∧ (∀ (s : State),
     s.dev.crown.wait = none →
       exec .crownWaitComplete s = .next s)
  ∧ (∀ (s : State) (w : CrownWait) (d : Dev) (x : Word × Dev),
     s.dev.crown.wait = some w →
     s.dev.pageHeld w.page = false →
     w.write = false →
     w.page ≠ MBX.page 0 →
     w.page ≠ MBX.page 1 →
     d = s.dev.setCrown (fun c => { c with wait := none }) →
     x = d.readBy .controller w.page w.off →
       exec .crownWaitComplete s = .next { s with dev := x.2.emit (.reply "crown" [x.1.toNat]) })
  ∧ (∀ (s : State) (w : CrownWait) (d : Dev),
     s.dev.crown.wait = some w →
     s.dev.pageHeld w.page = false →
     w.write = true →
     d = s.dev.setCrown (fun c => { c with wait := none }) →
       exec .crownWaitComplete s = .next { writeReg .controller w.page w.off w.value { s with dev := d } with pending := s.pending })
  ∧ (∀ (s : State),
     s.dev.crown.wait = none →
       exec (.crownWaitTimeout) s = .next { s with dev := s.dev })
  ∧ (∀ (s : State) (w : CrownWait) (d : Dev),
     s.dev.crown.wait = some w →
     d = (if w.write then s.dev.setCrown (fun c => { c with wait := none })
        else (s.dev.setCrown (fun c => { c with wait := none })).emit (.reply "crown" [0xFFFFFFFF])) →
     w.since + waitMax (s.dev.get CRN.page CRN.CRN_CFG.WAIT_MAX) * nsU ≤ s.dev.now →
       exec (.crownWaitTimeout) s = .next { s with dev := (((((d.err CRN.page 0xB1 CRN.CRN_STAT.TMO_CNT.off).incSat CRN.page CRN.CRN_STAT.TMO_CNT).raise CRN.page CRN.INT_RAW.WAIT_TMO).count
         0xF83)) })
  ∧ (∀ (s : State) (w : CrownWait),
     s.dev.crown.wait = some w →
     s.dev.now < w.since + waitMax (s.dev.get CRN.page CRN.CRN_CFG.WAIT_MAX) * nsU →
       exec (.crownWaitTimeout) s = .next { s with dev := s.dev })

/-- R392: an access that reaches a page whose island is held in reset completes at once: a write is discarded, a read
returns all ones, and ACC_STAT counts it, saturating, and names the page; a page whose clock has stopped is not in
reset: the write waits. (Function 0 and the controller do not reach MBX[1], R329.) Where the rules leave a point open
this rests on the model's choice in log entries 36, 75. -/
def Obligations.AccessInReset : Prop :=
  (∀ (s : State) (acc : Accessor) (addr : BitVec 26) (v : Word) (page off i : Nat) (t : PageType),
      addr.toNat = page * 4096 + off → off < 4096 → off % 4 = 0 → pageOf page = some (t, i) →
      (t = .mbx → mbxReach acc (16 * i) = true) → s.dev.pageUp page = false →
        exec (.registerWrite acc addr 15 [v]) s = .next { s with dev := s.dev.accessInReset page })
  ∧ (∀ (s : State) (offset : BitVec 32) (page off : Nat), offset.toNat = page * 4096 + off → off < 4096 → off % 4 = 0 →
      page < 0x3FFF → s.dev.pageUp page = false →
        exec (.i2cTransfer offset false) s = .next { s with dev := (s.dev.accessInReset page).emit (.reply "i2c" [0xFFFFFFFF]) })
  ∧ (∀ (s : State) (w : CrownWait) (d : Dev), s.dev.crown.wait = some w → s.dev.pageHeld w.page = false → w.write = false →
      w.page ≠ MBX.page 0 → w.page ≠ MBX.page 1 → s.dev.pageUp w.page = false →
      d = s.dev.setCrown (fun c => { c with wait := none }) →
        exec .crownWaitComplete s = .next { s with dev := (d.accessInReset w.page).emit (.reply "crown" [0xFFFFFFFF]) })
  ∧ (∀ (d : Dev) (page : Nat), page < 65536 →
      (d.accessInReset page).accStat / 65536 = min (d.accStat / 65536 + 1) 65535 ∧ (d.accessInReset page).accStat % 65536 = page
        ∧ { d.accessInReset page with accStat := d.accStat } = d)
  ∧ (∀ (s : State) (acc : Accessor) (addr : BitVec 26) (v : Word) (page off i : Nat) (t : PageType),
      addr.toNat = page * 4096 + off → off < 4096 → off % 4 = 0 → pageOf page = some (t, i) →
      (t = .mbx → mbxReach acc (16 * i) = true) → s.dev.pageUp page = true → s.dev.pageHeld page = true →
        exec (.registerWrite acc addr 15 [v]) s = .next { s with dev := s.dev.holdTransfer acc page [(off, v)] })
  ∧ (∀ (s : State) (acc : Accessor) (page : BitVec 16) (c : Instr), c ∈ [Instr.commitGo acc page, .commitDiscard acc page, .softReset acc page] →
      s.dev.pageUp page.toNat = false → exec c s = .next { s with dev := s.dev.accessInReset page.toNat })

/-- R307: a write to a register of a page by an accessor that is not its owner is discarded, whatever its value, counted
at 0xF42 and captured with ERR_INFO 0x0E; nothing else changes, but what the capture raises. Not meant: CTRL, INT_RAW,
the selector and window registers, the entry operations, and the registers with a rule of their own. -/
def Obligations.NonOwnerWrite : Prop :=
  ∀ (s : State) (acc : Accessor) (addr : BitVec 26) (v : Word) (page off i : Nat) (t : PageType),
      addr.toNat = page * 4096 + off → off < 4096 → off % 4 = 0 → pageOf page = some (t, i) →
      (t = .mbx → mbxReach acc (16 * i) = true) → Reach s.dev page → (acc.isFw && s.dev.hostHolds page) = false → s.dev.owns acc page = false →
      (off = 0x14 ∨ off = 0x1C ∨ off = 0x24 ∨ (0x40 ≤ off ∧ writable t off = true ∧ anyWrites t off = false ∧ ownRule t off = false
        ∧ ∀ w ∈ winOf t i, off ≠ w.result.off)) →
        Does (.registerWrite acc addr 15 [v]) s fun d =>
          d.counter 0xF42 = (s.dev.counter 0xF42 + 1) % 2 ^ 48 ∧ (∀ j, j ≠ 0xF42 → d.counter j = s.dev.counter j)
            ∧ d.get page COM.ERR_INFO.VALID = 1 ∧ d.get page COM.ERR_INFO.CODE = 0x0E ∧ d.get page COM.ERR_INFO.DETAIL = off
            ∧ OnlyPage page s.dev d ∧ Quiet s.dev d ∧ (∀ o, 0x40 ≤ o → o < 4096 → ∀ k, k < 65536 → d.rd page o k = s.dev.rd page o k)

/-- R8: the number of a virtual output queue, its range, and that the number gives back input, output and class. -/
def Obligations.VoqNumbers : Prop :=
  ∀ (input output tc : Nat), input < 50 → output < 50 → tc < 8 →
    voqNo input output tc = (input * 50 + output) * 8 + tc ∧ voqNo input output tc < 20000
      ∧ voqInput (voqNo input output tc) = input ∧ voqOutput (voqNo input output tc) = output
      ∧ voqTc (voqNo input output tc) = tc

/-- R397, R398: an SH register written by its owner changes its shadow only; COMMIT.DISCARD reloads every shadow; an
accepted COMMIT makes every shadow of the page live and counts it, a rejected one applies nothing and says why. Where
the rules leave a point open this rests on the model's choice in log entry 42. -/
def Obligations.CommitAndShadows : Prop :=
  (∀ (s : State) (acc : Accessor) (addr : BitVec 26) (v m : Word) (page off i k : Nat) (t : PageType),
      addr.toNat = page * 4096 + off → off < 4096 → off % 4 = 0 → pageOf page = some (t, i) →
      (t = .mbx → mbxReach acc (16 * i) = true) → MayWrite s.dev acc page → 0x40 ≤ off → (∀ w ∈ winOf t i, off ≠ w.result.off) → commandReg acc t i off v = none →
      anyWrites t off = false → writable t off = true → s.dev.instOf acc t page off = some k → t ≠ .gcl → t ≠ .rst →
      (t = .syn → off < SYN.PLAN_N.N_INT.off ∨ SYN.PLAN_DEN.DEN.off < off) →
      m = shMask t off → m ≠ 0 → accMask t off .rw = 0 → accMask t off .w1c = 0 →
        Does (.registerWrite acc addr 15 [v]) s fun d =>
          d.rdShadow t page off k = (s.dev.rd page off k &&& ~~~m) ||| (v &&& m) ∧ d.regs = s.dev.regs
            ∧ ∀ j, j ≠ rkey page off k → tget (fun _ => 0) d.shadow j = tget (fun _ => 0) s.dev.shadow j)
  ∧ (∀ (s : State) (acc : Accessor) (addr : BitVec 26) (v : Word) (off k : Nat),
      addr.toNat = SYN.page * 4096 + off → SYN.PLAN_N.N_INT.off ≤ off → off ≤ SYN.PLAN_DEN.DEN.off → off % 4 = 0 →
      MayWrite s.dev acc SYN.page → s.dev.instOf acc .syn SYN.page off = some k →
        exec (.registerWrite acc addr 15 [v]) s
          = .next { s with dev := (s.dev.forgetBand (k / 8) (k % 8)).wrShadow .syn SYN.page off k v })
  ∧ (∀ (s : State) (acc : Accessor) (page : BitVec 16) (t : PageType) (i : Nat), MayWrite s.dev acc page.toNat →
      pageOf page.toNat = some (t, i) → hasShadow t = true →
        Does (.commitDiscard acc page) s fun d =>
          d.regs = s.dev.regs ∧ ∀ off k, off < 4096 → k < 65536 → d.rdShadow t page.toNat off k = s.dev.rd page.toNat off k)
  ∧ (∀ (d : Dev) (page i : Nat) (t : PageType), pageOf page = some (t, i) →
      (d.acceptCommit page).get page COM.COMMIT_STAT.REJECTED = 0
        ∧ (d.acceptCommit page).get page COM.COMMIT_STAT.ACCEPTED = (d.get page COM.COMMIT_STAT.ACCEPTED + 1) % 65536
        ∧ ∀ off k, 0x40 ≤ off → off < 4096 → k < 65536 → (d.acceptCommit page).rd page off k = d.rdShadow t page off k)
  ∧ (∀ (d : Dev) (page code off : Nat), code < 256 → off < 65536 →
      (d.rejectCommit page code off).shadow = d.shadow
        ∧ (d.rejectCommit page code off).get page COM.COMMIT_STAT.REJECTED = 1
        ∧ (d.rejectCommit page code off).get page COM.COMMIT_STAT.CODE = code
        ∧ (d.rejectCommit page code off).get page COM.ERR_INFO.CODE = code
        ∧ (d.rejectCommit page code off).get page COM.ERR_INFO.DETAIL = off ∧ OnlyPage page d (d.rejectCommit page code off)
        ∧ ∀ o k, 0x40 ≤ o → o < 4096 → k < 65536 → (d.rejectCommit page code off).rd page o k = d.rd page o k)

/-- R304, R320, R322, R324: a mailbox command that does not pass its checks (an unknown one, a service that is down, an
update channel that is not secure, a payload outside its area, a length too short) is answered with that status, and
has no other effect. Where the rules leave a point open this rests on the model's choice in log entry 52. -/
def Obligations.FirmwareChecks : Prop :=
  ∀ (s : State) (ch : Fin 32) (dataset : List (BitVec 8)) (crcOk sigOk : Bool) (version : BitVec 32)
    (c : Instr) (family code st : Nat) (n : Data) (rest : List Data) (e : Dev),
    (c, family, code) ∈ ([(.sysVersion ch, 0, 1), (.sysRestart ch, 0, 2), (.sysPlacement ch, 0, 3), (.pageHold ch, 1, 1),
      (.pageRelease ch, 1, 2), (.pageGrant ch, 1, 3), (.pageWrite ch, 1, 4), (.ptpInstance ch, 2, 1),
      (.ptpPort ch, 2, 2), (.ptpDataset ch dataset, 2, 3), (.ptpAsym ch, 2, 4), (.refSlotCmd ch, 3, 1),
      (.refModelCmd ch, 3, 2), (.refStoreCmd ch, 3, 3), (.redPairCmd ch, 4, 1), (.redStreamCmd ch, 4, 2),
      (.redLatentCmd ch, 4, 3), (.blkRequestCmd ch, 5, 1), (.lldpPortCmd ch, 6, 1), (.lldpNeighboursCmd ch, 6, 2),
      (.logMarkCmd ch, 7, 1), (.logExportCmd ch, 7, 2), (.epashCfgCmd ch, 8, 1), (.updBegin ch, 15, 1),
      (.updWrite ch, 15, 2), (.updVerify ch crcOk sigOk version, 15, 3), (.updActivate ch, 15, 4), (.updConfirm ch, 15, 5),
      (.updAbort ch, 15, 6), (.updState ch, 15, 7)] : List (Instr × Nat × Nat)) →
    s.dev.fwCmd ch = n :: rest → s.dev.fwRuns = true → noticeFamily n = family → noticeCode n = code →
    s.dev.fwCheck ch n = some st → e = (s.dev.setFwCmd ch rest).fwReply ch n st [] →
      exec c s = .next (pump { s with dev := e.fwSkim ch (e.fwCmd ch) })

/-- R90: a COMMIT of the LKP page whose shadows break a rule of the profiles is rejected, and applies nothing. -/
def Obligations.LkpCommitRejected : Prop :=
  ∀ (s : State) (acc : Accessor) (p : Nat) (g : Field → Nat), MayWrite s.dev acc LKP.page → p < 8 →
      g = (fun f => s.dev.getSh .lkp LKP.page (f.nth p)) →
      ((g LKP.PROF.L4 = 1 ∧ g LKP.PROF.L3 = 0) ∨ (g LKP.PROF.PTP_UDP = 1 ∧ g LKP.PROF.L4 = 0)
        ∨ (g LKP.PROF.ACL_KEY ≠ 0 ∧ g LKP.PROF.L3 = 0) ∨ g LKP.PROF.ACL_KEY = 3 ∨ g LKP.PROF.TAG_MODE = 3) →
        Does (.commitGo acc 0x11) s fun d =>
          d.get LKP.page COM.COMMIT_STAT.REJECTED = 1 ∧ d.shadow = s.dev.shadow ∧ d.tables = s.dev.tables ∧ d.staging = s.dev.staging
            ∧ OnlyPage LKP.page s.dev d ∧ ∀ o k, 0x40 ≤ o → o < 4096 → k < 65536 → d.rd LKP.page o k = s.dev.rd LKP.page o k

/-- R308: the selector and window registers exist once for each accessor: a write of one by an accessor leaves what every
other accessor has selected and collected on the page as it was. -/
def Obligations.SelectorsApart : Prop :=
  ∀ (s : State) (acc other : Accessor) (addr : BitVec 26) (v : Word) (page off i : Nat) (t : PageType),
      addr.toNat = page * 4096 + off → off < 4096 → off % 4 = 0 → pageOf page = some (t, i) →
      (t = .mbx → mbxReach acc (16 * i) = true) → Reach s.dev page → 0x40 ≤ off → (∀ w ∈ winOf t i, off ≠ w.result.off) → commandReg acc t i off v = none →
      perAccessor t off = true → other.idx ≠ acc.idx →
        Does (.registerWrite acc addr 15 [v]) s fun d =>
          (∀ o, 0x40 ≤ o → o < 4096 → d.rd page o other.idx = s.dev.rd page o other.idx)
            ∧ d.winBuf page other = s.dev.winBuf page other

/-- R428, R21: a native word as the device writes it reads clean; with any one of its 72 bits inverted it reads corrected,
with the data written; with any two of them inverted it is uncorrectable. -/
def Obligations.CheckByteCorrects : Prop :=
  (∀ (data : Data), decodeNative (encodeNative data) = .clean data)
  ∧ (∀ (data : Data) (i : Nat), i < 72 → decodeNative (encodeNative data ^^^ (1#72 <<< i)) = .corrected data)
  ∧ (∀ (data : Data) (i j : Nat), i < j → j < 72 →
      decodeNative (encodeNative data ^^^ (1#72 <<< i) ^^^ (1#72 <<< j)) = .uncorrectable)
end

