-- ==== Sys2Proof/Laws/Tbl.lean ====
section
/-!
SUPPORT. Laws/Tbl.lean: what reading a sparse table answers after a write, and that a write keeps the canonical form.
-/
namespace Sys2Proof.Machine

variable {V : Type}

@[simp] theorem tget_nil (d : Nat → V) (k : Nat) : tget d [] k = d k := rfl

theorem tget_terase_same (d : Nat → V) (t : Tbl V) (k : Nat) : tget d (terase k t) k = d k := by
  induction t with
  | nil => rfl
  | cons e rest ih =>
    obtain ⟨j, v⟩ := e
    by_cases h : k = j
    · simp [terase, h]; simpa [h] using ih
    · simp [terase, tget, h, ih]

theorem tget_terase_other (d : Nat → V) (t : Tbl V) {k j : Nat} (h : j ≠ k) :
    tget d (terase k t) j = tget d t j := by
  induction t with
  | nil => rfl
  | cons e rest ih =>
    obtain ⟨i, v⟩ := e
    by_cases hk : k = i
    · subst hk; simp [terase, tget, h, ih]
    · by_cases hj : j = i
      · simp [terase, hk, tget, hj]
      · simp [terase, hk, tget, hj, ih]

theorem tget_tinsert_other (d : Nat → V) (t : Tbl V) {k j : Nat} (v : V) (h : j ≠ k) :
    tget d (tinsert k v t) j = tget d t j := by
  induction t with
  | nil => simp [tinsert, tget, h]
  | cons e rest ih =>
    obtain ⟨i, w⟩ := e
    by_cases hk : k < i
    · simp [tinsert, hk, tget, h]
    · by_cases hj : j = i
      · simp [tinsert, hk, tget, hj]
      · simp [tinsert, hk, tget, hj, ih]

theorem tget_tinsert_erased (d : Nat → V) (t : Tbl V) (k : Nat) (v : V) :
    tget d (tinsert k v (terase k t)) k = v := by
  induction t with
  | nil => simp [terase, tinsert, tget]
  | cons e rest ih =>
    obtain ⟨i, w⟩ := e
    by_cases hk : k = i
    · simpa [terase, hk] using (by simpa [hk] using ih)
    · by_cases hl : k < i
      · simp [terase, hk, tinsert, hl, tget]
      · simp [terase, hk, tinsert, hl, tget, ih]

/-- Reading what was written. -/
@[simp] theorem tget_tset_same [DecidableEq V] (d : Nat → V) (t : Tbl V) (k : Nat) (v : V) :
    tget d (tset d t k v) k = v := by
  unfold tset
  split
  · rename_i h; rw [tget_terase_same, h]
  · exact tget_tinsert_erased d t k v

/-- A write leaves every other key alone. -/
theorem tget_tset_other [DecidableEq V] (d : Nat → V) (t : Tbl V) {k j : Nat} (v : V) (h : j ≠ k) :
    tget d (tset d t k v) j = tget d t j := by
  unfold tset
  split
  · exact tget_terase_other d t h
  · rw [tget_tinsert_other d _ v h, tget_terase_other d t h]

/-- Reading after a write, both cases. -/
theorem tget_tset [DecidableEq V] (d : Nat → V) (t : Tbl V) (k j : Nat) (v : V) :
    tget d (tset d t k v) j = if j = k then v else tget d t j := by
  by_cases h : j = k
  · subst h; simp
  · simp [h, tget_tset_other d t v h]

/-- Every key of a table is above a bound. -/
def tabove (b : Nat) (t : Tbl V) : Prop := ∀ e ∈ t, b < e.1

theorem twf_cons [DecidableEq V] (d : Nat → V) (k : Nat) (v : V) (t : Tbl V) :
    twf d ((k, v) :: t) = true ↔ v ≠ d k ∧ tabove k t ∧ twf d t = true := by
  induction t generalizing k v with
  | nil => simp [twf, tabove]
  | cons e rest ih =>
    obtain ⟨j, w⟩ := e
    have hj := ih j w
    constructor
    · intro h
      simp only [twf, Bool.and_eq_true, decide_eq_true_eq] at h
      refine ⟨h.1.1, ?_, h.2⟩
      intro e he
      rcases List.mem_cons.mp he with rfl | he
      · exact h.1.2
      · exact Nat.lt_trans h.1.2 ((hj.mp h.2).2.1 e he)
    · rintro ⟨h1, h2, h3⟩
      simp only [twf, Bool.and_eq_true, decide_eq_true_eq]
      exact ⟨⟨h1, h2 (j, w) (by simp)⟩, h3⟩

theorem mem_terase {k : Nat} {t : Tbl V} {e : Nat × V} (h : e ∈ terase k t) : e ∈ t ∧ e.1 ≠ k := by
  induction t with
  | nil => simp [terase] at h
  | cons a rest ih =>
    obtain ⟨j, v⟩ := a
    by_cases hk : k = j
    · simp only [terase, hk, if_true] at h
      have := ih (by simpa [hk] using h)
      exact ⟨List.mem_cons_of_mem _ this.1, this.2⟩
    · simp only [terase, hk, if_false, List.mem_cons] at h
      rcases h with rfl | h
      · exact ⟨by simp, fun e => hk e.symm⟩
      · exact ⟨List.mem_cons_of_mem _ (ih h).1, (ih h).2⟩

theorem mem_tinsert {k : Nat} {v : V} {t : Tbl V} {e : Nat × V} (h : e ∈ tinsert k v t) :
    e = (k, v) ∨ e ∈ t := by
  induction t with
  | nil => simpa [tinsert] using h
  | cons a rest ih =>
    obtain ⟨j, w⟩ := a
    by_cases hk : k < j
    · simpa [tinsert, hk] using h
    · simp only [tinsert, hk, if_false, List.mem_cons] at h
      rcases h with rfl | h
      · simp
      · rcases ih h with h | h
        · exact .inl h
        · exact .inr (List.mem_cons_of_mem _ h)

theorem twf_terase [DecidableEq V] (d : Nat → V) (k : Nat) (t : Tbl V) (h : twf d t = true) :
    twf d (terase k t) = true := by
  induction t with
  | nil => rfl
  | cons a rest ih =>
    obtain ⟨j, v⟩ := a
    obtain ⟨h1, h2, h3⟩ := (twf_cons d j v rest).mp h
    by_cases hk : k = j
    · simpa [terase, hk] using (by simpa [hk] using ih h3)
    · simp only [terase, hk, if_false]
      exact (twf_cons d j v _).mpr ⟨h1, fun e he => h2 e (mem_terase he).1, ih h3⟩

theorem twf_tinsert [DecidableEq V] (d : Nat → V) (k : Nat) (v : V) (t : Tbl V)
    (h : twf d t = true) (hv : v ≠ d k) (hk : ∀ e ∈ t, e.1 ≠ k) : twf d (tinsert k v t) = true := by
  induction t with
  | nil => simp [tinsert, twf, hv]
  | cons a rest ih =>
    obtain ⟨j, w⟩ := a
    obtain ⟨h1, h2, h3⟩ := (twf_cons d j w rest).mp h
    by_cases hl : k < j
    · simp only [tinsert, hl, if_true]
      refine (twf_cons d k v _).mpr ⟨hv, ?_, h⟩
      intro e he
      rcases List.mem_cons.mp he with rfl | he
      · exact hl
      · exact Nat.lt_trans hl (h2 e he)
    · have hne : j ≠ k := hk (j, w) (by simp)
      simp only [tinsert, hl, if_false]
      refine (twf_cons d j w _).mpr ⟨h1, ?_, ih h3 (fun e he => hk e (List.mem_cons_of_mem _ he))⟩
      intro e he
      rcases mem_tinsert he with rfl | he
      · show j < k; omega
      · exact h2 e he

/-- A write keeps the canonical form. -/
theorem twf_tset [DecidableEq V] (d : Nat → V) (t : Tbl V) (k : Nat) (v : V) (h : twf d t = true) :
    twf d (tset d t k v) = true := by
  unfold tset
  split
  · exact twf_terase d k t h
  · rename_i hv
    exact twf_tinsert d k v _ (twf_terase d k t h) hv (fun e he => (mem_terase he).2)

/-- What every step of a fold keeps, the fold keeps. -/
theorem foldl_keep {α β γ : Type} (g : α → γ) {f : α → β → α} (l : List β) (hf : ∀ a b, g (f a b) = g a) (a : α) :
    g (l.foldl f a) = g a := by
  induction l generalizing a with
  | nil => rfl
  | cons b rest ih => rw [List.foldl_cons, ih, hf]

end Sys2Proof.Machine
end

