-- ==== Sys2Proof/Laws/Regs.lean ====
section
/-!
SUPPORT. Laws/Regs.lean: the register file: keys, bits of a word, what a field reads after a write of a field, and what a
register write leaves alone.
-/
namespace Sys2Proof.Machine

/-! ### Keys -/

theorem rkey_same_page (p o s o' s' : Nat) : rkey p o s = rkey p o' s' ↔ o * 65536 + s = o' * 65536 + s' := by
  unfold rkey; omega

theorem rkey_ne_of_page {p p' o o' s s' : Nat} (h : p ≠ p') (ho : o < 4096) (ho' : o' < 4096) (hs : s < 65536)
    (hs' : s' < 65536) : rkey p o s ≠ rkey p' o' s' := by
  unfold rkey; omega

theorem rkeyPage_rkey {p o s : Nat} (ho : o < 4096) (hs : s < 65536) : rkeyPage (rkey p o s) = p := by
  unfold rkeyPage rkey; omega

theorem rkeyOff_rkey {p o s : Nat} (ho : o < 4096) (hs : s < 65536) : rkeyOff (rkey p o s) = o := by
  unfold rkeyOff rkey; omega

theorem rkeySel_rkey {p o s : Nat} (hs : s < 65536) : rkeySel (rkey p o s) = s := by
  unfold rkeySel rkey; omega

/-! ### Bits -/

theorem getBits_lt (w : Word) (lo wd : Nat) : getBits w lo wd < 2 ^ wd := Nat.mod_lt _ (Nat.two_pow_pos wd)

/-- A word cut at a field: what lies above, the field, what lies below. -/
theorem word_split (n lo wd : Nat) :
    n = n / 2 ^ (lo + wd) * 2 ^ (lo + wd) + n / 2 ^ lo % 2 ^ wd * 2 ^ lo + n % 2 ^ lo := by
  have h1 := Nat.div_add_mod n (2 ^ lo)
  have h2 := Nat.div_add_mod (n / 2 ^ lo) (2 ^ wd)
  have h3 : n / 2 ^ lo / 2 ^ wd = n / 2 ^ (lo + wd) := by rw [Nat.div_div_eq_div_mul, ← pow_add]
  rw [h3] at h2
  have h4 : n / 2 ^ (lo + wd) * 2 ^ (lo + wd) = 2 ^ lo * (2 ^ wd * (n / 2 ^ (lo + wd))) := by
    rw [pow_add]; ring
  calc n = 2 ^ lo * (n / 2 ^ lo) + n % 2 ^ lo := h1.symm
    _ = 2 ^ lo * (2 ^ wd * (n / 2 ^ (lo + wd)) + n / 2 ^ lo % 2 ^ wd) + n % 2 ^ lo := by rw [h2]
    _ = _ := by rw [h4]; ring

theorem setBits_toNat (w : Word) {lo wd : Nat} (v : Nat) (h : lo + wd ≤ 32) :
    (setBits w lo wd v).toNat
      = w.toNat / 2 ^ (lo + wd) * 2 ^ (lo + wd) + v % 2 ^ wd * 2 ^ lo + w.toNat % 2 ^ lo := by
  have hs := word_split w.toNat lo wd
  have hlt : w.toNat / 2 ^ (lo + wd) < 2 ^ (32 - (lo + wd)) := by
    rw [Nat.div_lt_iff_lt_mul (Nat.two_pow_pos _), ← pow_add]
    have : 32 - (lo + wd) + (lo + wd) = 32 := by omega
    rw [this]; exact w.isLt
  have hv : v % 2 ^ wd < 2 ^ wd := Nat.mod_lt _ (Nat.two_pow_pos _)
  have hl : w.toNat % 2 ^ lo < 2 ^ lo := Nat.mod_lt _ (Nat.two_pow_pos _)
  have hin : v % 2 ^ wd * 2 ^ lo + w.toNat % 2 ^ lo < 2 ^ (lo + wd) := by
    have : (v % 2 ^ wd + 1) * 2 ^ lo ≤ 2 ^ wd * 2 ^ lo := Nat.mul_le_mul_right _ hv
    rw [pow_add]; nlinarith
  have htop : w.toNat / 2 ^ (lo + wd) * 2 ^ (lo + wd) + 2 ^ (lo + wd) ≤ 2 ^ 32 := by
    have : (w.toNat / 2 ^ (lo + wd) + 1) * 2 ^ (lo + wd) ≤ 2 ^ (32 - (lo + wd)) * 2 ^ (lo + wd) :=
      Nat.mul_le_mul_right _ hlt
    rw [← pow_add] at this
    have e : 32 - (lo + wd) + (lo + wd) = 32 := by omega
    rw [e] at this; nlinarith
  unfold setBits getBits
  have heq : w.toNat - w.toNat / 2 ^ lo % 2 ^ wd * 2 ^ lo + v % 2 ^ wd * 2 ^ lo
      = w.toNat / 2 ^ (lo + wd) * 2 ^ (lo + wd) + v % 2 ^ wd * 2 ^ lo + w.toNat % 2 ^ lo := by omega
  rw [BitVec.toNat_ofNat, heq, Nat.mod_eq_of_lt (by omega)]

/-- A field reads what was written, cut to its width. -/
theorem getBits_setBits_same (w : Word) {lo wd : Nat} (v : Nat) (h : lo + wd ≤ 32) :
    getBits (setBits w lo wd v) lo wd = v % 2 ^ wd := by
  unfold getBits
  rw [setBits_toNat w v h]
  have hl : w.toNat % 2 ^ lo < 2 ^ lo := Nat.mod_lt _ (Nat.two_pow_pos _)
  have e : w.toNat / 2 ^ (lo + wd) * 2 ^ (lo + wd) + v % 2 ^ wd * 2 ^ lo + w.toNat % 2 ^ lo
      = (w.toNat / 2 ^ (lo + wd) * 2 ^ wd + v % 2 ^ wd) * 2 ^ lo + w.toNat % 2 ^ lo := by rw [pow_add]; ring
  rw [e, Nat.add_comm, Nat.add_mul_div_right _ _ (Nat.two_pow_pos _), Nat.div_eq_of_lt hl, Nat.zero_add,
    Nat.add_comm, Nat.add_mul_mod_self_right, Nat.mod_mod]

/-- A field that does not overlap the written one reads as before. -/
theorem getBits_setBits_other (w : Word) {lo wd lo' wd' : Nat} (v : Nat) (h : lo + wd ≤ 32)
    (hd : lo' + wd' ≤ lo ∨ lo + wd ≤ lo') : getBits (setBits w lo wd v) lo' wd' = getBits w lo' wd' := by
  unfold getBits
  rw [setBits_toNat w v h]
  have hl : w.toNat % 2 ^ lo < 2 ^ lo := Nat.mod_lt _ (Nat.two_pow_pos _)
  have hv : v % 2 ^ wd < 2 ^ wd := Nat.mod_lt _ (Nat.two_pow_pos _)
  rcases hd with hd | hd
  · have key : ∀ n : Nat, n / 2 ^ lo' % 2 ^ wd' = n % 2 ^ lo / 2 ^ lo' % 2 ^ wd' := by
      intro n
      have e : 2 ^ lo = 2 ^ lo' * 2 ^ (lo - lo') := by rw [← pow_add]; congr 1; omega
      rw [e, Nat.mod_mul_right_div_self]
      exact (Nat.mod_mod_of_dvd _ (Nat.pow_dvd_pow 2 (by omega))).symm
    rw [key, key w.toNat]
    congr 2
    have e : w.toNat / 2 ^ (lo + wd) * 2 ^ (lo + wd) + v % 2 ^ wd * 2 ^ lo
        = (w.toNat / 2 ^ (lo + wd) * 2 ^ wd + v % 2 ^ wd) * 2 ^ lo := by rw [pow_add]; ring
    rw [e, Nat.mul_comm, Nat.mul_add_mod, Nat.mod_mod]
  · have key : ∀ n : Nat, n / 2 ^ lo' = n / 2 ^ (lo + wd) / 2 ^ (lo' - (lo + wd)) := by
      intro n
      rw [Nat.div_div_eq_div_mul, ← pow_add]; congr 2; omega
    have hin : v % 2 ^ wd * 2 ^ lo + w.toNat % 2 ^ lo < 2 ^ (lo + wd) := by
      have : (v % 2 ^ wd + 1) * 2 ^ lo ≤ 2 ^ wd * 2 ^ lo := Nat.mul_le_mul_right _ hv
      rw [pow_add]; nlinarith
    rw [key, key w.toNat]
    congr 2
    rw [Nat.add_assoc, Nat.add_comm, Nat.add_mul_div_right _ _ (Nat.two_pow_pos _), Nat.div_eq_of_lt hin, Nat.zero_add]

/-! ### Reading after writing -/

/-- A register read after a register write. -/
theorem Dev.rd_wr (d : Dev) (p o s p' o' s' : Nat) (w : Word) :
    (d.wr p o w s).rd p' o' s' = if rkey p' o' s' = rkey p o s then w else d.rd p' o' s' :=
  tget_tset _ _ _ _ _

@[simp] theorem Dev.rd_wr_same (d : Dev) (p o s : Nat) (w : Word) : (d.wr p o w s).rd p o s = w := by
  simp [Dev.rd_wr]

theorem Dev.rd_wr_other (d : Dev) {p o s p' o' s' : Nat} (w : Word) (h : rkey p' o' s' ≠ rkey p o s) :
    (d.wr p o w s).rd p' o' s' = d.rd p' o' s' := by simp [Dev.rd_wr, h]

/-- A register read after a field write. -/
theorem Dev.rd_set (d : Dev) (p s p' o' s' v : Nat) (f : Field) :
    (d.set p f v s).rd p' o' s'
      = if rkey p' o' s' = rkey p f.off s then setBits (d.rd p f.off s) f.lo f.wd v else d.rd p' o' s' :=
  Dev.rd_wr _ _ _ _ _ _ _ _

theorem Dev.rd_set_other (d : Dev) {p s p' o' s' : Nat} (v : Nat) {f : Field} (h : rkey p' o' s' ≠ rkey p f.off s) :
    (d.set p f v s).rd p' o' s' = d.rd p' o' s' := by simp [Dev.rd_set, h]

/-- A field reads what was written to it, cut to its width. -/
theorem Dev.get_set_same (d : Dev) (p s v : Nat) {f : Field} (h : f.lo + f.wd ≤ 32) :
    (d.set p f v s).get p f s = v % 2 ^ f.wd := by
  simp [Dev.get, Dev.rd_set, getBits_setBits_same _ _ h]

/-- A field of another register, or of the same register beside the written one, reads as before. -/
theorem Dev.get_set_other (d : Dev) {p s p' s' : Nat} (v : Nat) {f g : Field}
    (h : rkey p' g.off s' ≠ rkey p f.off s ∨ (f.lo + f.wd ≤ 32 ∧ (g.lo + g.wd ≤ f.lo ∨ f.lo + f.wd ≤ g.lo))) :
    (d.set p f v s).get p' g s' = d.get p' g s' := by
  unfold Dev.get
  rw [Dev.rd_set]
  split
  · rename_i he
    rcases h with h | ⟨h1, h2⟩
    · exact absurd he h
    · rw [getBits_setBits_other _ _ h1 h2]
      unfold Dev.rd
      rw [he]
  · rfl

/-- Beside the written field, in the same page and instance. -/
theorem Dev.get_set_beside (d : Dev) {p s : Nat} (v : Nat) {f g : Field}
    (h : g.off ≠ f.off ∨ (f.lo + f.wd ≤ 32 ∧ (g.lo + g.wd ≤ f.lo ∨ f.lo + f.wd ≤ g.lo))) :
    (d.set p f v s).get p g s = d.get p g s := by
  rcases h with h | h
  · exact Dev.get_set_other d v (.inl (by rw [Ne, rkey_same_page]; omega))
  · exact Dev.get_set_other d v (.inr h)

/-- In another page. -/
theorem Dev.get_set_page (d : Dev) {p s p' s' : Nat} (v : Nat) {f g : Field} (h : p' ≠ p) (hf : f.off < 4096)
    (hg : g.off < 4096) (hs : s < 65536) (hs' : s' < 65536) : (d.set p f v s).get p' g s' = d.get p' g s' :=
  Dev.get_set_other d v (.inl (rkey_ne_of_page h hg hf hs' hs))

/-- Of another instance of the page's selected registers. -/
theorem Dev.get_set_sel (d : Dev) {p s s' : Nat} (v : Nat) {f g : Field} (h : s' ≠ s) (hs : s < 65536) (hs' : s' < 65536) :
    (d.set p f v s).get p g s' = d.get p g s' :=
  Dev.get_set_other d v (.inl (by rw [Ne, rkey_same_page]; omega))

/-- A field after a write of a field, in one equation. -/
theorem Dev.get_set (d : Dev) (p s p' s' v : Nat) (f g : Field) :
    (d.set p f v s).get p' g s'
      = if rkey p' g.off s' = rkey p f.off s then getBits (setBits (d.rd p f.off s) f.lo f.wd v) g.lo g.wd
        else d.get p' g s' := by
  unfold Dev.get
  rw [Dev.rd_set]
  split <;> rfl

theorem Dev.get_wr (d : Dev) (p o s p' s' : Nat) (w : Word) (g : Field) :
    (d.wr p o w s).get p' g s' = if rkey p' g.off s' = rkey p o s then getBits w g.lo g.wd else d.get p' g s' := by
  unfold Dev.get
  rw [Dev.rd_wr]
  split <;> rfl

end Sys2Proof.Machine
end

