-- ==== Sys2Proof/Laws/State.lean ====
section
/-!
SUPPORT. Laws/State.lean: what each elementary update of the device leaves alone: part by part of State, and within the
part that holds the registers field by field. Each is a projection of the constructor (stated first), so that neither
simp nor the kernel unfolds a record update or a register's value.
-/
namespace Sys2Proof.Machine

theorem Dev.mk_toControl (x0 : Control) (x1 : Clocks) (x2 : References) (x3 : Records) (x4 : Ports) (x5 : Frames) (x6 : Lookup) (x7 : Pairing) (x8 : Services) (x9 : Attached) :
    (Dev.mk x0 x1 x2 x3 x4 x5 x6 x7 x8 x9).toControl = x0 := rfl
theorem Dev.mk_toClocks (x0 : Control) (x1 : Clocks) (x2 : References) (x3 : Records) (x4 : Ports) (x5 : Frames) (x6 : Lookup) (x7 : Pairing) (x8 : Services) (x9 : Attached) :
    (Dev.mk x0 x1 x2 x3 x4 x5 x6 x7 x8 x9).toClocks = x1 := rfl
theorem Dev.mk_toReferences (x0 : Control) (x1 : Clocks) (x2 : References) (x3 : Records) (x4 : Ports) (x5 : Frames) (x6 : Lookup) (x7 : Pairing) (x8 : Services) (x9 : Attached) :
    (Dev.mk x0 x1 x2 x3 x4 x5 x6 x7 x8 x9).toReferences = x2 := rfl
theorem Dev.mk_toRecords (x0 : Control) (x1 : Clocks) (x2 : References) (x3 : Records) (x4 : Ports) (x5 : Frames) (x6 : Lookup) (x7 : Pairing) (x8 : Services) (x9 : Attached) :
    (Dev.mk x0 x1 x2 x3 x4 x5 x6 x7 x8 x9).toRecords = x3 := rfl
theorem Dev.mk_toPorts (x0 : Control) (x1 : Clocks) (x2 : References) (x3 : Records) (x4 : Ports) (x5 : Frames) (x6 : Lookup) (x7 : Pairing) (x8 : Services) (x9 : Attached) :
    (Dev.mk x0 x1 x2 x3 x4 x5 x6 x7 x8 x9).toPorts = x4 := rfl
theorem Dev.mk_toFrames (x0 : Control) (x1 : Clocks) (x2 : References) (x3 : Records) (x4 : Ports) (x5 : Frames) (x6 : Lookup) (x7 : Pairing) (x8 : Services) (x9 : Attached) :
    (Dev.mk x0 x1 x2 x3 x4 x5 x6 x7 x8 x9).toFrames = x5 := rfl
theorem Dev.mk_toLookup (x0 : Control) (x1 : Clocks) (x2 : References) (x3 : Records) (x4 : Ports) (x5 : Frames) (x6 : Lookup) (x7 : Pairing) (x8 : Services) (x9 : Attached) :
    (Dev.mk x0 x1 x2 x3 x4 x5 x6 x7 x8 x9).toLookup = x6 := rfl
theorem Dev.mk_toPairing (x0 : Control) (x1 : Clocks) (x2 : References) (x3 : Records) (x4 : Ports) (x5 : Frames) (x6 : Lookup) (x7 : Pairing) (x8 : Services) (x9 : Attached) :
    (Dev.mk x0 x1 x2 x3 x4 x5 x6 x7 x8 x9).toPairing = x7 := rfl
theorem Dev.mk_toServices (x0 : Control) (x1 : Clocks) (x2 : References) (x3 : Records) (x4 : Ports) (x5 : Frames) (x6 : Lookup) (x7 : Pairing) (x8 : Services) (x9 : Attached) :
    (Dev.mk x0 x1 x2 x3 x4 x5 x6 x7 x8 x9).toServices = x8 := rfl
theorem Dev.mk_toAttached (x0 : Control) (x1 : Clocks) (x2 : References) (x3 : Records) (x4 : Ports) (x5 : Frames) (x6 : Lookup) (x7 : Pairing) (x8 : Services) (x9 : Attached) :
    (Dev.mk x0 x1 x2 x3 x4 x5 x6 x7 x8 x9).toAttached = x9 := rfl
theorem Dev.mk_regs (x0 : Control) (x1 : Clocks) (x2 : References) (x3 : Records) (x4 : Ports) (x5 : Frames) (x6 : Lookup) (x7 : Pairing) (x8 : Services) (x9 : Attached) :
    (Dev.mk x0 x1 x2 x3 x4 x5 x6 x7 x8 x9).regs = x0.regs := rfl
theorem Dev.mk_shadow (x0 : Control) (x1 : Clocks) (x2 : References) (x3 : Records) (x4 : Ports) (x5 : Frames) (x6 : Lookup) (x7 : Pairing) (x8 : Services) (x9 : Attached) :
    (Dev.mk x0 x1 x2 x3 x4 x5 x6 x7 x8 x9).shadow = x0.shadow := rfl
theorem Dev.mk_freeCtr (x0 : Control) (x1 : Clocks) (x2 : References) (x3 : Records) (x4 : Ports) (x5 : Frames) (x6 : Lookup) (x7 : Pairing) (x8 : Services) (x9 : Attached) :
    (Dev.mk x0 x1 x2 x3 x4 x5 x6 x7 x8 x9).freeCtr = x0.freeCtr := rfl
theorem Dev.mk_out (x0 : Control) (x1 : Clocks) (x2 : References) (x3 : Records) (x4 : Ports) (x5 : Frames) (x6 : Lookup) (x7 : Pairing) (x8 : Services) (x9 : Attached) :
    (Dev.mk x0 x1 x2 x3 x4 x5 x6 x7 x8 x9).out = x0.out := rfl
theorem Dev.mk_rel (x0 : Control) (x1 : Clocks) (x2 : References) (x3 : Records) (x4 : Ports) (x5 : Frames) (x6 : Lookup) (x7 : Pairing) (x8 : Services) (x9 : Attached) :
    (Dev.mk x0 x1 x2 x3 x4 x5 x6 x7 x8 x9).rel = x0.rel := rfl
theorem Dev.mk_held (x0 : Control) (x1 : Clocks) (x2 : References) (x3 : Records) (x4 : Ports) (x5 : Frames) (x6 : Lookup) (x7 : Pairing) (x8 : Services) (x9 : Attached) :
    (Dev.mk x0 x1 x2 x3 x4 x5 x6 x7 x8 x9).held = x0.held := rfl
theorem Dev.mk_accStat (x0 : Control) (x1 : Clocks) (x2 : References) (x3 : Records) (x4 : Ports) (x5 : Frames) (x6 : Lookup) (x7 : Pairing) (x8 : Services) (x9 : Attached) :
    (Dev.mk x0 x1 x2 x3 x4 x5 x6 x7 x8 x9).accStat = x0.accStat := rfl
theorem Dev.mk_xphase (x0 : Control) (x1 : Clocks) (x2 : References) (x3 : Records) (x4 : Ports) (x5 : Frames) (x6 : Lookup) (x7 : Pairing) (x8 : Services) (x9 : Attached) :
    (Dev.mk x0 x1 x2 x3 x4 x5 x6 x7 x8 x9).xphase = x0.xphase := rfl
theorem Dev.mk_avsWritten (x0 : Control) (x1 : Clocks) (x2 : References) (x3 : Records) (x4 : Ports) (x5 : Frames) (x6 : Lookup) (x7 : Pairing) (x8 : Services) (x9 : Attached) :
    (Dev.mk x0 x1 x2 x3 x4 x5 x6 x7 x8 x9).avsWritten = x0.avsWritten := rfl
theorem Dev.mk_wins (x0 : Control) (x1 : Clocks) (x2 : References) (x3 : Records) (x4 : Ports) (x5 : Frames) (x6 : Lookup) (x7 : Pairing) (x8 : Services) (x9 : Attached) :
    (Dev.mk x0 x1 x2 x3 x4 x5 x6 x7 x8 x9).wins = x0.wins := rfl
theorem Dev.mk_felt (x0 : Control) (x1 : Clocks) (x2 : References) (x3 : Records) (x4 : Ports) (x5 : Frames) (x6 : Lookup) (x7 : Pairing) (x8 : Services) (x9 : Attached) :
    (Dev.mk x0 x1 x2 x3 x4 x5 x6 x7 x8 x9).felt = x0.felt := rfl
theorem Dev.mk_now (x0 : Control) (x1 : Clocks) (x2 : References) (x3 : Records) (x4 : Ports) (x5 : Frames) (x6 : Lookup) (x7 : Pairing) (x8 : Services) (x9 : Attached) :
    (Dev.mk x0 x1 x2 x3 x4 x5 x6 x7 x8 x9).now = x1.now := rfl
theorem Dev.mk_copyOfs (x0 : Control) (x1 : Clocks) (x2 : References) (x3 : Records) (x4 : Ports) (x5 : Frames) (x6 : Lookup) (x7 : Pairing) (x8 : Services) (x9 : Attached) :
    (Dev.mk x0 x1 x2 x3 x4 x5 x6 x7 x8 x9).copyOfs = x1.copyOfs := rfl
theorem Dev.mk_slewRem (x0 : Control) (x1 : Clocks) (x2 : References) (x3 : Records) (x4 : Ports) (x5 : Frames) (x6 : Lookup) (x7 : Pairing) (x8 : Services) (x9 : Attached) :
    (Dev.mk x0 x1 x2 x3 x4 x5 x6 x7 x8 x9).slewRem = x1.slewRem := rfl
theorem Dev.mk_slewOn (x0 : Control) (x1 : Clocks) (x2 : References) (x3 : Records) (x4 : Ports) (x5 : Frames) (x6 : Lookup) (x7 : Pairing) (x8 : Services) (x9 : Attached) :
    (Dev.mk x0 x1 x2 x3 x4 x5 x6 x7 x8 x9).slewOn = x1.slewOn := rfl
theorem Dev.mk_deficit (x0 : Control) (x1 : Clocks) (x2 : References) (x3 : Records) (x4 : Ports) (x5 : Frames) (x6 : Lookup) (x7 : Pairing) (x8 : Services) (x9 : Attached) :
    (Dev.mk x0 x1 x2 x3 x4 x5 x6 x7 x8 x9).deficit = x1.deficit := rfl
theorem Dev.mk_negOn (x0 : Control) (x1 : Clocks) (x2 : References) (x3 : Records) (x4 : Ports) (x5 : Frames) (x6 : Lookup) (x7 : Pairing) (x8 : Services) (x9 : Attached) :
    (Dev.mk x0 x1 x2 x3 x4 x5 x6 x7 x8 x9).negOn = x1.negOn := rfl
theorem Dev.mk_txf (x0 : Control) (x1 : Clocks) (x2 : References) (x3 : Records) (x4 : Ports) (x5 : Frames) (x6 : Lookup) (x7 : Pairing) (x8 : Services) (x9 : Attached) :
    (Dev.mk x0 x1 x2 x3 x4 x5 x6 x7 x8 x9).txf = x1.txf := rfl
theorem Dev.mk_txfLost (x0 : Control) (x1 : Clocks) (x2 : References) (x3 : Records) (x4 : Ports) (x5 : Frames) (x6 : Lookup) (x7 : Pairing) (x8 : Services) (x9 : Attached) :
    (Dev.mk x0 x1 x2 x3 x4 x5 x6 x7 x8 x9).txfLost = x1.txfLost := rfl
theorem Dev.mk_cap (x0 : Control) (x1 : Clocks) (x2 : References) (x3 : Records) (x4 : Ports) (x5 : Frames) (x6 : Lookup) (x7 : Pairing) (x8 : Services) (x9 : Attached) :
    (Dev.mk x0 x1 x2 x3 x4 x5 x6 x7 x8 x9).cap = x1.cap := rfl
theorem Dev.mk_absOfs (x0 : Control) (x1 : Clocks) (x2 : References) (x3 : Records) (x4 : Ports) (x5 : Frames) (x6 : Lookup) (x7 : Pairing) (x8 : Services) (x9 : Attached) :
    (Dev.mk x0 x1 x2 x3 x4 x5 x6 x7 x8 x9).absOfs = x1.absOfs := rfl
theorem Dev.mk_softMsg (x0 : Control) (x1 : Clocks) (x2 : References) (x3 : Records) (x4 : Ports) (x5 : Frames) (x6 : Lookup) (x7 : Pairing) (x8 : Services) (x9 : Attached) :
    (Dev.mk x0 x1 x2 x3 x4 x5 x6 x7 x8 x9).softMsg = x1.softMsg := rfl
theorem Dev.mk_hardFrom (x0 : Control) (x1 : Clocks) (x2 : References) (x3 : Records) (x4 : Ports) (x5 : Frames) (x6 : Lookup) (x7 : Pairing) (x8 : Services) (x9 : Attached) :
    (Dev.mk x0 x1 x2 x3 x4 x5 x6 x7 x8 x9).hardFrom = x1.hardFrom := rfl
theorem Dev.mk_outFrom (x0 : Control) (x1 : Clocks) (x2 : References) (x3 : Records) (x4 : Ports) (x5 : Frames) (x6 : Lookup) (x7 : Pairing) (x8 : Services) (x9 : Attached) :
    (Dev.mk x0 x1 x2 x3 x4 x5 x6 x7 x8 x9).outFrom = x1.outFrom := rfl
theorem Dev.mk_outStart (x0 : Control) (x1 : Clocks) (x2 : References) (x3 : Records) (x4 : Ports) (x5 : Frames) (x6 : Lookup) (x7 : Pairing) (x8 : Services) (x9 : Attached) :
    (Dev.mk x0 x1 x2 x3 x4 x5 x6 x7 x8 x9).outStart = x1.outStart := rfl
theorem Dev.mk_outRuns (x0 : Control) (x1 : Clocks) (x2 : References) (x3 : Records) (x4 : Ports) (x5 : Frames) (x6 : Lookup) (x7 : Pairing) (x8 : Services) (x9 : Attached) :
    (Dev.mk x0 x1 x2 x3 x4 x5 x6 x7 x8 x9).outRuns = x1.outRuns := rfl
theorem Dev.mk_driveFrom (x0 : Control) (x1 : Clocks) (x2 : References) (x3 : Records) (x4 : Ports) (x5 : Frames) (x6 : Lookup) (x7 : Pairing) (x8 : Services) (x9 : Attached) :
    (Dev.mk x0 x1 x2 x3 x4 x5 x6 x7 x8 x9).driveFrom = x1.driveFrom := rfl
theorem Dev.mk_outStop (x0 : Control) (x1 : Clocks) (x2 : References) (x3 : Records) (x4 : Ports) (x5 : Frames) (x6 : Lookup) (x7 : Pairing) (x8 : Services) (x9 : Attached) :
    (Dev.mk x0 x1 x2 x3 x4 x5 x6 x7 x8 x9).outStop = x1.outStop := rfl
theorem Dev.mk_outErr (x0 : Control) (x1 : Clocks) (x2 : References) (x3 : Records) (x4 : Ports) (x5 : Frames) (x6 : Lookup) (x7 : Pairing) (x8 : Services) (x9 : Attached) :
    (Dev.mk x0 x1 x2 x3 x4 x5 x6 x7 x8 x9).outErr = x1.outErr := rfl
theorem Dev.mk_skewFrom (x0 : Control) (x1 : Clocks) (x2 : References) (x3 : Records) (x4 : Ports) (x5 : Frames) (x6 : Lookup) (x7 : Pairing) (x8 : Services) (x9 : Attached) :
    (Dev.mk x0 x1 x2 x3 x4 x5 x6 x7 x8 x9).skewFrom = x1.skewFrom := rfl
theorem Dev.mk_outWalk (x0 : Control) (x1 : Clocks) (x2 : References) (x3 : Records) (x4 : Ports) (x5 : Frames) (x6 : Lookup) (x7 : Pairing) (x8 : Services) (x9 : Attached) :
    (Dev.mk x0 x1 x2 x3 x4 x5 x6 x7 x8 x9).outWalk = x1.outWalk := rfl
theorem Dev.mk_lfsr (x0 : Control) (x1 : Clocks) (x2 : References) (x3 : Records) (x4 : Ports) (x5 : Frames) (x6 : Lookup) (x7 : Pairing) (x8 : Services) (x9 : Attached) :
    (Dev.mk x0 x1 x2 x3 x4 x5 x6 x7 x8 x9).lfsr = x1.lfsr := rfl
theorem Dev.mk_bandTune (x0 : Control) (x1 : Clocks) (x2 : References) (x3 : Records) (x4 : Ports) (x5 : Frames) (x6 : Lookup) (x7 : Pairing) (x8 : Services) (x9 : Attached) :
    (Dev.mk x0 x1 x2 x3 x4 x5 x6 x7 x8 x9).bandTune = x1.bandTune := rfl
theorem Dev.mk_evts (x0 : Control) (x1 : Clocks) (x2 : References) (x3 : Records) (x4 : Ports) (x5 : Frames) (x6 : Lookup) (x7 : Pairing) (x8 : Services) (x9 : Attached) :
    (Dev.mk x0 x1 x2 x3 x4 x5 x6 x7 x8 x9).evts = x1.evts := rfl
theorem Dev.mk_slots (x0 : Control) (x1 : Clocks) (x2 : References) (x3 : Records) (x4 : Ports) (x5 : Frames) (x6 : Lookup) (x7 : Pairing) (x8 : Services) (x9 : Attached) :
    (Dev.mk x0 x1 x2 x3 x4 x5 x6 x7 x8 x9).slots = x2.slots := rfl
theorem Dev.mk_refMode (x0 : Control) (x1 : Clocks) (x2 : References) (x3 : Records) (x4 : Ports) (x5 : Frames) (x6 : Lookup) (x7 : Pairing) (x8 : Services) (x9 : Attached) :
    (Dev.mk x0 x1 x2 x3 x4 x5 x6 x7 x8 x9).refMode = x2.refMode := rfl
theorem Dev.mk_refSlot (x0 : Control) (x1 : Clocks) (x2 : References) (x3 : Records) (x4 : Ports) (x5 : Frames) (x6 : Lookup) (x7 : Pairing) (x8 : Services) (x9 : Attached) :
    (Dev.mk x0 x1 x2 x3 x4 x5 x6 x7 x8 x9).refSlot = x2.refSlot := rfl
theorem Dev.mk_refPend (x0 : Control) (x1 : Clocks) (x2 : References) (x3 : Records) (x4 : Ports) (x5 : Frames) (x6 : Lookup) (x7 : Pairing) (x8 : Services) (x9 : Attached) :
    (Dev.mk x0 x1 x2 x3 x4 x5 x6 x7 x8 x9).refPend = x2.refPend := rfl
theorem Dev.mk_refTarget (x0 : Control) (x1 : Clocks) (x2 : References) (x3 : Records) (x4 : Ports) (x5 : Frames) (x6 : Lookup) (x7 : Pairing) (x8 : Services) (x9 : Attached) :
    (Dev.mk x0 x1 x2 x3 x4 x5 x6 x7 x8 x9).refTarget = x2.refTarget := rfl
theorem Dev.mk_refZero (x0 : Control) (x1 : Clocks) (x2 : References) (x3 : Records) (x4 : Ports) (x5 : Frames) (x6 : Lookup) (x7 : Pairing) (x8 : Services) (x9 : Attached) :
    (Dev.mk x0 x1 x2 x3 x4 x5 x6 x7 x8 x9).refZero = x2.refZero := rfl
theorem Dev.mk_hoHist (x0 : Control) (x1 : Clocks) (x2 : References) (x3 : Records) (x4 : Ports) (x5 : Frames) (x6 : Lookup) (x7 : Pairing) (x8 : Services) (x9 : Attached) :
    (Dev.mk x0 x1 x2 x3 x4 x5 x6 x7 x8 x9).hoHist = x2.hoHist := rfl
theorem Dev.mk_hoFrozen (x0 : Control) (x1 : Clocks) (x2 : References) (x3 : Records) (x4 : Ports) (x5 : Frames) (x6 : Lookup) (x7 : Pairing) (x8 : Services) (x9 : Attached) :
    (Dev.mk x0 x1 x2 x3 x4 x5 x6 x7 x8 x9).hoFrozen = x2.hoFrozen := rfl
theorem Dev.mk_hoEntry (x0 : Control) (x1 : Clocks) (x2 : References) (x3 : Records) (x4 : Ports) (x5 : Frames) (x6 : Lookup) (x7 : Pairing) (x8 : Services) (x9 : Attached) :
    (Dev.mk x0 x1 x2 x3 x4 x5 x6 x7 x8 x9).hoEntry = x2.hoEntry := rfl
theorem Dev.mk_hoBridge (x0 : Control) (x1 : Clocks) (x2 : References) (x3 : Records) (x4 : Ports) (x5 : Frames) (x6 : Lookup) (x7 : Pairing) (x8 : Services) (x9 : Attached) :
    (Dev.mk x0 x1 x2 x3 x4 x5 x6 x7 x8 x9).hoBridge = x2.hoBridge := rfl
theorem Dev.mk_learn (x0 : Control) (x1 : Clocks) (x2 : References) (x3 : Records) (x4 : Ports) (x5 : Frames) (x6 : Lookup) (x7 : Pairing) (x8 : Services) (x9 : Attached) :
    (Dev.mk x0 x1 x2 x3 x4 x5 x6 x7 x8 x9).learn = x2.learn := rfl
theorem Dev.mk_hoNext (x0 : Control) (x1 : Clocks) (x2 : References) (x3 : Records) (x4 : Ports) (x5 : Frames) (x6 : Lookup) (x7 : Pairing) (x8 : Services) (x9 : Attached) :
    (Dev.mk x0 x1 x2 x3 x4 x5 x6 x7 x8 x9).hoNext = x2.hoNext := rfl
theorem Dev.mk_hoFit (x0 : Control) (x1 : Clocks) (x2 : References) (x3 : Records) (x4 : Ports) (x5 : Frames) (x6 : Lookup) (x7 : Pairing) (x8 : Services) (x9 : Attached) :
    (Dev.mk x0 x1 x2 x3 x4 x5 x6 x7 x8 x9).hoFit = x2.hoFit := rfl
theorem Dev.mk_tally (x0 : Control) (x1 : Clocks) (x2 : References) (x3 : Records) (x4 : Ports) (x5 : Frames) (x6 : Lookup) (x7 : Pairing) (x8 : Services) (x9 : Attached) :
    (Dev.mk x0 x1 x2 x3 x4 x5 x6 x7 x8 x9).tally = x3.tally := rfl
theorem Dev.mk_snap (x0 : Control) (x1 : Clocks) (x2 : References) (x3 : Records) (x4 : Ports) (x5 : Frames) (x6 : Lookup) (x7 : Pairing) (x8 : Services) (x9 : Attached) :
    (Dev.mk x0 x1 x2 x3 x4 x5 x6 x7 x8 x9).snap = x3.snap := rfl
theorem Dev.mk_snapLate (x0 : Control) (x1 : Clocks) (x2 : References) (x3 : Records) (x4 : Ports) (x5 : Frames) (x6 : Lookup) (x7 : Pairing) (x8 : Services) (x9 : Attached) :
    (Dev.mk x0 x1 x2 x3 x4 x5 x6 x7 x8 x9).snapLate = x3.snapLate := rfl
theorem Dev.mk_freezeAt (x0 : Control) (x1 : Clocks) (x2 : References) (x3 : Records) (x4 : Ports) (x5 : Frames) (x6 : Lookup) (x7 : Pairing) (x8 : Services) (x9 : Attached) :
    (Dev.mk x0 x1 x2 x3 x4 x5 x6 x7 x8 x9).freezeAt = x3.freezeAt := rfl
theorem Dev.mk_collecting (x0 : Control) (x1 : Clocks) (x2 : References) (x3 : Records) (x4 : Ports) (x5 : Frames) (x6 : Lookup) (x7 : Pairing) (x8 : Services) (x9 : Attached) :
    (Dev.mk x0 x1 x2 x3 x4 x5 x6 x7 x8 x9).collecting = x3.collecting := rfl
theorem Dev.mk_snapHeld (x0 : Control) (x1 : Clocks) (x2 : References) (x3 : Records) (x4 : Ports) (x5 : Frames) (x6 : Lookup) (x7 : Pairing) (x8 : Services) (x9 : Attached) :
    (Dev.mk x0 x1 x2 x3 x4 x5 x6 x7 x8 x9).snapHeld = x3.snapHeld := rfl
theorem Dev.mk_smpCount (x0 : Control) (x1 : Clocks) (x2 : References) (x3 : Records) (x4 : Ports) (x5 : Frames) (x6 : Lookup) (x7 : Pairing) (x8 : Services) (x9 : Attached) :
    (Dev.mk x0 x1 x2 x3 x4 x5 x6 x7 x8 x9).smpCount = x3.smpCount := rfl
theorem Dev.mk_logHeld (x0 : Control) (x1 : Clocks) (x2 : References) (x3 : Records) (x4 : Ports) (x5 : Frames) (x6 : Lookup) (x7 : Pairing) (x8 : Services) (x9 : Attached) :
    (Dev.mk x0 x1 x2 x3 x4 x5 x6 x7 x8 x9).logHeld = x3.logHeld := rfl
theorem Dev.mk_logLost (x0 : Control) (x1 : Clocks) (x2 : References) (x3 : Records) (x4 : Ports) (x5 : Frames) (x6 : Lookup) (x7 : Pairing) (x8 : Services) (x9 : Attached) :
    (Dev.mk x0 x1 x2 x3 x4 x5 x6 x7 x8 x9).logLost = x3.logLost := rfl
theorem Dev.mk_logSec (x0 : Control) (x1 : Clocks) (x2 : References) (x3 : Records) (x4 : Ports) (x5 : Frames) (x6 : Lookup) (x7 : Pairing) (x8 : Services) (x9 : Attached) :
    (Dev.mk x0 x1 x2 x3 x4 x5 x6 x7 x8 x9).logSec = x3.logSec := rfl
theorem Dev.mk_logFill (x0 : Control) (x1 : Clocks) (x2 : References) (x3 : Records) (x4 : Ports) (x5 : Frames) (x6 : Lookup) (x7 : Pairing) (x8 : Services) (x9 : Attached) :
    (Dev.mk x0 x1 x2 x3 x4 x5 x6 x7 x8 x9).logFill = x3.logFill := rfl
theorem Dev.mk_lockSites (x0 : Control) (x1 : Clocks) (x2 : References) (x3 : Records) (x4 : Ports) (x5 : Frames) (x6 : Lookup) (x7 : Pairing) (x8 : Services) (x9 : Attached) :
    (Dev.mk x0 x1 x2 x3 x4 x5 x6 x7 x8 x9).lockSites = x3.lockSites := rfl
theorem Dev.mk_epash (x0 : Control) (x1 : Clocks) (x2 : References) (x3 : Records) (x4 : Ports) (x5 : Frames) (x6 : Lookup) (x7 : Pairing) (x8 : Services) (x9 : Attached) :
    (Dev.mk x0 x1 x2 x3 x4 x5 x6 x7 x8 x9).epash = x3.epash := rfl
theorem Dev.mk_dramTest (x0 : Control) (x1 : Clocks) (x2 : References) (x3 : Records) (x4 : Ports) (x5 : Frames) (x6 : Lookup) (x7 : Pairing) (x8 : Services) (x9 : Attached) :
    (Dev.mk x0 x1 x2 x3 x4 x5 x6 x7 x8 x9).dramTest = x3.dramTest := rfl
theorem Dev.mk_testMode (x0 : Control) (x1 : Clocks) (x2 : References) (x3 : Records) (x4 : Ports) (x5 : Frames) (x6 : Lookup) (x7 : Pairing) (x8 : Services) (x9 : Attached) :
    (Dev.mk x0 x1 x2 x3 x4 x5 x6 x7 x8 x9).testMode = x3.testMode := rfl
theorem Dev.mk_lanes (x0 : Control) (x1 : Clocks) (x2 : References) (x3 : Records) (x4 : Ports) (x5 : Frames) (x6 : Lookup) (x7 : Pairing) (x8 : Services) (x9 : Attached) :
    (Dev.mk x0 x1 x2 x3 x4 x5 x6 x7 x8 x9).lanes = x4.lanes := rfl
theorem Dev.mk_pace (x0 : Control) (x1 : Clocks) (x2 : References) (x3 : Records) (x4 : Ports) (x5 : Frames) (x6 : Lookup) (x7 : Pairing) (x8 : Services) (x9 : Attached) :
    (Dev.mk x0 x1 x2 x3 x4 x5 x6 x7 x8 x9).pace = x4.pace := rfl
theorem Dev.mk_pauses (x0 : Control) (x1 : Clocks) (x2 : References) (x3 : Records) (x4 : Ports) (x5 : Frames) (x6 : Lookup) (x7 : Pairing) (x8 : Services) (x9 : Attached) :
    (Dev.mk x0 x1 x2 x3 x4 x5 x6 x7 x8 x9).pauses = x4.pauses := rfl
theorem Dev.mk_launchQ (x0 : Control) (x1 : Clocks) (x2 : References) (x3 : Records) (x4 : Ports) (x5 : Frames) (x6 : Lookup) (x7 : Pairing) (x8 : Services) (x9 : Attached) :
    (Dev.mk x0 x1 x2 x3 x4 x5 x6 x7 x8 x9).launchQ = x4.launchQ := rfl
theorem Dev.mk_gclPorts (x0 : Control) (x1 : Clocks) (x2 : References) (x3 : Records) (x4 : Ports) (x5 : Frames) (x6 : Lookup) (x7 : Pairing) (x8 : Services) (x9 : Attached) :
    (Dev.mk x0 x1 x2 x3 x4 x5 x6 x7 x8 x9).gclPorts = x4.gclPorts := rfl
theorem Dev.mk_blkStage (x0 : Control) (x1 : Clocks) (x2 : References) (x3 : Records) (x4 : Ports) (x5 : Frames) (x6 : Lookup) (x7 : Pairing) (x8 : Services) (x9 : Attached) :
    (Dev.mk x0 x1 x2 x3 x4 x5 x6 x7 x8 x9).blkStage = x4.blkStage := rfl
theorem Dev.mk_nodes (x0 : Control) (x1 : Clocks) (x2 : References) (x3 : Records) (x4 : Ports) (x5 : Frames) (x6 : Lookup) (x7 : Pairing) (x8 : Services) (x9 : Attached) :
    (Dev.mk x0 x1 x2 x3 x4 x5 x6 x7 x8 x9).nodes = x4.nodes := rfl
theorem Dev.mk_outputs (x0 : Control) (x1 : Clocks) (x2 : References) (x3 : Records) (x4 : Ports) (x5 : Frames) (x6 : Lookup) (x7 : Pairing) (x8 : Services) (x9 : Attached) :
    (Dev.mk x0 x1 x2 x3 x4 x5 x6 x7 x8 x9).outputs = x4.outputs := rfl
theorem Dev.mk_holdLoop (x0 : Control) (x1 : Clocks) (x2 : References) (x3 : Records) (x4 : Ports) (x5 : Frames) (x6 : Lookup) (x7 : Pairing) (x8 : Services) (x9 : Attached) :
    (Dev.mk x0 x1 x2 x3 x4 x5 x6 x7 x8 x9).holdLoop = x4.holdLoop := rfl
theorem Dev.mk_holdFrom (x0 : Control) (x1 : Clocks) (x2 : References) (x3 : Records) (x4 : Ports) (x5 : Frames) (x6 : Lookup) (x7 : Pairing) (x8 : Services) (x9 : Attached) :
    (Dev.mk x0 x1 x2 x3 x4 x5 x6 x7 x8 x9).holdFrom = x4.holdFrom := rfl
theorem Dev.mk_frames (x0 : Control) (x1 : Clocks) (x2 : References) (x3 : Records) (x4 : Ports) (x5 : Frames) (x6 : Lookup) (x7 : Pairing) (x8 : Services) (x9 : Attached) :
    (Dev.mk x0 x1 x2 x3 x4 x5 x6 x7 x8 x9).frames = x5.frames := rfl
theorem Dev.mk_nextFrame (x0 : Control) (x1 : Clocks) (x2 : References) (x3 : Records) (x4 : Ports) (x5 : Frames) (x6 : Lookup) (x7 : Pairing) (x8 : Services) (x9 : Attached) :
    (Dev.mk x0 x1 x2 x3 x4 x5 x6 x7 x8 x9).nextFrame = x5.nextFrame := rfl
theorem Dev.mk_voqs (x0 : Control) (x1 : Clocks) (x2 : References) (x3 : Records) (x4 : Ports) (x5 : Frames) (x6 : Lookup) (x7 : Pairing) (x8 : Services) (x9 : Attached) :
    (Dev.mk x0 x1 x2 x3 x4 x5 x6 x7 x8 x9).voqs = x5.voqs := rfl
theorem Dev.mk_bufs (x0 : Control) (x1 : Clocks) (x2 : References) (x3 : Records) (x4 : Ports) (x5 : Frames) (x6 : Lookup) (x7 : Pairing) (x8 : Services) (x9 : Attached) :
    (Dev.mk x0 x1 x2 x3 x4 x5 x6 x7 x8 x9).bufs = x5.bufs := rfl
theorem Dev.mk_pools (x0 : Control) (x1 : Clocks) (x2 : References) (x3 : Records) (x4 : Ports) (x5 : Frames) (x6 : Lookup) (x7 : Pairing) (x8 : Services) (x9 : Attached) :
    (Dev.mk x0 x1 x2 x3 x4 x5 x6 x7 x8 x9).pools = x5.pools := rfl
theorem Dev.mk_holding (x0 : Control) (x1 : Clocks) (x2 : References) (x3 : Records) (x4 : Ports) (x5 : Frames) (x6 : Lookup) (x7 : Pairing) (x8 : Services) (x9 : Attached) :
    (Dev.mk x0 x1 x2 x3 x4 x5 x6 x7 x8 x9).holding = x5.holding := rfl
theorem Dev.mk_waitQ (x0 : Control) (x1 : Clocks) (x2 : References) (x3 : Records) (x4 : Ports) (x5 : Frames) (x6 : Lookup) (x7 : Pairing) (x8 : Services) (x9 : Attached) :
    (Dev.mk x0 x1 x2 x3 x4 x5 x6 x7 x8 x9).waitQ = x5.waitQ := rfl
theorem Dev.mk_rxNow (x0 : Control) (x1 : Clocks) (x2 : References) (x3 : Records) (x4 : Ports) (x5 : Frames) (x6 : Lookup) (x7 : Pairing) (x8 : Services) (x9 : Attached) :
    (Dev.mk x0 x1 x2 x3 x4 x5 x6 x7 x8 x9).rxNow = x5.rxNow := rfl
theorem Dev.mk_spillLines (x0 : Control) (x1 : Clocks) (x2 : References) (x3 : Records) (x4 : Ports) (x5 : Frames) (x6 : Lookup) (x7 : Pairing) (x8 : Services) (x9 : Attached) :
    (Dev.mk x0 x1 x2 x3 x4 x5 x6 x7 x8 x9).spillLines = x5.spillLines := rfl
theorem Dev.mk_refusedAt (x0 : Control) (x1 : Clocks) (x2 : References) (x3 : Records) (x4 : Ports) (x5 : Frames) (x6 : Lookup) (x7 : Pairing) (x8 : Services) (x9 : Attached) :
    (Dev.mk x0 x1 x2 x3 x4 x5 x6 x7 x8 x9).refusedAt = x5.refusedAt := rfl
theorem Dev.mk_groupKey (x0 : Control) (x1 : Clocks) (x2 : References) (x3 : Records) (x4 : Ports) (x5 : Frames) (x6 : Lookup) (x7 : Pairing) (x8 : Services) (x9 : Attached) :
    (Dev.mk x0 x1 x2 x3 x4 x5 x6 x7 x8 x9).groupKey = x5.groupKey := rfl
theorem Dev.mk_hashKey (x0 : Control) (x1 : Clocks) (x2 : References) (x3 : Records) (x4 : Ports) (x5 : Frames) (x6 : Lookup) (x7 : Pairing) (x8 : Services) (x9 : Attached) :
    (Dev.mk x0 x1 x2 x3 x4 x5 x6 x7 x8 x9).hashKey = x5.hashKey := rfl
theorem Dev.mk_bankCount (x0 : Control) (x1 : Clocks) (x2 : References) (x3 : Records) (x4 : Ports) (x5 : Frames) (x6 : Lookup) (x7 : Pairing) (x8 : Services) (x9 : Attached) :
    (Dev.mk x0 x1 x2 x3 x4 x5 x6 x7 x8 x9).bankCount = x5.bankCount := rfl
theorem Dev.mk_rerollAt (x0 : Control) (x1 : Clocks) (x2 : References) (x3 : Records) (x4 : Ports) (x5 : Frames) (x6 : Lookup) (x7 : Pairing) (x8 : Services) (x9 : Attached) :
    (Dev.mk x0 x1 x2 x3 x4 x5 x6 x7 x8 x9).rerollAt = x5.rerollAt := rfl
theorem Dev.mk_hashOver (x0 : Control) (x1 : Clocks) (x2 : References) (x3 : Records) (x4 : Ports) (x5 : Frames) (x6 : Lookup) (x7 : Pairing) (x8 : Services) (x9 : Attached) :
    (Dev.mk x0 x1 x2 x3 x4 x5 x6 x7 x8 x9).hashOver = x5.hashOver := rfl
theorem Dev.mk_hashHoldoff (x0 : Control) (x1 : Clocks) (x2 : References) (x3 : Records) (x4 : Ports) (x5 : Frames) (x6 : Lookup) (x7 : Pairing) (x8 : Services) (x9 : Attached) :
    (Dev.mk x0 x1 x2 x3 x4 x5 x6 x7 x8 x9).hashHoldoff = x5.hashHoldoff := rfl
theorem Dev.mk_flushing (x0 : Control) (x1 : Clocks) (x2 : References) (x3 : Records) (x4 : Ports) (x5 : Frames) (x6 : Lookup) (x7 : Pairing) (x8 : Services) (x9 : Attached) :
    (Dev.mk x0 x1 x2 x3 x4 x5 x6 x7 x8 x9).flushing = x5.flushing := rfl
theorem Dev.mk_tables (x0 : Control) (x1 : Clocks) (x2 : References) (x3 : Records) (x4 : Ports) (x5 : Frames) (x6 : Lookup) (x7 : Pairing) (x8 : Services) (x9 : Attached) :
    (Dev.mk x0 x1 x2 x3 x4 x5 x6 x7 x8 x9).tables = x6.tables := rfl
theorem Dev.mk_flips (x0 : Control) (x1 : Clocks) (x2 : References) (x3 : Records) (x4 : Ports) (x5 : Frames) (x6 : Lookup) (x7 : Pairing) (x8 : Services) (x9 : Attached) :
    (Dev.mk x0 x1 x2 x3 x4 x5 x6 x7 x8 x9).flips = x6.flips := rfl
theorem Dev.mk_tabShadow (x0 : Control) (x1 : Clocks) (x2 : References) (x3 : Records) (x4 : Ports) (x5 : Frames) (x6 : Lookup) (x7 : Pairing) (x8 : Services) (x9 : Attached) :
    (Dev.mk x0 x1 x2 x3 x4 x5 x6 x7 x8 x9).tabShadow = x6.tabShadow := rfl
theorem Dev.mk_meters (x0 : Control) (x1 : Clocks) (x2 : References) (x3 : Records) (x4 : Ports) (x5 : Frames) (x6 : Lookup) (x7 : Pairing) (x8 : Services) (x9 : Attached) :
    (Dev.mk x0 x1 x2 x3 x4 x5 x6 x7 x8 x9).meters = x6.meters := rfl
theorem Dev.mk_gates (x0 : Control) (x1 : Clocks) (x2 : References) (x3 : Records) (x4 : Ports) (x5 : Frames) (x6 : Lookup) (x7 : Pairing) (x8 : Services) (x9 : Attached) :
    (Dev.mk x0 x1 x2 x3 x4 x5 x6 x7 x8 x9).gates = x6.gates := rfl
theorem Dev.mk_puntBuckets (x0 : Control) (x1 : Clocks) (x2 : References) (x3 : Records) (x4 : Ports) (x5 : Frames) (x6 : Lookup) (x7 : Pairing) (x8 : Services) (x9 : Attached) :
    (Dev.mk x0 x1 x2 x3 x4 x5 x6 x7 x8 x9).puntBuckets = x6.puntBuckets := rfl
theorem Dev.mk_staging (x0 : Control) (x1 : Clocks) (x2 : References) (x3 : Records) (x4 : Ports) (x5 : Frames) (x6 : Lookup) (x7 : Pairing) (x8 : Services) (x9 : Attached) :
    (Dev.mk x0 x1 x2 x3 x4 x5 x6 x7 x8 x9).staging = x6.staging := rfl
theorem Dev.mk_retired (x0 : Control) (x1 : Clocks) (x2 : References) (x3 : Records) (x4 : Ports) (x5 : Frames) (x6 : Lookup) (x7 : Pairing) (x8 : Services) (x9 : Attached) :
    (Dev.mk x0 x1 x2 x3 x4 x5 x6 x7 x8 x9).retired = x6.retired := rfl
theorem Dev.mk_commitPage (x0 : Control) (x1 : Clocks) (x2 : References) (x3 : Records) (x4 : Ports) (x5 : Frames) (x6 : Lookup) (x7 : Pairing) (x8 : Services) (x9 : Attached) :
    (Dev.mk x0 x1 x2 x3 x4 x5 x6 x7 x8 x9).commitPage = x6.commitPage := rfl
theorem Dev.mk_commitDevice (x0 : Control) (x1 : Clocks) (x2 : References) (x3 : Records) (x4 : Ports) (x5 : Frames) (x6 : Lookup) (x7 : Pairing) (x8 : Services) (x9 : Attached) :
    (Dev.mk x0 x1 x2 x3 x4 x5 x6 x7 x8 x9).commitDevice = x6.commitDevice := rfl
theorem Dev.mk_sweptAt (x0 : Control) (x1 : Clocks) (x2 : References) (x3 : Records) (x4 : Ports) (x5 : Frames) (x6 : Lookup) (x7 : Pairing) (x8 : Services) (x9 : Attached) :
    (Dev.mk x0 x1 x2 x3 x4 x5 x6 x7 x8 x9).sweptAt = x6.sweptAt := rfl
theorem Dev.mk_epochSince (x0 : Control) (x1 : Clocks) (x2 : References) (x3 : Records) (x4 : Ports) (x5 : Frames) (x6 : Lookup) (x7 : Pairing) (x8 : Services) (x9 : Attached) :
    (Dev.mk x0 x1 x2 x3 x4 x5 x6 x7 x8 x9).epochSince = x6.epochSince := rfl
theorem Dev.mk_fdbKey (x0 : Control) (x1 : Clocks) (x2 : References) (x3 : Records) (x4 : Ports) (x5 : Frames) (x6 : Lookup) (x7 : Pairing) (x8 : Services) (x9 : Attached) :
    (Dev.mk x0 x1 x2 x3 x4 x5 x6 x7 x8 x9).fdbKey = x6.fdbKey := rfl
theorem Dev.mk_sidKey (x0 : Control) (x1 : Clocks) (x2 : References) (x3 : Records) (x4 : Ports) (x5 : Frames) (x6 : Lookup) (x7 : Pairing) (x8 : Services) (x9 : Attached) :
    (Dev.mk x0 x1 x2 x3 x4 x5 x6 x7 x8 x9).sidKey = x6.sidKey := rfl
theorem Dev.mk_learnQ (x0 : Control) (x1 : Clocks) (x2 : References) (x3 : Records) (x4 : Ports) (x5 : Frames) (x6 : Lookup) (x7 : Pairing) (x8 : Services) (x9 : Attached) :
    (Dev.mk x0 x1 x2 x3 x4 x5 x6 x7 x8 x9).learnQ = x6.learnQ := rfl
theorem Dev.mk_genLast (x0 : Control) (x1 : Clocks) (x2 : References) (x3 : Records) (x4 : Ports) (x5 : Frames) (x6 : Lookup) (x7 : Pairing) (x8 : Services) (x9 : Attached) :
    (Dev.mk x0 x1 x2 x3 x4 x5 x6 x7 x8 x9).genLast = x6.genLast := rfl
theorem Dev.mk_recLast (x0 : Control) (x1 : Clocks) (x2 : References) (x3 : Records) (x4 : Ports) (x5 : Frames) (x6 : Lookup) (x7 : Pairing) (x8 : Services) (x9 : Attached) :
    (Dev.mk x0 x1 x2 x3 x4 x5 x6 x7 x8 x9).recLast = x6.recLast := rfl
theorem Dev.mk_tripCnt (x0 : Control) (x1 : Clocks) (x2 : References) (x3 : Records) (x4 : Ports) (x5 : Frames) (x6 : Lookup) (x7 : Pairing) (x8 : Services) (x9 : Attached) :
    (Dev.mk x0 x1 x2 x3 x4 x5 x6 x7 x8 x9).tripCnt = x6.tripCnt := rfl
theorem Dev.mk_waitShadow (x0 : Control) (x1 : Clocks) (x2 : References) (x3 : Records) (x4 : Ports) (x5 : Frames) (x6 : Lookup) (x7 : Pairing) (x8 : Services) (x9 : Attached) :
    (Dev.mk x0 x1 x2 x3 x4 x5 x6 x7 x8 x9).waitShadow = x6.waitShadow := rfl
theorem Dev.mk_written (x0 : Control) (x1 : Clocks) (x2 : References) (x3 : Records) (x4 : Ports) (x5 : Frames) (x6 : Lookup) (x7 : Pairing) (x8 : Services) (x9 : Attached) :
    (Dev.mk x0 x1 x2 x3 x4 x5 x6 x7 x8 x9).written = x6.written := rfl
theorem Dev.mk_resv (x0 : Control) (x1 : Clocks) (x2 : References) (x3 : Records) (x4 : Ports) (x5 : Frames) (x6 : Lookup) (x7 : Pairing) (x8 : Services) (x9 : Attached) :
    (Dev.mk x0 x1 x2 x3 x4 x5 x6 x7 x8 x9).resv = x7.resv := rfl
theorem Dev.mk_reqQueue (x0 : Control) (x1 : Clocks) (x2 : References) (x3 : Records) (x4 : Ports) (x5 : Frames) (x6 : Lookup) (x7 : Pairing) (x8 : Services) (x9 : Attached) :
    (Dev.mk x0 x1 x2 x3 x4 x5 x6 x7 x8 x9).reqQueue = x7.reqQueue := rfl
theorem Dev.mk_rspQueue (x0 : Control) (x1 : Clocks) (x2 : References) (x3 : Records) (x4 : Ports) (x5 : Frames) (x6 : Lookup) (x7 : Pairing) (x8 : Services) (x9 : Attached) :
    (Dev.mk x0 x1 x2 x3 x4 x5 x6 x7 x8 x9).rspQueue = x7.rspQueue := rfl
theorem Dev.mk_rspWait (x0 : Control) (x1 : Clocks) (x2 : References) (x3 : Records) (x4 : Ports) (x5 : Frames) (x6 : Lookup) (x7 : Pairing) (x8 : Services) (x9 : Attached) :
    (Dev.mk x0 x1 x2 x3 x4 x5 x6 x7 x8 x9).rspWait = x7.rspWait := rfl
theorem Dev.mk_blkWaits (x0 : Control) (x1 : Clocks) (x2 : References) (x3 : Records) (x4 : Ports) (x5 : Frames) (x6 : Lookup) (x7 : Pairing) (x8 : Services) (x9 : Attached) :
    (Dev.mk x0 x1 x2 x3 x4 x5 x6 x7 x8 x9).blkWaits = x7.blkWaits := rfl
theorem Dev.mk_blkPlan (x0 : Control) (x1 : Clocks) (x2 : References) (x3 : Records) (x4 : Ports) (x5 : Frames) (x6 : Lookup) (x7 : Pairing) (x8 : Services) (x9 : Attached) :
    (Dev.mk x0 x1 x2 x3 x4 x5 x6 x7 x8 x9).blkPlan = x7.blkPlan := rfl
theorem Dev.mk_dblTables (x0 : Control) (x1 : Clocks) (x2 : References) (x3 : Records) (x4 : Ports) (x5 : Frames) (x6 : Lookup) (x7 : Pairing) (x8 : Services) (x9 : Attached) :
    (Dev.mk x0 x1 x2 x3 x4 x5 x6 x7 x8 x9).dblTables = x7.dblTables := rfl
theorem Dev.mk_dbl (x0 : Control) (x1 : Clocks) (x2 : References) (x3 : Records) (x4 : Ports) (x5 : Frames) (x6 : Lookup) (x7 : Pairing) (x8 : Services) (x9 : Attached) :
    (Dev.mk x0 x1 x2 x3 x4 x5 x6 x7 x8 x9).dbl = x7.dbl := rfl
theorem Dev.mk_pinOwnIn (x0 : Control) (x1 : Clocks) (x2 : References) (x3 : Records) (x4 : Ports) (x5 : Frames) (x6 : Lookup) (x7 : Pairing) (x8 : Services) (x9 : Attached) :
    (Dev.mk x0 x1 x2 x3 x4 x5 x6 x7 x8 x9).pinOwnIn = x7.pinOwnIn := rfl
theorem Dev.mk_pinSideB (x0 : Control) (x1 : Clocks) (x2 : References) (x3 : Records) (x4 : Ports) (x5 : Frames) (x6 : Lookup) (x7 : Pairing) (x8 : Services) (x9 : Attached) :
    (Dev.mk x0 x1 x2 x3 x4 x5 x6 x7 x8 x9).pinSideB = x7.pinSideB := rfl
theorem Dev.mk_mbxLo (x0 : Control) (x1 : Clocks) (x2 : References) (x3 : Records) (x4 : Ports) (x5 : Frames) (x6 : Lookup) (x7 : Pairing) (x8 : Services) (x9 : Attached) :
    (Dev.mk x0 x1 x2 x3 x4 x5 x6 x7 x8 x9).mbxLo = x8.mbxLo := rfl
theorem Dev.mk_fwCmds (x0 : Control) (x1 : Clocks) (x2 : References) (x3 : Records) (x4 : Ports) (x5 : Frames) (x6 : Lookup) (x7 : Pairing) (x8 : Services) (x9 : Attached) :
    (Dev.mk x0 x1 x2 x3 x4 x5 x6 x7 x8 x9).fwCmds = x8.fwCmds := rfl
theorem Dev.mk_fwOut (x0 : Control) (x1 : Clocks) (x2 : References) (x3 : Records) (x4 : Ports) (x5 : Frames) (x6 : Lookup) (x7 : Pairing) (x8 : Services) (x9 : Attached) :
    (Dev.mk x0 x1 x2 x3 x4 x5 x6 x7 x8 x9).fwOut = x8.fwOut := rfl
theorem Dev.mk_neigh (x0 : Control) (x1 : Clocks) (x2 : References) (x3 : Records) (x4 : Ports) (x5 : Frames) (x6 : Lookup) (x7 : Pairing) (x8 : Services) (x9 : Attached) :
    (Dev.mk x0 x1 x2 x3 x4 x5 x6 x7 x8 x9).neigh = x8.neigh := rfl
theorem Dev.mk_pageHolds (x0 : Control) (x1 : Clocks) (x2 : References) (x3 : Records) (x4 : Ports) (x5 : Frames) (x6 : Lookup) (x7 : Pairing) (x8 : Services) (x9 : Attached) :
    (Dev.mk x0 x1 x2 x3 x4 x5 x6 x7 x8 x9).pageHolds = x8.pageHolds := rfl
theorem Dev.mk_fwLater (x0 : Control) (x1 : Clocks) (x2 : References) (x3 : Records) (x4 : Ports) (x5 : Frames) (x6 : Lookup) (x7 : Pairing) (x8 : Services) (x9 : Attached) :
    (Dev.mk x0 x1 x2 x3 x4 x5 x6 x7 x8 x9).fwLater = x8.fwLater := rfl
theorem Dev.mk_ptpInst (x0 : Control) (x1 : Clocks) (x2 : References) (x3 : Records) (x4 : Ports) (x5 : Frames) (x6 : Lookup) (x7 : Pairing) (x8 : Services) (x9 : Attached) :
    (Dev.mk x0 x1 x2 x3 x4 x5 x6 x7 x8 x9).ptpInst = x8.ptpInst := rfl
theorem Dev.mk_ptpPort (x0 : Control) (x1 : Clocks) (x2 : References) (x3 : Records) (x4 : Ports) (x5 : Frames) (x6 : Lookup) (x7 : Pairing) (x8 : Services) (x9 : Attached) :
    (Dev.mk x0 x1 x2 x3 x4 x5 x6 x7 x8 x9).ptpPort = x8.ptpPort := rfl
theorem Dev.mk_lldpPort (x0 : Control) (x1 : Clocks) (x2 : References) (x3 : Records) (x4 : Ports) (x5 : Frames) (x6 : Lookup) (x7 : Pairing) (x8 : Services) (x9 : Attached) :
    (Dev.mk x0 x1 x2 x3 x4 x5 x6 x7 x8 x9).lldpPort = x8.lldpPort := rfl
theorem Dev.mk_hiRuns (x0 : Control) (x1 : Clocks) (x2 : References) (x3 : Records) (x4 : Ports) (x5 : Frames) (x6 : Lookup) (x7 : Pairing) (x8 : Services) (x9 : Attached) :
    (Dev.mk x0 x1 x2 x3 x4 x5 x6 x7 x8 x9).hiRuns = x8.hiRuns := rfl
theorem Dev.mk_latent (x0 : Control) (x1 : Clocks) (x2 : References) (x3 : Records) (x4 : Ports) (x5 : Frames) (x6 : Lookup) (x7 : Pairing) (x8 : Services) (x9 : Attached) :
    (Dev.mk x0 x1 x2 x3 x4 x5 x6 x7 x8 x9).latent = x8.latent := rfl
theorem Dev.mk_twinRestart (x0 : Control) (x1 : Clocks) (x2 : References) (x3 : Records) (x4 : Ports) (x5 : Frames) (x6 : Lookup) (x7 : Pairing) (x8 : Services) (x9 : Attached) :
    (Dev.mk x0 x1 x2 x3 x4 x5 x6 x7 x8 x9).twinRestart = x8.twinRestart := rfl
theorem Dev.mk_epashCfg (x0 : Control) (x1 : Clocks) (x2 : References) (x3 : Records) (x4 : Ports) (x5 : Frames) (x6 : Lookup) (x7 : Pairing) (x8 : Services) (x9 : Attached) :
    (Dev.mk x0 x1 x2 x3 x4 x5 x6 x7 x8 x9).epashCfg = x8.epashCfg := rfl
theorem Dev.mk_flash (x0 : Control) (x1 : Clocks) (x2 : References) (x3 : Records) (x4 : Ports) (x5 : Frames) (x6 : Lookup) (x7 : Pairing) (x8 : Services) (x9 : Attached) :
    (Dev.mk x0 x1 x2 x3 x4 x5 x6 x7 x8 x9).flash = x8.flash := rfl
theorem Dev.mk_upd (x0 : Control) (x1 : Clocks) (x2 : References) (x3 : Records) (x4 : Ports) (x5 : Frames) (x6 : Lookup) (x7 : Pairing) (x8 : Services) (x9 : Attached) :
    (Dev.mk x0 x1 x2 x3 x4 x5 x6 x7 x8 x9).upd = x8.upd := rfl
theorem Dev.mk_fwDown (x0 : Control) (x1 : Clocks) (x2 : References) (x3 : Records) (x4 : Ports) (x5 : Frames) (x6 : Lookup) (x7 : Pairing) (x8 : Services) (x9 : Attached) :
    (Dev.mk x0 x1 x2 x3 x4 x5 x6 x7 x8 x9).fwDown = x8.fwDown := rfl
theorem Dev.mk_fwHold (x0 : Control) (x1 : Clocks) (x2 : References) (x3 : Records) (x4 : Ports) (x5 : Frames) (x6 : Lookup) (x7 : Pairing) (x8 : Services) (x9 : Attached) :
    (Dev.mk x0 x1 x2 x3 x4 x5 x6 x7 x8 x9).fwHold = x8.fwHold := rfl
theorem Dev.mk_rings (x0 : Control) (x1 : Clocks) (x2 : References) (x3 : Records) (x4 : Ports) (x5 : Frames) (x6 : Lookup) (x7 : Pairing) (x8 : Services) (x9 : Attached) :
    (Dev.mk x0 x1 x2 x3 x4 x5 x6 x7 x8 x9).rings = x9.rings := rfl
theorem Dev.mk_txWait (x0 : Control) (x1 : Clocks) (x2 : References) (x3 : Records) (x4 : Ports) (x5 : Frames) (x6 : Lookup) (x7 : Pairing) (x8 : Services) (x9 : Attached) :
    (Dev.mk x0 x1 x2 x3 x4 x5 x6 x7 x8 x9).txWait = x9.txWait := rfl
theorem Dev.mk_pciD3 (x0 : Control) (x1 : Clocks) (x2 : References) (x3 : Records) (x4 : Ports) (x5 : Frames) (x6 : Lookup) (x7 : Pairing) (x8 : Services) (x9 : Attached) :
    (Dev.mk x0 x1 x2 x3 x4 x5 x6 x7 x8 x9).pciD3 = x9.pciD3 := rfl
theorem Dev.mk_crown (x0 : Control) (x1 : Clocks) (x2 : References) (x3 : Records) (x4 : Ports) (x5 : Frames) (x6 : Lookup) (x7 : Pairing) (x8 : Services) (x9 : Attached) :
    (Dev.mk x0 x1 x2 x3 x4 x5 x6 x7 x8 x9).crown = x9.crown := rfl
theorem Dev.mk_optA (x0 : Control) (x1 : Clocks) (x2 : References) (x3 : Records) (x4 : Ports) (x5 : Frames) (x6 : Lookup) (x7 : Pairing) (x8 : Services) (x9 : Attached) :
    (Dev.mk x0 x1 x2 x3 x4 x5 x6 x7 x8 x9).optA = x9.optA := rfl
theorem Dev.mk_optB (x0 : Control) (x1 : Clocks) (x2 : References) (x3 : Records) (x4 : Ports) (x5 : Frames) (x6 : Lookup) (x7 : Pairing) (x8 : Services) (x9 : Attached) :
    (Dev.mk x0 x1 x2 x3 x4 x5 x6 x7 x8 x9).optB = x9.optB := rfl
theorem Dev.mk_optRecs (x0 : Control) (x1 : Clocks) (x2 : References) (x3 : Records) (x4 : Ports) (x5 : Frames) (x6 : Lookup) (x7 : Pairing) (x8 : Services) (x9 : Attached) :
    (Dev.mk x0 x1 x2 x3 x4 x5 x6 x7 x8 x9).optRecs = x9.optRecs := rfl
theorem Dev.mk_trims (x0 : Control) (x1 : Clocks) (x2 : References) (x3 : Records) (x4 : Ports) (x5 : Frames) (x6 : Lookup) (x7 : Pairing) (x8 : Services) (x9 : Attached) :
    (Dev.mk x0 x1 x2 x3 x4 x5 x6 x7 x8 x9).trims = x9.trims := rfl
theorem Dev.mk_optWrite (x0 : Control) (x1 : Clocks) (x2 : References) (x3 : Records) (x4 : Ports) (x5 : Frames) (x6 : Lookup) (x7 : Pairing) (x8 : Services) (x9 : Attached) :
    (Dev.mk x0 x1 x2 x3 x4 x5 x6 x7 x8 x9).optWrite = x9.optWrite := rfl
theorem Dev.mk_seqr (x0 : Control) (x1 : Clocks) (x2 : References) (x3 : Records) (x4 : Ports) (x5 : Frames) (x6 : Lookup) (x7 : Pairing) (x8 : Services) (x9 : Attached) :
    (Dev.mk x0 x1 x2 x3 x4 x5 x6 x7 x8 x9).seqr = x9.seqr := rfl
theorem Dev.mk_pinResetN (x0 : Control) (x1 : Clocks) (x2 : References) (x3 : Records) (x4 : Ports) (x5 : Frames) (x6 : Lookup) (x7 : Pairing) (x8 : Services) (x9 : Attached) :
    (Dev.mk x0 x1 x2 x3 x4 x5 x6 x7 x8 x9).pinResetN = x9.pinResetN := rfl
theorem Dev.mk_pinPerstN (x0 : Control) (x1 : Clocks) (x2 : References) (x3 : Records) (x4 : Ports) (x5 : Frames) (x6 : Lookup) (x7 : Pairing) (x8 : Services) (x9 : Attached) :
    (Dev.mk x0 x1 x2 x3 x4 x5 x6 x7 x8 x9).pinPerstN = x9.pinPerstN := rfl
theorem Dev.mk_xoOk (x0 : Control) (x1 : Clocks) (x2 : References) (x3 : Records) (x4 : Ports) (x5 : Frames) (x6 : Lookup) (x7 : Pairing) (x8 : Services) (x9 : Attached) :
    (Dev.mk x0 x1 x2 x3 x4 x5 x6 x7 x8 x9).xoOk = x9.xoOk := rfl
theorem Dev.mk_wdogWarned (x0 : Control) (x1 : Clocks) (x2 : References) (x3 : Records) (x4 : Ports) (x5 : Frames) (x6 : Lookup) (x7 : Pairing) (x8 : Services) (x9 : Attached) :
    (Dev.mk x0 x1 x2 x3 x4 x5 x6 x7 x8 x9).wdogWarned = x9.wdogWarned := rfl
theorem Dev.mk_wdogFrom (x0 : Control) (x1 : Clocks) (x2 : References) (x3 : Records) (x4 : Ports) (x5 : Frames) (x6 : Lookup) (x7 : Pairing) (x8 : Services) (x9 : Attached) :
    (Dev.mk x0 x1 x2 x3 x4 x5 x6 x7 x8 x9).wdogFrom = x9.wdogFrom := rfl
theorem Dev.mk_wakeAt (x0 : Control) (x1 : Clocks) (x2 : References) (x3 : Records) (x4 : Ports) (x5 : Frames) (x6 : Lookup) (x7 : Pairing) (x8 : Services) (x9 : Attached) :
    (Dev.mk x0 x1 x2 x3 x4 x5 x6 x7 x8 x9).wakeAt = x9.wakeAt := rfl

@[simp] theorem Dev.wr_toClocks (d : Dev) (p o s : Nat) (w : Word) : (d.wr p o w s).toClocks = d.toClocks :=
  Dev.mk_toClocks _ _ _ _ _ _ _ _ _ _
@[simp] theorem Dev.wr_toReferences (d : Dev) (p o s : Nat) (w : Word) : (d.wr p o w s).toReferences = d.toReferences :=
  Dev.mk_toReferences _ _ _ _ _ _ _ _ _ _
@[simp] theorem Dev.wr_toRecords (d : Dev) (p o s : Nat) (w : Word) : (d.wr p o w s).toRecords = d.toRecords :=
  Dev.mk_toRecords _ _ _ _ _ _ _ _ _ _
@[simp] theorem Dev.wr_toPorts (d : Dev) (p o s : Nat) (w : Word) : (d.wr p o w s).toPorts = d.toPorts :=
  Dev.mk_toPorts _ _ _ _ _ _ _ _ _ _
@[simp] theorem Dev.wr_toFrames (d : Dev) (p o s : Nat) (w : Word) : (d.wr p o w s).toFrames = d.toFrames :=
  Dev.mk_toFrames _ _ _ _ _ _ _ _ _ _
@[simp] theorem Dev.wr_toLookup (d : Dev) (p o s : Nat) (w : Word) : (d.wr p o w s).toLookup = d.toLookup :=
  Dev.mk_toLookup _ _ _ _ _ _ _ _ _ _
@[simp] theorem Dev.wr_toPairing (d : Dev) (p o s : Nat) (w : Word) : (d.wr p o w s).toPairing = d.toPairing :=
  Dev.mk_toPairing _ _ _ _ _ _ _ _ _ _
@[simp] theorem Dev.wr_toServices (d : Dev) (p o s : Nat) (w : Word) : (d.wr p o w s).toServices = d.toServices :=
  Dev.mk_toServices _ _ _ _ _ _ _ _ _ _
@[simp] theorem Dev.wr_toAttached (d : Dev) (p o s : Nat) (w : Word) : (d.wr p o w s).toAttached = d.toAttached :=
  Dev.mk_toAttached _ _ _ _ _ _ _ _ _ _
@[simp] theorem Dev.wr_shadow (d : Dev) (p o s : Nat) (w : Word) : (d.wr p o w s).shadow = d.shadow :=
  Dev.mk_shadow _ _ _ _ _ _ _ _ _ _
@[simp] theorem Dev.wr_freeCtr (d : Dev) (p o s : Nat) (w : Word) : (d.wr p o w s).freeCtr = d.freeCtr :=
  Dev.mk_freeCtr _ _ _ _ _ _ _ _ _ _
@[simp] theorem Dev.wr_out (d : Dev) (p o s : Nat) (w : Word) : (d.wr p o w s).out = d.out :=
  Dev.mk_out _ _ _ _ _ _ _ _ _ _
@[simp] theorem Dev.wr_rel (d : Dev) (p o s : Nat) (w : Word) : (d.wr p o w s).rel = d.rel :=
  Dev.mk_rel _ _ _ _ _ _ _ _ _ _
@[simp] theorem Dev.wr_held (d : Dev) (p o s : Nat) (w : Word) : (d.wr p o w s).held = d.held :=
  Dev.mk_held _ _ _ _ _ _ _ _ _ _
@[simp] theorem Dev.wr_accStat (d : Dev) (p o s : Nat) (w : Word) : (d.wr p o w s).accStat = d.accStat :=
  Dev.mk_accStat _ _ _ _ _ _ _ _ _ _
@[simp] theorem Dev.wr_xphase (d : Dev) (p o s : Nat) (w : Word) : (d.wr p o w s).xphase = d.xphase :=
  Dev.mk_xphase _ _ _ _ _ _ _ _ _ _
@[simp] theorem Dev.wr_avsWritten (d : Dev) (p o s : Nat) (w : Word) : (d.wr p o w s).avsWritten = d.avsWritten :=
  Dev.mk_avsWritten _ _ _ _ _ _ _ _ _ _
@[simp] theorem Dev.wr_wins (d : Dev) (p o s : Nat) (w : Word) : (d.wr p o w s).wins = d.wins :=
  Dev.mk_wins _ _ _ _ _ _ _ _ _ _
@[simp] theorem Dev.wr_felt (d : Dev) (p o s : Nat) (w : Word) : (d.wr p o w s).felt = d.felt :=
  Dev.mk_felt _ _ _ _ _ _ _ _ _ _

@[simp] theorem Dev.set_toClocks (d : Dev) (p s v : Nat) (f : Field) : (d.set p f v s).toClocks = d.toClocks :=
  Dev.wr_toClocks _ _ _ _ _
@[simp] theorem Dev.set_toReferences (d : Dev) (p s v : Nat) (f : Field) : (d.set p f v s).toReferences = d.toReferences :=
  Dev.wr_toReferences _ _ _ _ _
@[simp] theorem Dev.set_toRecords (d : Dev) (p s v : Nat) (f : Field) : (d.set p f v s).toRecords = d.toRecords :=
  Dev.wr_toRecords _ _ _ _ _
@[simp] theorem Dev.set_toPorts (d : Dev) (p s v : Nat) (f : Field) : (d.set p f v s).toPorts = d.toPorts :=
  Dev.wr_toPorts _ _ _ _ _
@[simp] theorem Dev.set_toFrames (d : Dev) (p s v : Nat) (f : Field) : (d.set p f v s).toFrames = d.toFrames :=
  Dev.wr_toFrames _ _ _ _ _
@[simp] theorem Dev.set_toLookup (d : Dev) (p s v : Nat) (f : Field) : (d.set p f v s).toLookup = d.toLookup :=
  Dev.wr_toLookup _ _ _ _ _
@[simp] theorem Dev.set_toPairing (d : Dev) (p s v : Nat) (f : Field) : (d.set p f v s).toPairing = d.toPairing :=
  Dev.wr_toPairing _ _ _ _ _
@[simp] theorem Dev.set_toServices (d : Dev) (p s v : Nat) (f : Field) : (d.set p f v s).toServices = d.toServices :=
  Dev.wr_toServices _ _ _ _ _
@[simp] theorem Dev.set_toAttached (d : Dev) (p s v : Nat) (f : Field) : (d.set p f v s).toAttached = d.toAttached :=
  Dev.wr_toAttached _ _ _ _ _
@[simp] theorem Dev.set_shadow (d : Dev) (p s v : Nat) (f : Field) : (d.set p f v s).shadow = d.shadow :=
  Dev.wr_shadow _ _ _ _ _
@[simp] theorem Dev.set_freeCtr (d : Dev) (p s v : Nat) (f : Field) : (d.set p f v s).freeCtr = d.freeCtr :=
  Dev.wr_freeCtr _ _ _ _ _
@[simp] theorem Dev.set_out (d : Dev) (p s v : Nat) (f : Field) : (d.set p f v s).out = d.out :=
  Dev.wr_out _ _ _ _ _
@[simp] theorem Dev.set_rel (d : Dev) (p s v : Nat) (f : Field) : (d.set p f v s).rel = d.rel :=
  Dev.wr_rel _ _ _ _ _
@[simp] theorem Dev.set_held (d : Dev) (p s v : Nat) (f : Field) : (d.set p f v s).held = d.held :=
  Dev.wr_held _ _ _ _ _
@[simp] theorem Dev.set_accStat (d : Dev) (p s v : Nat) (f : Field) : (d.set p f v s).accStat = d.accStat :=
  Dev.wr_accStat _ _ _ _ _
@[simp] theorem Dev.set_xphase (d : Dev) (p s v : Nat) (f : Field) : (d.set p f v s).xphase = d.xphase :=
  Dev.wr_xphase _ _ _ _ _
@[simp] theorem Dev.set_avsWritten (d : Dev) (p s v : Nat) (f : Field) : (d.set p f v s).avsWritten = d.avsWritten :=
  Dev.wr_avsWritten _ _ _ _ _
@[simp] theorem Dev.set_wins (d : Dev) (p s v : Nat) (f : Field) : (d.set p f v s).wins = d.wins :=
  Dev.wr_wins _ _ _ _ _
@[simp] theorem Dev.set_felt (d : Dev) (p s v : Nat) (f : Field) : (d.set p f v s).felt = d.felt :=
  Dev.wr_felt _ _ _ _ _

@[simp] theorem Dev.setFlag_toClocks (d : Dev) (p s : Nat) (f : Field) (b : Bool) : (d.setFlag p f b s).toClocks = d.toClocks :=
  Dev.set_toClocks _ _ _ _ _
@[simp] theorem Dev.setFlag_toReferences (d : Dev) (p s : Nat) (f : Field) (b : Bool) : (d.setFlag p f b s).toReferences = d.toReferences :=
  Dev.set_toReferences _ _ _ _ _
@[simp] theorem Dev.setFlag_toRecords (d : Dev) (p s : Nat) (f : Field) (b : Bool) : (d.setFlag p f b s).toRecords = d.toRecords :=
  Dev.set_toRecords _ _ _ _ _
@[simp] theorem Dev.setFlag_toPorts (d : Dev) (p s : Nat) (f : Field) (b : Bool) : (d.setFlag p f b s).toPorts = d.toPorts :=
  Dev.set_toPorts _ _ _ _ _
@[simp] theorem Dev.setFlag_toFrames (d : Dev) (p s : Nat) (f : Field) (b : Bool) : (d.setFlag p f b s).toFrames = d.toFrames :=
  Dev.set_toFrames _ _ _ _ _
@[simp] theorem Dev.setFlag_toLookup (d : Dev) (p s : Nat) (f : Field) (b : Bool) : (d.setFlag p f b s).toLookup = d.toLookup :=
  Dev.set_toLookup _ _ _ _ _
@[simp] theorem Dev.setFlag_toPairing (d : Dev) (p s : Nat) (f : Field) (b : Bool) : (d.setFlag p f b s).toPairing = d.toPairing :=
  Dev.set_toPairing _ _ _ _ _
@[simp] theorem Dev.setFlag_toServices (d : Dev) (p s : Nat) (f : Field) (b : Bool) : (d.setFlag p f b s).toServices = d.toServices :=
  Dev.set_toServices _ _ _ _ _
@[simp] theorem Dev.setFlag_toAttached (d : Dev) (p s : Nat) (f : Field) (b : Bool) : (d.setFlag p f b s).toAttached = d.toAttached :=
  Dev.set_toAttached _ _ _ _ _
@[simp] theorem Dev.setFlag_shadow (d : Dev) (p s : Nat) (f : Field) (b : Bool) : (d.setFlag p f b s).shadow = d.shadow :=
  Dev.set_shadow _ _ _ _ _
@[simp] theorem Dev.setFlag_freeCtr (d : Dev) (p s : Nat) (f : Field) (b : Bool) : (d.setFlag p f b s).freeCtr = d.freeCtr :=
  Dev.set_freeCtr _ _ _ _ _
@[simp] theorem Dev.setFlag_out (d : Dev) (p s : Nat) (f : Field) (b : Bool) : (d.setFlag p f b s).out = d.out :=
  Dev.set_out _ _ _ _ _
@[simp] theorem Dev.setFlag_rel (d : Dev) (p s : Nat) (f : Field) (b : Bool) : (d.setFlag p f b s).rel = d.rel :=
  Dev.set_rel _ _ _ _ _
@[simp] theorem Dev.setFlag_held (d : Dev) (p s : Nat) (f : Field) (b : Bool) : (d.setFlag p f b s).held = d.held :=
  Dev.set_held _ _ _ _ _
@[simp] theorem Dev.setFlag_accStat (d : Dev) (p s : Nat) (f : Field) (b : Bool) : (d.setFlag p f b s).accStat = d.accStat :=
  Dev.set_accStat _ _ _ _ _
@[simp] theorem Dev.setFlag_xphase (d : Dev) (p s : Nat) (f : Field) (b : Bool) : (d.setFlag p f b s).xphase = d.xphase :=
  Dev.set_xphase _ _ _ _ _
@[simp] theorem Dev.setFlag_avsWritten (d : Dev) (p s : Nat) (f : Field) (b : Bool) : (d.setFlag p f b s).avsWritten = d.avsWritten :=
  Dev.set_avsWritten _ _ _ _ _
@[simp] theorem Dev.setFlag_wins (d : Dev) (p s : Nat) (f : Field) (b : Bool) : (d.setFlag p f b s).wins = d.wins :=
  Dev.set_wins _ _ _ _ _
@[simp] theorem Dev.setFlag_felt (d : Dev) (p s : Nat) (f : Field) (b : Bool) : (d.setFlag p f b s).felt = d.felt :=
  Dev.set_felt _ _ _ _ _

@[simp] theorem Dev.incSat_toClocks (d : Dev) (p s n : Nat) (f : Field) : (d.incSat p f s n).toClocks = d.toClocks :=
  Dev.set_toClocks _ _ _ _ _
@[simp] theorem Dev.incSat_toReferences (d : Dev) (p s n : Nat) (f : Field) : (d.incSat p f s n).toReferences = d.toReferences :=
  Dev.set_toReferences _ _ _ _ _
@[simp] theorem Dev.incSat_toRecords (d : Dev) (p s n : Nat) (f : Field) : (d.incSat p f s n).toRecords = d.toRecords :=
  Dev.set_toRecords _ _ _ _ _
@[simp] theorem Dev.incSat_toPorts (d : Dev) (p s n : Nat) (f : Field) : (d.incSat p f s n).toPorts = d.toPorts :=
  Dev.set_toPorts _ _ _ _ _
@[simp] theorem Dev.incSat_toFrames (d : Dev) (p s n : Nat) (f : Field) : (d.incSat p f s n).toFrames = d.toFrames :=
  Dev.set_toFrames _ _ _ _ _
@[simp] theorem Dev.incSat_toLookup (d : Dev) (p s n : Nat) (f : Field) : (d.incSat p f s n).toLookup = d.toLookup :=
  Dev.set_toLookup _ _ _ _ _
@[simp] theorem Dev.incSat_toPairing (d : Dev) (p s n : Nat) (f : Field) : (d.incSat p f s n).toPairing = d.toPairing :=
  Dev.set_toPairing _ _ _ _ _
@[simp] theorem Dev.incSat_toServices (d : Dev) (p s n : Nat) (f : Field) : (d.incSat p f s n).toServices = d.toServices :=
  Dev.set_toServices _ _ _ _ _
@[simp] theorem Dev.incSat_toAttached (d : Dev) (p s n : Nat) (f : Field) : (d.incSat p f s n).toAttached = d.toAttached :=
  Dev.set_toAttached _ _ _ _ _
@[simp] theorem Dev.incSat_shadow (d : Dev) (p s n : Nat) (f : Field) : (d.incSat p f s n).shadow = d.shadow :=
  Dev.set_shadow _ _ _ _ _
@[simp] theorem Dev.incSat_freeCtr (d : Dev) (p s n : Nat) (f : Field) : (d.incSat p f s n).freeCtr = d.freeCtr :=
  Dev.set_freeCtr _ _ _ _ _
@[simp] theorem Dev.incSat_out (d : Dev) (p s n : Nat) (f : Field) : (d.incSat p f s n).out = d.out :=
  Dev.set_out _ _ _ _ _
@[simp] theorem Dev.incSat_rel (d : Dev) (p s n : Nat) (f : Field) : (d.incSat p f s n).rel = d.rel :=
  Dev.set_rel _ _ _ _ _
@[simp] theorem Dev.incSat_held (d : Dev) (p s n : Nat) (f : Field) : (d.incSat p f s n).held = d.held :=
  Dev.set_held _ _ _ _ _
@[simp] theorem Dev.incSat_accStat (d : Dev) (p s n : Nat) (f : Field) : (d.incSat p f s n).accStat = d.accStat :=
  Dev.set_accStat _ _ _ _ _
@[simp] theorem Dev.incSat_xphase (d : Dev) (p s n : Nat) (f : Field) : (d.incSat p f s n).xphase = d.xphase :=
  Dev.set_xphase _ _ _ _ _
@[simp] theorem Dev.incSat_avsWritten (d : Dev) (p s n : Nat) (f : Field) : (d.incSat p f s n).avsWritten = d.avsWritten :=
  Dev.set_avsWritten _ _ _ _ _
@[simp] theorem Dev.incSat_wins (d : Dev) (p s n : Nat) (f : Field) : (d.incSat p f s n).wins = d.wins :=
  Dev.set_wins _ _ _ _ _
@[simp] theorem Dev.incSat_felt (d : Dev) (p s n : Nat) (f : Field) : (d.incSat p f s n).felt = d.felt :=
  Dev.set_felt _ _ _ _ _

@[simp] theorem Dev.incWrap_toClocks (d : Dev) (p s n : Nat) (f : Field) : (d.incWrap p f s n).toClocks = d.toClocks :=
  Dev.set_toClocks _ _ _ _ _
@[simp] theorem Dev.incWrap_toReferences (d : Dev) (p s n : Nat) (f : Field) : (d.incWrap p f s n).toReferences = d.toReferences :=
  Dev.set_toReferences _ _ _ _ _
@[simp] theorem Dev.incWrap_toRecords (d : Dev) (p s n : Nat) (f : Field) : (d.incWrap p f s n).toRecords = d.toRecords :=
  Dev.set_toRecords _ _ _ _ _
@[simp] theorem Dev.incWrap_toPorts (d : Dev) (p s n : Nat) (f : Field) : (d.incWrap p f s n).toPorts = d.toPorts :=
  Dev.set_toPorts _ _ _ _ _
@[simp] theorem Dev.incWrap_toFrames (d : Dev) (p s n : Nat) (f : Field) : (d.incWrap p f s n).toFrames = d.toFrames :=
  Dev.set_toFrames _ _ _ _ _
@[simp] theorem Dev.incWrap_toLookup (d : Dev) (p s n : Nat) (f : Field) : (d.incWrap p f s n).toLookup = d.toLookup :=
  Dev.set_toLookup _ _ _ _ _
@[simp] theorem Dev.incWrap_toPairing (d : Dev) (p s n : Nat) (f : Field) : (d.incWrap p f s n).toPairing = d.toPairing :=
  Dev.set_toPairing _ _ _ _ _
@[simp] theorem Dev.incWrap_toServices (d : Dev) (p s n : Nat) (f : Field) : (d.incWrap p f s n).toServices = d.toServices :=
  Dev.set_toServices _ _ _ _ _
@[simp] theorem Dev.incWrap_toAttached (d : Dev) (p s n : Nat) (f : Field) : (d.incWrap p f s n).toAttached = d.toAttached :=
  Dev.set_toAttached _ _ _ _ _
@[simp] theorem Dev.incWrap_shadow (d : Dev) (p s n : Nat) (f : Field) : (d.incWrap p f s n).shadow = d.shadow :=
  Dev.set_shadow _ _ _ _ _
@[simp] theorem Dev.incWrap_freeCtr (d : Dev) (p s n : Nat) (f : Field) : (d.incWrap p f s n).freeCtr = d.freeCtr :=
  Dev.set_freeCtr _ _ _ _ _
@[simp] theorem Dev.incWrap_out (d : Dev) (p s n : Nat) (f : Field) : (d.incWrap p f s n).out = d.out :=
  Dev.set_out _ _ _ _ _
@[simp] theorem Dev.incWrap_rel (d : Dev) (p s n : Nat) (f : Field) : (d.incWrap p f s n).rel = d.rel :=
  Dev.set_rel _ _ _ _ _
@[simp] theorem Dev.incWrap_held (d : Dev) (p s n : Nat) (f : Field) : (d.incWrap p f s n).held = d.held :=
  Dev.set_held _ _ _ _ _
@[simp] theorem Dev.incWrap_accStat (d : Dev) (p s n : Nat) (f : Field) : (d.incWrap p f s n).accStat = d.accStat :=
  Dev.set_accStat _ _ _ _ _
@[simp] theorem Dev.incWrap_xphase (d : Dev) (p s n : Nat) (f : Field) : (d.incWrap p f s n).xphase = d.xphase :=
  Dev.set_xphase _ _ _ _ _
@[simp] theorem Dev.incWrap_avsWritten (d : Dev) (p s n : Nat) (f : Field) : (d.incWrap p f s n).avsWritten = d.avsWritten :=
  Dev.set_avsWritten _ _ _ _ _
@[simp] theorem Dev.incWrap_wins (d : Dev) (p s n : Nat) (f : Field) : (d.incWrap p f s n).wins = d.wins :=
  Dev.set_wins _ _ _ _ _
@[simp] theorem Dev.incWrap_felt (d : Dev) (p s n : Nat) (f : Field) : (d.incWrap p f s n).felt = d.felt :=
  Dev.set_felt _ _ _ _ _

@[simp] theorem Dev.emit_toClocks (d : Dev) (o : Output) : (d.emit o).toClocks = d.toClocks :=
  Dev.mk_toClocks _ _ _ _ _ _ _ _ _ _
@[simp] theorem Dev.emit_toReferences (d : Dev) (o : Output) : (d.emit o).toReferences = d.toReferences :=
  Dev.mk_toReferences _ _ _ _ _ _ _ _ _ _
@[simp] theorem Dev.emit_toRecords (d : Dev) (o : Output) : (d.emit o).toRecords = d.toRecords :=
  Dev.mk_toRecords _ _ _ _ _ _ _ _ _ _
@[simp] theorem Dev.emit_toPorts (d : Dev) (o : Output) : (d.emit o).toPorts = d.toPorts :=
  Dev.mk_toPorts _ _ _ _ _ _ _ _ _ _
@[simp] theorem Dev.emit_toFrames (d : Dev) (o : Output) : (d.emit o).toFrames = d.toFrames :=
  Dev.mk_toFrames _ _ _ _ _ _ _ _ _ _
@[simp] theorem Dev.emit_toLookup (d : Dev) (o : Output) : (d.emit o).toLookup = d.toLookup :=
  Dev.mk_toLookup _ _ _ _ _ _ _ _ _ _
@[simp] theorem Dev.emit_toPairing (d : Dev) (o : Output) : (d.emit o).toPairing = d.toPairing :=
  Dev.mk_toPairing _ _ _ _ _ _ _ _ _ _
@[simp] theorem Dev.emit_toServices (d : Dev) (o : Output) : (d.emit o).toServices = d.toServices :=
  Dev.mk_toServices _ _ _ _ _ _ _ _ _ _
@[simp] theorem Dev.emit_toAttached (d : Dev) (o : Output) : (d.emit o).toAttached = d.toAttached :=
  Dev.mk_toAttached _ _ _ _ _ _ _ _ _ _
@[simp] theorem Dev.emit_regs (d : Dev) (o : Output) : (d.emit o).regs = d.regs :=
  Dev.mk_regs _ _ _ _ _ _ _ _ _ _
@[simp] theorem Dev.emit_shadow (d : Dev) (o : Output) : (d.emit o).shadow = d.shadow :=
  Dev.mk_shadow _ _ _ _ _ _ _ _ _ _
@[simp] theorem Dev.emit_freeCtr (d : Dev) (o : Output) : (d.emit o).freeCtr = d.freeCtr :=
  Dev.mk_freeCtr _ _ _ _ _ _ _ _ _ _
@[simp] theorem Dev.emit_rel (d : Dev) (o : Output) : (d.emit o).rel = d.rel :=
  Dev.mk_rel _ _ _ _ _ _ _ _ _ _
@[simp] theorem Dev.emit_held (d : Dev) (o : Output) : (d.emit o).held = d.held :=
  Dev.mk_held _ _ _ _ _ _ _ _ _ _
@[simp] theorem Dev.emit_accStat (d : Dev) (o : Output) : (d.emit o).accStat = d.accStat :=
  Dev.mk_accStat _ _ _ _ _ _ _ _ _ _
@[simp] theorem Dev.emit_xphase (d : Dev) (o : Output) : (d.emit o).xphase = d.xphase :=
  Dev.mk_xphase _ _ _ _ _ _ _ _ _ _
@[simp] theorem Dev.emit_avsWritten (d : Dev) (o : Output) : (d.emit o).avsWritten = d.avsWritten :=
  Dev.mk_avsWritten _ _ _ _ _ _ _ _ _ _
@[simp] theorem Dev.emit_wins (d : Dev) (o : Output) : (d.emit o).wins = d.wins :=
  Dev.mk_wins _ _ _ _ _ _ _ _ _ _
@[simp] theorem Dev.emit_felt (d : Dev) (o : Output) : (d.emit o).felt = d.felt :=
  Dev.mk_felt _ _ _ _ _ _ _ _ _ _

@[simp] theorem Dev.setReleased_toClocks (d : Dev) (u : Nat) (b : Bool) : (d.setReleased u b).toClocks = d.toClocks :=
  Dev.mk_toClocks _ _ _ _ _ _ _ _ _ _
@[simp] theorem Dev.setReleased_toReferences (d : Dev) (u : Nat) (b : Bool) : (d.setReleased u b).toReferences = d.toReferences :=
  Dev.mk_toReferences _ _ _ _ _ _ _ _ _ _
@[simp] theorem Dev.setReleased_toRecords (d : Dev) (u : Nat) (b : Bool) : (d.setReleased u b).toRecords = d.toRecords :=
  Dev.mk_toRecords _ _ _ _ _ _ _ _ _ _
@[simp] theorem Dev.setReleased_toPorts (d : Dev) (u : Nat) (b : Bool) : (d.setReleased u b).toPorts = d.toPorts :=
  Dev.mk_toPorts _ _ _ _ _ _ _ _ _ _
@[simp] theorem Dev.setReleased_toFrames (d : Dev) (u : Nat) (b : Bool) : (d.setReleased u b).toFrames = d.toFrames :=
  Dev.mk_toFrames _ _ _ _ _ _ _ _ _ _
@[simp] theorem Dev.setReleased_toLookup (d : Dev) (u : Nat) (b : Bool) : (d.setReleased u b).toLookup = d.toLookup :=
  Dev.mk_toLookup _ _ _ _ _ _ _ _ _ _
@[simp] theorem Dev.setReleased_toPairing (d : Dev) (u : Nat) (b : Bool) : (d.setReleased u b).toPairing = d.toPairing :=
  Dev.mk_toPairing _ _ _ _ _ _ _ _ _ _
@[simp] theorem Dev.setReleased_toServices (d : Dev) (u : Nat) (b : Bool) : (d.setReleased u b).toServices = d.toServices :=
  Dev.mk_toServices _ _ _ _ _ _ _ _ _ _
@[simp] theorem Dev.setReleased_toAttached (d : Dev) (u : Nat) (b : Bool) : (d.setReleased u b).toAttached = d.toAttached :=
  Dev.mk_toAttached _ _ _ _ _ _ _ _ _ _
@[simp] theorem Dev.setReleased_regs (d : Dev) (u : Nat) (b : Bool) : (d.setReleased u b).regs = d.regs :=
  Dev.mk_regs _ _ _ _ _ _ _ _ _ _
@[simp] theorem Dev.setReleased_shadow (d : Dev) (u : Nat) (b : Bool) : (d.setReleased u b).shadow = d.shadow :=
  Dev.mk_shadow _ _ _ _ _ _ _ _ _ _
@[simp] theorem Dev.setReleased_freeCtr (d : Dev) (u : Nat) (b : Bool) : (d.setReleased u b).freeCtr = d.freeCtr :=
  Dev.mk_freeCtr _ _ _ _ _ _ _ _ _ _
@[simp] theorem Dev.setReleased_out (d : Dev) (u : Nat) (b : Bool) : (d.setReleased u b).out = d.out :=
  Dev.mk_out _ _ _ _ _ _ _ _ _ _
@[simp] theorem Dev.setReleased_held (d : Dev) (u : Nat) (b : Bool) : (d.setReleased u b).held = d.held :=
  Dev.mk_held _ _ _ _ _ _ _ _ _ _
@[simp] theorem Dev.setReleased_accStat (d : Dev) (u : Nat) (b : Bool) : (d.setReleased u b).accStat = d.accStat :=
  Dev.mk_accStat _ _ _ _ _ _ _ _ _ _
@[simp] theorem Dev.setReleased_xphase (d : Dev) (u : Nat) (b : Bool) : (d.setReleased u b).xphase = d.xphase :=
  Dev.mk_xphase _ _ _ _ _ _ _ _ _ _
@[simp] theorem Dev.setReleased_avsWritten (d : Dev) (u : Nat) (b : Bool) : (d.setReleased u b).avsWritten = d.avsWritten :=
  Dev.mk_avsWritten _ _ _ _ _ _ _ _ _ _
@[simp] theorem Dev.setReleased_wins (d : Dev) (u : Nat) (b : Bool) : (d.setReleased u b).wins = d.wins :=
  Dev.mk_wins _ _ _ _ _ _ _ _ _ _
@[simp] theorem Dev.setReleased_felt (d : Dev) (u : Nat) (b : Bool) : (d.setReleased u b).felt = d.felt :=
  Dev.mk_felt _ _ _ _ _ _ _ _ _ _

@[simp] theorem Dev.accessInReset_toClocks (d : Dev) (p : Nat) : (d.accessInReset p).toClocks = d.toClocks :=
  Dev.mk_toClocks _ _ _ _ _ _ _ _ _ _
@[simp] theorem Dev.accessInReset_toReferences (d : Dev) (p : Nat) : (d.accessInReset p).toReferences = d.toReferences :=
  Dev.mk_toReferences _ _ _ _ _ _ _ _ _ _
@[simp] theorem Dev.accessInReset_toRecords (d : Dev) (p : Nat) : (d.accessInReset p).toRecords = d.toRecords :=
  Dev.mk_toRecords _ _ _ _ _ _ _ _ _ _
@[simp] theorem Dev.accessInReset_toPorts (d : Dev) (p : Nat) : (d.accessInReset p).toPorts = d.toPorts :=
  Dev.mk_toPorts _ _ _ _ _ _ _ _ _ _
@[simp] theorem Dev.accessInReset_toFrames (d : Dev) (p : Nat) : (d.accessInReset p).toFrames = d.toFrames :=
  Dev.mk_toFrames _ _ _ _ _ _ _ _ _ _
@[simp] theorem Dev.accessInReset_toLookup (d : Dev) (p : Nat) : (d.accessInReset p).toLookup = d.toLookup :=
  Dev.mk_toLookup _ _ _ _ _ _ _ _ _ _
@[simp] theorem Dev.accessInReset_toPairing (d : Dev) (p : Nat) : (d.accessInReset p).toPairing = d.toPairing :=
  Dev.mk_toPairing _ _ _ _ _ _ _ _ _ _
@[simp] theorem Dev.accessInReset_toServices (d : Dev) (p : Nat) : (d.accessInReset p).toServices = d.toServices :=
  Dev.mk_toServices _ _ _ _ _ _ _ _ _ _
@[simp] theorem Dev.accessInReset_toAttached (d : Dev) (p : Nat) : (d.accessInReset p).toAttached = d.toAttached :=
  Dev.mk_toAttached _ _ _ _ _ _ _ _ _ _
@[simp] theorem Dev.accessInReset_regs (d : Dev) (p : Nat) : (d.accessInReset p).regs = d.regs :=
  Dev.mk_regs _ _ _ _ _ _ _ _ _ _
@[simp] theorem Dev.accessInReset_shadow (d : Dev) (p : Nat) : (d.accessInReset p).shadow = d.shadow :=
  Dev.mk_shadow _ _ _ _ _ _ _ _ _ _
@[simp] theorem Dev.accessInReset_freeCtr (d : Dev) (p : Nat) : (d.accessInReset p).freeCtr = d.freeCtr :=
  Dev.mk_freeCtr _ _ _ _ _ _ _ _ _ _
@[simp] theorem Dev.accessInReset_out (d : Dev) (p : Nat) : (d.accessInReset p).out = d.out :=
  Dev.mk_out _ _ _ _ _ _ _ _ _ _
@[simp] theorem Dev.accessInReset_rel (d : Dev) (p : Nat) : (d.accessInReset p).rel = d.rel :=
  Dev.mk_rel _ _ _ _ _ _ _ _ _ _
@[simp] theorem Dev.accessInReset_held (d : Dev) (p : Nat) : (d.accessInReset p).held = d.held :=
  Dev.mk_held _ _ _ _ _ _ _ _ _ _
@[simp] theorem Dev.accessInReset_xphase (d : Dev) (p : Nat) : (d.accessInReset p).xphase = d.xphase :=
  Dev.mk_xphase _ _ _ _ _ _ _ _ _ _
@[simp] theorem Dev.accessInReset_avsWritten (d : Dev) (p : Nat) : (d.accessInReset p).avsWritten = d.avsWritten :=
  Dev.mk_avsWritten _ _ _ _ _ _ _ _ _ _
@[simp] theorem Dev.accessInReset_wins (d : Dev) (p : Nat) : (d.accessInReset p).wins = d.wins :=
  Dev.mk_wins _ _ _ _ _ _ _ _ _ _
@[simp] theorem Dev.accessInReset_felt (d : Dev) (p : Nat) : (d.accessInReset p).felt = d.felt :=
  Dev.mk_felt _ _ _ _ _ _ _ _ _ _

@[simp] theorem Dev.wrShadow_toClocks (d : Dev) (t : PageType) (p o s : Nat) (w : Word) : (d.wrShadow t p o s w).toClocks = d.toClocks :=
  Dev.mk_toClocks _ _ _ _ _ _ _ _ _ _
@[simp] theorem Dev.wrShadow_toReferences (d : Dev) (t : PageType) (p o s : Nat) (w : Word) : (d.wrShadow t p o s w).toReferences = d.toReferences :=
  Dev.mk_toReferences _ _ _ _ _ _ _ _ _ _
@[simp] theorem Dev.wrShadow_toRecords (d : Dev) (t : PageType) (p o s : Nat) (w : Word) : (d.wrShadow t p o s w).toRecords = d.toRecords :=
  Dev.mk_toRecords _ _ _ _ _ _ _ _ _ _
@[simp] theorem Dev.wrShadow_toPorts (d : Dev) (t : PageType) (p o s : Nat) (w : Word) : (d.wrShadow t p o s w).toPorts = d.toPorts :=
  Dev.mk_toPorts _ _ _ _ _ _ _ _ _ _
@[simp] theorem Dev.wrShadow_toFrames (d : Dev) (t : PageType) (p o s : Nat) (w : Word) : (d.wrShadow t p o s w).toFrames = d.toFrames :=
  Dev.mk_toFrames _ _ _ _ _ _ _ _ _ _
@[simp] theorem Dev.wrShadow_toLookup (d : Dev) (t : PageType) (p o s : Nat) (w : Word) : (d.wrShadow t p o s w).toLookup = d.toLookup :=
  Dev.mk_toLookup _ _ _ _ _ _ _ _ _ _
@[simp] theorem Dev.wrShadow_toPairing (d : Dev) (t : PageType) (p o s : Nat) (w : Word) : (d.wrShadow t p o s w).toPairing = d.toPairing :=
  Dev.mk_toPairing _ _ _ _ _ _ _ _ _ _
@[simp] theorem Dev.wrShadow_toServices (d : Dev) (t : PageType) (p o s : Nat) (w : Word) : (d.wrShadow t p o s w).toServices = d.toServices :=
  Dev.mk_toServices _ _ _ _ _ _ _ _ _ _
@[simp] theorem Dev.wrShadow_toAttached (d : Dev) (t : PageType) (p o s : Nat) (w : Word) : (d.wrShadow t p o s w).toAttached = d.toAttached :=
  Dev.mk_toAttached _ _ _ _ _ _ _ _ _ _
@[simp] theorem Dev.wrShadow_regs (d : Dev) (t : PageType) (p o s : Nat) (w : Word) : (d.wrShadow t p o s w).regs = d.regs :=
  Dev.mk_regs _ _ _ _ _ _ _ _ _ _
@[simp] theorem Dev.wrShadow_freeCtr (d : Dev) (t : PageType) (p o s : Nat) (w : Word) : (d.wrShadow t p o s w).freeCtr = d.freeCtr :=
  Dev.mk_freeCtr _ _ _ _ _ _ _ _ _ _
@[simp] theorem Dev.wrShadow_out (d : Dev) (t : PageType) (p o s : Nat) (w : Word) : (d.wrShadow t p o s w).out = d.out :=
  Dev.mk_out _ _ _ _ _ _ _ _ _ _
@[simp] theorem Dev.wrShadow_rel (d : Dev) (t : PageType) (p o s : Nat) (w : Word) : (d.wrShadow t p o s w).rel = d.rel :=
  Dev.mk_rel _ _ _ _ _ _ _ _ _ _
@[simp] theorem Dev.wrShadow_held (d : Dev) (t : PageType) (p o s : Nat) (w : Word) : (d.wrShadow t p o s w).held = d.held :=
  Dev.mk_held _ _ _ _ _ _ _ _ _ _
@[simp] theorem Dev.wrShadow_accStat (d : Dev) (t : PageType) (p o s : Nat) (w : Word) : (d.wrShadow t p o s w).accStat = d.accStat :=
  Dev.mk_accStat _ _ _ _ _ _ _ _ _ _
@[simp] theorem Dev.wrShadow_xphase (d : Dev) (t : PageType) (p o s : Nat) (w : Word) : (d.wrShadow t p o s w).xphase = d.xphase :=
  Dev.mk_xphase _ _ _ _ _ _ _ _ _ _
@[simp] theorem Dev.wrShadow_avsWritten (d : Dev) (t : PageType) (p o s : Nat) (w : Word) : (d.wrShadow t p o s w).avsWritten = d.avsWritten :=
  Dev.mk_avsWritten _ _ _ _ _ _ _ _ _ _
@[simp] theorem Dev.wrShadow_wins (d : Dev) (t : PageType) (p o s : Nat) (w : Word) : (d.wrShadow t p o s w).wins = d.wins :=
  Dev.mk_wins _ _ _ _ _ _ _ _ _ _
@[simp] theorem Dev.wrShadow_felt (d : Dev) (t : PageType) (p o s : Nat) (w : Word) : (d.wrShadow t p o s w).felt = d.felt :=
  Dev.mk_felt _ _ _ _ _ _ _ _ _ _

@[simp] theorem Dev.dropShadows_toClocks (d : Dev) (p : Nat) : (d.dropShadows p).toClocks = d.toClocks :=
  Dev.mk_toClocks _ _ _ _ _ _ _ _ _ _
@[simp] theorem Dev.dropShadows_toReferences (d : Dev) (p : Nat) : (d.dropShadows p).toReferences = d.toReferences :=
  Dev.mk_toReferences _ _ _ _ _ _ _ _ _ _
@[simp] theorem Dev.dropShadows_toRecords (d : Dev) (p : Nat) : (d.dropShadows p).toRecords = d.toRecords :=
  Dev.mk_toRecords _ _ _ _ _ _ _ _ _ _
@[simp] theorem Dev.dropShadows_toPorts (d : Dev) (p : Nat) : (d.dropShadows p).toPorts = d.toPorts :=
  Dev.mk_toPorts _ _ _ _ _ _ _ _ _ _
@[simp] theorem Dev.dropShadows_toFrames (d : Dev) (p : Nat) : (d.dropShadows p).toFrames = d.toFrames :=
  Dev.mk_toFrames _ _ _ _ _ _ _ _ _ _
@[simp] theorem Dev.dropShadows_toLookup (d : Dev) (p : Nat) : (d.dropShadows p).toLookup = d.toLookup :=
  Dev.mk_toLookup _ _ _ _ _ _ _ _ _ _
@[simp] theorem Dev.dropShadows_toPairing (d : Dev) (p : Nat) : (d.dropShadows p).toPairing = d.toPairing :=
  Dev.mk_toPairing _ _ _ _ _ _ _ _ _ _
@[simp] theorem Dev.dropShadows_toServices (d : Dev) (p : Nat) : (d.dropShadows p).toServices = d.toServices :=
  Dev.mk_toServices _ _ _ _ _ _ _ _ _ _
@[simp] theorem Dev.dropShadows_toAttached (d : Dev) (p : Nat) : (d.dropShadows p).toAttached = d.toAttached :=
  Dev.mk_toAttached _ _ _ _ _ _ _ _ _ _
@[simp] theorem Dev.dropShadows_regs (d : Dev) (p : Nat) : (d.dropShadows p).regs = d.regs :=
  Dev.mk_regs _ _ _ _ _ _ _ _ _ _
@[simp] theorem Dev.dropShadows_freeCtr (d : Dev) (p : Nat) : (d.dropShadows p).freeCtr = d.freeCtr :=
  Dev.mk_freeCtr _ _ _ _ _ _ _ _ _ _
@[simp] theorem Dev.dropShadows_out (d : Dev) (p : Nat) : (d.dropShadows p).out = d.out :=
  Dev.mk_out _ _ _ _ _ _ _ _ _ _
@[simp] theorem Dev.dropShadows_rel (d : Dev) (p : Nat) : (d.dropShadows p).rel = d.rel :=
  Dev.mk_rel _ _ _ _ _ _ _ _ _ _
@[simp] theorem Dev.dropShadows_held (d : Dev) (p : Nat) : (d.dropShadows p).held = d.held :=
  Dev.mk_held _ _ _ _ _ _ _ _ _ _
@[simp] theorem Dev.dropShadows_accStat (d : Dev) (p : Nat) : (d.dropShadows p).accStat = d.accStat :=
  Dev.mk_accStat _ _ _ _ _ _ _ _ _ _
@[simp] theorem Dev.dropShadows_xphase (d : Dev) (p : Nat) : (d.dropShadows p).xphase = d.xphase :=
  Dev.mk_xphase _ _ _ _ _ _ _ _ _ _
@[simp] theorem Dev.dropShadows_avsWritten (d : Dev) (p : Nat) : (d.dropShadows p).avsWritten = d.avsWritten :=
  Dev.mk_avsWritten _ _ _ _ _ _ _ _ _ _
@[simp] theorem Dev.dropShadows_wins (d : Dev) (p : Nat) : (d.dropShadows p).wins = d.wins :=
  Dev.mk_wins _ _ _ _ _ _ _ _ _ _
@[simp] theorem Dev.dropShadows_felt (d : Dev) (p : Nat) : (d.dropShadows p).felt = d.felt :=
  Dev.mk_felt _ _ _ _ _ _ _ _ _ _

/-! ### The lifts of Machine/Ops.lean -/

theorem onDev_next (f : Dev → Dev) (s : State) : onDev f s = .next { s with dev := f s.dev } := rfl

theorem onMem_next (f : Dev → List Host.Cell → Dev × List Host.Cell) (s : State) :
    onMem f s = .next { s with dev := (f s.dev s.dram).1, dram := (f s.dev s.dram).2 } := rfl

theorem Dev.when_pos (d : Dev) {c : Bool} (f : Dev → Dev) (h : c = true) : d.when c f = f d := if_pos h
theorem Dev.when_neg (d : Dev) {c : Bool} (f : Dev → Dev) (h : c = false) : d.when c f = d := by
  unfold Dev.when; rw [h]; exact if_neg Bool.false_ne_true

end Sys2Proof.Machine
end

