-- ==== Sys2Proof/Laws/Ops.lean ====
section
/-!
SUPPORT. Laws/Ops.lean: everything the shared operations of Machine/Ops.lean can do: capturing an error, raising an
interrupt, counting, recording, and acting as a page's owner.
-/
namespace Sys2Proof.Machine

/-! ### Capturing an error -/

@[simp] theorem Dev.pciError_toClocks (d : Dev) (p : Nat) : (d.pciError p).toClocks = d.toClocks := by
  unfold Dev.pciError; split <;> simp only [Dev.emit_toClocks]
@[simp] theorem Dev.pciError_toReferences (d : Dev) (p : Nat) : (d.pciError p).toReferences = d.toReferences := by
  unfold Dev.pciError; split <;> simp only [Dev.emit_toReferences]
@[simp] theorem Dev.pciError_toRecords (d : Dev) (p : Nat) : (d.pciError p).toRecords = d.toRecords := by
  unfold Dev.pciError; split <;> simp only [Dev.emit_toRecords]
@[simp] theorem Dev.pciError_toPorts (d : Dev) (p : Nat) : (d.pciError p).toPorts = d.toPorts := by
  unfold Dev.pciError; split <;> simp only [Dev.emit_toPorts]
@[simp] theorem Dev.pciError_toFrames (d : Dev) (p : Nat) : (d.pciError p).toFrames = d.toFrames := by
  unfold Dev.pciError; split <;> simp only [Dev.emit_toFrames]
@[simp] theorem Dev.pciError_toLookup (d : Dev) (p : Nat) : (d.pciError p).toLookup = d.toLookup := by
  unfold Dev.pciError; split <;> simp only [Dev.emit_toLookup]
@[simp] theorem Dev.pciError_toPairing (d : Dev) (p : Nat) : (d.pciError p).toPairing = d.toPairing := by
  unfold Dev.pciError; split <;> simp only [Dev.emit_toPairing]
@[simp] theorem Dev.pciError_toServices (d : Dev) (p : Nat) : (d.pciError p).toServices = d.toServices := by
  unfold Dev.pciError; split <;> simp only [Dev.emit_toServices]
@[simp] theorem Dev.pciError_toAttached (d : Dev) (p : Nat) : (d.pciError p).toAttached = d.toAttached := by
  unfold Dev.pciError; split <;> simp only [Dev.emit_toAttached]
@[simp] theorem Dev.pciError_regs (d : Dev) (p : Nat) : (d.pciError p).regs = d.regs := by
  unfold Dev.pciError; split <;> simp only [Dev.emit_regs]
@[simp] theorem Dev.pciError_shadow (d : Dev) (p : Nat) : (d.pciError p).shadow = d.shadow := by
  unfold Dev.pciError; split <;> simp only [Dev.emit_shadow]
@[simp] theorem Dev.pciError_freeCtr (d : Dev) (p : Nat) : (d.pciError p).freeCtr = d.freeCtr := by
  unfold Dev.pciError; split <;> simp only [Dev.emit_freeCtr]
@[simp] theorem Dev.pciError_rel (d : Dev) (p : Nat) : (d.pciError p).rel = d.rel := by
  unfold Dev.pciError; split <;> simp only [Dev.emit_rel]
@[simp] theorem Dev.pciError_held (d : Dev) (p : Nat) : (d.pciError p).held = d.held := by
  unfold Dev.pciError; split <;> simp only [Dev.emit_held]
@[simp] theorem Dev.pciError_accStat (d : Dev) (p : Nat) : (d.pciError p).accStat = d.accStat := by
  unfold Dev.pciError; split <;> simp only [Dev.emit_accStat]
@[simp] theorem Dev.pciError_xphase (d : Dev) (p : Nat) : (d.pciError p).xphase = d.xphase := by
  unfold Dev.pciError; split <;> simp only [Dev.emit_xphase]
@[simp] theorem Dev.pciError_avsWritten (d : Dev) (p : Nat) : (d.pciError p).avsWritten = d.avsWritten := by
  unfold Dev.pciError; split <;> simp only [Dev.emit_avsWritten]
@[simp] theorem Dev.pciError_wins (d : Dev) (p : Nat) : (d.pciError p).wins = d.wins := by
  unfold Dev.pciError; split <;> simp only [Dev.emit_wins]
@[simp] theorem Dev.pciError_felt (d : Dev) (p : Nat) : (d.pciError p).felt = d.felt := by
  unfold Dev.pciError; split <;> simp only [Dev.emit_felt]

@[simp] theorem Dev.err_toClocks (d : Dev) (p c x : Nat) : (d.err p c x).toClocks = d.toClocks := by
  unfold Dev.err; simp only [Dev.pciError_toClocks, Dev.set_toClocks, Dev.incSat_toClocks]
@[simp] theorem Dev.err_toReferences (d : Dev) (p c x : Nat) : (d.err p c x).toReferences = d.toReferences := by
  unfold Dev.err; simp only [Dev.pciError_toReferences, Dev.set_toReferences, Dev.incSat_toReferences]
@[simp] theorem Dev.err_toRecords (d : Dev) (p c x : Nat) : (d.err p c x).toRecords = d.toRecords := by
  unfold Dev.err; simp only [Dev.pciError_toRecords, Dev.set_toRecords, Dev.incSat_toRecords]
@[simp] theorem Dev.err_toPorts (d : Dev) (p c x : Nat) : (d.err p c x).toPorts = d.toPorts := by
  unfold Dev.err; simp only [Dev.pciError_toPorts, Dev.set_toPorts, Dev.incSat_toPorts]
@[simp] theorem Dev.err_toFrames (d : Dev) (p c x : Nat) : (d.err p c x).toFrames = d.toFrames := by
  unfold Dev.err; simp only [Dev.pciError_toFrames, Dev.set_toFrames, Dev.incSat_toFrames]
@[simp] theorem Dev.err_toLookup (d : Dev) (p c x : Nat) : (d.err p c x).toLookup = d.toLookup := by
  unfold Dev.err; simp only [Dev.pciError_toLookup, Dev.set_toLookup, Dev.incSat_toLookup]
@[simp] theorem Dev.err_toPairing (d : Dev) (p c x : Nat) : (d.err p c x).toPairing = d.toPairing := by
  unfold Dev.err; simp only [Dev.pciError_toPairing, Dev.set_toPairing, Dev.incSat_toPairing]
@[simp] theorem Dev.err_toServices (d : Dev) (p c x : Nat) : (d.err p c x).toServices = d.toServices := by
  unfold Dev.err; simp only [Dev.pciError_toServices, Dev.set_toServices, Dev.incSat_toServices]
@[simp] theorem Dev.err_toAttached (d : Dev) (p c x : Nat) : (d.err p c x).toAttached = d.toAttached := by
  unfold Dev.err; simp only [Dev.pciError_toAttached, Dev.set_toAttached, Dev.incSat_toAttached]
@[simp] theorem Dev.err_shadow (d : Dev) (p c x : Nat) : (d.err p c x).shadow = d.shadow := by
  unfold Dev.err; simp only [Dev.pciError_shadow, Dev.set_shadow, Dev.incSat_shadow]
@[simp] theorem Dev.err_freeCtr (d : Dev) (p c x : Nat) : (d.err p c x).freeCtr = d.freeCtr := by
  unfold Dev.err; simp only [Dev.pciError_freeCtr, Dev.set_freeCtr, Dev.incSat_freeCtr]
@[simp] theorem Dev.err_rel (d : Dev) (p c x : Nat) : (d.err p c x).rel = d.rel := by
  unfold Dev.err; simp only [Dev.pciError_rel, Dev.set_rel, Dev.incSat_rel]
@[simp] theorem Dev.err_held (d : Dev) (p c x : Nat) : (d.err p c x).held = d.held := by
  unfold Dev.err; simp only [Dev.pciError_held, Dev.set_held, Dev.incSat_held]
@[simp] theorem Dev.err_accStat (d : Dev) (p c x : Nat) : (d.err p c x).accStat = d.accStat := by
  unfold Dev.err; simp only [Dev.pciError_accStat, Dev.set_accStat, Dev.incSat_accStat]
@[simp] theorem Dev.err_xphase (d : Dev) (p c x : Nat) : (d.err p c x).xphase = d.xphase := by
  unfold Dev.err; simp only [Dev.pciError_xphase, Dev.set_xphase, Dev.incSat_xphase]
@[simp] theorem Dev.err_avsWritten (d : Dev) (p c x : Nat) : (d.err p c x).avsWritten = d.avsWritten := by
  unfold Dev.err; simp only [Dev.pciError_avsWritten, Dev.set_avsWritten, Dev.incSat_avsWritten]
@[simp] theorem Dev.err_wins (d : Dev) (p c x : Nat) : (d.err p c x).wins = d.wins := by
  unfold Dev.err; simp only [Dev.pciError_wins, Dev.set_wins, Dev.incSat_wins]
@[simp] theorem Dev.err_felt (d : Dev) (p c x : Nat) : (d.err p c x).felt = d.felt := by
  unfold Dev.err; simp only [Dev.pciError_felt, Dev.set_felt, Dev.incSat_felt]

/-- What an error sends: vector 17 on the PCI page, nothing elsewhere. -/
theorem Dev.pciError_out (d : Dev) {p : Nat} (h : p ≠ PCI.page) : (d.pciError p).out = d.out := by
  unfold Dev.pciError; rw [if_neg h]

theorem Dev.err_out (d : Dev) {p : Nat} (c x : Nat) (h : p ≠ PCI.page) : (d.err p c x).out = d.out := by
  unfold Dev.err; simp only [Dev.pciError_out _ h, Dev.set_out, Dev.incSat_out]

@[simp] theorem Dev.pciError_rd (d : Dev) (p q o s : Nat) : (d.pciError p).rd q o s = d.rd q o s := by
  unfold Dev.rd; rw [Dev.pciError_regs]

@[simp] theorem Dev.pciError_get (d : Dev) (p q : Nat) (f : Field) (s : Nat) : (d.pciError p).get q f s = d.get q f s := by
  unfold Dev.get; rw [Dev.pciError_rd]

/-- An error changes no register but the three that show it. -/
theorem Dev.err_rd (d : Dev) {p c x p' o' s' : Nat} (h1 : rkey p' o' s' ≠ rkey p 0x24 0) (h2 : rkey p' o' s' ≠ rkey p 0x28 0)
    (h3 : rkey p' o' s' ≠ rkey p 0x2C 0) : (d.err p c x).rd p' o' s' = d.rd p' o' s' := by
  unfold Dev.err
  simp only [Dev.incSat, Dev.pciError_rd]
  rw [Dev.rd_set_other (f := COM.ERR_TIME_FRAC.FRAC) _ _ h3, Dev.rd_set_other (f := COM.ERR_TIME_FRAC.SEC_LO) _ _ h3,
    Dev.rd_set_other (f := COM.ERR_TIME_NS.NS) _ _ h2, Dev.rd_set_other (f := COM.ERR_INFO.DETAIL) _ _ h1,
    Dev.rd_set_other (f := COM.ERR_INFO.COUNT) _ _ h1, Dev.rd_set_other (f := COM.ERR_INFO.CODE) _ _ h1,
    Dev.rd_set_other (f := COM.ERR_INFO.VALID) _ _ h1]

theorem Dev.err_get (d : Dev) {p c x p' s' : Nat} {g : Field} (h1 : rkey p' g.off s' ≠ rkey p 0x24 0)
    (h2 : rkey p' g.off s' ≠ rkey p 0x28 0) (h3 : rkey p' g.off s' ≠ rkey p 0x2C 0) :
    (d.err p c x).get p' g s' = d.get p' g s' := by
  unfold Dev.get; rw [Dev.err_rd d h1 h2 h3]

/-- An error shows its code. -/
theorem Dev.err_code (d : Dev) (p c x : Nat) : (d.err p c x).get p COM.ERR_INFO.CODE = c % 256 := by
  unfold Dev.err
  simp only [Dev.incSat, Dev.pciError_get]
  repeat first
    | rw [Dev.get_set_same _ _ _ _ (by decide)]; rfl
    | rw [Dev.get_set_other _ _ (.inr (by decide))]
    | rw [Dev.get_set_other _ _ (.inl (by rw [Ne, rkey_same_page]; decide))]

/-- An error shows its detail. -/
theorem Dev.err_detail (d : Dev) (p c x : Nat) : (d.err p c x).get p COM.ERR_INFO.DETAIL = x % 65536 := by
  unfold Dev.err
  simp only [Dev.incSat, Dev.pciError_get]
  repeat first
    | rw [Dev.get_set_same _ _ _ _ (by decide)]; rfl
    | rw [Dev.get_set_other _ _ (.inr (by decide))]
    | rw [Dev.get_set_other _ _ (.inl (by rw [Ne, rkey_same_page]; decide))]

/-- An error shows that it is valid. -/
theorem Dev.err_valid (d : Dev) (p c x : Nat) : (d.err p c x).get p COM.ERR_INFO.VALID = 1 := by
  unfold Dev.err
  simp only [Dev.incSat, Dev.pciError_get]
  repeat first
    | rw [Dev.get_set_same _ _ _ _ (by decide)]; rfl
    | rw [Dev.get_set_other _ _ (.inr (by decide))]
    | rw [Dev.get_set_other _ _ (.inl (by rw [Ne, rkey_same_page]; decide))]

/-! ### Raising an interrupt -/

@[simp] theorem Dev.sendSummary_toClocks (d : Dev) (p : Nat) : (d.sendSummary p).toClocks = d.toClocks := by
  unfold Dev.sendSummary; simp only; split_ifs <;> simp only [Dev.emit_toClocks]
@[simp] theorem Dev.raiseBits_toClocks (d : Dev) (p : Nat) (b : Word) : (d.raiseBits p b).toClocks = d.toClocks := by
  unfold Dev.raiseBits; simp only; split_ifs <;> simp only [Dev.sendSummary_toClocks, Dev.wr_toClocks]
@[simp] theorem Dev.raise_toClocks (d : Dev) (p n : Nat) (f : Field) : (d.raise p f n).toClocks = d.toClocks :=
  Dev.raiseBits_toClocks _ _ _
@[simp] theorem Dev.sendSummary_toReferences (d : Dev) (p : Nat) : (d.sendSummary p).toReferences = d.toReferences := by
  unfold Dev.sendSummary; simp only; split_ifs <;> simp only [Dev.emit_toReferences]
@[simp] theorem Dev.raiseBits_toReferences (d : Dev) (p : Nat) (b : Word) : (d.raiseBits p b).toReferences = d.toReferences := by
  unfold Dev.raiseBits; simp only; split_ifs <;> simp only [Dev.sendSummary_toReferences, Dev.wr_toReferences]
@[simp] theorem Dev.raise_toReferences (d : Dev) (p n : Nat) (f : Field) : (d.raise p f n).toReferences = d.toReferences :=
  Dev.raiseBits_toReferences _ _ _
@[simp] theorem Dev.sendSummary_toRecords (d : Dev) (p : Nat) : (d.sendSummary p).toRecords = d.toRecords := by
  unfold Dev.sendSummary; simp only; split_ifs <;> simp only [Dev.emit_toRecords]
@[simp] theorem Dev.raiseBits_toRecords (d : Dev) (p : Nat) (b : Word) : (d.raiseBits p b).toRecords = d.toRecords := by
  unfold Dev.raiseBits; simp only; split_ifs <;> simp only [Dev.sendSummary_toRecords, Dev.wr_toRecords]
@[simp] theorem Dev.raise_toRecords (d : Dev) (p n : Nat) (f : Field) : (d.raise p f n).toRecords = d.toRecords :=
  Dev.raiseBits_toRecords _ _ _
@[simp] theorem Dev.sendSummary_toPorts (d : Dev) (p : Nat) : (d.sendSummary p).toPorts = d.toPorts := by
  unfold Dev.sendSummary; simp only; split_ifs <;> simp only [Dev.emit_toPorts]
@[simp] theorem Dev.raiseBits_toPorts (d : Dev) (p : Nat) (b : Word) : (d.raiseBits p b).toPorts = d.toPorts := by
  unfold Dev.raiseBits; simp only; split_ifs <;> simp only [Dev.sendSummary_toPorts, Dev.wr_toPorts]
@[simp] theorem Dev.raise_toPorts (d : Dev) (p n : Nat) (f : Field) : (d.raise p f n).toPorts = d.toPorts :=
  Dev.raiseBits_toPorts _ _ _
@[simp] theorem Dev.sendSummary_toFrames (d : Dev) (p : Nat) : (d.sendSummary p).toFrames = d.toFrames := by
  unfold Dev.sendSummary; simp only; split_ifs <;> simp only [Dev.emit_toFrames]
@[simp] theorem Dev.raiseBits_toFrames (d : Dev) (p : Nat) (b : Word) : (d.raiseBits p b).toFrames = d.toFrames := by
  unfold Dev.raiseBits; simp only; split_ifs <;> simp only [Dev.sendSummary_toFrames, Dev.wr_toFrames]
@[simp] theorem Dev.raise_toFrames (d : Dev) (p n : Nat) (f : Field) : (d.raise p f n).toFrames = d.toFrames :=
  Dev.raiseBits_toFrames _ _ _
@[simp] theorem Dev.sendSummary_toLookup (d : Dev) (p : Nat) : (d.sendSummary p).toLookup = d.toLookup := by
  unfold Dev.sendSummary; simp only; split_ifs <;> simp only [Dev.emit_toLookup]
@[simp] theorem Dev.raiseBits_toLookup (d : Dev) (p : Nat) (b : Word) : (d.raiseBits p b).toLookup = d.toLookup := by
  unfold Dev.raiseBits; simp only; split_ifs <;> simp only [Dev.sendSummary_toLookup, Dev.wr_toLookup]
@[simp] theorem Dev.raise_toLookup (d : Dev) (p n : Nat) (f : Field) : (d.raise p f n).toLookup = d.toLookup :=
  Dev.raiseBits_toLookup _ _ _
@[simp] theorem Dev.sendSummary_toPairing (d : Dev) (p : Nat) : (d.sendSummary p).toPairing = d.toPairing := by
  unfold Dev.sendSummary; simp only; split_ifs <;> simp only [Dev.emit_toPairing]
@[simp] theorem Dev.raiseBits_toPairing (d : Dev) (p : Nat) (b : Word) : (d.raiseBits p b).toPairing = d.toPairing := by
  unfold Dev.raiseBits; simp only; split_ifs <;> simp only [Dev.sendSummary_toPairing, Dev.wr_toPairing]
@[simp] theorem Dev.raise_toPairing (d : Dev) (p n : Nat) (f : Field) : (d.raise p f n).toPairing = d.toPairing :=
  Dev.raiseBits_toPairing _ _ _
@[simp] theorem Dev.sendSummary_toServices (d : Dev) (p : Nat) : (d.sendSummary p).toServices = d.toServices := by
  unfold Dev.sendSummary; simp only; split_ifs <;> simp only [Dev.emit_toServices]
@[simp] theorem Dev.raiseBits_toServices (d : Dev) (p : Nat) (b : Word) : (d.raiseBits p b).toServices = d.toServices := by
  unfold Dev.raiseBits; simp only; split_ifs <;> simp only [Dev.sendSummary_toServices, Dev.wr_toServices]
@[simp] theorem Dev.raise_toServices (d : Dev) (p n : Nat) (f : Field) : (d.raise p f n).toServices = d.toServices :=
  Dev.raiseBits_toServices _ _ _
@[simp] theorem Dev.sendSummary_toAttached (d : Dev) (p : Nat) : (d.sendSummary p).toAttached = d.toAttached := by
  unfold Dev.sendSummary; simp only; split_ifs <;> simp only [Dev.emit_toAttached]
@[simp] theorem Dev.raiseBits_toAttached (d : Dev) (p : Nat) (b : Word) : (d.raiseBits p b).toAttached = d.toAttached := by
  unfold Dev.raiseBits; simp only; split_ifs <;> simp only [Dev.sendSummary_toAttached, Dev.wr_toAttached]
@[simp] theorem Dev.raise_toAttached (d : Dev) (p n : Nat) (f : Field) : (d.raise p f n).toAttached = d.toAttached :=
  Dev.raiseBits_toAttached _ _ _
@[simp] theorem Dev.sendSummary_shadow (d : Dev) (p : Nat) : (d.sendSummary p).shadow = d.shadow := by
  unfold Dev.sendSummary; simp only; split_ifs <;> simp only [Dev.emit_shadow]
@[simp] theorem Dev.raiseBits_shadow (d : Dev) (p : Nat) (b : Word) : (d.raiseBits p b).shadow = d.shadow := by
  unfold Dev.raiseBits; simp only; split_ifs <;> simp only [Dev.sendSummary_shadow, Dev.wr_shadow]
@[simp] theorem Dev.raise_shadow (d : Dev) (p n : Nat) (f : Field) : (d.raise p f n).shadow = d.shadow :=
  Dev.raiseBits_shadow _ _ _
@[simp] theorem Dev.sendSummary_freeCtr (d : Dev) (p : Nat) : (d.sendSummary p).freeCtr = d.freeCtr := by
  unfold Dev.sendSummary; simp only; split_ifs <;> simp only [Dev.emit_freeCtr]
@[simp] theorem Dev.raiseBits_freeCtr (d : Dev) (p : Nat) (b : Word) : (d.raiseBits p b).freeCtr = d.freeCtr := by
  unfold Dev.raiseBits; simp only; split_ifs <;> simp only [Dev.sendSummary_freeCtr, Dev.wr_freeCtr]
@[simp] theorem Dev.raise_freeCtr (d : Dev) (p n : Nat) (f : Field) : (d.raise p f n).freeCtr = d.freeCtr :=
  Dev.raiseBits_freeCtr _ _ _
@[simp] theorem Dev.sendSummary_rel (d : Dev) (p : Nat) : (d.sendSummary p).rel = d.rel := by
  unfold Dev.sendSummary; simp only; split_ifs <;> simp only [Dev.emit_rel]
@[simp] theorem Dev.raiseBits_rel (d : Dev) (p : Nat) (b : Word) : (d.raiseBits p b).rel = d.rel := by
  unfold Dev.raiseBits; simp only; split_ifs <;> simp only [Dev.sendSummary_rel, Dev.wr_rel]
@[simp] theorem Dev.raise_rel (d : Dev) (p n : Nat) (f : Field) : (d.raise p f n).rel = d.rel :=
  Dev.raiseBits_rel _ _ _
@[simp] theorem Dev.sendSummary_held (d : Dev) (p : Nat) : (d.sendSummary p).held = d.held := by
  unfold Dev.sendSummary; simp only; split_ifs <;> simp only [Dev.emit_held]
@[simp] theorem Dev.raiseBits_held (d : Dev) (p : Nat) (b : Word) : (d.raiseBits p b).held = d.held := by
  unfold Dev.raiseBits; simp only; split_ifs <;> simp only [Dev.sendSummary_held, Dev.wr_held]
@[simp] theorem Dev.raise_held (d : Dev) (p n : Nat) (f : Field) : (d.raise p f n).held = d.held :=
  Dev.raiseBits_held _ _ _
@[simp] theorem Dev.sendSummary_accStat (d : Dev) (p : Nat) : (d.sendSummary p).accStat = d.accStat := by
  unfold Dev.sendSummary; simp only; split_ifs <;> simp only [Dev.emit_accStat]
@[simp] theorem Dev.raiseBits_accStat (d : Dev) (p : Nat) (b : Word) : (d.raiseBits p b).accStat = d.accStat := by
  unfold Dev.raiseBits; simp only; split_ifs <;> simp only [Dev.sendSummary_accStat, Dev.wr_accStat]
@[simp] theorem Dev.raise_accStat (d : Dev) (p n : Nat) (f : Field) : (d.raise p f n).accStat = d.accStat :=
  Dev.raiseBits_accStat _ _ _
@[simp] theorem Dev.sendSummary_xphase (d : Dev) (p : Nat) : (d.sendSummary p).xphase = d.xphase := by
  unfold Dev.sendSummary; simp only; split_ifs <;> simp only [Dev.emit_xphase]
@[simp] theorem Dev.raiseBits_xphase (d : Dev) (p : Nat) (b : Word) : (d.raiseBits p b).xphase = d.xphase := by
  unfold Dev.raiseBits; simp only; split_ifs <;> simp only [Dev.sendSummary_xphase, Dev.wr_xphase]
@[simp] theorem Dev.raise_xphase (d : Dev) (p n : Nat) (f : Field) : (d.raise p f n).xphase = d.xphase :=
  Dev.raiseBits_xphase _ _ _
@[simp] theorem Dev.sendSummary_avsWritten (d : Dev) (p : Nat) : (d.sendSummary p).avsWritten = d.avsWritten := by
  unfold Dev.sendSummary; simp only; split_ifs <;> simp only [Dev.emit_avsWritten]
@[simp] theorem Dev.raiseBits_avsWritten (d : Dev) (p : Nat) (b : Word) : (d.raiseBits p b).avsWritten = d.avsWritten := by
  unfold Dev.raiseBits; simp only; split_ifs <;> simp only [Dev.sendSummary_avsWritten, Dev.wr_avsWritten]
@[simp] theorem Dev.raise_avsWritten (d : Dev) (p n : Nat) (f : Field) : (d.raise p f n).avsWritten = d.avsWritten :=
  Dev.raiseBits_avsWritten _ _ _
@[simp] theorem Dev.sendSummary_wins (d : Dev) (p : Nat) : (d.sendSummary p).wins = d.wins := by
  unfold Dev.sendSummary; simp only; split_ifs <;> simp only [Dev.emit_wins]
@[simp] theorem Dev.raiseBits_wins (d : Dev) (p : Nat) (b : Word) : (d.raiseBits p b).wins = d.wins := by
  unfold Dev.raiseBits; simp only; split_ifs <;> simp only [Dev.sendSummary_wins, Dev.wr_wins]
@[simp] theorem Dev.raise_wins (d : Dev) (p n : Nat) (f : Field) : (d.raise p f n).wins = d.wins :=
  Dev.raiseBits_wins _ _ _
@[simp] theorem Dev.sendSummary_felt (d : Dev) (p : Nat) : (d.sendSummary p).felt = d.felt := by
  unfold Dev.sendSummary; simp only; split_ifs <;> simp only [Dev.emit_felt]
@[simp] theorem Dev.raiseBits_felt (d : Dev) (p : Nat) (b : Word) : (d.raiseBits p b).felt = d.felt := by
  unfold Dev.raiseBits; simp only; split_ifs <;> simp only [Dev.sendSummary_felt, Dev.wr_felt]
@[simp] theorem Dev.raise_felt (d : Dev) (p n : Nat) (f : Field) : (d.raise p f n).felt = d.felt :=
  Dev.raiseBits_felt _ _ _
@[simp] theorem Dev.sendSummary_regs (d : Dev) (p : Nat) : (d.sendSummary p).regs = d.regs := by
  unfold Dev.sendSummary; simp only; split_ifs <;> simp only [Dev.emit_regs]
theorem Dev.raiseBits_regs (d : Dev) (p : Nat) (b : Word) :
    (d.raiseBits p b).regs = (d.wr p 0x10 (d.rd p 0x10 ||| b)).regs := by
  unfold Dev.raiseBits; simp only; split_ifs <;> simp only [Dev.sendSummary_regs]

theorem Dev.raiseBits_rd (d : Dev) (p : Nat) (b : Word) (p' o' s' : Nat) :
    (d.raiseBits p b).rd p' o' s' = if rkey p' o' s' = rkey p 0x10 0 then d.rd p 0x10 ||| b else d.rd p' o' s' := by
  unfold Dev.rd
  rw [Dev.raiseBits_regs]
  exact Dev.rd_wr d p 0x10 0 p' o' s' _

/-- Raising an interrupt changes no other register. -/
theorem Dev.raise_rd (d : Dev) (p n : Nat) (f : Field) {p' o' s' : Nat} (h : rkey p' o' s' ≠ rkey p 0x10 0) :
    (d.raise p f n).rd p' o' s' = d.rd p' o' s' := by
  unfold Dev.raise; rw [Dev.raiseBits_rd, if_neg h]

theorem Dev.raise_get (d : Dev) (p n : Nat) (f : Field) {p' s' : Nat} {g : Field} (h : rkey p' g.off s' ≠ rkey p 0x10 0) :
    (d.raise p f n).get p' g s' = d.get p' g s' := by
  unfold Dev.get; rw [Dev.raise_rd _ _ _ _ h]

/-- The raised word: the bits that stood, and the event's. -/
theorem Dev.raise_raw (d : Dev) (p n : Nat) (f : Field) :
    (d.raise p f n).rd p 0x10 = d.rd p 0x10 ||| BitVec.ofNat 32 (2 ^ (f.lo + n)) := by
  unfold Dev.raise; rw [Dev.raiseBits_rd, if_pos rfl]

theorem getBits_one_iff (w : Word) (i : Nat) : getBits w i 1 = 1 ↔ w.toNat.testBit i = true := by
  unfold getBits
  rw [Nat.testBit_eq_decide_div_mod_eq]; simp

/-- A raised bit reads 1. -/
theorem Dev.raise_get_raised (d : Dev) (p : Nat) (f : Field) (ho : f.off = 0x10) (hw : f.wd = 1) (hl : f.lo < 32) :
    (d.raise p f).get p f = 1 := by
  unfold Dev.get
  rw [ho, hw, getBits_one_iff, Dev.raise_raw]
  have : (BitVec.ofNat 32 (2 ^ (f.lo + 0))).toNat = 2 ^ f.lo := by
    rw [BitVec.toNat_ofNat, Nat.add_zero]
    exact Nat.mod_eq_of_lt (Nat.pow_lt_pow_right (by omega) hl)
  rw [BitVec.toNat_or, Nat.testBit_or, this, Nat.testBit_two_pow_self]; simp

/-! ### Free values -/

/-! ### Counting -/

theorem Dev.smpFold_toClocks (i n : Nat) (l : List Nat) (d : Dev) :
    (l.foldl (fun d k => if d.samples i k then
      { d with smpCount := tset (fun _ => 0) d.smpCount k (tget (fun _ => 0) d.smpCount k + n) } else d) d).toClocks
      = d.toClocks := by
  induction l generalizing d with
  | nil => rfl
  | cons k rest ih =>
    rw [List.foldl_cons, ih]
    split
    · exact Dev.mk_toClocks _ _ _ _ _ _ _ _ _ _
    · rfl
@[simp] theorem Dev.count_toClocks (d : Dev) (i n : Nat) : (d.count i n).toClocks = d.toClocks := by
  unfold Dev.count
  exact (Dev.smpFold_toClocks i n _ _).trans (Dev.mk_toClocks _ _ _ _ _ _ _ _ _ _)
@[simp] theorem Dev.countLane_toClocks (d : Dev) (i n k : Nat) : (d.countLane i n k).toClocks = d.toClocks :=
  Dev.count_toClocks _ _ _
theorem Dev.smpFold_toReferences (i n : Nat) (l : List Nat) (d : Dev) :
    (l.foldl (fun d k => if d.samples i k then
      { d with smpCount := tset (fun _ => 0) d.smpCount k (tget (fun _ => 0) d.smpCount k + n) } else d) d).toReferences
      = d.toReferences := by
  induction l generalizing d with
  | nil => rfl
  | cons k rest ih =>
    rw [List.foldl_cons, ih]
    split
    · exact Dev.mk_toReferences _ _ _ _ _ _ _ _ _ _
    · rfl
@[simp] theorem Dev.count_toReferences (d : Dev) (i n : Nat) : (d.count i n).toReferences = d.toReferences := by
  unfold Dev.count
  exact (Dev.smpFold_toReferences i n _ _).trans (Dev.mk_toReferences _ _ _ _ _ _ _ _ _ _)
@[simp] theorem Dev.countLane_toReferences (d : Dev) (i n k : Nat) : (d.countLane i n k).toReferences = d.toReferences :=
  Dev.count_toReferences _ _ _
theorem Dev.smpFold_toPorts (i n : Nat) (l : List Nat) (d : Dev) :
    (l.foldl (fun d k => if d.samples i k then
      { d with smpCount := tset (fun _ => 0) d.smpCount k (tget (fun _ => 0) d.smpCount k + n) } else d) d).toPorts
      = d.toPorts := by
  induction l generalizing d with
  | nil => rfl
  | cons k rest ih =>
    rw [List.foldl_cons, ih]
    split
    · exact Dev.mk_toPorts _ _ _ _ _ _ _ _ _ _
    · rfl
@[simp] theorem Dev.count_toPorts (d : Dev) (i n : Nat) : (d.count i n).toPorts = d.toPorts := by
  unfold Dev.count
  exact (Dev.smpFold_toPorts i n _ _).trans (Dev.mk_toPorts _ _ _ _ _ _ _ _ _ _)
@[simp] theorem Dev.countLane_toPorts (d : Dev) (i n k : Nat) : (d.countLane i n k).toPorts = d.toPorts :=
  Dev.count_toPorts _ _ _
theorem Dev.smpFold_toFrames (i n : Nat) (l : List Nat) (d : Dev) :
    (l.foldl (fun d k => if d.samples i k then
      { d with smpCount := tset (fun _ => 0) d.smpCount k (tget (fun _ => 0) d.smpCount k + n) } else d) d).toFrames
      = d.toFrames := by
  induction l generalizing d with
  | nil => rfl
  | cons k rest ih =>
    rw [List.foldl_cons, ih]
    split
    · exact Dev.mk_toFrames _ _ _ _ _ _ _ _ _ _
    · rfl
@[simp] theorem Dev.count_toFrames (d : Dev) (i n : Nat) : (d.count i n).toFrames = d.toFrames := by
  unfold Dev.count
  exact (Dev.smpFold_toFrames i n _ _).trans (Dev.mk_toFrames _ _ _ _ _ _ _ _ _ _)
@[simp] theorem Dev.countLane_toFrames (d : Dev) (i n k : Nat) : (d.countLane i n k).toFrames = d.toFrames :=
  Dev.count_toFrames _ _ _
theorem Dev.smpFold_toLookup (i n : Nat) (l : List Nat) (d : Dev) :
    (l.foldl (fun d k => if d.samples i k then
      { d with smpCount := tset (fun _ => 0) d.smpCount k (tget (fun _ => 0) d.smpCount k + n) } else d) d).toLookup
      = d.toLookup := by
  induction l generalizing d with
  | nil => rfl
  | cons k rest ih =>
    rw [List.foldl_cons, ih]
    split
    · exact Dev.mk_toLookup _ _ _ _ _ _ _ _ _ _
    · rfl
@[simp] theorem Dev.count_toLookup (d : Dev) (i n : Nat) : (d.count i n).toLookup = d.toLookup := by
  unfold Dev.count
  exact (Dev.smpFold_toLookup i n _ _).trans (Dev.mk_toLookup _ _ _ _ _ _ _ _ _ _)
@[simp] theorem Dev.countLane_toLookup (d : Dev) (i n k : Nat) : (d.countLane i n k).toLookup = d.toLookup :=
  Dev.count_toLookup _ _ _
theorem Dev.smpFold_toPairing (i n : Nat) (l : List Nat) (d : Dev) :
    (l.foldl (fun d k => if d.samples i k then
      { d with smpCount := tset (fun _ => 0) d.smpCount k (tget (fun _ => 0) d.smpCount k + n) } else d) d).toPairing
      = d.toPairing := by
  induction l generalizing d with
  | nil => rfl
  | cons k rest ih =>
    rw [List.foldl_cons, ih]
    split
    · exact Dev.mk_toPairing _ _ _ _ _ _ _ _ _ _
    · rfl
@[simp] theorem Dev.count_toPairing (d : Dev) (i n : Nat) : (d.count i n).toPairing = d.toPairing := by
  unfold Dev.count
  exact (Dev.smpFold_toPairing i n _ _).trans (Dev.mk_toPairing _ _ _ _ _ _ _ _ _ _)
@[simp] theorem Dev.countLane_toPairing (d : Dev) (i n k : Nat) : (d.countLane i n k).toPairing = d.toPairing :=
  Dev.count_toPairing _ _ _
theorem Dev.smpFold_toServices (i n : Nat) (l : List Nat) (d : Dev) :
    (l.foldl (fun d k => if d.samples i k then
      { d with smpCount := tset (fun _ => 0) d.smpCount k (tget (fun _ => 0) d.smpCount k + n) } else d) d).toServices
      = d.toServices := by
  induction l generalizing d with
  | nil => rfl
  | cons k rest ih =>
    rw [List.foldl_cons, ih]
    split
    · exact Dev.mk_toServices _ _ _ _ _ _ _ _ _ _
    · rfl
@[simp] theorem Dev.count_toServices (d : Dev) (i n : Nat) : (d.count i n).toServices = d.toServices := by
  unfold Dev.count
  exact (Dev.smpFold_toServices i n _ _).trans (Dev.mk_toServices _ _ _ _ _ _ _ _ _ _)
@[simp] theorem Dev.countLane_toServices (d : Dev) (i n k : Nat) : (d.countLane i n k).toServices = d.toServices :=
  Dev.count_toServices _ _ _
theorem Dev.smpFold_toAttached (i n : Nat) (l : List Nat) (d : Dev) :
    (l.foldl (fun d k => if d.samples i k then
      { d with smpCount := tset (fun _ => 0) d.smpCount k (tget (fun _ => 0) d.smpCount k + n) } else d) d).toAttached
      = d.toAttached := by
  induction l generalizing d with
  | nil => rfl
  | cons k rest ih =>
    rw [List.foldl_cons, ih]
    split
    · exact Dev.mk_toAttached _ _ _ _ _ _ _ _ _ _
    · rfl
@[simp] theorem Dev.count_toAttached (d : Dev) (i n : Nat) : (d.count i n).toAttached = d.toAttached := by
  unfold Dev.count
  exact (Dev.smpFold_toAttached i n _ _).trans (Dev.mk_toAttached _ _ _ _ _ _ _ _ _ _)
@[simp] theorem Dev.countLane_toAttached (d : Dev) (i n k : Nat) : (d.countLane i n k).toAttached = d.toAttached :=
  Dev.count_toAttached _ _ _
theorem Dev.smpFold_toControl (i n : Nat) (l : List Nat) (d : Dev) :
    (l.foldl (fun d k => if d.samples i k then
      { d with smpCount := tset (fun _ => 0) d.smpCount k (tget (fun _ => 0) d.smpCount k + n) } else d) d).toControl
      = d.toControl := by
  induction l generalizing d with
  | nil => rfl
  | cons k rest ih =>
    rw [List.foldl_cons, ih]
    split
    · exact Dev.mk_toControl _ _ _ _ _ _ _ _ _ _
    · rfl
@[simp] theorem Dev.count_toControl (d : Dev) (i n : Nat) : (d.count i n).toControl = d.toControl := by
  unfold Dev.count
  exact (Dev.smpFold_toControl i n _ _).trans (Dev.mk_toControl _ _ _ _ _ _ _ _ _ _)
@[simp] theorem Dev.countLane_toControl (d : Dev) (i n k : Nat) : (d.countLane i n k).toControl = d.toControl :=
  Dev.count_toControl _ _ _
theorem Dev.smpFold_freezeAt (i n : Nat) (l : List Nat) (d : Dev) :
    (l.foldl (fun d k => if d.samples i k then
      { d with smpCount := tset (fun _ => 0) d.smpCount k (tget (fun _ => 0) d.smpCount k + n) } else d) d).freezeAt
      = d.freezeAt := by
  induction l generalizing d with
  | nil => rfl
  | cons k rest ih =>
    rw [List.foldl_cons, ih]
    split
    · exact Dev.mk_freezeAt _ _ _ _ _ _ _ _ _ _
    · rfl
@[simp] theorem Dev.count_freezeAt (d : Dev) (i n : Nat) : (d.count i n).freezeAt = d.freezeAt := by
  unfold Dev.count
  exact (Dev.smpFold_freezeAt i n _ _).trans (Dev.mk_freezeAt _ _ _ _ _ _ _ _ _ _)
@[simp] theorem Dev.countLane_freezeAt (d : Dev) (i n k : Nat) : (d.countLane i n k).freezeAt = d.freezeAt := Dev.count_freezeAt _ _ _
theorem Dev.smpFold_collecting (i n : Nat) (l : List Nat) (d : Dev) :
    (l.foldl (fun d k => if d.samples i k then
      { d with smpCount := tset (fun _ => 0) d.smpCount k (tget (fun _ => 0) d.smpCount k + n) } else d) d).collecting
      = d.collecting := by
  induction l generalizing d with
  | nil => rfl
  | cons k rest ih =>
    rw [List.foldl_cons, ih]
    split
    · exact Dev.mk_collecting _ _ _ _ _ _ _ _ _ _
    · rfl
@[simp] theorem Dev.count_collecting (d : Dev) (i n : Nat) : (d.count i n).collecting = d.collecting := by
  unfold Dev.count
  exact (Dev.smpFold_collecting i n _ _).trans (Dev.mk_collecting _ _ _ _ _ _ _ _ _ _)
@[simp] theorem Dev.countLane_collecting (d : Dev) (i n k : Nat) : (d.countLane i n k).collecting = d.collecting := Dev.count_collecting _ _ _
theorem Dev.smpFold_snapHeld (i n : Nat) (l : List Nat) (d : Dev) :
    (l.foldl (fun d k => if d.samples i k then
      { d with smpCount := tset (fun _ => 0) d.smpCount k (tget (fun _ => 0) d.smpCount k + n) } else d) d).snapHeld
      = d.snapHeld := by
  induction l generalizing d with
  | nil => rfl
  | cons k rest ih =>
    rw [List.foldl_cons, ih]
    split
    · exact Dev.mk_snapHeld _ _ _ _ _ _ _ _ _ _
    · rfl
@[simp] theorem Dev.count_snapHeld (d : Dev) (i n : Nat) : (d.count i n).snapHeld = d.snapHeld := by
  unfold Dev.count
  exact (Dev.smpFold_snapHeld i n _ _).trans (Dev.mk_snapHeld _ _ _ _ _ _ _ _ _ _)
@[simp] theorem Dev.countLane_snapHeld (d : Dev) (i n k : Nat) : (d.countLane i n k).snapHeld = d.snapHeld := Dev.count_snapHeld _ _ _
theorem Dev.smpFold_logHeld (i n : Nat) (l : List Nat) (d : Dev) :
    (l.foldl (fun d k => if d.samples i k then
      { d with smpCount := tset (fun _ => 0) d.smpCount k (tget (fun _ => 0) d.smpCount k + n) } else d) d).logHeld
      = d.logHeld := by
  induction l generalizing d with
  | nil => rfl
  | cons k rest ih =>
    rw [List.foldl_cons, ih]
    split
    · exact Dev.mk_logHeld _ _ _ _ _ _ _ _ _ _
    · rfl
@[simp] theorem Dev.count_logHeld (d : Dev) (i n : Nat) : (d.count i n).logHeld = d.logHeld := by
  unfold Dev.count
  exact (Dev.smpFold_logHeld i n _ _).trans (Dev.mk_logHeld _ _ _ _ _ _ _ _ _ _)
@[simp] theorem Dev.countLane_logHeld (d : Dev) (i n k : Nat) : (d.countLane i n k).logHeld = d.logHeld := Dev.count_logHeld _ _ _
theorem Dev.smpFold_logLost (i n : Nat) (l : List Nat) (d : Dev) :
    (l.foldl (fun d k => if d.samples i k then
      { d with smpCount := tset (fun _ => 0) d.smpCount k (tget (fun _ => 0) d.smpCount k + n) } else d) d).logLost
      = d.logLost := by
  induction l generalizing d with
  | nil => rfl
  | cons k rest ih =>
    rw [List.foldl_cons, ih]
    split
    · exact Dev.mk_logLost _ _ _ _ _ _ _ _ _ _
    · rfl
@[simp] theorem Dev.count_logLost (d : Dev) (i n : Nat) : (d.count i n).logLost = d.logLost := by
  unfold Dev.count
  exact (Dev.smpFold_logLost i n _ _).trans (Dev.mk_logLost _ _ _ _ _ _ _ _ _ _)
@[simp] theorem Dev.countLane_logLost (d : Dev) (i n k : Nat) : (d.countLane i n k).logLost = d.logLost := Dev.count_logLost _ _ _
theorem Dev.smpFold_logSec (i n : Nat) (l : List Nat) (d : Dev) :
    (l.foldl (fun d k => if d.samples i k then
      { d with smpCount := tset (fun _ => 0) d.smpCount k (tget (fun _ => 0) d.smpCount k + n) } else d) d).logSec
      = d.logSec := by
  induction l generalizing d with
  | nil => rfl
  | cons k rest ih =>
    rw [List.foldl_cons, ih]
    split
    · exact Dev.mk_logSec _ _ _ _ _ _ _ _ _ _
    · rfl
@[simp] theorem Dev.count_logSec (d : Dev) (i n : Nat) : (d.count i n).logSec = d.logSec := by
  unfold Dev.count
  exact (Dev.smpFold_logSec i n _ _).trans (Dev.mk_logSec _ _ _ _ _ _ _ _ _ _)
@[simp] theorem Dev.countLane_logSec (d : Dev) (i n k : Nat) : (d.countLane i n k).logSec = d.logSec := Dev.count_logSec _ _ _
theorem Dev.smpFold_logFill (i n : Nat) (l : List Nat) (d : Dev) :
    (l.foldl (fun d k => if d.samples i k then
      { d with smpCount := tset (fun _ => 0) d.smpCount k (tget (fun _ => 0) d.smpCount k + n) } else d) d).logFill
      = d.logFill := by
  induction l generalizing d with
  | nil => rfl
  | cons k rest ih =>
    rw [List.foldl_cons, ih]
    split
    · exact Dev.mk_logFill _ _ _ _ _ _ _ _ _ _
    · rfl
@[simp] theorem Dev.count_logFill (d : Dev) (i n : Nat) : (d.count i n).logFill = d.logFill := by
  unfold Dev.count
  exact (Dev.smpFold_logFill i n _ _).trans (Dev.mk_logFill _ _ _ _ _ _ _ _ _ _)
@[simp] theorem Dev.countLane_logFill (d : Dev) (i n k : Nat) : (d.countLane i n k).logFill = d.logFill := Dev.count_logFill _ _ _
theorem Dev.smpFold_lockSites (i n : Nat) (l : List Nat) (d : Dev) :
    (l.foldl (fun d k => if d.samples i k then
      { d with smpCount := tset (fun _ => 0) d.smpCount k (tget (fun _ => 0) d.smpCount k + n) } else d) d).lockSites
      = d.lockSites := by
  induction l generalizing d with
  | nil => rfl
  | cons k rest ih =>
    rw [List.foldl_cons, ih]
    split
    · exact Dev.mk_lockSites _ _ _ _ _ _ _ _ _ _
    · rfl
@[simp] theorem Dev.count_lockSites (d : Dev) (i n : Nat) : (d.count i n).lockSites = d.lockSites := by
  unfold Dev.count
  exact (Dev.smpFold_lockSites i n _ _).trans (Dev.mk_lockSites _ _ _ _ _ _ _ _ _ _)
@[simp] theorem Dev.countLane_lockSites (d : Dev) (i n k : Nat) : (d.countLane i n k).lockSites = d.lockSites := Dev.count_lockSites _ _ _
theorem Dev.smpFold_epash (i n : Nat) (l : List Nat) (d : Dev) :
    (l.foldl (fun d k => if d.samples i k then
      { d with smpCount := tset (fun _ => 0) d.smpCount k (tget (fun _ => 0) d.smpCount k + n) } else d) d).epash
      = d.epash := by
  induction l generalizing d with
  | nil => rfl
  | cons k rest ih =>
    rw [List.foldl_cons, ih]
    split
    · exact Dev.mk_epash _ _ _ _ _ _ _ _ _ _
    · rfl
@[simp] theorem Dev.count_epash (d : Dev) (i n : Nat) : (d.count i n).epash = d.epash := by
  unfold Dev.count
  exact (Dev.smpFold_epash i n _ _).trans (Dev.mk_epash _ _ _ _ _ _ _ _ _ _)
@[simp] theorem Dev.countLane_epash (d : Dev) (i n k : Nat) : (d.countLane i n k).epash = d.epash := Dev.count_epash _ _ _
theorem Dev.smpFold_dramTest (i n : Nat) (l : List Nat) (d : Dev) :
    (l.foldl (fun d k => if d.samples i k then
      { d with smpCount := tset (fun _ => 0) d.smpCount k (tget (fun _ => 0) d.smpCount k + n) } else d) d).dramTest
      = d.dramTest := by
  induction l generalizing d with
  | nil => rfl
  | cons k rest ih =>
    rw [List.foldl_cons, ih]
    split
    · exact Dev.mk_dramTest _ _ _ _ _ _ _ _ _ _
    · rfl
@[simp] theorem Dev.count_dramTest (d : Dev) (i n : Nat) : (d.count i n).dramTest = d.dramTest := by
  unfold Dev.count
  exact (Dev.smpFold_dramTest i n _ _).trans (Dev.mk_dramTest _ _ _ _ _ _ _ _ _ _)
@[simp] theorem Dev.countLane_dramTest (d : Dev) (i n k : Nat) : (d.countLane i n k).dramTest = d.dramTest := Dev.count_dramTest _ _ _
theorem Dev.smpFold_testMode (i n : Nat) (l : List Nat) (d : Dev) :
    (l.foldl (fun d k => if d.samples i k then
      { d with smpCount := tset (fun _ => 0) d.smpCount k (tget (fun _ => 0) d.smpCount k + n) } else d) d).testMode
      = d.testMode := by
  induction l generalizing d with
  | nil => rfl
  | cons k rest ih =>
    rw [List.foldl_cons, ih]
    split
    · exact Dev.mk_testMode _ _ _ _ _ _ _ _ _ _
    · rfl
@[simp] theorem Dev.count_testMode (d : Dev) (i n : Nat) : (d.count i n).testMode = d.testMode := by
  unfold Dev.count
  exact (Dev.smpFold_testMode i n _ _).trans (Dev.mk_testMode _ _ _ _ _ _ _ _ _ _)
@[simp] theorem Dev.countLane_testMode (d : Dev) (i n k : Nat) : (d.countLane i n k).testMode = d.testMode := Dev.count_testMode _ _ _
theorem Dev.smpFold_tally (i n : Nat) (l : List Nat) (d : Dev) :
    (l.foldl (fun d k => if d.samples i k then
      { d with smpCount := tset (fun _ => 0) d.smpCount k (tget (fun _ => 0) d.smpCount k + n) } else d) d).tally
      = d.tally := by
  induction l generalizing d with
  | nil => rfl
  | cons k rest ih =>
    rw [List.foldl_cons, ih]
    split
    · exact Dev.mk_tally _ _ _ _ _ _ _ _ _ _
    · rfl

/-- What the counters read after one has counted. -/
theorem Dev.count_counter (d : Dev) (i n j : Nat) :
    (d.count i n).counter j = if j = i then (d.counter i + n) % 2 ^ 48 else d.counter j := by
  have h : (d.count i n).tally = tset (fun _ => 0) d.tally i ((d.counter i + n) % 2 ^ 48) := by
    unfold Dev.count
    exact (Dev.smpFold_tally i n _ _).trans (Dev.mk_tally _ _ _ _ _ _ _ _ _ _)
  unfold Dev.counter at *
  rw [h, tget_tset]

/-- Counting a frame leaves the registers alone. -/
theorem Dev.countFrame_regs (d : Dev) (lane n k stamp : Nat) : (d.countFrame lane n k stamp).regs = d.regs := by
  unfold Dev.countFrame Dev.countAt
  exact congrArg Control.regs ((Dev.smpFold_toControl _ k _ _).trans (Dev.mk_toControl _ _ _ _ _ _ _ _ _ _))

theorem Dev.count_rd (d : Dev) (i n p o s : Nat) : (d.count i n).rd p o s = d.rd p o s := by
  unfold Dev.rd; rw [Dev.count_toControl]

@[simp] theorem Dev.count_get (d : Dev) (i n p s : Nat) (f : Field) : (d.count i n).get p f s = d.get p f s := by
  unfold Dev.get; rw [Dev.count_rd]

@[simp] theorem Dev.countLane_get (d : Dev) (i n k p s : Nat) (f : Field) : (d.countLane i n k).get p f s = d.get p f s :=
  Dev.count_get _ _ _ _ _ _

/-- An output leaves every register alone. -/
@[simp] theorem Dev.emit_rd (d : Dev) (o : Output) (p off s : Nat) : (d.emit o).rd p off s = d.rd p off s := by
  unfold Dev.rd; rw [Dev.emit_regs]

@[simp] theorem Dev.emit_get (d : Dev) (o : Output) (p s : Nat) (f : Field) : (d.emit o).get p f s = d.get p f s := by
  unfold Dev.get; rw [Dev.emit_rd]

@[simp] theorem Dev.emit_out (d : Dev) (o : Output) : (d.emit o).out = o :: d.out := Dev.mk_out _ _ _ _ _ _ _ _ _ _

/-! ### Recording -/

theorem Dev.heldLog_mk (d : Dev) (l : List LogRec) : ({ d with logHeld := l } : Dev).regs = d.regs :=
  Dev.mk_regs _ _ _ _ _ _ _ _ _ _

@[simp] theorem Dev.record_toClocks (d : Dev) (src typ data : Nat) (late : Bool) (time : Nat) :
    (d.record src typ data late time).toClocks = d.toClocks := by
  unfold Dev.record
  split
  · rfl
  · split
    · simp only [Dev.raise_toClocks, Dev.incSat_toClocks]
    · exact Dev.mk_toClocks _ _ _ _ _ _ _ _ _ _
@[simp] theorem Dev.record_toReferences (d : Dev) (src typ data : Nat) (late : Bool) (time : Nat) :
    (d.record src typ data late time).toReferences = d.toReferences := by
  unfold Dev.record
  split
  · rfl
  · split
    · simp only [Dev.raise_toReferences, Dev.incSat_toReferences]
    · exact Dev.mk_toReferences _ _ _ _ _ _ _ _ _ _
@[simp] theorem Dev.record_toPorts (d : Dev) (src typ data : Nat) (late : Bool) (time : Nat) :
    (d.record src typ data late time).toPorts = d.toPorts := by
  unfold Dev.record
  split
  · rfl
  · split
    · simp only [Dev.raise_toPorts, Dev.incSat_toPorts]
    · exact Dev.mk_toPorts _ _ _ _ _ _ _ _ _ _
@[simp] theorem Dev.record_toFrames (d : Dev) (src typ data : Nat) (late : Bool) (time : Nat) :
    (d.record src typ data late time).toFrames = d.toFrames := by
  unfold Dev.record
  split
  · rfl
  · split
    · simp only [Dev.raise_toFrames, Dev.incSat_toFrames]
    · exact Dev.mk_toFrames _ _ _ _ _ _ _ _ _ _
@[simp] theorem Dev.record_toLookup (d : Dev) (src typ data : Nat) (late : Bool) (time : Nat) :
    (d.record src typ data late time).toLookup = d.toLookup := by
  unfold Dev.record
  split
  · rfl
  · split
    · simp only [Dev.raise_toLookup, Dev.incSat_toLookup]
    · exact Dev.mk_toLookup _ _ _ _ _ _ _ _ _ _
@[simp] theorem Dev.record_toPairing (d : Dev) (src typ data : Nat) (late : Bool) (time : Nat) :
    (d.record src typ data late time).toPairing = d.toPairing := by
  unfold Dev.record
  split
  · rfl
  · split
    · simp only [Dev.raise_toPairing, Dev.incSat_toPairing]
    · exact Dev.mk_toPairing _ _ _ _ _ _ _ _ _ _
@[simp] theorem Dev.record_toServices (d : Dev) (src typ data : Nat) (late : Bool) (time : Nat) :
    (d.record src typ data late time).toServices = d.toServices := by
  unfold Dev.record
  split
  · rfl
  · split
    · simp only [Dev.raise_toServices, Dev.incSat_toServices]
    · exact Dev.mk_toServices _ _ _ _ _ _ _ _ _ _
@[simp] theorem Dev.record_toAttached (d : Dev) (src typ data : Nat) (late : Bool) (time : Nat) :
    (d.record src typ data late time).toAttached = d.toAttached := by
  unfold Dev.record
  split
  · rfl
  · split
    · simp only [Dev.raise_toAttached, Dev.incSat_toAttached]
    · exact Dev.mk_toAttached _ _ _ _ _ _ _ _ _ _
@[simp] theorem Dev.record_shadow (d : Dev) (src typ data : Nat) (late : Bool) (time : Nat) :
    (d.record src typ data late time).shadow = d.shadow := by
  unfold Dev.record
  split
  · rfl
  · split
    · simp only [Dev.raise_shadow, Dev.incSat_shadow]
    · exact Dev.mk_shadow _ _ _ _ _ _ _ _ _ _
@[simp] theorem Dev.record_freeCtr (d : Dev) (src typ data : Nat) (late : Bool) (time : Nat) :
    (d.record src typ data late time).freeCtr = d.freeCtr := by
  unfold Dev.record
  split
  · rfl
  · split
    · simp only [Dev.raise_freeCtr, Dev.incSat_freeCtr]
    · exact Dev.mk_freeCtr _ _ _ _ _ _ _ _ _ _
@[simp] theorem Dev.record_rel (d : Dev) (src typ data : Nat) (late : Bool) (time : Nat) :
    (d.record src typ data late time).rel = d.rel := by
  unfold Dev.record
  split
  · rfl
  · split
    · simp only [Dev.raise_rel, Dev.incSat_rel]
    · exact Dev.mk_rel _ _ _ _ _ _ _ _ _ _
@[simp] theorem Dev.record_held (d : Dev) (src typ data : Nat) (late : Bool) (time : Nat) :
    (d.record src typ data late time).held = d.held := by
  unfold Dev.record
  split
  · rfl
  · split
    · simp only [Dev.raise_held, Dev.incSat_held]
    · exact Dev.mk_held _ _ _ _ _ _ _ _ _ _
@[simp] theorem Dev.record_accStat (d : Dev) (src typ data : Nat) (late : Bool) (time : Nat) :
    (d.record src typ data late time).accStat = d.accStat := by
  unfold Dev.record
  split
  · rfl
  · split
    · simp only [Dev.raise_accStat, Dev.incSat_accStat]
    · exact Dev.mk_accStat _ _ _ _ _ _ _ _ _ _
@[simp] theorem Dev.record_xphase (d : Dev) (src typ data : Nat) (late : Bool) (time : Nat) :
    (d.record src typ data late time).xphase = d.xphase := by
  unfold Dev.record
  split
  · rfl
  · split
    · simp only [Dev.raise_xphase, Dev.incSat_xphase]
    · exact Dev.mk_xphase _ _ _ _ _ _ _ _ _ _
@[simp] theorem Dev.record_avsWritten (d : Dev) (src typ data : Nat) (late : Bool) (time : Nat) :
    (d.record src typ data late time).avsWritten = d.avsWritten := by
  unfold Dev.record
  split
  · rfl
  · split
    · simp only [Dev.raise_avsWritten, Dev.incSat_avsWritten]
    · exact Dev.mk_avsWritten _ _ _ _ _ _ _ _ _ _
@[simp] theorem Dev.record_wins (d : Dev) (src typ data : Nat) (late : Bool) (time : Nat) :
    (d.record src typ data late time).wins = d.wins := by
  unfold Dev.record
  split
  · rfl
  · split
    · simp only [Dev.raise_wins, Dev.incSat_wins]
    · exact Dev.mk_wins _ _ _ _ _ _ _ _ _ _
@[simp] theorem Dev.record_felt (d : Dev) (src typ data : Nat) (late : Bool) (time : Nat) :
    (d.record src typ data late time).felt = d.felt := by
  unfold Dev.record
  split
  · rfl
  · split
    · simp only [Dev.raise_felt, Dev.incSat_felt]
    · exact Dev.mk_felt _ _ _ _ _ _ _ _ _ _

/-- A record changes no register outside the LOG page. -/
theorem Dev.record_rd (d : Dev) (src typ data : Nat) (late : Bool) (time : Nat) {p o s : Nat} (hp : p ≠ LOG.page)
    (ho : o < 4096) (hs : s < 65536) : (d.record src typ data late time).rd p o s = d.rd p o s := by
  unfold Dev.record
  split
  · rfl
  · split
    · rw [Dev.raise_rd _ _ _ _ (rkey_ne_of_page hp ho (by decide) hs (by decide))]
      unfold Dev.incSat
      rw [Dev.rd_set_other _ _ (rkey_ne_of_page hp ho (by decide) hs (by decide))]
      unfold Dev.rd
      exact congrArg (fun r => tget resetReg r _) (Dev.mk_regs _ _ _ _ _ _ _ _ _ _)
    · unfold Dev.rd
      exact congrArg (fun r => tget resetReg r _) (Dev.mk_regs _ _ _ _ _ _ _ _ _ _)

theorem Dev.record_get (d : Dev) (src typ data : Nat) (late : Bool) (time : Nat) {p s : Nat} {g : Field}
    (hp : p ≠ LOG.page) (ho : g.off < 4096) (hs : s < 65536) :
    (d.record src typ data late time).get p g s = d.get p g s := by
  unfold Dev.get; rw [Dev.record_rd _ _ _ _ _ _ hp ho hs]

/-! ### Fields through updates beside the registers -/

/-- A field of a device that differs outside the part with the registers. -/
theorem Dev.get_mk (d : Dev) (x1 : Clocks) (x2 : References) (x3 : Records) (x4 : Ports) (x5 : Frames) (x6 : Lookup)
    (x7 : Pairing) (x8 : Services) (x9 : Attached) (p s : Nat) (f : Field) :
    (Dev.mk d.toControl x1 x2 x3 x4 x5 x6 x7 x8 x9).get p f s = d.get p f s := by
  unfold Dev.get Dev.rd
  rw [Dev.mk_toControl]

theorem Dev.get_congr {d e : Dev} (h : e.regs = d.regs) (p s : Nat) (f : Field) : e.get p f s = d.get p f s := by
  unfold Dev.get Dev.rd; rw [h]

/-- Raising an interrupt leaves the page's other registers alone. -/
theorem Dev.raise_get_beside (d : Dev) {p n : Nat} {f g : Field} (h : g.off ≠ 0x10) :
    (d.raise p f n).get p g = d.get p g :=
  Dev.raise_get _ _ _ _ (by rw [Ne, rkey_same_page]; omega)

/-- Raising an interrupt leaves the selected instances of other registers alone. -/
theorem Dev.raise_get_sel (d : Dev) {p n s : Nat} {f g : Field} (h : g.off ≠ 0x10) (hs : s < 65536) :
    (d.raise p f n).get p g s = d.get p g s :=
  Dev.raise_get _ _ _ _ (by rw [Ne, rkey_same_page]; omega)

theorem Dev.raise_get_page (d : Dev) {p p' n s : Nat} {f g : Field} (h : p' ≠ p) (hg : g.off < 4096) (hs : s < 65536) :
    (d.raise p f n).get p' g s = d.get p' g s :=
  Dev.raise_get _ _ _ _ (rkey_ne_of_page h hg (by decide) hs (by decide))

/-- A truth value written to a one-bit field. -/
theorem Dev.flag_setFlag_same (d : Dev) (p s : Nat) (f : Field) (b : Bool) (hw : f.wd = 1) (hl : f.lo + f.wd ≤ 32) :
    (d.setFlag p f b s).flag p f s = b := by
  unfold Dev.flag Dev.setFlag
  rw [Dev.get_set_same _ _ _ _ hl, hw]
  cases b <;> rfl

/-! ### Acting as a page's owner -/

/-- A reachable page's owner has its way. -/
theorem Dev.asOwner_owner (d : Dev) {acc : Accessor} {p off : Nat} {f : Dev → Dev} {w : List (Nat × Word)}
    (hu : d.pageUp p = true) (hh : d.pageHeld p = false) (hf : (acc.isFw && d.hostHolds p) = false)
    (ho : d.owns acc p = true) : d.asOwner acc p off f w = f d := by
  simp [Dev.asOwner, hu, hh, hf, ho]

/-- Who does not own a reachable page is refused. -/
theorem Dev.asOwner_stranger (d : Dev) {acc : Accessor} {p off : Nat} {f : Dev → Dev} {w : List (Nat × Word)}
    (hu : d.pageUp p = true) (hh : d.pageHeld p = false) (hf : (acc.isFw && d.hostHolds p) = false)
    (ho : d.owns acc p = false) : d.asOwner acc p off f w = d.refuseWrite p off := by
  simp [Dev.asOwner, hu, hh, hf, ho]

theorem Dev.asOwner_reset (d : Dev) {acc : Accessor} {p off : Nat} {f : Dev → Dev} {w : List (Nat × Word)}
    (hu : d.pageUp p = false) : d.asOwner acc p off f w = d.accessInReset p := by simp [Dev.asOwner, hu]

theorem Dev.asOwner_held (d : Dev) {acc : Accessor} {p off : Nat} {f : Dev → Dev} {w : List (Nat × Word)}
    (hu : d.pageUp p = true) (hh : d.pageHeld p = true) : d.asOwner acc p off f w = d.holdTransfer acc p w := by
  simp [Dev.asOwner, hu, hh]

theorem Dev.asAny_reach (d : Dev) {acc : Accessor} {p : Nat} {f : Dev → Dev} {w : List (Nat × Word)}
    (hu : d.pageUp p = true) (hh : d.pageHeld p = false) : d.asAny acc p f w = f d := by
  simp [Dev.asAny, hu, hh]

end Sys2Proof.Machine
end

