-- ==== Sys2Proof/Laws/Lanes.lean ====
section
/-!
SUPPORT. Laws/Lanes.lean: when an event of a lane happens.
-/
namespace Sys2Proof.Machine

theorem Dev.onLane_up (d : Dev) {l : Nat} (f : Dev → Dev) (h : d.released (unitLane l) = true) : d.onLane l f = f d :=
  Dev.when_pos d f h

theorem Dev.onLane_reset (d : Dev) {l : Nat} (f : Dev → Dev) (h : d.released (unitLane l) = false) : d.onLane l f = d :=
  Dev.when_neg d f h

theorem Dev.inState_at (d : Dev) {l st : Nat} (f : Dev → Dev) (h : d.released (unitLane l) = true)
    (hs : d.laneState l = st) : d.inState l st f = f d := by
  unfold Dev.inState
  rw [Dev.onLane_up d _ h]
  exact Dev.when_pos d f (by rw [hs]; exact beq_self_eq_true st)

theorem Dev.inState_other (d : Dev) {l st : Nat} (f : Dev → Dev) (hs : d.laneState l ≠ st) : d.inState l st f = d := by
  unfold Dev.inState
  cases h : d.released (unitLane l)
  · exact Dev.onLane_reset d _ h
  · rw [Dev.onLane_up d _ h]
    exact Dev.when_neg d f (beq_eq_false_iff_ne.mpr hs)

/-! ### The lane's memory beside its registers -/

@[simp] theorem Dev.setLane_regs (d : Dev) (l : Nat) (x : Lane) : (d.setLane l x).regs = d.regs :=
  Dev.mk_regs _ _ _ _ _ _ _ _ _ _

@[simp] theorem Dev.setLane_get (d : Dev) (l : Nat) (x : Lane) (p s : Nat) (f : Field) :
    (d.setLane l x).get p f s = d.get p f s := by
  unfold Dev.get Dev.rd; rw [Dev.setLane_regs]

theorem Dev.setLane_lane (d : Dev) (l m : Nat) (x : Lane) :
    (d.setLane l x).lane m = if m = l then x else d.lane m := by
  have h : (d.setLane l x).lanes = tset (fun _ => lane0) d.lanes l x := Dev.mk_lanes _ _ _ _ _ _ _ _ _ _
  unfold Dev.lane
  rw [h, tget_tset]

theorem Dev.lane_congr {d e : Dev} (h : e.toPorts = d.toPorts) (l : Nat) : e.lane l = d.lane l := by
  unfold Dev.lane; rw [h]

/-! ### Pauses -/

theorem Dev.pauseEnd_setPause (d : Dev) (port p q r : Nat) (e : Option Nat) :
    (d.setPause port p e).pauseEnd q r = if 16 * q + r = 16 * port + p then e else d.pauseEnd q r := by
  have h : (d.setPause port p e).pauses = tset (fun _ => none) d.pauses (16 * port + p) e :=
    Dev.mk_pauses _ _ _ _ _ _ _ _ _ _
  unfold Dev.pauseEnd
  rw [h, tget_tset]

@[simp] theorem Dev.setPause_toRecords (d : Dev) (port p : Nat) (e : Option Nat) :
    (d.setPause port p e).toRecords = d.toRecords := Dev.mk_toRecords _ _ _ _ _ _ _ _ _ _

theorem Dev.refreshPause_toPorts (d : Dev) (port : Nat) : (d.refreshPause port).toPorts = d.toPorts := by
  unfold Dev.refreshPause
  simp only [Dev.setFlag_toPorts, Dev.set_toPorts]

theorem Dev.refreshPause_toRecords (d : Dev) (port : Nat) : (d.refreshPause port).toRecords = d.toRecords := by
  unfold Dev.refreshPause
  simp only [Dev.setFlag_toRecords, Dev.set_toRecords]

theorem Dev.pauseEnd_congr {d e : Dev} (h : e.toPorts = d.toPorts) (port p : Nat) : e.pauseEnd port p = d.pauseEnd port p := by
  unfold Dev.pauseEnd; rw [h]

/-- PAUSED shows whether a PAUSE stands. -/
theorem Dev.refreshPause_paused (d : Dev) (port : Nat) :
    (d.refreshPause port).flag (PRT.page port) PRT.PORT_STAT.PAUSED = (d.pauseEnd port 8).isSome := by
  unfold Dev.refreshPause Dev.flag Dev.setFlag
  simp only
  rw [Dev.get_set_same _ _ _ _ (by decide)]
  cases (d.pauseEnd port 8).isSome <;> rfl

theorem Dev.counter_congr {d e : Dev} (h : e.toRecords = d.toRecords) (i : Nat) : e.counter i = d.counter i := by
  unfold Dev.counter; rw [h]

end Sys2Proof.Machine
end

