-- ==== Sys2Proof/Laws/Felt.lean ====
section
/-!
SUPPORT. Laws/Felt.lean: the lowest of a list of pace readings, and what a crossing's change of state leaves.
-/
namespace Sys2Proof.Machine

/-- The lowest reading of a list and its monitor, found from a reading that starts the search. -/
theorem minReading_fold (l : List (BitVec 10 × Nat)) (m : Nat × Nat) :
    let r := l.foldl (fun (m : Nat × Nat) (e : BitVec 10 × Nat) => if e.1.toNat < m.1 then (e.1.toNat, e.2) else m) m
    (r = m ∨ ∃ e ∈ l, r = (e.1.toNat, e.2)) ∧ r.1 ≤ m.1 ∧ ∀ e ∈ l, r.1 ≤ e.1.toNat := by
  induction l generalizing m with
  | nil => simp
  | cons a rest ih =>
    simp only [List.foldl_cons]
    by_cases h : a.1.toNat < m.1
    · rw [if_pos h]
      obtain ⟨h1, h2, h3⟩ := ih (a.1.toNat, a.2)
      refine ⟨?_, by simp only at h2; omega, ?_⟩
      · right
        rcases h1 with h1 | ⟨e, he, h1⟩
        · exact ⟨a, by simp, h1⟩
        · exact ⟨e, by simp [he], h1⟩
      · intro e he
        rcases List.mem_cons.mp he with rfl | he
        · exact h2
        · exact h3 e he
    · rw [if_neg h]
      obtain ⟨h1, h2, h3⟩ := ih m
      refine ⟨?_, h2, ?_⟩
      · rcases h1 with h1 | ⟨e, he, h1⟩
        · exact .inl h1
        · exact .inr ⟨e, by simp [he], h1⟩
      · intro e he
        rcases List.mem_cons.mp he with rfl | he
        · omega
        · exact h3 e he

theorem minReading_le (l : List (BitVec 10)) {r : BitVec 10} (h : r ∈ l) : (minReading l).1 ≤ r.toNat := by
  obtain ⟨i, hi, rfl⟩ := List.mem_iff_getElem.mp h
  have := (minReading_fold l.zipIdx (1023, 0)).2.2 (l[i], i) (by
    rw [List.mem_zipIdx_iff_getElem?]; simp)
  simpa [minReading] using this

/-- Setting the phase of a resynchronization. -/
theorem Dev.setXph_xph (d : Dev) (i j n : Nat) : (d.setXph i n).xph j = if j = i then n else d.xph j := by
  have h : (d.setXph i n).xphase = tset (fun _ => 0) d.xphase i n := Dev.mk_xphase _ _ _ _ _ _ _ _ _ _
  unfold Dev.xph
  rw [h, tget_tset]

@[simp] theorem Dev.setXph_get (d : Dev) (i n p s : Nat) (f : Field) : (d.setXph i n).get p f s = d.get p f s := by
  have h : (d.setXph i n).regs = d.regs := Dev.mk_regs _ _ _ _ _ _ _ _ _ _
  unfold Dev.get Dev.rd; rw [h]

/-- A crossing's state after it has been set. -/
theorem Dev.setXing_xing (d : Dev) {i : Nat} {st : Nat} (hs : st < 4) (hi : i < 65536) : (d.setXing i st).xing i = st := by
  unfold Dev.setXing
  split
  · assumption
  · simp only
    unfold Dev.xing
    rw [Dev.record_get _ _ _ _ _ _ (by decide) (by decide) hi]
    have he : rkey FAB.page FAB.XING_STAT.STATE.off i
        ≠ rkey FAB.page (if i < 32 then FAB.XING_HELD0.NOT_OPEN else FAB.XING_HELD1.NOT_OPEN).off 0 := by
      rw [Ne, rkey_same_page]
      split <;> simp only [FAB.XING_STAT.STATE, FAB.XING_HELD0.NOT_OPEN, FAB.XING_HELD1.NOT_OPEN] <;> omega
    rw [Dev.get_set_other _ _ (.inl he), Dev.get_set_same _ _ _ _ (by decide)]
    exact Nat.mod_eq_of_lt hs

/-- A crossing's change of state leaves every register alone but XING_STAT.STATE of it, XING_HELD0, XING_HELD1 and the
LOG page's. -/
theorem Dev.setXing_rd (d : Dev) {i st p o s : Nat} (hp : p ≠ LOG.page) (ho : o < 4096) (hs : s < 65536)
    (h1 : rkey p o s ≠ rkey FAB.page 0x7C i) (h2 : rkey p o s ≠ rkey FAB.page 0x80 0)
    (h3 : rkey p o s ≠ rkey FAB.page 0x84 0) : (d.setXing i st).rd p o s = d.rd p o s := by
  unfold Dev.setXing
  split
  · rfl
  · simp only
    rw [Dev.record_rd _ _ _ _ _ _ hp ho hs]
    split
    · rw [Dev.rd_set_other (f := FAB.XING_HELD0.NOT_OPEN) _ _ h2, Dev.rd_set_other (f := FAB.XING_STAT.STATE) _ _ h1]
      unfold Dev.rd
      exact congrArg (fun r => tget resetReg r _) (Dev.mk_regs _ _ _ _ _ _ _ _ _ _)
    · rw [Dev.rd_set_other (f := FAB.XING_HELD1.NOT_OPEN) _ _ h3, Dev.rd_set_other (f := FAB.XING_STAT.STATE) _ _ h1]
      unfold Dev.rd
      exact congrArg (fun r => tget resetReg r _) (Dev.mk_regs _ _ _ _ _ _ _ _ _ _)

@[simp] theorem Dev.setXing_shadow (d : Dev) (i st : Nat) : (d.setXing i st).shadow = d.shadow := by
  unfold Dev.setXing
  split
  · rfl
  · simp only [Dev.record_shadow, Dev.set_shadow]
@[simp] theorem Dev.setXing_freeCtr (d : Dev) (i st : Nat) : (d.setXing i st).freeCtr = d.freeCtr := by
  unfold Dev.setXing
  split
  · rfl
  · simp only [Dev.record_freeCtr, Dev.set_freeCtr]
@[simp] theorem Dev.setXing_rel (d : Dev) (i st : Nat) : (d.setXing i st).rel = d.rel := by
  unfold Dev.setXing
  split
  · rfl
  · simp only [Dev.record_rel, Dev.set_rel]
@[simp] theorem Dev.setXing_held (d : Dev) (i st : Nat) : (d.setXing i st).held = d.held := by
  unfold Dev.setXing
  split
  · rfl
  · simp only [Dev.record_held, Dev.set_held]
@[simp] theorem Dev.setXing_accStat (d : Dev) (i st : Nat) : (d.setXing i st).accStat = d.accStat := by
  unfold Dev.setXing
  split
  · rfl
  · simp only [Dev.record_accStat, Dev.set_accStat]
@[simp] theorem Dev.setXing_xphase (d : Dev) (i st : Nat) : (d.setXing i st).xphase = d.xphase := by
  unfold Dev.setXing
  split
  · rfl
  · simp only [Dev.record_xphase, Dev.set_xphase]
@[simp] theorem Dev.setXing_avsWritten (d : Dev) (i st : Nat) : (d.setXing i st).avsWritten = d.avsWritten := by
  unfold Dev.setXing
  split
  · rfl
  · simp only [Dev.record_avsWritten, Dev.set_avsWritten]
@[simp] theorem Dev.setXing_wins (d : Dev) (i st : Nat) : (d.setXing i st).wins = d.wins := by
  unfold Dev.setXing
  split
  · rfl
  · simp only [Dev.record_wins, Dev.set_wins]

/-- The fields beside STATE in a crossing's XING_STAT. -/
theorem Dev.setXing_stat (d : Dev) {i st : Nat} {g : Field} (hi : i < 65536) (hg : g.lo + g.wd ≤ 30) (ho : g.off = 0x7C) :
    (d.setXing i st).get FAB.page g i = d.get FAB.page g i := by
  unfold Dev.setXing
  split
  · rfl
  · simp only
    rw [Dev.record_get _ _ _ _ _ _ (by decide) (by omega) hi,
      Dev.get_set_other _ _ (.inl (by
        rw [Ne, rkey_same_page, ho]
        split <;> simp only [FAB.XING_HELD0.NOT_OPEN, FAB.XING_HELD1.NOT_OPEN] <;> omega)),
      Dev.get_set_beside _ _ (.inr ⟨by decide, .inl hg⟩)]
    exact Dev.get_congr (Dev.mk_regs _ _ _ _ _ _ _ _ _ _) _ _ _

/-- The alarm leaves PACE_STAT.MIN alone. -/
theorem Dev.paceAlarm_min (d : Dev) (m : Nat) :
    (d.paceAlarm m).get FAB.page FAB.PACE_STAT.MIN = d.get FAB.page FAB.PACE_STAT.MIN := by
  unfold Dev.paceAlarm
  simp only
  generalize hx : ({ d with pace := _ } : Dev) = x
  have hr : x.get FAB.page FAB.PACE_STAT.MIN = d.get FAB.page FAB.PACE_STAT.MIN := by
    rw [← hx]; exact Dev.get_congr (Dev.mk_regs _ _ _ _ _ _ _ _ _ _) _ _ _
  clear hx
  repeat' split
  all_goals first
    | rw [Dev.record_get _ _ _ _ _ _ (by decide) (by decide) (by decide), Dev.count_get, Dev.raise_get_beside _ (by decide),
        Dev.get_set_beside _ _ (by decide), hr]
    | rw [Dev.record_get _ _ _ _ _ _ (by decide) (by decide) (by decide), Dev.raise_get_beside _ (by decide),
        Dev.get_set_beside _ _ (by decide), hr]
    | exact hr

end Sys2Proof.Machine
end

