-- ==== Sys2Proof/Laws/Safety.lean ====
section
/-!
SUPPORT. Laws/Safety.lean: how a command's effect on the device is read off its meaning.
-/
namespace Sys2Proof.Machine

/-- A command whose meaning is a change of the device does what that change does. -/
theorem does_onDev {c : Instr} {s : State} {f : Dev → Dev} {P : Dev → Prop} (h : exec c s = onDev f s)
    (hp : P (f s.dev)) : Does c s P := ⟨_, h, hp⟩

theorem onDev_eq {c : Instr} {s : State} {f : Dev → Dev} {d : Dev} (h : exec c s = onDev f s) (hp : f s.dev = d) :
    exec c s = .next { s with dev := d } := by rw [h, ← hp]; exact onDev_next f s

theorem doesMem_onMem {c : Instr} {s : State} {f : Dev → List Host.Cell → Dev × List Host.Cell}
    {P : Dev → List Host.Cell → Prop} (h : exec c s = onMem f s) (hp : P (f s.dev s.dram).1 (f s.dev s.dram).2) :
    DoesMem c s P := ⟨_, _, h, hp⟩

theorem onMem_eq {c : Instr} {s : State} {f : Dev → List Host.Cell → Dev × List Host.Cell} {d : Dev} {m : List Host.Cell}
    (h : exec c s = onMem f s) (hp : f s.dev s.dram = (d, m)) : exec c s = .next { s with dev := d, dram := m } := by
  rw [h, onMem_next, hp]

/-- A command that firmware may answer: the change, then what firmware sends. -/
theorem onFw_eq {c : Instr} {s : State} {f : Dev → List Host.Cell → Dev} {d : Dev} (h : exec c s = onFw f s)
    (hp : f s.dev s.dram = d) :
    exec c s = .next { s with dev := (d.fwPump s.dram).1, dram := (d.fwPump s.dram).2 } :=
  onMem_eq h (by rw [hp])

/-- The owner of a reachable page has its way. -/
theorem Dev.asOwner_may (d : Dev) {acc : Accessor} {p off : Nat} {f : Dev → Dev} {w : List (Nat × Word)}
    (h : MayWrite d acc p) : d.asOwner acc p off f w = f d :=
  Dev.asOwner_owner d h.1.1 h.1.2 h.2.1 h.2.2

theorem Dev.asAny_may (d : Dev) {acc : Accessor} {p : Nat} {f : Dev → Dev} {w : List (Nat × Word)}
    (h : Reach d p) : d.asAny acc p f w = f d := Dev.asAny_reach d h.1 h.2

/-! ### What stays within one page -/

theorem OnlyPage.refl (p : Nat) (d : Dev) : OnlyPage p d d := fun _ _ => rfl

theorem OnlyPage.of_regs {p : Nat} {d e e' : Dev} (h : OnlyPage p d e) (hr : e'.regs = e.regs) : OnlyPage p d e' := by
  intro k hk; rw [hr]; exact h k hk

theorem OnlyPage.wr {p : Nat} {d e : Dev} (h : OnlyPage p d e) {o s : Nat} (w : Word) (ho : o < 4096) (hs : s < 65536) :
    OnlyPage p d (e.wr p o w s) := by
  intro k hk
  have : k ≠ rkey p o s := by
    intro e
    exact hk (by rw [e]; exact rkeyPage_rkey ho hs)
  rw [← h k hk]
  exact tget_tset_other _ _ _ this

theorem OnlyPage.set {p : Nat} {d e : Dev} (h : OnlyPage p d e) {f : Field} {v s : Nat} (ho : f.off < 4096)
    (hs : s < 65536) : OnlyPage p d (e.set p f v s) := h.wr _ ho hs

theorem OnlyPage.setFlag {p : Nat} {d e : Dev} (h : OnlyPage p d e) {f : Field} {b : Bool} {s : Nat} (ho : f.off < 4096)
    (hs : s < 65536) : OnlyPage p d (e.setFlag p f b s) := h.wr _ ho hs

theorem OnlyPage.incSat {p : Nat} {d e : Dev} (h : OnlyPage p d e) {f : Field} {n s : Nat} (ho : f.off < 4096)
    (hs : s < 65536) : OnlyPage p d (e.incSat p f s n) := h.wr _ ho hs

theorem OnlyPage.incWrap {p : Nat} {d e : Dev} (h : OnlyPage p d e) {f : Field} {n s : Nat} (ho : f.off < 4096)
    (hs : s < 65536) : OnlyPage p d (e.incWrap p f s n) := h.wr _ ho hs

theorem OnlyPage.raiseBits {p : Nat} {d e : Dev} (h : OnlyPage p d e) (b : Word) : OnlyPage p d (e.raiseBits p b) := by
  intro k hk
  rw [Dev.raiseBits_regs]
  exact (h.wr _ (by decide) (by decide)) k hk

theorem OnlyPage.raise {p : Nat} {d e : Dev} (h : OnlyPage p d e) (f : Field) (n : Nat) : OnlyPage p d (e.raise p f n) :=
  h.raiseBits _

theorem OnlyPage.err {p : Nat} {d e : Dev} (h : OnlyPage p d e) (c x : Nat) : OnlyPage p d (e.err p c x) := by
  unfold Dev.err
  refine OnlyPage.of_regs ?_ (Dev.pciError_regs _ _)
  refine OnlyPage.set ?_ (by decide) (by decide)
  refine OnlyPage.set ?_ (by decide) (by decide)
  refine OnlyPage.set ?_ (by decide) (by decide)
  refine OnlyPage.set ?_ (by decide) (by decide)
  refine OnlyPage.incSat ?_ (by decide) (by decide)
  refine OnlyPage.set ?_ (by decide) (by decide)
  exact OnlyPage.set h (by decide) (by decide)

theorem OnlyPage.emit {p : Nat} {d e : Dev} (h : OnlyPage p d e) (o : Output) : OnlyPage p d (e.emit o) :=
  h.of_regs (Dev.emit_regs _ _)

theorem OnlyPage.count {p : Nat} {d e : Dev} (h : OnlyPage p d e) (i n : Nat) : OnlyPage p d (e.count i n) :=
  h.of_regs (by rw [Dev.count_toControl])

theorem OnlyPage.countLane {p : Nat} {d e : Dev} (h : OnlyPage p d e) (l n k : Nat) : OnlyPage p d (e.countLane l n k) :=
  h.count _ _

end Sys2Proof.Machine
end

