-- ==== Sys2Proof/Laws/Firmware.lean ====
section
/-!
SUPPORT. Laws/Firmware.lean: what a mailbox command of firmware leaves, once it is the first of its channel.
-/
namespace Sys2Proof.Machine

/-- A command that passes its checks: its body's effect, then unknown commands behind it answered, then what firmware
sends. -/
theorem fwRun_eq {c : Instr} {s t : State} {ch : Fin 32} {family code : Nat} {n : Data} {rest : List Data}
    {body : Data → List (BitVec 8) → State → State} (h : exec c s = fwRun ch family code body s)
    (h1 : s.dev.fwCmd ch = n :: rest) (h2 : s.dev.fwRuns = true) (h3 : noticeFamily n = family) (h4 : noticeCode n = code)
    (h5 : s.dev.fwCheck ch n = none)
    (ht : body n (readPayload s.dram ch n) { s with dev := s.dev.setFwCmd ch rest } = t) :
    exec c s = .next { pump { t with dev := t.dev.fwSkim ch (t.dev.fwCmd ch) } with pending := s.pending } := by
  rw [h]
  unfold fwRun onState
  simp only [h1]
  rw [if_neg (by simp [h2, h3, h4]), h5]
  simp only [ht]

theorem fwRunDev_eq {c : Instr} {s : State} {e : Dev} {ch : Fin 32} {family code : Nat} {n : Data} {rest : List Data}
    {body : Data → List Nat → Dev → Dev} (h : exec c s = fwRunDev ch family code body s)
    (h1 : s.dev.fwCmd ch = n :: rest) (h2 : s.dev.fwRuns = true) (h3 : noticeFamily n = family) (h4 : noticeCode n = code)
    (h5 : s.dev.fwCheck ch n = none)
    (he : body n (payloadWords (readPayload s.dram ch n)) (s.dev.setFwCmd ch rest) = e) :
    exec c s = .next (pump { s with dev := e.fwSkim ch (e.fwCmd ch) }) := by
  rw [fwRun_eq (t := { s with dev := e }) h h1 h2 h3 h4 h5 (by simp only [he])]
  rfl

/-- A command that does not pass is answered with the status of the first check it fails, and nothing else happens. -/
theorem fwRun_check {c : Instr} {s : State} {ch : Fin 32} {family code st : Nat} {n : Data} {rest : List Data}
    {body : Data → List (BitVec 8) → State → State} (h : exec c s = fwRun ch family code body s)
    (h1 : s.dev.fwCmd ch = n :: rest) (h2 : s.dev.fwRuns = true) (h3 : noticeFamily n = family) (h4 : noticeCode n = code)
    (h5 : s.dev.fwCheck ch n = some st) {e : Dev} (he : (s.dev.setFwCmd ch rest).fwReply ch n st [] = e) :
    exec c s = .next (pump { s with dev := e.fwSkim ch (e.fwCmd ch) }) := by
  rw [h]
  unfold fwRun onState
  simp only [h1]
  rw [if_neg (by simp [h2, h3, h4]), h5]
  simp only [he]
  rfl

end Sys2Proof.Machine
end

