-- ==== Sys2Proof/Laws/Memory.lean ====
section
/-!
SUPPORT. Laws/Memory.lean: DRAM bytes read back what was written, other bytes stay, and every memory operation keeps the
canonical form.
-/
namespace Sys2Proof.Machine

@[simp] theorem memByte_memSetByte_same (m : List Host.Cell) (a : Nat) (b : BitVec 8) : memByte (memSetByte m a b) a = b :=
  tget_tset_same _ _ _ _

theorem memByte_memSetByte_other (m : List Host.Cell) {a a' : Nat} (b : BitVec 8) (h : a' ≠ a) :
    memByte (memSetByte m a b) a' = memByte m a' := tget_tset_other _ _ _ h

/-- A write leaves every byte outside its range. -/
theorem memByte_memWrite_outside (bs : List (BitVec 8)) (m : List Host.Cell) {a a' : Nat}
    (h : a' < a ∨ a + bs.length ≤ a') : memByte (memWrite m a bs) a' = memByte m a' := by
  induction bs generalizing m a with
  | nil => rfl
  | cons b bs ih =>
    simp only [List.length_cons] at h
    rw [memWrite, ih _ (by omega), memByte_memSetByte_other _ _ (by omega)]

/-- What was written is read. -/
theorem memRead_memWrite (bs : List (BitVec 8)) (m : List Host.Cell) (a : Nat) :
    memRead (memWrite m a bs) a bs.length = bs := by
  induction bs generalizing m a with
  | nil => rfl
  | cons b bs ih =>
    rw [memWrite, List.length_cons, memRead, ih, memByte_memWrite_outside _ _ (by omega), memByte_memSetByte_same]

theorem memSetByte_wf {m : List Host.Cell} (a : Nat) (b : BitVec 8) (h : Memory.wf m = true) :
    Memory.wf (memSetByte m a b) = true := twf_tset _ _ _ _ h

theorem memWrite_wf {m : List Host.Cell} (a : Nat) (bs : List (BitVec 8)) (h : Memory.wf m = true) :
    Memory.wf (memWrite m a bs) = true := by
  induction bs generalizing m a with
  | nil => exact h
  | cons b bs ih => exact ih _ (memSetByte_wf _ _ h)

/-- Bytes written through W2 where all of them may be written lie in DRAM as one write. -/
theorem Dev.w2WriteAll_placed (d : Dev) {fn base dram : Nat} (h : d.flag DRM.page DRM.DRM_STAT.TRAINED = true)
    (bs : List (BitVec 8)) (m : List Host.Cell) (off : Nat) (hb : base ≤ off)
    (hp : ∀ k, k < bs.length → w2Place fn (off + k) = some (dram + (off + k - base), true)) :
    d.w2WriteAll m fn off bs = memWrite m (dram + (off - base)) bs := by
  induction bs generalizing m off with
  | nil => rfl
  | cons b bs ih =>
    have h0 : d.w2Write m fn off b = memSetByte m (dram + (off - base)) b := by
      unfold Dev.w2Write
      rw [h, show w2Place fn off = _ from hp 0 (by simp)]
      rfl
    have h1 := ih (memSetByte m (dram + (off - base)) b) (off + 1) (by omega) (fun k hk => by
      have := hp (k + 1) (by simp; omega)
      rw [show off + (k + 1) = off + 1 + k by omega] at this
      exact this)
    rw [Dev.w2WriteAll, h0, h1, memWrite, show dram + (off + 1 - base) = dram + (off - base) + 1 by omega]

/-- The mailbox area of W2. -/
theorem w2Place_mailbox (fn : Nat) {off : Nat} (h : 0x1000000 ≤ off) (h' : off < 0x2000000) :
    w2Place fn off = some (0x1A000000 + (off - 0x1000000), true) := if_pos ⟨h, h'⟩

/-- The secure mailbox area of W2, for function 1. -/
theorem w2Place_secure {off : Nat} (h : 0x2000000 ≤ off) (h' : off < 0x3000000) :
    w2Place 1 off = some (0x1B000000 + (off - 0x2000000), true) :=
  (if_neg (by omega)).trans (if_pos ⟨h, h', rfl⟩)

/-- What a sender has written where its notice points lies there, on every channel it may send on. -/
theorem Dev.storePayload_placed (d : Dev) (m : List Host.Cell) {acc : Accessor} {ch : Nat} {fw : Bool} {mid : BitVec 32}
    {payload : List (BitVec 8)} {base : Nat} (hr : mbxReach acc ch = true) (hs : mbxSender acc ch fw = true)
    (ha : payloadAddr ch (d.mbxNotice acc ch fw mid) = some base) (ht : d.flag DRM.page DRM.DRM_STAT.TRAINED = true)
    (hl : payload.length = noticeLen (d.mbxNotice acc ch fw mid)) (hn : payload ≠ []) :
    d.storePayload m acc ch fw mid payload = memWrite m base payload := by
  generalize e : d.mbxNotice acc ch fw mid = n at ha hl
  have hz : noticeLen n ≠ 0 := by
    rw [← hl]; exact fun c => hn (List.length_eq_zero_iff.mp c)
  unfold Dev.storePayload
  simp only [e, ha, List.take_of_length_le (Nat.le_of_eq hl)]
  rw [if_neg (by simp [hn, hz])]
  by_cases hf : acc.isFw = true
  · rw [if_pos hf, if_pos ht]
  · have hc : ch < 28 := by cases fw <;> simp_all [mbxSender]
    rw [if_neg hf]
    unfold payloadAddr at ha
    simp only [if_neg hz, if_pos hc] at ha
    by_cases h16 : ch < 16
    · rw [if_pos h16] at ha
      split at ha
      · rename_i hw
        rw [← Option.some.inj ha]
        exact Dev.w2WriteAll_placed d (base := 0x1000000) (dram := 0x1A000000) ht payload m _ hw.1
          (fun k hk => w2Place_mailbox _ (by omega) (by omega))
      · cases ha
    · rw [if_neg h16] at ha
      have hh : acc = .host1 := by
        have : ¬ ch < 16 := h16
        cases acc <;> simp_all [mbxReach, Accessor.isFw] <;> omega
      split at ha
      · rename_i hw
        rw [← Option.some.inj ha]
        subst hh
        exact Dev.w2WriteAll_placed d (base := 0x2000000) (dram := 0x1B000000) ht payload m _ hw.1
          (fun k hk => w2Place_secure (by omega) (by omega))
      · cases ha

theorem tabove_mono {V : Type} {k : Nat} {t : Tbl V} {p : Nat → Bool} (h : tabove k t) : tabove k (tkeep p t) := by
  intro e he
  exact h e (List.mem_of_mem_filter he)

theorem twf_tkeep {V : Type} [DecidableEq V] (d : Nat → V) (p : Nat → Bool) (t : Tbl V) (h : twf d t = true) :
    twf d (tkeep p t) = true := by
  induction t with
  | nil => rfl
  | cons e rest ih =>
    obtain ⟨h1, h2, h3⟩ := (twf_cons d e.1 e.2 rest).mp h
    unfold tkeep
    rw [List.filter_cons]
    split
    · exact (twf_cons d e.1 e.2 _).mpr ⟨h1, tabove_mono h2, ih h3⟩
    · exact ih h3

theorem memZero_wf {m : List Host.Cell} (lo len : Nat) (h : Memory.wf m = true) : Memory.wf (memZero m lo len) = true :=
  twf_tkeep _ _ _ h

/-! ### The operations that store to DRAM -/

theorem snd_ite_same {α β : Type} (c : Prop) [Decidable c] (x y : α) (m : β) :
    (if c then (x, m) else (y, m)).2 = m := by split <;> rfl

theorem Dev.logPut_wf (d : Dev) {m : List Host.Cell} (r : LogRec) (h : Memory.wf m = true) :
    Memory.wf (d.logPut m r).2 = true := by
  unfold Dev.logPut
  by_cases hs : d.flag LOG.page LOG.LOG_STAT.STOPPED = true
  · rw [if_pos hs]; exact h
  · rw [if_neg hs]
    exact (congrArg (fun m => Memory.wf m) (snd_ite_same _ _ _ _)).trans (memWrite_wf _ _ h)

theorem Dev.logWrite_wf (d : Dev) {m : List Host.Cell} (r : LogRec) (h : Memory.wf m = true) :
    Memory.wf (d.logWrite m r).2 = true := by
  unfold Dev.logWrite
  by_cases hs : d.flag LOG.page LOG.LOG_STAT.STOPPED = true
  · rw [if_pos hs]; exact h
  rw [if_neg hs]
  simp only
  have key : ∀ (x y : Dev × List Host.Cell) (c : Prop) [Decidable c], Memory.wf x.2 = true → Memory.wf y.2 = true →
      Memory.wf (if c then x else y).2 = true := by
    intro x y c _ hx hy
    split <;> assumption
  apply Dev.logPut_wf
  apply key
  · exact key _ _ _ h (Dev.logPut_wf _ _ h)
  · exact Dev.logPut_wf _ _ (key _ _ _ h (Dev.logPut_wf _ _ h))

theorem Dev.logFlush_wf (d : Dev) {m : List Host.Cell} (h : Memory.wf m = true) : Memory.wf (d.logFlush m).2 = true := by
  unfold Dev.logFlush
  have key : ∀ (l : List Nat) (x : Dev × List Host.Cell), Memory.wf x.2 = true →
      Memory.wf (l.foldl (fun (x : Dev × List Host.Cell) _ =>
        match nextRecord x.1.logHeld with
        | none => x
        | some r => ({ x.1 with logHeld := x.1.logHeld.erase r } : Dev).logWrite x.2 r) x).2 = true := by
    intro l
    induction l with
    | nil => intro x hx; exact hx
    | cons _ l ih =>
      intro x hx
      rw [List.foldl_cons]
      apply ih
      cases nextRecord x.1.logHeld with
      | none => exact hx
      | some r => exact Dev.logWrite_wf _ _ hx
  exact key _ _ h

theorem Dev.fwPump_wf (d : Dev) {m : List Host.Cell} (h : Memory.wf m = true) : Memory.wf (d.fwPump m).2 = true := by
  unfold Dev.fwPump
  split
  · exact h
  · generalize d.fwOut = l
    have key : ∀ x : Dev × List Host.Cell, Memory.wf x.2 = true →
        Memory.wf (l.foldl (fun (x : Dev × List Host.Cell) (e : Nat × List FwMsg) =>
          match e.2 with
          | [] => x
          | msg :: rest =>
            if 28 ≤ e.1 ∧ !x.1.twinLink then ((x.1.setFwQueue e.1 rest).mbxRefuse e.1 true 2, x.2) else
            if x.1.mbxFull e.1 true then x else
            let m := match payloadAddr e.1 msg.notice with
              | some a => if msg.payload.isEmpty then x.2 else memWrite x.2 a msg.payload
              | none => x.2
            let d := ((x.1.setFwQueue e.1 rest).mbxStore e.1 true msg.notice).mbxRing e.1 true
            (d.mbxCarry e.1 msg.notice msg.payload, m)) x).2 = true := by
      induction l with
      | nil => intro x hx; exact hx
      | cons e l ih =>
        intro x hx
        rw [List.foldl_cons]
        apply ih
        split
        · exact hx
        · split
          · exact hx
          · split
            · exact hx
            · simp only
              split
              · split
                · exact hx
                · exact memWrite_wf _ _ hx
              · exact hx
    exact key _ h

theorem pump_wf {s : State} (h : Memory.wf s.dram = true) : Memory.wf (pump s).dram = true := Dev.fwPump_wf _ h

theorem Dev.flushFirst_wf (locked : Bool) (d : Dev) {m : List Host.Cell} (h : Memory.wf m = true) :
    Memory.wf (d.flushFirst locked m).2 = true := by
  unfold Dev.flushFirst
  split
  · exact h
  · exact Dev.logFlush_wf _ h

/-- A reset writes the recorder's last records, if any, and nothing else. -/
theorem Dev.warmReset_wf (cause detail cls : Nat) (locked : Bool) (d : Dev) {m : List Host.Cell}
    (h : Memory.wf m = true) : Memory.wf (Dev.warmReset cause detail cls locked d m).2 = true := by
  unfold Dev.warmReset
  split
  · exact h
  · exact Dev.flushFirst_wf _ _ h

theorem Dev.wakeUp_wf (trigger : Nat) (d : Dev) {m : List Host.Cell} (h : Memory.wf m = true) :
    Memory.wf (Dev.wakeUp trigger d m).2 = true := by
  unfold Dev.wakeUp
  dsimp only
  exact Dev.flushFirst_wf _ _ h

end Sys2Proof.Machine
end

