-- ==== Sys2Proof/Laws/Time.lean ====
section
/-!
SUPPORT. Laws/Time.lean: what a tick does to the time base and what it leaves; the transmit timestamp FIFO as written.
-/
namespace Sys2Proof.Machine

@[simp] theorem Dev.refreshTime_toClocks (d : Dev) : d.refreshTime.toClocks = d.toClocks := by
  unfold Dev.refreshTime
  simp only [Dev.set_toClocks, Dev.setFlag_toClocks]

theorem Dev.refreshTime_neg (d : Dev) (h : d.negOn = false) : d.refreshTime.get TMB.page TMB.TMB_STAT.NEG_STEP = 0 := by
  unfold Dev.refreshTime
  simp only
  rw [Dev.get_set_page _ _ (by decide) (by decide) (by decide) (by decide) (by decide),
    Dev.get_set_page _ _ (by decide) (by decide) (by decide) (by decide) (by decide)]
  unfold Dev.setFlag
  rw [Dev.get_set_same _ _ _ _ (by decide)]
  simp only [Dev.set_toClocks, h]
  rfl

/-- A page's field is written by none of the writes of refreshTime. -/
theorem Dev.refreshTime_get (d : Dev) {g : Field} (h1 : g.off ≠ 0x68) (h2 : g.off ≠ 0x80) (hg : g.off < 4096) :
    d.refreshTime.get TMB.page g = d.get TMB.page g := by
  unfold Dev.refreshTime
  simp only
  rw [Dev.get_set_page _ _ (by decide) (by decide) hg (by decide) (by decide),
    Dev.get_set_page _ _ (by decide) (by decide) hg (by decide) (by decide)]
  unfold Dev.setFlag
  rw [Dev.get_set_beside _ _ (.inl h2), Dev.get_set_beside _ _ (.inl h2), Dev.get_set_beside _ _ (.inl h1)]

@[simp] theorem Dev.noteGates_toClocks (d : Dev) : d.noteGates.toClocks = d.toClocks := by
  unfold Dev.noteGates
  apply foldl_keep Dev.toClocks
  intro d e
  simp only
  split_ifs <;> simp only [Dev.set_toClocks]

/-- What open gates note stands on the EVT page. -/
theorem Dev.noteGates_get (d : Dev) {p s : Nat} {g : Field} (hp : p ≠ EVT.page) (hg : g.off < 4096) (hs : s < 65536)
    (hk : ∀ e ∈ d.evts, e.1 < 65536) : d.noteGates.get p g s = d.get p g s := by
  unfold Dev.noteGates
  generalize d.evts = l at hk
  induction l generalizing d with
  | nil => rfl
  | cons e rest ih =>
    rw [List.foldl_cons, ih _ (fun x hx => hk x (List.mem_cons_of_mem _ hx))]
    have he : e.1 < 65536 := hk e (by simp)
    simp only
    split_ifs <;>
      simp only [Dev.get_set_page _ _ hp (by decide : EVT.MEAS_STAT.SLEWED.off < 4096) hg he hs,
        Dev.get_set_page _ _ hp (by decide : EVT.MEAS_STAT.REF_CHG.off < 4096) hg he hs]

@[simp] theorem Dev.heartbeat_toClocks (d : Dev) (b : Nat) : (d.heartbeat b).toClocks = d.toClocks := by
  unfold Dev.heartbeat
  simp only
  split
  · rfl
  · exact Dev.incWrap_toClocks _ _ _ _ _

@[simp] theorem Dev.setNode_toClocks (d : Dev) (n : Nat) (x : Node) : (d.setNode n x).toClocks = d.toClocks :=
  Dev.mk_toClocks _ _ _ _ _ _ _ _ _ _

@[simp] theorem Dev.shaperTime_toClocks (d : Dev) (dt : Nat) : (d.shaperTime dt).toClocks = d.toClocks := by
  have h1 : (d.accrue dt).toClocks = d.toClocks := by
    unfold Dev.accrue
    apply foldl_keep Dev.toClocks
    intro d n
    exact Dev.setNode_toClocks _ _ _
  have h2 : ∀ (d : Dev) (o : Nat), (d.refreshShares o).toClocks = d.toClocks := by
    intro d o
    unfold Dev.refreshShares
    simp only
    have hc : ∀ (d : Dev) (n o : Nat) (v : Nat) (b e : Bool), (d.refreshChild n o v b e).toClocks = d.toClocks :=
      fun d n o v b e => Dev.setNode_toClocks _ _ _
    refine (foldl_keep Dev.toClocks _ (fun d s => hc _ _ _ _ _ _) _).trans ?_
    refine (foldl_keep Dev.toClocks _ (fun d s => hc _ _ _ _ _ _) _).trans ?_
    refine (foldl_keep Dev.toClocks _ (fun d s => hc _ _ _ _ _ _) _).trans ?_
    exact foldl_keep Dev.toClocks _ (fun d s => Dev.setNode_toClocks _ _ _) _
  unfold Dev.shaperTime
  exact (foldl_keep Dev.toClocks _ h2 _).trans h1

theorem Dev.setEntry_toClocks (d : Dev) (t : TableId) (i w : Nat) (v : Data) : (d.setEntry t i v w).toClocks = d.toClocks :=
  Dev.mk_toClocks _ _ _ _ _ _ _ _ _ _

@[simp] theorem Dev.applyStage_toClocks (d : Dev) (t : Nat) : (d.applyStage t).toClocks = d.toClocks := by
  unfold Dev.applyStage
  simp only
  split
  · rfl
  · refine (foldl_keep Dev.toClocks _ (fun d e => ?_) _).trans (Dev.mk_toClocks _ _ _ _ _ _ _ _ _ _)
    rw [Dev.setEntry_toClocks, Dev.setEntry_toClocks]

@[simp] theorem Dev.feltTick_toClocks (d : Dev) : d.feltTick.toClocks = d.toClocks := by
  unfold Dev.feltTick Dev.readTime
  simp only
  rw [Dev.shaperTime_toClocks]
  rfl

/-- What the clocks hold beside the outputs that stop and start. -/
def Dev.clocksButOuts (d : Dev) : Clocks := { d.toClocks with outStop := [], driveFrom := [], outErr := [], outWalk := [] }

theorem Dev.driverOff_clocks (d : Dev) (o : Nat) : (d.driverOff o).clocksButOuts = d.clocksButOuts := by
  unfold Dev.driverOff Dev.clocksButOuts
  rw [Dev.emit_toClocks, Dev.set_toClocks]

theorem Dev.driverOn_clocks (d : Dev) (o : Nat) : (d.driverOn o).clocksButOuts = d.clocksButOuts := by
  unfold Dev.driverOn Dev.clocksButOuts
  rw [Dev.emit_toClocks, Dev.set_toClocks]

theorem Dev.outStopsEnd_clocks (d : Dev) : d.outStopsEnd.clocksButOuts = d.clocksButOuts := by
  unfold Dev.outStopsEnd
  refine foldl_keep Dev.clocksButOuts _ (fun d e => ?_) _
  cases e.2 with
  | none => rfl
  | some t =>
    simp only
    split
    · rfl
    · unfold Dev.when
      split
      · rw [Dev.driverOn_clocks, Dev.driverOff_clocks]
      · rw [Dev.driverOff_clocks]

theorem Dev.edges_clocks (d : Dev) (e : Tbl Int) (w : Tbl (Option Int)) :
    ({ d with outErr := e, outWalk := w } : Dev).clocksButOuts = d.clocksButOuts := rfl

theorem Dev.settleAs_clocks (was d : Dev) (o : Nat) : (Dev.settleAs was d o).clocksButOuts = d.clocksButOuts := by
  unfold Dev.settleAs
  split
  · rfl
  · exact Dev.edges_clocks _ _ _

theorem Dev.moveErr_clocks (d : Dev) (o : Nat) (x : Int) : (d.moveErr o x).clocksButOuts = d.clocksButOuts := by
  unfold Dev.moveErr Dev.showErr Dev.clocksButOuts
  simp only [Dev.set_toClocks]

/-- What a tick does to the outputs leaves the time base as it is. -/
theorem Dev.outsTick_clocks (d : Dev) : d.outsTick.clocksButOuts = d.clocksButOuts := by
  have h : ∀ d : Dev, d.outsSettle.clocksButOuts = d.clocksButOuts := fun d =>
    foldl_keep Dev.clocksButOuts _ (fun d o => Dev.settleAs_clocks d d o) _
  unfold Dev.outsTick
  simp only
  refine (foldl_keep Dev.clocksButOuts _ (fun d k => ?_) _).trans ?_
  · split
    · rfl
    · refine (foldl_keep Dev.clocksButOuts _ (fun d o => ?_) _).trans rfl
      split
      · exact Dev.moveErr_clocks _ _ _
      · rfl
  · split
    · exact h d
    · rfl

/-- One tick, as the clocks see it. -/
theorem Dev.tick_clock (d : Dev) :
    let withheld := if d.negOn then min d.deficit (d.rate - d.rate / 16) else 0
    d.tick.now = ((d.now : Int) + ((d.rate : Int) - withheld + d.slewStep)).toNat % timeWrap
      ∧ d.tick.slewRem = d.slewRem - d.slewStep ∧ d.tick.deficit = d.deficit - withheld ∧ d.tick.negOn = d.negOn := by
  simp only
  unfold Dev.tick
  simp only
  generalize hy : ({ d with now := ((d.now : Int) + d.tickAdvance).toNat % timeWrap } : Dev).feltTick = y
  have hc : y.toClocks = { d.toClocks with now := ((d.now : Int) + d.tickAdvance).toNat % timeWrap } := by
    rw [← hy, Dev.feltTick_toClocks]
  generalize hx : ({ y with snapLate := _, slewRem := _, absOfs := _, deficit := _ } : Dev) = x
  have h0 : x.now = y.now := by rw [← hx]
  have h2 : x.slewRem = y.slewRem - d.slewStep := by rw [← hx]
  have h3 : x.deficit = y.deficit - (if d.negOn then min d.deficit (d.rate - d.rate / 16) else 0) := by rw [← hx]
  have h4 : x.negOn = y.negOn := by rw [← hx]
  clear hx hy
  have h : (x.refreshTime.noteGates.outStopsEnd.instantsCome.heartbeat d.now).clocksButOuts = x.clocksButOuts := by
    unfold Dev.instantsCome
    rw [show ∀ e : Dev, (e.heartbeat d.now).clocksButOuts = e.clocksButOuts from fun e => by
        unfold Dev.clocksButOuts; rw [Dev.heartbeat_toClocks],
      show ∀ (e : Dev) (t : Nat), (e.applyStage t).clocksButOuts = e.clocksButOuts from fun e t => by
        unfold Dev.clocksButOuts; rw [Dev.applyStage_toClocks],
      Dev.outStopsEnd_clocks]
    unfold Dev.clocksButOuts
    rw [Dev.noteGates_toClocks, Dev.refreshTime_toClocks]
  refine ⟨?_, ?_, ?_, ?_⟩
  · refine (congrArg Clocks.now h).trans (h0.trans ?_)
    rw [show y.now = y.toClocks.now from rfl, hc]; rfl
  · refine (congrArg Clocks.slewRem h).trans (h2.trans ?_)
    rw [show y.slewRem = y.toClocks.slewRem from rfl, hc]
  · refine (congrArg Clocks.deficit h).trans (h3.trans ?_)
    rw [show y.deficit = y.toClocks.deficit from rfl, hc]
  · refine (congrArg Clocks.negOn h).trans (h4.trans ?_)
    rw [show y.negOn = y.toClocks.negOn from rfl, hc]

/-! ### The transmit timestamp FIFO -/

@[simp] theorem Dev.txfShow_toClocks (d : Dev) (i : Nat) : (d.txfShow i).toClocks = d.toClocks := by
  unfold Dev.txfShow
  simp only
  split <;> simp only [Dev.set_toClocks, Dev.setFlag_toClocks, Dev.wr_toClocks]

/-- The FIFO as written. -/
theorem Dev.setTxf_txfOf (d : Dev) (i : Nat) (q : List TxfEntry) : (d.setTxf i q).txfOf i = q := by
  unfold Dev.setTxf Dev.txfOf
  rw [Dev.txfShow_toClocks]
  generalize hx : ({ d with txf := _ } : Dev) = x
  have : x.txf = tset (fun _ => []) d.txf i q := by rw [← hx]
  rw [this, tget_tset_same]

/-- FILL shows the FIFO's length. -/
theorem Dev.setTxf_fill (d : Dev) (i : Nat) (q : List TxfEntry) :
    (d.setTxf i q).get (TSU.page i) TSU.TXF_STAT.FILL = q.length % 2 ^ 7 := by
  unfold Dev.setTxf
  generalize hx : ({ d with txf := _ } : Dev) = x
  have hq : x.txfOf i = q := by
    have : x.txf = tset (fun _ => []) d.txf i q := by rw [← hx]
    unfold Dev.txfOf
    rw [this, tget_tset_same]
  clear hx
  unfold Dev.txfShow
  simp only [hq]
  unfold Dev.setFlag
  cases q with
  | nil =>
    simp (disch := decide) only [Dev.get_set_beside]
    rw [Dev.get_wr, if_neg (by rw [rkey_same_page]; decide), Dev.get_set_same _ _ _ _ (by decide)]
    rfl
  | cons e rest =>
    simp (disch := decide) only [Dev.get_set_beside, Dev.get_set_same]
    rfl

end Sys2Proof.Machine
end

