-- ==== Sys2Proof/Machine/Bound.lean ====
section
/-!
DEFINITION. Machine/Bound.lean: the arithmetic of the express class latency bound (R192 to R203). No command depends on
it: the rules give a figure for what the device's time never exceeds, and these functions are that figure, in ns.
-/
namespace Sys2Proof.Machine

/-- What a rate contributes (R199): the upper receive and transmit latency, the crossing latency at the worst corner,
the express MAC start and the IDLE-FAST exit, in ps. -/
structure BoundTerms where
  rx : Nat
  tx : Nat
  lx : Nat
  e : Nat
  wake : Nat
  deriving DecidableEq, Repr

def boundTerms (rate : Nat) : BoundTerms :=
  match rate with
  | 1 => ⟨304000, 224000, 26400, 16000, 0⟩
  | 2 => ⟨84800, 62400, 21600, 12800, 200000⟩
  | 3 => ⟨43600, 32600, 10080, 5120, 200000⟩
  | 4 => ⟨152600, 42600, 10080, 5120, 200000⟩
  | _ => ⟨98600, 32600, 10080, 5120, 200000⟩

/-- What BASE-R FEC (1) and RS (528,514) (2) add at 25GBASE-R to an input and to an output (R201), in ps. -/
def boundFec (rate fec : Nat) : Nat × Nat :=
  if rate = 3 then (match fec with | 0 => (0, 0) | 1 => (85000, 4000) | _ => (211000, 8000)) else (0, 0)

/-- `n` cycles at a pace in MHz, in ps. -/
def paceCycles (n pace : Nat) : Rat := (n * 1000000 : Nat) / (pace : Rat)

/-- The time in which `b` bytes pass at a rate, in ps. -/
def bytesPs (b rate : Nat) : Nat := b * 8000 / rateGbit rate

/-- R164, R200: a frame to a faster output is stored first. -/
def boundStores (rin rout : Nat) : Bool := rin < rout

/-- L_fixed (R199) of a frame of `len` bytes in ns, at a pace in MHz; `store`: store-and-forward; `idle`: the output
may be in IDLE-FAST (R201). -/
def lFixed (rin rout fecIn fecOut len pace : Nat) (store idle : Bool) : Nat :=
  let i := boundTerms rin
  let o := boundTerms rout
  let a := bytesPs (min len 128 + 8) rin
  let h := if store then bytesPs (len + 8) rin else a
  let x : Rat := (i.lx + o.lx + o.e : Nat) + paceCycles 78 pace
  let d : Rat := (i.lx : Nat) + paceCycles 23 pace
  let w := if idle then o.wake else 0
  let ps : Rat := (i.rx + (boundFec rin fecIn).1 + o.tx + (boundFec rout fecOut).2 : Nat) + max (h + x) (a + d + w)
  (ps / 1000).ceil.toNat

/-- L_tpl (R203) of a template launch in ns. -/
def lTemplate (rout lxCrown pace : Nat) (idle : Bool) : Nat :=
  let o := boundTerms rout
  let w := if idle then o.wake else 0
  let ps : Rat := (8000 + o.tx : Nat)
    + max ((lxCrown + o.lx + o.e : Nat) + paceCycles 78 pace) ((lxCrown + w : Nat) + paceCycles 23 pace)
  (ps / 1000).ceil.toNat

/-- B_ahead, N_ahead and K (R195) of the distinct meters of TC7 filters that can send to an output, given by their CBS;
`adj` is LEN_ADJ, a signed number from -32 to 63. -/
def bAhead (cbs : List Nat) : Nat := cbs.sum
def nAhead (cbs : List Nat) (adj : Int) : Nat := (cbs.map (fun c => c / (64 + adj).toNat)).sum
def kAhead (adj : Int) : Nat := (20 - adj).toNat

/-- The bound of R192 in ns. -/
def tc7Bound (fixed pFrag : Nat) (cbs : List Nat) (adj : Int) (rout : Nat) : Rat :=
  fixed + ((pFrag + bAhead cbs + kAhead adj * nAhead cbs adj) * 8 : Nat) / (rateGbit rout : Rat)

/-- The bound for one frame of `len` bytes (R196). -/
def tc7FrameBound (fixed pFrag : Nat) (cbs : List Nat) (adj : Int) (len rout : Nat) : Rat :=
  fixed + ((pFrag + (bAhead cbs - (len + adj)) + kAhead adj * ((nAhead cbs adj : Int) - 1)) * 8 : Int) / (rateGbit rout : Rat)

/-- The committed-rate condition of R197, over CIRs in units of 8 kbit/s. -/
def tc7RatesFit (cirs : List Nat) (adj : Int) (rout : Nat) : Bool :=
  let c : Rat := if adj < 20 then 84 / (64 + adj : Int) else 1
  decide ((cirs.sum * 8 : Nat) * c ≤ ((1000000 * rateGbit rout : Nat) : Rat))

/-- R198: while an older epoch may still be queued, the meters of both configurations count, each with the larger of its
two CBS values; meters are given as (index, CBS). -/
def unionCbs (old new : List (Nat × Nat)) : List Nat :=
  new.map (fun m => match old.find? (·.1 == m.1) with | some o => max o.2 m.2 | none => m.2)
    ++ (old.filter (fun o => !new.any (·.1 == o.1))).map (·.2)

/-- Whether the bound stands for an input and output port as far as their state decides it (R193): both admit TC7, the
output is UP or in IDLE-FAST or waking from it, it is not in a port-down hold, and no under-pace alarm stands. -/
def Dev.boundStands (d : Dev) (input output : Nat) : Bool :=
  d.flag (PRT.page input) PRT.PORT_CFG.TC7_EN && d.flag (PRT.page output) PRT.PORT_CFG.TC7_EN
    && (d.laneState output == laneUp
      || ((d.laneState output == laneIdle || d.laneState output == laneWake) && (d.lane output).idleKind != 2))
    && !d.flag (PRT.page output) PRT.PORT_STAT.HOLD && !d.flag FAB.page FAB.PACE_STAT.UNDER

end Sys2Proof.Machine
end

