-- ==== Sys2Proof/WellFormed.lean ====
section
/-!
DEFINITION. WellFormed.lean: which commands the world can send: lists of the lengths that the spec gives them. The types
of the operands say the rest. No meaning depends on it.
-/
namespace Sys2Proof

/-- R384: a body has at most 1,456 bytes. -/
def epashFits (req : EpashReq) : Bool := decide (req.body.length ≤ 1456)

/-- R38, R40: the rates are those of the rate table, the FEC modes BASE-R (1) and RS (2), and a partner asks for what
it can run. -/
def anFits (p : AnPage) : Bool :=
  p.rates.all (fun r => decide (r < 10)) && p.fecs.all (fun f => f == 1 || f == 2) && p.asks.all (p.fecs.contains ·)

/-- R46: no gearbox position above 135; analogue terms of 20 to 50 ps in receive and 15 to 40 ps in transmit. -/
def latMeasFits (m : LatMeas) : Bool :=
  decide (m.gbRx ≤ 135) && decide (m.gbTx ≤ 135) && decide (20 ≤ m.aRx) && decide (m.aRx ≤ 50) && decide (15 ≤ m.aTx)
    && decide (m.aTx ≤ 40)

/-- Whether a command is one that the world can send. -/
def WellFormed (i : Instr) : Bool :=
  match i with
  | .registerWrite _ _ _ data => !data.isEmpty
  | .commitGo _ _ => true
  | .commitDiscard _ _ => true
  | .softReset _ _ => true
  | .ownerWrite _ _ _ => true
  | .viewSet _ _ _ => true
  | .intRawClear _ _ _ _ => true
  | .errInfoClear _ _ => true
  | .losDeassert _ => true
  | .losAssert _ => true
  | .lolAssert _ => true
  | .lolClear _ => true
  | .autonegResolved _ partner => anFits partner
  | .autonegTimeout _ => true
  | .trainingDone _ _ => true
  | .trainingTimeout _ => true
  | .cdrLocked _ => true
  | .cdrAcquireTimeout _ => true
  | .blockLockAchieved _ => true
  | .fecAligned _ => true
  | .blockLockTimeout _ => true
  | .latencyMeasured _ meas => latMeasFits meas
  | .latencyMeasureTimeout _ => true
  | .rateSearchTryTimeout _ => true
  | .trainingFramesDetected _ => true
  | .faultTimeout _ => true
  | .remoteFault _ => true
  | .retrain _ _ => true
  | .blockAlignerShift _ => true
  | .idleEntryDelayExpiry _ => true
  | .idleRequestReceived _ _ => true
  | .idleReplyReceived _ _ => true
  | .idleReplyTimeout _ => true
  | .wakeTrigger _ => true
  | .wakeComplete _ _ => true
  | .wakeTimeout _ => true
  | .refreshBurstSend _ => true
  | .refreshMissing _ => true
  | .gclWakePort _ => true
  | .prbsGenEnable _ _ => true
  | .prbsGenDisable _ _ => true
  | .prbsErrInject _ _ => true
  | .prbsClear _ _ => true
  | .prbsCheckerLock _ => true
  | .prbsCheckerLoss _ errors bits => decide (errors ≤ bits) && decide (bits ≤ 65536)
  | .backgroundCalStep _ _ => true
  | .eyeRefresh _ _ _ _ => true
  | .pdPhaseRefresh _ _ _ => true
  | .trimValWrite _ _ _ => true
  | .pauseFrameReceived _ pfc _ quanta => quanta.length == (if pfc then 8 else 1)
  | .pauseExpiry _ => true
  | .paceReading readings => readings.length == 16
  | .avsLoopRun => true
  | .avsAck => true
  | .avsAckTimeout => true
  | .paceLowClr _ => true
  | .handshakeLockup _ _ => true
  | .clockStopDetected _ => true
  | .clockRunningAgain _ _ => true
  | .xingCompatTimeout _ => true
  | .xingResyncFlagSeen _ => true
  | .xingResyncAckSeen _ => true
  | .xingResyncConfirmed _ => true
  | .rxFrameStart _ _ bytes _ _ _ => !bytes.isEmpty
  | .maxSduExceeded _ _ _ => true
  | .rxFrameEnd _ _ _ _ _ => true
  | .bufferAssignLate _ _ _ => true
  | .lenHintOverrun _ _ _ => true
  | .holdingAreaGrant _ => true
  | .learnWrite => true
  | .ageingSweep => true
  | .streamGateEntryAdvance _ => true
  | .lkpRead _ => true
  | .lkpStageWrite _ => true
  | .lkpStageDelete _ => true
  | .lkpReadKey _ => true
  | .lkpLookup _ => true
  | .lkpStageInsert _ => true
  | .lkpStageClear _ => true
  | .lkpFlushDynamic _ => true
  | .mtrRead _ => true
  | .mtrStageWrite _ => true
  | .mtrStageDelete _ => true
  | .mtrResetState _ => true
  | .pendingCommitApply => true
  | .epochAged _ => true
  | .rerollEmptyCommit => true
  | .txFrameDone _ _ => true
  | .cacheRefillDone _ _ => true
  | .hashWindowEnd => true
  | .hashRerollRequest _ => true
  | .spillCopyDone _ _ => true
  | .spillRefillDone _ _ => true
  | .holdExpiry _ => true
  | .mgrHalt _ => true
  | .mgrResume _ => true
  | .mgrHalted => true
  | .poolLowClr _ => true
  | .voqFlushStart _ _ _ => true
  | .voqFlushDone => true
  | .bpRefresh _ => true
  | .egressSelect _ _ => true
  | .verifyMpacketSend _ => true
  | .verifyResponseReceived _ => true
  | .schRead _ => true
  | .schWriteShadow _ => true
  | .schReadShadow _ => true
  | .schReadClr _ => true
  | .schClearTable _ => true
  | .launchEnqueue _ => true
  | .launchTimeReached _ => true
  | .launchLate _ => true
  | .gclEntryAdvance _ => true
  | .gclSwapRequest _ _ _ _ => true
  | .gclSwapCancel _ _ => true
  | .gclSwapApply _ => true
  | .gclRead _ _ => true
  | .gclWrite _ _ => true
  | .launchHwmClr _ _ => true
  | .blkPush _ => true
  | .blkPop _ => true
  | .blkAdd => true
  | .blkRemove => true
  | .blkReplaceAll => true
  | .blkQuery => true
  | .blkResumeAfterSwap => true
  | .blkLaunchRead _ => true
  | .blkLaunchWrite _ => true
  | .blkLaunchDelete _ => true
  | .timeStep _ _ _ => true
  | .timeSet _ _ _ _ _ => true
  | .negStepDone => true
  | .slewDone => true
  | .laneCopyCheck _ _ => true
  | .timeSnapshot _ => true
  | .traceSet _ => true
  | .traceClr _ => true
  | .eventMsgStrobe _ => true
  | .txfPop _ _ => true
  | .txfClear _ _ => true
  | .tcapEdge _ => true
  | .capNsRead => true
  | .refSecondMeasure _ _ => true
  | .driftDwellExpiry _ => true
  | .majDwellExpiry _ => true
  | .slotActivityFail _ => true
  | .slotActivityReturn _ => true
  | .qualTimerExpiry _ => true
  | .wtrExpiry _ => true
  | .switchMeasureDone _ => true
  | .lockDetected => true
  | .hoReadySet => true
  | .holdoverUpdate _ => true
  | .ptpOfsWrite _ _ => true
  | .ptpOfsTimeout _ => true
  | .slotFwWrite _ _ => true
  | .hoTempWrite _ _ => true
  | .hoTempStale => true
  | .switchManual _ _ => true
  | .switchForced _ _ => true
  | .clrWtr _ _ => true
  | .absClr _ => true
  | .modelLearnSample => true
  | .modelFit => true
  | .bootromSlotRewrite => true
  | .synHop _ _ _ => true
  | .synHopDone _ _ _ => true
  | .synSearch _ => true
  | .synForget _ => true
  | .tuneLimitReached _ _ => true
  | .outAlign _ _ _ => true
  | .outAlignCancel _ _ => true
  | .outAlignDone _ => true
  | .evtEdge _ _ _ _ => true
  | .evtFifoPop _ => true
  | .evtFifoClear _ => true
  | .evtBlankEnd _ => true
  | .measStart _ _ _ _ _ _ => true
  | .measAbort _ _ => true
  | .measGateOpen _ => true
  | .measGateClose _ => true
  | .measResultReady _ => true
  | .interpCalSwap _ _ => true
  | .interpRecal _ _ => true
  | .dblHbToggle => true
  | .dblHbInEdge => true
  | .dblHbTimeout => true
  | .dblOwnInChange _ => true
  | .claimWaitExpiry => true
  | .dblCycleEnd _ _ _ => true
  | .dblCopyReceived _ _ _ _ _ => true
  | .dblAckReceived _ _ _ _ => true
  | .dblHandover _ => true
  | .dblHandoverCancel _ => true
  | .dblFullCopy _ => true
  | .handoverRelease => true
  | .recoveryResetTimeout _ => true
  | .dblEntryRead _ => true
  | .dblEntryWrite _ => true
  | .dblResetRec _ => true
  | .placementPeriod cores services => cores.length == 4 && services.length == 9
  | .mbxSend _ _ _ _ payload => decide (payload.length ≤ 65535)
  | .mbxReceive _ _ _ => true
  | .mbxWaitSet _ _ => true
  | .mbxWaitClr _ _ => true
  | .mbxCrossed _ => true
  | .mbxTwinDelivery _ what => (match what with | .notice _ payload => decide (payload.length ≤ 4096) | .mirror _ _ => true)
  | .sysVersion _ => true
  | .sysRestart _ => true
  | .sysPlacement _ => true
  | .pageHold _ => true
  | .pageRelease _ => true
  | .pageGrant _ => true
  | .pageWrite _ => true
  | .pageHoldExpiry _ => true
  | .ptpInstance _ => true
  | .ptpPort _ => true
  | .ptpDataset _ dataset => decide (dataset.length ≤ 65535)
  | .ptpAsym _ => true
  | .refSlotCmd _ => true
  | .refModelCmd _ => true
  | .refStoreCmd _ => true
  | .redPairCmd _ => true
  | .redStreamCmd _ => true
  | .redLatentCmd _ => true
  | .blkRequestCmd _ => true
  | .lldpPortCmd _ => true
  | .lldpNeighboursCmd _ => true
  | .logMarkCmd _ => true
  | .logExportCmd _ => true
  | .epashCfgCmd _ => true
  | .updBegin _ => true
  | .updWrite _ => true
  | .updVerify _ _ _ _ => true
  | .updActivate _ => true
  | .updConfirm _ => true
  | .updAbort _ => true
  | .updState _ => true
  | .svcRestart _ => true
  | .restartCoresHalted => true
  | .restartDone => true
  | .trialConfirmTimeout => true
  | .trialStartTimeout => true
  | .ringDoorbell _ _ _ => true
  | .txDescriptorProcess _ _ _ _ _ => true
  | .rxFrameToHost _ _ => true
  | .dmaError _ _ _ _ => true
  | .coalesceTimer _ => true
  | .i2cTransfer _ _ => true
  | .crownTripClear _ _ => true
  | .templateLaunch _ _ => true
  | .templateLaunchDequeue _ => true
  | .crownWaitRead _ _ => true
  | .crownWaitWrite _ _ _ => true
  | .crownWaitComplete => true
  | .crownWaitTimeout => true
  | .crownBadAccess => true
  | .ctlMsgWrite _ => true
  | .crnReadLive _ => true
  | .crnWriteShadow _ => true
  | .crnReadShadow _ => true
  | .crnPublish _ => true
  | .powerOnReset => true
  | .brownOut => true
  | .resetNLow => true
  | .clockFailureReset => true
  | .watchdogWarn => true
  | .watchdogExpiry => true
  | .wdogKick _ => true
  | .softwareReset _ _ => true
  | .debugWarmReset => true
  | .coreLockup _ => true
  | .optionLoadDone _ _ => true
  | .islandClockGood _ => true
  | .xoAbsentTimeout => true
  | .dramTrainingDone _ _ => true
  | .dramTrainingFail => true
  | .paceCheckAttempt _ => true
  | .islandRelease _ _ _ => true
  | .perstNRise => true
  | .dozeEntry _ _ => true
  | .dozeExit _ _ => true
  | .keepEntry _ _ => true
  | .keepIslandsReset => true
  | .wakeNLow => true
  | .wakeTimeReached => true
  | .keepSupplyRestored => true
  | .keepSupplyTimeout => true
  | .optWrite _ => true
  | .optWriteDone _ => true
  | .cntLoRead _ => true
  | .freezeArm _ _ _ _ => true
  | .freezeCancel _ => true
  | .freezeInstant => true
  | .snapCollectDone => true
  | .samplerFire _ _ => true
  | .swInc _ _ => true
  | .recordWrite => true
  | .logClear _ => true
  | .epashIdent req => epashFits req
  | .epashRead req => epashFits req
  | .epashSnap req => epashFits req
  | .epashLive req => epashFits req
  | .epashFreezeAt req => epashFits req
  | .epashLogRead req => epashFits req
  | .epashMark req => epashFits req
  | .dramTestStart _ => true
  | .dramTestAbort _ => true
  | .dramTestDone _ _ => true
  | .mbistRun => true
  | .timeBaseTick => true
  | .resetNRise => true
  | .refreshBurstReceived _ => true
  | .pcieLinkChange _ _ _ => true
  | .d3hotEntry _ _ => true
  | .lsyLockLoss _ => true

end Sys2Proof
end

