-- ==== Sys2Proof/Tests/Slice0.lean ====
section
/-!
SUPPORT. Tests/Slice0.lean: small tests with values of the spec's worked examples, an ill-formed command for each check of
WellFormed, and for each statement a state and operands that meet the hypotheses of each of its clauses.
-/
namespace Sys2Proof.Tests
open Sys2Proof.Machine
set_option Elab.async false
set_option linter.unusedVariables false

/-! ### States to test on -/

/-- Every island is out of reset. -/
def upDev : Dev := { Dev.reset with rel := (List.range 120).map (fun u => (u, true)) }
/-- A device with fields at given values: page, field, value, selected item. -/
def devW (l : List (Nat × Machine.Field × Nat × Nat)) : Dev := l.foldl (fun d e => d.set e.1 e.2.1 e.2.2.1 e.2.2.2) upDev
def wFrame : Frame where
  input := 0
  hdr := []
  len := 60
  ended := true
  hint := none
  tc := 0
  colour := 0
  vid := 0
  pcp := 0
  dei := false
  tagged := false
  tpid := 0
  handle := none
  number := none
  rtagAt := none
  hsrAt := none
  prpTail := false
  strip := false
  epoch := 0
  aged := false
  stamp := 0
  untrace := false
  src := 0
  soft := false
  dests := [(0, 0)]
  mcast := false
  untag := []
  retag := []
  reasons := []
  buf := none
  startBank := 0
  spilled := false
  launch := none
  launchReq := none
  ptp := 0
  ptpOfs := 0
  txTag := 0
  txStamp := false
  oneStep := false
  deferred := []
def stW (d : Dev) : State := { State.reset with dev := d }
/-- A command of a family and code waits on a channel, with its payload's words in DRAM, and a flash image runs. -/
def fwN (fam code len ch : Nat) : Data := mkNotice 0 fam code 0 len (if ch < 16 then 0x40000 else 0x80000)
def fwW (fam code len ch : Nat) (ws : List Nat) (d : Dev) : State :=
  let d := ((d.set SVC.page SVC.FW_STAT.IMAGE 1).set SVC.page SVC.FW_STAT.STATE 2)
  let d := (List.range 9).foldl (fun d k => d.set SVC.page SVC.SVC_CFG.ENABLE 1 k) d
  { State.reset with
    dev := d.setFwCmd ch [fwN fam code len ch]
    dram := memWrite [] (if ch < 16 then 0x1A000000 else 0x1B000000) (ws.map (bytesLE 8)).flatten }

def upS : State := stW upDev
/-- The address of a register in window W0. -/
def addrOf (page off : Nat) : BitVec 26 := BitVec.ofNat 26 (page * 4096 + off)

/-! ### Tests: one operation or one step each -/

/-- The device after one command. -/
def dev1 (c : Instr) (d : Dev) : Dev := match exec c (stW d) with | .next t => t.dev | _ => d

theorem test_voq_last_number : voqNo 49 49 7 = 19999 := by decide

/-- R428: d0 lies at position 3, so it sets ECC[0], ECC[1] and the parity bit. -/
theorem test_check_byte_of_d0 : eccByte 1 = 0x83 := by decide +kernel
theorem test_one_bit_is_corrected : decodeNative (encodeNative 0x8001 ^^^ 0x100) = .corrected 0x8001 := by decide +kernel
theorem test_two_bits_are_found : decodeNative (encodeNative 0x8001 ^^^ 0x101) = .uncorrectable := by decide +kernel

/-- The notice of the worked example of chapter Firmware Services and Mailboxes. -/
theorem test_notice_fields : let n : Data := 0x05012A0020040000
    (noticeFamily n, noticeCode n, noticeTag n, noticeLen n, noticePtr n) = (5, 1, 0x2A, 32, 0x40000) := by decide +kernel

/-- R222: at 1,003 s a stamp whose low seconds are 232 was taken at 1,000 s. -/
theorem test_full_stamp_of_an_old_second : fullStamp (1003 * secU) 232 0 0 = 1000 * secU := by decide +kernel

/-- The worked example of R46: GB_RX 37, GB_TX 102, A_RX 38, A_TX 27 at 100GBASE-R. -/
theorem test_latency_of_a_100g_lane :
    let d := dev1 (.latencyMeasured 12 ⟨37, 102, 38, 27⟩)
      (devW [(LNK.page 12, LNK.LNK_STATE.STATE, laneLatency, 0), (LNK.page 12, LNK.LNK_STATE.RATE_ACT, 5, 0)])
    (d.get (LNK.page 12) LNK.RX_LAT.LAT_PS, d.get (LNK.page 12) LNK.TX_LAT.LAT_PS) = (96714, 31932) := by decide +kernel

/-- The worked example of R216: 500,000,055.779 ns, FRAC 0xC76D. -/
theorem test_receive_stamp : let d := { devW [(LNK.page 12, LNK.RX_LAT.LAT_PS, 96714, 0), (TSU.page 12, TSU.ASYM_PS.ASYM, 8007, 0)] with
      now := 1000 * secU + 500000160 * nsU }
    let t := d.rxStamp 12 ⟨0, 0x5000, 0⟩
    (secOf t, nsOf t, fracOf t) = (1000, 500000055, 0xC76D) := by decide +kernel

/-- The worked example of R106: seven frames of 1,500 bytes, 100 µs apart. -/
theorem test_meter_colours :
    let w0 : Data := BitVec.ofNat 64 (1250 * 2 ^ 40 + 2500 * 2 ^ 16 + 2 ^ 14)
    let w1 : Data := BitVec.ofNat 64 (3000 * 2 ^ 40 + 6000 * 2 ^ 16)
    let run := (List.range 7).foldl (fun (x : List Nat × Meter) k =>
      let r := meterColour w0 w1 x.2 (k * 100000 * nsU) 1500 0
      (x.1 ++ [r.1], r.2)) ([], ⟨3000 * byteU, 6000 * byteU, 0, 0, 0, 0⟩)
    run.1 = [0, 0, 1, 1, 2, 2, 1] ∧ run.2.tc = 750 * byteU ∧ run.2.tp = 0 := by decide +kernel

/-- The worked example of R73: at 359 MHz the loop adds one step, at 366 MHz it holds. -/
theorem test_supply_loop_steps_up :
    (dev1 .avsLoopRun { devW [(FAB.page, FAB.AVS_CFG.MODE, 1, 0)] with pace := ⟨0, 0, 0, some 359, 70500, 70500, false, 0, 0⟩ }).pace.v
      = 70750 := by decide +kernel
theorem test_supply_loop_holds :
    (dev1 .avsLoopRun { devW [(FAB.page, FAB.AVS_CFG.MODE, 1, 0)] with pace := ⟨0, 0, 0, some 366, 70750, 70750, false, 0, 0⟩ }).pace.v
      = 70750 := by decide +kernel

/-- R207: a tick adds INC, whose reset value is 0x0199_9999_999A. -/
theorem test_tick_adds_inc : (dev1 .timeBaseTick { upDev with now := 5 }).now = 0x01999999999A + 5 := by decide +kernel

/-- R430: PAUSE quanta at 100 Gbit/s: 100 × 512 bit times are 512 ns. -/
theorem test_pause_time :
    (dev1 (.pauseFrameReceived 3 false 0 [100]) (devW [(LNK.page 3, LNK.LNK_STATE.STATE, laneUp, 0),
      (LNK.page 3, LNK.LNK_STATE.RATE_ACT, 5, 0), (PRT.page 3, PRT.PORT_CFG.FC_MODE, 1, 0)])).pauseEnd 3 8 = some (512 * nsU) := by
  decide +kernel

/-- R90: ACL_KEY 0b11 is a reserved code. -/
theorem test_reserved_key_is_rejected :
    (dev1 (.commitGo .firmware 0x11) (upDev.setSh .lkp LKP.page (LKP.PROF.ACL_KEY.nth 0) 3)).get LKP.page COM.COMMIT_STAT.REJECTED
      = 1 := by decide +kernel

/-- R392: ACC_STAT after one access to a page in reset: the count and the page. -/
theorem test_access_in_reset : (dev1 (.registerWrite .firmware 0x11070 15 [1]) Dev.reset).accStat = 0x10011 := by decide +kernel

/-- A step takes the front of the queue, and an empty queue idles. -/
theorem test_step_takes_one : (match step { State.reset with pending := [.timeBaseTick, .avsAck] } with
    | .next t => t.pending | _ => []) = [.avsAck] := by rfl
theorem test_step_idles : step State.reset = .next State.reset := rfl

/-! ### An ill-formed command for each check of WellFormed -/

theorem test_empty_burst : WellFormed (.registerWrite .host0 0 15 []) = false := by decide
theorem test_partner_page : ([⟨[16], [], []⟩, ⟨[5], [4], []⟩, ⟨[5], [2], [1]⟩] : List AnPage).all (fun p => !WellFormed (.autonegResolved 0 p)) = true := by
  decide
theorem test_latency_ranges : ([⟨136, 0, 20, 15⟩, ⟨0, 136, 20, 15⟩, ⟨0, 0, 19, 15⟩, ⟨0, 0, 51, 15⟩, ⟨0, 0, 20, 14⟩, ⟨0, 0, 20, 41⟩] :
    List LatMeas).all (fun m => !WellFormed (.latencyMeasured 0 m)) = true := by decide
theorem test_prbs_window : WellFormed (.prbsCheckerLoss 0 1 65537) = false := by decide
theorem test_more_errors_than_bits : WellFormed (.prbsCheckerLoss 0 2 1) = false := by decide
theorem test_pause_quanta : WellFormed (.pauseFrameReceived 0 false 0 [1, 2]) = false := by decide
theorem test_pfc_quanta : WellFormed (.pauseFrameReceived 0 true 1 [1]) = false := by decide
theorem test_pace_readings : WellFormed (.paceReading [360]) = false := by decide
theorem test_frame_without_bytes : WellFormed (.rxFrameStart 0 false [] none ⟨0, 0, 0⟩ ⟨0, false, 0, false⟩) = false := by decide
theorem test_placement_loads : WellFormed (.placementPeriod [0, 0, 0] (List.replicate 9 0)) = false := by decide
theorem test_long_payload : WellFormed (.mbxSend .host0 0 false 0 (List.replicate 65536 0)) = false := by
  show decide ((List.replicate 65536 (0 : BitVec 8)).length ≤ 65535) = false; rw [List.length_replicate]; rfl
theorem test_long_twin_payload : WellFormed (.mbxTwinDelivery 0 (.notice 0 (List.replicate 4097 0))) = false := by
  show decide ((List.replicate 4097 (0 : BitVec 8)).length ≤ 4096) = false; rw [List.length_replicate]; rfl
theorem test_long_data_set : WellFormed (.ptpDataset 0 (List.replicate 65536 0)) = false := by
  show decide ((List.replicate 65536 (0 : BitVec 8)).length ≤ 65535) = false; rw [List.length_replicate]; rfl
theorem test_long_epash_body : ([.epashIdent, .epashRead, .epashSnap, .epashLive, .epashFreezeAt, .epashLogRead, .epashMark] :
    List (EpashReq → Instr)).all (fun f => !WellFormed (f ⟨0, 1, 0, 0, List.replicate 1457 0⟩)) = true := by decide +kernel
theorem test_a_command_is_well_formed : WellFormed (.registerWrite .host0 0x11070 15 [1]) = true := by decide

/-! ### The express class bound against the tables of R200 and R203 and the example of chapter 08 -/

theorem test_fixed_latency_cut_through :
    [(1, 1), (2, 1), (2, 2), (3, 1), (3, 2), (3, 3), (4, 1), (4, 2), (4, 3), (4, 4), (5, 1), (5, 2), (5, 3), (5, 4), (5, 5)].map
      (fun p => lFixed p.1 p.2 0 0 128 340 false true)
      = [1915, 712, 546, 594, 428, 398, 681, 515, 485, 495, 616, 450, 420, 430, 420] := by decide +kernel
theorem test_fixed_latency_stored :
    ([1, 2, 3, 4, 5].map fun i => [1, 2, 3, 4, 5].map fun o => lFixed i o 0 0 256 340 true true)
      = [[2939, 2769, 2720, 2730, 2720], [814, 644, 595, 605, 595], [634, 465, 416, 426, 416], [701, 532, 485, 495, 485],
        [626, 457, 420, 430, 420]] := by decide +kernel
theorem test_fixed_latency_never_idle : lFixed 5 5 0 0 128 340 false false = 397 := by decide +kernel
theorem test_template_latency : [1, 2, 3, 4, 5].map (fun o => lTemplate o 26400 340 true) = [531, 365, 335, 345, 335] := by decide +kernel
theorem test_bound_of_twelve_streams :
    (tc7Bound 420 155 (List.replicate 12 552) 20 5, tc7FrameBound 420 155 (List.replicate 12 512) 0 256 5)
      = (96232 / 100, 105544 / 100) := by decide +kernel


/-! ### States in which the keyed tables hold an entry where the free mixing function puts it -/

theorem drawFdbKey_staged (d : Dev) (h : d.keyedEmpty .fdb = false) : d.drawFdbKey = d := by
  unfold Dev.drawFdbKey; rw [if_neg (by simp [h])]

theorem keyedEmpty_staged (d : Dev) (h : d.staging = [⟨2, 1048575, [2 ^ 63], true, false⟩]) : d.keyedEmpty .fdb = false := by
  unfold Dev.keyedEmpty; rw [h, Bool.and_eq_false_iff]; exact Or.inr (by decide +kernel)

theorem lookup_listed (d : Dev) (t : TableId) (i : Nat) (v : Data) (h : d.flips = [])
    (ht : tget (fun _ => resetEntry t i 0) d.tables (tkey t i 0) = v) : d.lookupWord t i = v := by
  unfold Dev.lookupWord Dev.readNative; rw [h]
  simp only [tget, if_pos, Dev.entry, ht]

theorem bitOf_ofNat (n i : Nat) (h : n < 2 ^ 64) : bitOf (BitVec.ofNat 64 n) i = decide (n / 2 ^ i % 2 = 1) := by
  unfold bitOf; rw [BitVec.toNat_ofNat, Nat.mod_eq_of_lt h, Nat.testBit_eq_decide_div_mod_eq]

theorem bitsOf_ofNat (n hi lo : Nat) (h : n < 2 ^ 64) : bitsOf (BitVec.ofNat 64 n) hi lo = n / 2 ^ lo % 2 ^ (hi + 1 - lo) := by
  unfold bitsOf; rw [BitVec.toNat_ofNat, Nat.mod_eq_of_lt h]

theorem fdbMix_snd_lt (d : Dev) (a b : Nat) : (d.fdbMix a b).2 < 2 ^ 45 := by
  unfold Dev.fdbMix
  have := (Config.mix60 (BitVec.ofNat 60 d.fdbKey) (BitVec.ofNat 60 (a % 4096 * 2 ^ 48 + b))).isLt
  simp only; omega

theorem sidMix_snd_lt (d : Dev) (m a b : Nat) : (d.sidMix m a b).2 < 2 ^ 49 := by
  unfold Dev.sidMix
  have := (Config.mix61 (BitVec.ofNat 61 d.sidKey) (BitVec.ofNat 61 (m % 2 * 2 ^ 60 + a % 4096 * 2 ^ 48 + b))).isLt
  simp only; omega

theorem fdbFind_first (d : Dev) (f m : Nat) (h : bitOf (d.lookupWord .fdb ((d.fdbMix f m).1 * 8)) 63 = true)
    (hr : bitsOf (d.lookupWord .fdb ((d.fdbMix f m).1 * 8)) 44 0 = (d.fdbMix f m).2) :
    d.fdbFind f m = some ((d.fdbMix f m).1 * 8) := by
  unfold Dev.fdbFind
  simp [List.range, List.range.loop, h, hr]

theorem sidFind_first (d : Dev) (k f m : Nat) (h : bitOf (d.lookupWord .sid ((d.sidMix k f m).1 * 4)) 63 = true)
    (hr : bitsOf (d.lookupWord .sid ((d.sidMix k f m).1 * 4)) 48 0 = (d.sidMix k f m).2) :
    d.sidFind k f m = some ((d.sidMix k f m).1 * 4) := by
  unfold Dev.sidFind
  simp [List.range, List.range.loop, h, hr]

theorem fdbFind_none (d : Dev) (f m : Nat) (h : ∀ k, k < 8 →
    (bitOf (d.lookupWord .fdb ((d.fdbMix f m).1 * 8 + k)) 63 && bitsOf (d.lookupWord .fdb ((d.fdbMix f m).1 * 8 + k)) 44 0 == (d.fdbMix f m).2) = false) :
    d.fdbFind f m = none := by
  unfold Dev.fdbFind
  simp only [List.find?_eq_none, List.mem_map, List.mem_range]
  rintro x ⟨k, hk, rfl⟩
  rw [h k hk]; simp

theorem fdbWay_first (d : Dev) (b : Nat) (hs : d.staging = []) (h : bitOf (d.lookupWord .fdb (b * 8)) 63 = false) :
    d.fdbWay b = some (b * 8) := by
  unfold Dev.fdbWay Dev.reserved
  rw [hs]
  simp [List.range, List.range.loop, h]

theorem fdbWay_none (d : Dev) (b : Nat) (h : ∀ k, k < 8 → bitOf (d.lookupWord .fdb (b * 8 + k)) 63 = true)
    (g : ∀ k, k < 8 → bitOf (d.lookupWord .fdb (b * 8 + k)) 62 = true) : d.fdbWay b = none := by
  unfold Dev.fdbWay
  have e (p : Nat → Bool) (hp : ∀ k, k < 8 → p (b * 8 + k) = false) :
      (((List.range 8).map (b * 8 + ·)).filter (fun i => !d.reserved .fdb i)).find? p = none := by
    simp only [List.find?_eq_none, List.mem_filter, List.mem_map, List.mem_range]
    rintro x ⟨⟨k, hk, rfl⟩, -⟩
    simp [hp k hk]
  show (match List.find? (fun i => !bitOf (d.lookupWord TableId.fdb i) 63) _ with | some i => some i | none => _) = none
  rw [e _ (fun k hk => by simp [h k hk]), e _ (fun k hk => by simp [g k hk])]

/-- An FDB with one entry in the place that the free mixing function names. -/
def fdbDev (w : Nat) : Dev :=
  let m := upDev.fdbMix 0 0
  { upDev with tables := [(tkey .fdb (m.1 * 8) 0, BitVec.ofNat 64 (w + m.2))], staging := [⟨2, 1048575, [2 ^ 63], true, false⟩] }

theorem fdbDev_word (w : Nat) (d : Dev) (hd : d.tables = (fdbDev w).tables) (hf : d.flips = []) :
    d.lookupWord .fdb ((upDev.fdbMix 0 0).1 * 8) = BitVec.ofNat 64 (w + (upDev.fdbMix 0 0).2) := by
  refine lookup_listed _ _ _ _ hf ?_
  rw [hd]; exact if_pos rfl

theorem fdbDev_find (w : Nat) (h : w < 2 ^ 19) (h' : 2 ^ 18 ≤ w) (d : Dev) (hd : d.tables = (fdbDev (w * 2 ^ 45)).tables) (hf : d.flips = [])
    (hk : d.fdbKey = upDev.fdbKey) :
    d.fdbFind 0 0 = some ((upDev.fdbMix 0 0).1 * 8) := by
  have hm : d.fdbMix 0 0 = upDev.fdbMix 0 0 := by unfold Dev.fdbMix; rw [hk]
  have hl := fdbMix_snd_lt upDev 0 0
  have hw := fdbDev_word _ d hd hf
  rw [← hm]
  refine fdbFind_first d 0 0 ?_ ?_
  · rw [hm, hw, bitOf_ofNat _ _ (by omega)]; simp only [decide_eq_true_eq]; omega
  · rw [hm, hw, bitsOf_ofNat _ _ _ (by omega)]; omega

/-- A bucket of the FDB with every way taken by static entries of other addresses. -/
def fdbFull : Dev :=
  let m := upDev.fdbMix 0 0
  { upDev with
    tables := (List.range 8).map (fun k => (tkey .fdb (m.1 * 8 + k) 0, BitVec.ofNat 64 (3 * 2 ^ 62 + (m.2 + 1) % 2 ^ 45)))
    staging := [⟨2, 1048575, [2 ^ 63], true, false⟩] }

theorem fdbFull_word (d : Dev) (hd : d.tables = fdbFull.tables) (hf : d.flips = []) (k : Nat) (hk : k < 8) :
    d.lookupWord .fdb ((upDev.fdbMix 0 0).1 * 8 + k) = BitVec.ofNat 64 (3 * 2 ^ 62 + ((upDev.fdbMix 0 0).2 + 1) % 2 ^ 45) := by
  refine lookup_listed _ _ _ _ hf ?_
  rw [hd]
  unfold fdbFull tkey TableId.num
  generalize (upDev.fdbMix 0 0) = m
  interval_cases k <;> simp [List.range, List.range.loop, tget]

def learnS (d : Dev) (ep : Nat) : State := stW { d with learnQ := [⟨0, 0, ep⟩] }

theorem reads_clean (d : Dev) (t : TableId) (is : List Nat) (h : d.flips = []) : d.reads t is = d := by
  unfold Dev.reads; rw [h]; rfl

theorem reserved_other (d : Dev) (b : Nat) (h : d.staging = [⟨2, 1048575, [2 ^ 63], true, false⟩]) : d.reserved .fdb (b * 8) = false := by
  unfold Dev.reserved
  rw [h]
  have : (1048575 == b * 8) = false := by simp only [beq_eq_false_iff_ne]; omega
  simp [this]

theorem learn_refresh_state : ∃ (s : State) (q : LearnReq) (rest : List LearnReq) (d e : Dev) (i : Nat) (w : Data), s.dev.learnQ = q :: rest ∧
    d = ({ s.dev with learnQ := rest } : Dev).drawFdbKey ∧ e = d.reads .fdb (d.fdbWays q.fid q.mac) ∧ e.fdbFind q.fid q.mac = some i ∧
    e.reserved .fdb i = false ∧ w = e.lookupWord .fdb i ∧ bitOf w 60 = false ∧ bitsOf w 59 48 = q.ep := by
  have e : ({ (learnS (fdbDev (2 ^ 18 * 2 ^ 45)) 0).dev with learnQ := [] } : Dev).drawFdbKey = _ := drawFdbKey_staged _ (keyedEmpty_staged _ rfl)
  have hw := fdbDev_word (2 ^ 18 * 2 ^ 45) ({ (learnS (fdbDev (2 ^ 18 * 2 ^ 45)) 0).dev with learnQ := [] } : Dev) rfl rfl
  have hl := fdbMix_snd_lt upDev 0 0
  refine ⟨learnS (fdbDev (2 ^ 18 * 2 ^ 45)) 0, ⟨0, 0, 0⟩, [], _, _, (upDev.fdbMix 0 0).1 * 8, _, rfl, rfl, rfl, ?_, ?_, rfl, ?_, ?_⟩
  · rw [e, reads_clean _ _ _ rfl]; exact fdbDev_find (2 ^ 18) (by decide) (by decide) _ rfl rfl rfl
  · rw [e, reads_clean _ _ _ rfl]; exact reserved_other _ _ rfl
  · rw [e, reads_clean _ _ _ rfl, hw, bitOf_ofNat _ _ (by omega)]; simp only [decide_eq_false_iff_not]; omega
  · rw [e, reads_clean _ _ _ rfl, hw, bitsOf_ofNat _ _ _ (by omega)]; simp only []; omega

theorem learn_static_state : ∃ (s : State) (q : LearnReq) (rest : List LearnReq) (d e : Dev) (i : Nat) (w : Data), s.dev.learnQ = q :: rest ∧
    d = ({ s.dev with learnQ := rest } : Dev).drawFdbKey ∧ e = d.reads .fdb (d.fdbWays q.fid q.mac) ∧ e.fdbFind q.fid q.mac = some i ∧
    e.reserved .fdb i = false ∧ w = e.lookupWord .fdb i ∧ (bitOf w 60 = true ∨ bitsOf w 59 48 ≠ q.ep) ∧ bitOf w 62 = true := by
  have e : ({ (learnS (fdbDev ((2 ^ 18 + 2 ^ 17) * 2 ^ 45)) 49).dev with learnQ := [] } : Dev).drawFdbKey = _ := drawFdbKey_staged _ (keyedEmpty_staged _ rfl)
  have hw := fdbDev_word ((2 ^ 18 + 2 ^ 17) * 2 ^ 45) ({ (learnS (fdbDev ((2 ^ 18 + 2 ^ 17) * 2 ^ 45)) 49).dev with learnQ := [] } : Dev) rfl rfl
  have hl := fdbMix_snd_lt upDev 0 0
  refine ⟨learnS (fdbDev ((2 ^ 18 + 2 ^ 17) * 2 ^ 45)) 49, ⟨0, 0, 49⟩, [], _, _, (upDev.fdbMix 0 0).1 * 8, _, rfl, rfl, rfl, ?_, ?_, rfl, Or.inr ?_, ?_⟩
  · rw [e, reads_clean _ _ _ rfl]; exact fdbDev_find (2 ^ 18 + 2 ^ 17) (by decide) (by decide) _ rfl rfl rfl
  · rw [e, reads_clean _ _ _ rfl]; exact reserved_other _ _ rfl
  · rw [e, reads_clean _ _ _ rfl, hw, bitsOf_ofNat _ _ _ (by omega)]; simp only []; omega
  · rw [e, reads_clean _ _ _ rfl, hw, bitOf_ofNat _ _ (by omega)]; simp only [decide_eq_true_eq]; omega

theorem learn_move_state : ∃ (s : State) (q : LearnReq) (rest : List LearnReq) (d e : Dev) (i : Nat) (w : Data), s.dev.learnQ = q :: rest ∧
    d = ({ s.dev with learnQ := rest } : Dev).drawFdbKey ∧ e = d.reads .fdb (d.fdbWays q.fid q.mac) ∧ e.fdbFind q.fid q.mac = some i ∧
    e.reserved .fdb i = false ∧ w = e.lookupWord .fdb i ∧ (bitOf w 60 = true ∨ bitsOf w 59 48 ≠ q.ep) ∧ bitOf w 62 = false := by
  have e : ({ (learnS (fdbDev (2 ^ 18 * 2 ^ 45)) 49).dev with learnQ := [] } : Dev).drawFdbKey = _ := drawFdbKey_staged _ (keyedEmpty_staged _ rfl)
  have hw := fdbDev_word (2 ^ 18 * 2 ^ 45) ({ (learnS (fdbDev (2 ^ 18 * 2 ^ 45)) 49).dev with learnQ := [] } : Dev) rfl rfl
  have hl := fdbMix_snd_lt upDev 0 0
  refine ⟨learnS (fdbDev (2 ^ 18 * 2 ^ 45)) 49, ⟨0, 0, 49⟩, [], _, _, (upDev.fdbMix 0 0).1 * 8, _, rfl, rfl, rfl, ?_, ?_, rfl, Or.inr ?_, ?_⟩
  · rw [e, reads_clean _ _ _ rfl]; exact fdbDev_find (2 ^ 18) (by decide) (by decide) _ rfl rfl rfl
  · rw [e, reads_clean _ _ _ rfl]; exact reserved_other _ _ rfl
  · rw [e, reads_clean _ _ _ rfl, hw, bitsOf_ofNat _ _ _ (by omega)]; simp only []; omega
  · rw [e, reads_clean _ _ _ rfl, hw, bitOf_ofNat _ _ (by omega)]; simp only [decide_eq_false_iff_not]; omega

/-- An entry of the key, in a way that a staged insert has reserved. -/
def fdbStaged : Dev := { fdbDev (2 ^ 18 * 2 ^ 45) with staging := [⟨2, (upDev.fdbMix 0 0).1 * 8, [2 ^ 63], true, false⟩] }

theorem learn_reserved_state : ∃ (s : State) (q : LearnReq) (rest : List LearnReq) (d e : Dev) (i : Nat), s.dev.learnQ = q :: rest ∧
    d = ({ s.dev with learnQ := rest } : Dev).drawFdbKey ∧ e = d.reads .fdb (d.fdbWays q.fid q.mac) ∧ e.fdbFind q.fid q.mac = some i ∧
    e.reserved .fdb i = true := by
  have e : ({ (learnS fdbStaged 0).dev with learnQ := [] } : Dev).drawFdbKey = _ := drawFdbKey_staged _ (by
    unfold Dev.keyedEmpty; rw [show ({ (learnS fdbStaged 0).dev with learnQ := [] } : Dev).staging = fdbStaged.staging from rfl, Bool.and_eq_false_iff]
    exact Or.inr (show (!((2 == 2 && bitOf ((2 : BitVec 64) ^ 63) 63) || false)) = false by decide +kernel))
  refine ⟨learnS fdbStaged 0, ⟨0, 0, 0⟩, [], _, _, (upDev.fdbMix 0 0).1 * 8, rfl, rfl, rfl, ?_, ?_⟩
  · rw [e, reads_clean _ _ _ rfl]; exact fdbDev_find (2 ^ 18) (by decide) (by decide) _ rfl rfl rfl
  · rw [e, reads_clean _ _ _ rfl]; unfold Dev.reserved
    rw [show ({ (learnS fdbStaged 0).dev with learnQ := [] } : Dev).staging = fdbStaged.staging from rfl]
    simp [fdbStaged, TableId.num]

theorem emptyWord (d : Dev) (i : Nat) (h : d.tables = []) (hf : d.flips = []) : d.lookupWord .fdb i = 0 := by
  refine lookup_listed _ _ _ _ hf ?_
  rw [h]; rfl

theorem learn_free_way_state : ∃ (s : State) (q : LearnReq) (rest : List LearnReq) (d e : Dev) (i : Nat), s.dev.learnQ = q :: rest ∧
    d = ({ s.dev with learnQ := rest } : Dev).drawFdbKey ∧ e = d.reads .fdb (d.fdbWays q.fid q.mac) ∧ e.fdbFind q.fid q.mac = none ∧
    e.fdbWay (d.fdbMix q.fid q.mac).1 = some i := by
  have ht : ({ (learnS upDev 0).dev with learnQ := [] } : Dev).drawFdbKey.tables = [] := by unfold Dev.drawFdbKey; split <;> rfl
  have hf : ({ (learnS upDev 0).dev with learnQ := [] } : Dev).drawFdbKey.flips = [] := by unfold Dev.drawFdbKey; split <;> rfl
  have hs : ({ (learnS upDev 0).dev with learnQ := [] } : Dev).drawFdbKey.staging = [] := by unfold Dev.drawFdbKey; split <;> rfl
  refine ⟨learnS upDev 0, ⟨0, 0, 0⟩, [], _, _, _, rfl, rfl, (reads_clean _ _ _ hf).symm, ?_, fdbWay_first _ _ hs ?_⟩
  · refine fdbFind_none _ _ _ (fun k _ => ?_)
    rw [emptyWord _ _ ht hf]; rfl
  · rw [emptyWord _ _ ht hf]; rfl

theorem learn_refused_state : ∃ (s : State) (q : LearnReq) (rest : List LearnReq) (d e : Dev), s.dev.learnQ = q :: rest ∧
    d = ({ s.dev with learnQ := rest } : Dev).drawFdbKey ∧ e = d.reads .fdb (d.fdbWays q.fid q.mac) ∧ e.fdbFind q.fid q.mac = none ∧
    e.fdbWay (d.fdbMix q.fid q.mac).1 = none := by
  have e : ({ (learnS fdbFull 0).dev with learnQ := [] } : Dev).drawFdbKey = _ := drawFdbKey_staged _ (keyedEmpty_staged _ rfl)
  have hw := fdbFull_word ({ (learnS fdbFull 0).dev with learnQ := [] } : Dev) rfl rfl
  have hl := fdbMix_snd_lt upDev 0 0
  have hm : ({ (learnS fdbFull 0).dev with learnQ := [] } : Dev).fdbMix 0 0 = upDev.fdbMix 0 0 := rfl
  refine ⟨learnS fdbFull 0, ⟨0, 0, 0⟩, [], _, _, rfl, rfl, rfl, ?_, ?_⟩
  · rw [e, reads_clean _ _ _ rfl]
    refine fdbFind_none _ _ _ (fun k hk => ?_)
    rw [hm, hw k hk, bitsOf_ofNat _ _ _ (by omega), Bool.and_eq_false_iff]
    refine Or.inr ?_
    simp only [beq_eq_false_iff_ne]; omega
  · rw [e, reads_clean _ _ _ rfl]
    show Dev.fdbWay _ (({ (learnS fdbFull 0).dev with learnQ := [] } : Dev).fdbMix 0 0).1 = none
    rw [hm]
    refine fdbWay_none _ _ (fun k hk => ?_) (fun k hk => ?_)
    · rw [hw k hk, bitOf_ofNat _ _ (by omega)]; simp only [decide_eq_true_eq]; omega
    · rw [hw k hk, bitOf_ofNat _ _ (by omega)]; simp only [decide_eq_true_eq]; omega

theorem lookup_fdb_state : ∃ (s : State) (acc : Accessor) (m v mac i : Nat) (d : Dev), d = s.dev.reads .fdb (s.dev.fdbWays v mac) ∧ Reach s.dev LKP.page ∧ winKeyOf s.dev acc = (m, v, mac) ∧
    s.dev.get LKP.page LKP.ENTRY_AUX.TARGET acc.idx = 0 ∧ s.dev.fdbFind v mac = some i :=
  ⟨stW (fdbDev (2 ^ 18 * 2 ^ 45)), .firmware, 0, 0, 0, _, _, rfl, by decide +kernel, by decide +kernel, by decide +kernel,
    fdbDev_find (2 ^ 18) (by decide) (by decide) _ rfl rfl rfl⟩

/-- A stream table with one entry in the place that the free mixing function names; LOOKUP of the stream table. -/
def sidDev : Dev :=
  let d := upDev.set LKP.page LKP.ENTRY_AUX.TARGET 1 2
  let m := d.sidMix 0 0 0
  { d with tables := [(tkey .sid (m.1 * 4) 0, BitVec.ofNat 64 (2 ^ 63 + m.2))] }

theorem lookup_sid_state : ∃ (s : State) (acc : Accessor) (m v mac i : Nat) (d : Dev), d = s.dev.reads .sid (s.dev.sidWays m v mac) ∧ Reach s.dev LKP.page ∧ winKeyOf s.dev acc = (m, v, mac) ∧
    s.dev.get LKP.page LKP.ENTRY_AUX.TARGET acc.idx = 1 ∧ s.dev.sidFind m v mac = some i := by
  have hl := sidMix_snd_lt sidDev 0 0 0
  have hw : sidDev.lookupWord .sid ((sidDev.sidMix 0 0 0).1 * 4) = BitVec.ofNat 64 (2 ^ 63 + (sidDev.sidMix 0 0 0).2) :=
    lookup_listed _ _ _ _ (by rfl) (if_pos rfl)
  refine ⟨stW sidDev, .firmware, 0, 0, 0, _, _, rfl, by decide +kernel, by decide +kernel, by decide +kernel, sidFind_first sidDev 0 0 0 ?_ ?_⟩
  · rw [hw, bitOf_ofNat _ _ (by omega)]; simp only [decide_eq_true_eq]; omega
  · rw [hw, bitsOf_ofNat _ _ _ (by omega)]; omega


/-! ### What meets the hypotheses of each statement -/

theorem witness_StepTakesFront :
    ∃ s : State, s.pending = [] :=
  ⟨State.reset, rfl⟩

theorem witness_StateAfterReset :
    ∃ (page i : Nat) (t : PageType), pageOf page = some (t, i) :=
  ⟨0, 0, .glb, by decide +kernel⟩

theorem witness_DramStaysCanonical :
    ∃ s t : State, DramWf s ∧ s.pending ≠ [] ∧ step s = .next t :=
  ⟨{ State.reset with pending := [.timeBaseTick] }, _, rfl, by decide, rfl⟩

theorem witness_DramFrame :
    (∃ (c : Instr) (s t : State), stores c = false ∧ exec c s = .next t)
    ∧ (∃ (s t : State) (acc : Accessor) (ch : Fin 32) (fw : Bool) (mid : BitVec 32) (payload : List (BitVec 8)) (n : Data) (base : Nat),
      n = mid ++ tget (fun _ => 0) s.dev.mbxLo (mbxNo ch fw * 8 + acc.idx) ∧ exec (.mbxSend acc ch fw mid payload) s = .next t ∧
      mbxReach acc ch = true ∧ Reach s.dev (mbxPage ch) ∧ mbxSender acc ch fw = true ∧ payloadAddr ch n = some base ∧
      s.dev.flag DRM.page DRM.DRM_STAT.TRAINED = true ∧ payload.length = noticeLen n ∧ payload ≠ []) :=
  ⟨⟨.timeBaseTick, State.reset, _, rfl, rfl⟩,
   ⟨stW { devW [(DRM.page, DRM.DRM_STAT.TRAINED, 1, 0)] with mbxLo := [(mbxNo 0 false * 8, 0x01040000)] }, _, .host0, 0, false, 0x05012A00, [7], _, 0x1A000000, rfl, rfl, by and_intros <;> decide +kernel⟩⟩

theorem witness_LaneDetectorsAndBringUp :
    (∃ (s : State) (lane : Fin 51), s.dev.released (unitLane lane) = true ∧ s.dev.laneState lane ≠ laneIdle ∧ s.dev.laneState lane ≠ laneWake ∧ s.dev.flag (LNK.page lane) LNK.LNK_STATE.LOS = true)
    ∧ (∃ (s : State) (lane : Fin 51), s.dev.released (unitLane lane) = true ∧ s.dev.laneState lane ≠ laneIdle ∧ s.dev.laneState lane ≠ laneWake ∧ s.dev.flag (LNK.page lane) LNK.LNK_STATE.LOS = false)
    ∧ (∃ (s : State) (lane : Fin 51), s.dev.released (unitLane lane) = true ∧ s.dev.laneState lane ≠ laneIdle ∧ s.dev.laneState lane ≠ laneWake ∧ s.dev.flag (LNK.page lane) LNK.LNK_STATE.LOL = false)
    ∧ (∃ (s : State) (lane : Fin 51), s.dev.released (unitLane lane) = true ∧ s.dev.laneState lane ≠ laneIdle ∧ s.dev.laneState lane ≠ laneWake ∧ s.dev.flag (LNK.page lane) LNK.LNK_STATE.LOL = true)
    ∧ (∃ (s : State) (lane : Fin 51) (partner : AnPage), s.dev.released (unitLane lane) = true ∧ s.dev.laneState lane = laneAutoneg ∧ s.dev.get (LNK.page lane) LNK.LNK_CFG.RATE = 1)
    ∧ (∃ (s : State) (lane : Fin 51) (partner : AnPage) (rate : Nat), s.dev.released (unitLane lane) = true ∧ s.dev.laneState lane = laneAutoneg ∧ s.dev.get (LNK.page lane) LNK.LNK_CFG.RATE ≠ 1 ∧ s.dev.anRate lane partner = some rate)
    ∧ (∃ (s : State) (lane : Fin 51) (partner : AnPage), s.dev.released (unitLane lane) = true ∧ s.dev.laneState lane = laneAutoneg ∧ s.dev.get (LNK.page lane) LNK.LNK_CFG.RATE ≠ 1 ∧ s.dev.anRate lane partner = none)
    ∧ (∃ (s : State) (lane : Fin 51), s.dev.released (unitLane lane) = true ∧ s.dev.laneState lane = laneAutoneg)
    ∧ (∃ (s : State) (lane : Fin 51), s.dev.released (unitLane lane) = true ∧ s.dev.laneState lane = laneTraining)
    ∧ (∃ (s : State) (lane : Fin 51), s.dev.released (unitLane lane) = true ∧ s.dev.laneState lane = laneCdr)
    ∧ (∃ (s : State) (lane : Fin 51), s.dev.released (unitLane lane) = true ∧ s.dev.laneState lane = laneBlockLock)
    ∧ (∃ (s : State) (lane : Fin 51), s.dev.released (unitLane lane) = true ∧ s.dev.laneState lane = laneLatency)
    ∧ (∃ (s : State) (lane : Fin 51), s.dev.released (unitLane lane) = true ∧ s.dev.laneState lane = laneSearch)
    ∧ (∃ (s : State) (lane : Fin 51), s.dev.released (unitLane lane) = true ∧ s.dev.laneState lane = laneSearch ∧ s.dev.media lane ≠ 0 ∧ 1 < s.dev.rateAct lane)
    ∧ (∃ (s : State) (lane : Fin 51), s.dev.released (unitLane lane) = true ∧ s.dev.laneState lane = laneFault) :=
  ⟨⟨stW (devW [((LNK.page (0 : Fin 51)), LNK.LNK_STATE.LOS, 1, 0)]), 0, by and_intros <;> decide +kernel⟩,
   ⟨stW (devW [((LNK.page (0 : Fin 51)), LNK.LNK_STATE.LOS, 0, 0)]), 0, by and_intros <;> decide +kernel⟩,
   ⟨stW (devW [((LNK.page (0 : Fin 51)), LNK.LNK_STATE.LOL, 0, 0)]), 0, by and_intros <;> decide +kernel⟩,
   ⟨stW (devW [((LNK.page (0 : Fin 51)), LNK.LNK_STATE.LOL, 1, 0)]), 0, by and_intros <;> decide +kernel⟩,
   ⟨stW (devW [((LNK.page (0 : Fin 51)), LNK.LNK_STATE.STATE, laneAutoneg, 0), ((LNK.page (0 : Fin 51)), LNK.LNK_CFG.RATE, 1, 0)]), 0, ⟨[1], [], []⟩, by and_intros <;> decide +kernel⟩,
   ⟨stW (devW [((LNK.page (50 : Fin 51)), LNK.LNK_STATE.STATE, laneAutoneg, 0), ((LNK.page 50), LNK.LNK_CFG.RATE, 2, 0)]), 50, ⟨[2], [], []⟩, 2, by and_intros <;> decide +kernel⟩,
   ⟨stW (devW [((LNK.page (0 : Fin 51)), LNK.LNK_STATE.STATE, laneAutoneg, 0)]), 0, ⟨[], [], []⟩, by and_intros <;> decide +kernel⟩,
   ⟨stW (devW [((LNK.page (0 : Fin 51)), LNK.LNK_STATE.STATE, laneAutoneg, 0)]), 0, by and_intros <;> decide +kernel⟩,
   ⟨stW (devW [((LNK.page (0 : Fin 51)), LNK.LNK_STATE.STATE, laneTraining, 0)]), 0, by and_intros <;> decide +kernel⟩,
   ⟨stW (devW [((LNK.page (0 : Fin 51)), LNK.LNK_STATE.STATE, laneCdr, 0)]), 0, by and_intros <;> decide +kernel⟩,
   ⟨stW (devW [((LNK.page (0 : Fin 51)), LNK.LNK_STATE.STATE, laneBlockLock, 0)]), 0, by and_intros <;> decide +kernel⟩,
   ⟨stW (devW [((LNK.page (0 : Fin 51)), LNK.LNK_STATE.STATE, laneLatency, 0)]), 0, by and_intros <;> decide +kernel⟩,
   ⟨stW (devW [((LNK.page (0 : Fin 51)), LNK.LNK_STATE.STATE, laneSearch, 0), ((LNK.page 0), LNK.LNK_STATE.RATE_ACT, 1, 0), ((LNK.page 0), LNK.LNK_CFG.MEDIA, 1, 0)]), 0, by and_intros <;> decide +kernel⟩,
   ⟨stW (devW [((LNK.page (0 : Fin 51)), LNK.LNK_STATE.STATE, laneSearch, 0), ((LNK.page 0), LNK.LNK_STATE.RATE_ACT, 2, 0), ((LNK.page 0), LNK.LNK_CFG.MEDIA, 1, 0)]), 0, by and_intros <;> decide +kernel⟩,
   ⟨stW (devW [((LNK.page (0 : Fin 51)), LNK.LNK_STATE.STATE, laneFault, 0)]), 0, by and_intros <;> decide +kernel⟩⟩

theorem witness_LaneLinkUpAndLoss :
    (∃ (s : State) (lane : Fin 51) (coef : TrainedEq), s.dev.released (unitLane lane) = true ∧ s.dev.laneState lane = laneTraining)
    ∧ (∃ (s : State) (lane : Fin 51), s.dev.released (unitLane lane) = true ∧ s.dev.laneState lane = laneCdr ∧ s.dev.flag (LNK.page lane) LNK.LNK_STATE.LOL = false ∧ (s.dev.lane lane).lolOk = true)
    ∧ (∃ (s : State) (lane : Fin 51), s.dev.released (unitLane lane) = true ∧ s.dev.laneState lane = laneBlockLock)
    ∧ (∃ (s : State) (lane : Fin 51), s.dev.released (unitLane lane) = true ∧ s.dev.laneState lane = laneBlockLock ∧ s.dev.flag (LNK.page lane) LNK.LNK_STATE.PCS_LOCK = true)
    ∧ (∃ (s : State) (lane : Fin 51) (meas : LatMeas), s.dev.released (unitLane lane) = true ∧ s.dev.laneState lane = laneLatency ∧ latFits (s.dev.rateAct lane) meas = true)
    ∧ (∃ (s : State) (lane : Fin 51), s.dev.released (unitLane lane) = true ∧ s.dev.laneState lane = laneUp)
    ∧ (∃ (s : State) (acc : Accessor) (lane : Fin 51), s.dev.released (unitLane lane) = true ∧ s.dev.laneState lane = laneUp ∧ MayWrite s.dev acc (LNK.page lane))
    ∧ (∃ (s : State) (lane : Fin 51), s.dev.released (unitLane lane) = true ∧ s.dev.laneState lane = laneUp) :=
  ⟨⟨stW (devW [((LNK.page (0 : Fin 51)), LNK.LNK_STATE.STATE, laneTraining, 0)]), 0, ⟨31, 127, 31, 31⟩, by and_intros <;> decide +kernel⟩,
   ⟨stW (((devW [((LNK.page (0 : Fin 51)), LNK.LNK_STATE.STATE, laneCdr, 0), ((LNK.page (0 : Fin 51)), LNK.LNK_STATE.LOL, 0, 0)])).setLane 0 (⟨0, true, true, 1, 1, 0, 0⟩ : Lane)), 0, by and_intros <;> decide +kernel⟩,
   ⟨stW (devW [((LNK.page (0 : Fin 51)), LNK.LNK_STATE.STATE, laneBlockLock, 0)]), 0, by and_intros <;> decide +kernel⟩,
   ⟨stW (devW [((LNK.page (0 : Fin 51)), LNK.LNK_STATE.STATE, laneBlockLock, 0), ((LNK.page (0 : Fin 51)), LNK.LNK_STATE.PCS_LOCK, 1, 0)]), 0, by and_intros <;> decide +kernel⟩,
   ⟨stW (devW [((LNK.page (0 : Fin 51)), LNK.LNK_STATE.STATE, laneLatency, 0)]), 0, ⟨0, 0, 50, 15⟩, by and_intros <;> decide +kernel⟩,
   ⟨stW (devW [((LNK.page (0 : Fin 51)), LNK.LNK_STATE.STATE, laneUp, 0)]), 0, by and_intros <;> decide +kernel⟩,
   ⟨stW (devW [((LNK.page (0 : Fin 51)), LNK.LNK_STATE.STATE, laneUp, 0)]), .firmware, 0, by and_intros <;> decide +kernel⟩,
   ⟨stW (devW [((LNK.page (0 : Fin 51)), LNK.LNK_STATE.STATE, laneUp, 0)]), 0, by and_intros <;> decide +kernel⟩⟩

theorem witness_LaneIdleAndPrbs :
    (∃ (s : State) (lane : Fin 51), s.dev.released (unitLane lane) = true ∧ s.dev.laneState lane = laneUp ∧ s.dev.mayIdle lane = true)
    ∧ (∃ (s : State) (lane : Fin 51) (deep : Bool), s.dev.released (unitLane lane) = true ∧ s.dev.laneState lane = laneUp ∧ s.dev.mayIdle lane = true ∧ (s.dev.get (LNK.page lane) LNK.IDLE_CFG.MODE = (if deep then 2 else 1)))
    ∧ (∃ (s : State) (lane : Fin 51) (deep : Bool), s.dev.released (unitLane lane) = true ∧ s.dev.laneState lane = laneUp ∧ ((s.dev.lane lane).reqSent = (if deep then 2 else 1)))
    ∧ (∃ (s : State) (lane : Fin 51), s.dev.released (unitLane lane) = true ∧ s.dev.laneState lane = laneUp)
    ∧ (∃ (s : State) (lane : Fin 51), s.dev.released (unitLane lane) = true ∧ s.dev.laneState lane = laneIdle)
    ∧ (∃ (s : State) (lane : Fin 51) (shifted : Bool), s.dev.released (unitLane lane) = true ∧ s.dev.laneState lane = laneWake)
    ∧ (∃ (s : State) (lane : Fin 51), s.dev.released (unitLane lane) = true ∧ s.dev.laneState lane = laneWake)
    ∧ (∃ (s : State) (lane : Fin 51), s.dev.released (unitLane lane) = true ∧ s.dev.laneState lane = laneIdle)
    ∧ (∃ (s : State) (lane : Fin 51), s.dev.released (unitLane lane) = true ∧ s.dev.laneState lane = laneIdle)
    ∧ (∃ (s : State) (lane : Fin 51), s.dev.released (unitLane lane) = true ∧ s.dev.laneState lane = laneIdle ∧ (s.dev.lane lane).refreshAt + 3000000 * nsU ≤ s.dev.now)
    ∧ (∃ (s : State) (port : Fin 48), s.dev.released (unitLane port) = true ∧ s.dev.laneState port = laneIdle ∧ (s.dev.lane port).idleKind = 1)
    ∧ (∃ (s : State) (acc : Accessor) (lane : Fin 51), MayWrite s.dev acc (LNK.page lane))
    ∧ (∃ (s : State) (acc : Accessor) (lane : Fin 51), MayWrite s.dev acc (LNK.page lane))
    ∧ (∃ (s : State) (acc : Accessor) (lane : Fin 51), MayWrite s.dev acc (LNK.page lane) ∧ s.dev.laneState lane = lanePrbs ∧ (s.dev.get (LNK.page lane) LNK.LOOP_CFG.MODE = 0 ∨ s.dev.get (LNK.page lane) LNK.LOOP_CFG.MODE = 5))
    ∧ (∃ (s : State) (acc : Accessor) (lane : Fin 51), MayWrite s.dev acc (LNK.page lane) ∧ (¬ (s.dev.laneState lane = lanePrbs ∧ (s.dev.get (LNK.page lane) LNK.LOOP_CFG.MODE = 0 ∨ s.dev.get (LNK.page lane) LNK.LOOP_CFG.MODE = 5))))
    ∧ (∃ (s : State) (acc : Accessor) (lane : Fin 51), MayWrite s.dev acc (LNK.page lane))
    ∧ (∃ (s : State) (lane : Fin 51), s.dev.released (unitLane lane) = true ∧ s.dev.flag (LNK.page lane) LNK.PRBS_CFG.CHK_EN = true)
    ∧ (∃ (s : State) (lane : Fin 51) (errors bits : Nat), s.dev.released (unitLane lane) = true ∧ s.dev.flag (LNK.page lane) LNK.PRBS_STAT.LOCK = true ∧ 1024 < errors) :=
  ⟨⟨stW (devW [((LNK.page (0 : Fin 51)), LNK.LNK_STATE.STATE, laneUp, 0), ((LNK.page 0), LNK.LNK_STATE.RATE_ACT, 2, 0), ((LNK.page 0), LNK.IDLE_CFG.MODE, 1, 0)]), 0, by and_intros <;> decide +kernel⟩,
   ⟨stW (devW [((LNK.page (0 : Fin 51)), LNK.LNK_STATE.STATE, laneUp, 0), ((LNK.page 0), LNK.LNK_STATE.RATE_ACT, 5, 0), ((LNK.page 0), LNK.IDLE_CFG.MODE, 2, 0)]), 0, true, by and_intros <;> decide +kernel⟩,
   ⟨stW (((devW [((LNK.page (0 : Fin 51)), LNK.LNK_STATE.STATE, laneUp, 0)])).setLane 0 (⟨0, true, true, 1, 1, 0, 0⟩ : Lane)), 0, false, by and_intros <;> decide +kernel⟩,
   ⟨stW (devW [((LNK.page (0 : Fin 51)), LNK.LNK_STATE.STATE, laneUp, 0)]), 0, by and_intros <;> decide +kernel⟩,
   ⟨stW (devW [((LNK.page (0 : Fin 51)), LNK.LNK_STATE.STATE, laneIdle, 0)]), 0, by and_intros <;> decide +kernel⟩,
   ⟨stW (devW [((LNK.page (0 : Fin 51)), LNK.LNK_STATE.STATE, laneWake, 0)]), 0, false, by and_intros <;> decide +kernel⟩,
   ⟨stW (devW [((LNK.page (0 : Fin 51)), LNK.LNK_STATE.STATE, laneWake, 0)]), 0, by and_intros <;> decide +kernel⟩,
   ⟨stW (devW [((LNK.page (0 : Fin 51)), LNK.LNK_STATE.STATE, laneIdle, 0)]), 0, by and_intros <;> decide +kernel⟩,
   ⟨stW (devW [((LNK.page (0 : Fin 51)), LNK.LNK_STATE.STATE, laneIdle, 0)]), 0, by and_intros <;> decide +kernel⟩,
   ⟨stW ({ ((devW [((LNK.page (0 : Fin 51)), LNK.LNK_STATE.STATE, laneIdle, 0)])).setLane 0 (⟨0, true, true, 1, 1, 0, 0⟩ : Lane) with now := 3000000 * nsU } : Dev), 0, by and_intros <;> decide +kernel⟩,
   ⟨stW (((devW [((LNK.page (0 : Fin 48)), LNK.LNK_STATE.STATE, laneIdle, 0)])).setLane 0 (⟨0, true, true, 1, 1, 0, 0⟩ : Lane)), 0, by and_intros <;> decide +kernel⟩,
   ⟨stW upDev, .firmware, 0, by decide +kernel⟩,
   ⟨stW upDev, .firmware, 0, by decide +kernel⟩,
   ⟨stW (devW [((LNK.page (0 : Fin 51)), LNK.LNK_STATE.STATE, lanePrbs, 0)]), .firmware, 0, by and_intros <;> decide +kernel⟩,
   ⟨stW upDev, .firmware, 0, by and_intros <;> decide +kernel⟩,
   ⟨stW upDev, .firmware, 0, by decide +kernel⟩,
   ⟨stW (devW [((LNK.page (0 : Fin 51)), LNK.PRBS_CFG.CHK_EN, 1, 0)]), 0, by and_intros <;> decide +kernel⟩,
   ⟨stW (devW [((LNK.page (0 : Fin 51)), LNK.PRBS_STAT.LOCK, 1, 0)]), 0, 1025, 0, by and_intros <;> decide +kernel⟩⟩

theorem witness_LaneMonitors :
    (∃ (s : State) (lane : Fin 51) (height : BitVec 10) (width : BitVec 8) (worst : BitVec 2), s.dev.released (unitLane lane) = true ∧ s.dev.laneState lane ≠ laneOff ∧ (¬(s.dev.laneState lane = laneIdle ∧ (s.dev.lane lane).idleKind = 2)))
    ∧ (∃ (s : State) (lane : Fin 51) (phase : BitVec 16) (pcs : PcsCount), s.dev.released (unitLane lane) = true)
    ∧ (∃ (s : State) (lane : Fin 51) (dirs : List (Nat × Bool)), s.dev.released (unitLane lane) = true ∧ ((3 ≤ s.dev.laneState lane ∧ s.dev.laneState lane ≤ 7) ∨ s.dev.laneState lane = laneSearch ∨ s.dev.laneState lane = lanePrbs))
    ∧ (∃ (s : State) (acc : Accessor) (lane : Fin 51) (value : BitVec 32) (lo hi : Int), MayWrite s.dev acc (LNK.page lane) ∧ trimRange (s.dev.get (LNK.page lane) LNK.TRIM_SEL.INDEX acc.idx) = some (lo, hi) ∧ lo ≤ signed16 (getBits value 0 16) ∧ signed16 (getBits value 0 16) ≤ hi)
    ∧ (∃ (s : State) (acc : Accessor) (lane : Fin 51) (value : BitVec 32) (lo hi : Int), MayWrite s.dev acc (LNK.page lane) ∧ trimRange (s.dev.get (LNK.page lane) LNK.TRIM_SEL.INDEX acc.idx) = some (lo, hi) ∧ (signed16 (getBits value 0 16) < lo ∨ hi < signed16 (getBits value 0 16))) :=
  ⟨⟨stW (devW [((LNK.page 0), LNK.LNK_STATE.STATE, laneUp, 0)]), 0, 0, 0, 0, by and_intros <;> decide +kernel⟩,
   ⟨stW upDev, 0, 0, ⟨0, 0, 0⟩, by decide +kernel⟩,
   ⟨stW (devW [((LNK.page 0), LNK.LNK_STATE.STATE, 7, 0)]), 0, [(1, true)], by and_intros <;> decide +kernel⟩,
   ⟨stW upDev, .firmware, 0, 127, -128, 127, by and_intros <;> decide +kernel⟩,
   ⟨stW upDev, .firmware, 0, 128, -128, 127, by and_intros <;> decide +kernel⟩⟩

theorem witness_PausesReceived :
    (∃ (s : State) (port : Fin 48) (enables : BitVec 8) (quanta : List (BitVec 16)), s.dev.released (unitLane port) = true ∧ linkStates (s.dev.laneState port) = true ∧ s.dev.loopMode port = 0 ∧ s.dev.get (PRT.page port) PRT.PORT_CFG.FC_MODE = 1)
    ∧ (∃ (s : State) (port : Fin 48) (enables : BitVec 8) (quanta : List (BitVec 16)), s.dev.released (unitLane port) = true ∧ linkStates (s.dev.laneState port) = true ∧ s.dev.loopMode port = 0 ∧ s.dev.get (PRT.page port) PRT.PORT_CFG.FC_MODE = 2)
    ∧ (∃ (s : State) (port : Fin 48) (pfc : Bool) (enables : BitVec 8) (quanta : List (BitVec 16)), s.dev.released (unitLane port) = true ∧ linkStates (s.dev.laneState port) = true ∧ s.dev.loopMode port = 0 ∧ (s.dev.get (PRT.page port) PRT.PORT_CFG.FC_MODE ≠ (if pfc then 2 else 1)))
    ∧ (∃ (s : State) (port : Fin 48) (pfc : Bool) (enables : BitVec 8) (quanta : List (BitVec 16)), s.dev.released (unitLane port) = true ∧ s.dev.loopMode port ≠ 0) :=
  ⟨⟨stW (devW [((PRT.page (0 : Fin 48)), PRT.PORT_CFG.FC_MODE, 1, 0), ((LNK.page 0), LNK.LNK_STATE.STATE, laneUp, 0), ((PRT.page 0), PRT.PORT_CFG.FC_MODE, 1, 0)]), 0, 0, [], by and_intros <;> decide +kernel⟩,
   ⟨stW (devW [((PRT.page (0 : Fin 48)), PRT.PORT_CFG.FC_MODE, 2, 0), ((LNK.page 0), LNK.LNK_STATE.STATE, laneUp, 0), ((PRT.page 0), PRT.PORT_CFG.FC_MODE, 2, 0)]), 0, 0, [], by and_intros <;> decide +kernel⟩,
   ⟨stW (devW [((LNK.page 0), LNK.LNK_STATE.STATE, laneUp, 0), ((PRT.page 0), PRT.PORT_CFG.FC_MODE, 0, 0)]), 0, true, 0, [], by and_intros <;> decide +kernel⟩,
   ⟨stW (devW [((LNK.page 0), LNK.LOOP_CFG.MODE, 1, 0)]), 0, false, 0, [], by and_intros <;> decide +kernel⟩⟩

theorem witness_PaceAndSupplyLoop :
    (∃ (s : State) (readings : List (BitVec 10)), readings.length = 16)
    ∧ (∃ (s : State) (acc : Accessor), MayWrite s.dev acc FAB.page)
    ∧ (∃ (s : State) (p : Nat), s.dev.pace.periodMin = some p ∧ s.dev.get FAB.page FAB.AVS_CFG.MODE ≠ 0 ∧ s.dev.flag FAB.page FAB.AVS_STAT.FAIL = false ∧ s.dev.pace.waiting = false)
    ∧ (∃ (s : State), s.dev.pace.waiting = true)
    ∧ (∃ (s : State), s.dev.pace.periodMin = none)
    ∧ (∃ (s : State) (p : Nat), s.dev.pace.periodMin = some p ∧ (s.dev.get FAB.page FAB.AVS_CFG.MODE = 0 ∨ s.dev.flag FAB.page FAB.AVS_STAT.FAIL = true ∨ s.dev.pace.waiting = true))
    ∧ (∃ (s : State), s.dev.pace.waiting = false)
    ∧ (∃ (s : State), s.dev.pace.waiting = true)
    ∧ (∃ (s : State), s.dev.pace.waiting = false) :=
  ⟨⟨stW upDev, (List.replicate 16 500), by decide +kernel⟩,
   ⟨stW upDev, .firmware, by decide +kernel⟩,
   ⟨stW ({ (devW [(FAB.page, FAB.AVS_CFG.MODE, 1, 0), (FAB.page, FAB.AVS_STAT.FAIL, 0, 0)]) with pace := ⟨0, 0, 0, some 990, 75000, 75000, false, 0, 0⟩ } : Dev), 990, by and_intros <;> decide +kernel⟩,
   ⟨stW ({ upDev with pace := ⟨0, 0, 0, some 990, 75000, 75000, true, 0, 0⟩ } : Dev), by decide +kernel⟩,
   ⟨stW upDev, by decide +kernel⟩,
   ⟨stW ({ upDev with pace := ⟨0, 0, 0, some 990, 75000, 75000, true, 0, 0⟩ } : Dev), 990, by and_intros <;> decide +kernel⟩,
   ⟨stW upDev, by decide +kernel⟩,
   ⟨stW ({ upDev with pace := ⟨0, 0, 0, some 990, 75000, 75000, true, 0, 0⟩ } : Dev), by decide +kernel⟩,
   ⟨stW upDev, by decide +kernel⟩⟩

theorem witness_CrossingsAndHeldTransfers :
    (∃ (s : State) (island : Fin 56), s.dev.flag FAB.page FAB.XING_STAT.CLK_STOP island = false ∧ s.dev.xing island ≠ xReset ∧ (¬ (island.val < 51 ∧ s.dev.flag SYN.page SYN.LSY_STAT.LOCK = true)))
    ∧ (∃ (s : State) (island : Fin 56) (h : Held), (s.dev.held.find? (fun h => h.island == island.val) = some h) ∧ s.dev.xing island = xHeld ∧ (s.dev.get FAB.page FAB.XING_CFG.COMPAT).testBit (islandClass island) = true)
    ∧ (∃ (s : State) (island : Fin 56), s.dev.xing island = xResync ∧ s.dev.xph island = 1)
    ∧ (∃ (s : State) (island : Fin 56), s.dev.xing island = xResync ∧ s.dev.xph island = 2)
    ∧ (∃ (s : State) (island : Fin 56), s.dev.xing island = xResync ∧ s.dev.xph island = 3)
    ∧ (∃ (s : State) (island : Fin 56) (late : BitVec 16), island.val < 51 ∧ s.dev.flag SYN.page SYN.LSY_STAT.LOCK = false)
    ∧ (∃ (s : State) (island : Fin 56) (d : Dev), (d = ({ s.dev with held := s.dev.held.filter (fun h => h.island != island.val) } : Dev).clockReturn island) ∧ (51 ≤ island.val ∨ s.dev.flag SYN.page SYN.LSY_STAT.LOCK = true)) :=
  ⟨⟨stW (devW [(FAB.page, FAB.XING_STAT.CLK_STOP, 0, (0 : Fin 56)), (FAB.page, FAB.XING_STAT.STATE, xHeld, 0)]), 0, by and_intros <;> decide +kernel⟩,
   ⟨stW ({ (devW [(FAB.page, FAB.XING_STAT.STATE, xHeld, (0 : Fin 56)), (FAB.page, FAB.XING_CFG.COMPAT, 1, 0)]) with held := [⟨0, .firmware, 0, 0x40, 0, true, false, []⟩] } : Dev), 0, ⟨0, .firmware, 0, 0x40, 0, true, false, []⟩, by and_intros <;> decide +kernel⟩,
   ⟨stW (((devW [(FAB.page, FAB.XING_STAT.STATE, xResync, (0 : Fin 56))])).setXph 0 1), 0, by and_intros <;> decide +kernel⟩,
   ⟨stW (((devW [(FAB.page, FAB.XING_STAT.STATE, xResync, (0 : Fin 56))])).setXph 0 2), 0, by and_intros <;> decide +kernel⟩,
   ⟨stW (((devW [(FAB.page, FAB.XING_STAT.STATE, xResync, (0 : Fin 56))])).setXph 0 3), 0, by and_intros <;> decide +kernel⟩,
   ⟨stW (devW [(SYN.page, SYN.LSY_STAT.LOCK, 0, 0)]), 0, 0, by and_intros <;> decide +kernel⟩,
   ⟨stW upDev, 55, _, rfl, by decide +kernel⟩⟩

theorem witness_TimeTickAndCorrections :
    (∃ (s : State), s.dev.released 1 = true)
    ∧ (∃ (s : State) (acc : Accessor) (ns frac : BitVec 32) (d : Dev), d = (s.dev.wrShadow .tmb TMB.page TMB.STEP_NS.NS.off 0 ns).wrShadow .tmb TMB.page TMB.STEP_FRAC.FRAC.off 0
        (frac ||| TMB.STEP_FRAC.STEP_EN.mask) ∧ MayWrite s.dev acc TMB.page ∧ (d.tmbRules acc).find? (·.1) = none)
    ∧ (∃ (s : State) (acc : Accessor) (secHi : BitVec 16) (secLo : BitVec 32) (ns : BitVec 30) (frac : BitVec 16) (d : Dev), d = (((s.dev.wrShadow .tmb TMB.page TMB.SET_SEC_HI.SEC_HI.off 0 (secHi.setWidth 32 ||| TMB.SET_SEC_HI.SET_EN.mask)).wrShadow
        .tmb TMB.page TMB.SET_SEC_LO.SEC_LO.off 0 secLo).wrShadow .tmb TMB.page TMB.SET_NS.NS.off 0 (ns.setWidth 32)).wrShadow
        .tmb TMB.page TMB.SET_FRAC.FRAC.off 0 (frac.setWidth 32) ∧ MayWrite s.dev acc TMB.page ∧ (d.tmbRules acc).find? (·.1) = none)
    ∧ (∃ (s : State) (acc : Accessor) (secHi : BitVec 16) (secLo : BitVec 32) (ns : BitVec 30) (frac : BitVec 16) (d : Dev) (code off : Nat), d = (((s.dev.wrShadow .tmb TMB.page TMB.SET_SEC_HI.SEC_HI.off 0 (secHi.setWidth 32 ||| TMB.SET_SEC_HI.SET_EN.mask)).wrShadow
        .tmb TMB.page TMB.SET_SEC_LO.SEC_LO.off 0 secLo).wrShadow .tmb TMB.page TMB.SET_NS.NS.off 0 (ns.setWidth 32)).wrShadow
        .tmb TMB.page TMB.SET_FRAC.FRAC.off 0 (frac.setWidth 32) ∧ MayWrite s.dev acc TMB.page ∧ (d.tmbRules acc).find? (·.1) = some (true, code, off))
    ∧ (∃ (s : State), s.dev.negOn = true ∧ s.dev.deficit = 0)
    ∧ (∃ (s : State), s.dev.slewOn = true ∧ s.dev.slewRem = 0) :=
  ⟨⟨stW upDev, by decide +kernel⟩,
   ⟨stW upDev, .firmware, 0, 0, _, rfl, by and_intros <;> decide +kernel⟩,
   ⟨stW upDev, .firmware, 0, 0, 0, 0, _, rfl, by and_intros <;> decide +kernel⟩,
   ⟨stW upDev, .firmware, 0, 0, 1000000000, 0, _, 8, TMB.SET_NS.NS.off, rfl, by and_intros <;> decide +kernel⟩,
   ⟨stW ({ upDev with negOn := true } : Dev), by and_intros <;> decide +kernel⟩,
   ⟨stW ({ upDev with slewOn := true } : Dev), by and_intros <;> decide +kernel⟩⟩

theorem witness_TimeSnapshotAndTrace :
    (∃ (s : State) (acc : Accessor), Reach s.dev TMB.page)
    ∧ (∃ (s : State) (acc : Accessor), MayWrite s.dev acc TMB.page ∧ s.dev.flag TMB.page TMB.TMB_STAT.BACKUP = false)
    ∧ (∃ (s : State) (acc : Accessor), MayWrite s.dev acc TMB.page ∧ s.dev.flag TMB.page TMB.TMB_STAT.BACKUP = true)
    ∧ (∃ (s : State) (acc : Accessor), MayWrite s.dev acc TMB.page)
    ∧ (∃ (s : State) (lane : Fin 51) (differs : Bool), (differs = true ∨ s.dev.laneNow lane ≠ s.dev.now))
    ∧ (∃ (s : State) (lane : Fin 51), s.dev.laneNow lane = s.dev.now) :=
  ⟨⟨stW upDev, .firmware, by decide +kernel⟩,
   ⟨stW (devW [(TMB.page, TMB.TMB_STAT.BACKUP, 0, 0)]), .firmware, by and_intros <;> decide +kernel⟩,
   ⟨stW (devW [(TMB.page, TMB.TMB_STAT.BACKUP, 1, 0)]), .firmware, by and_intros <;> decide +kernel⟩,
   ⟨stW upDev, .firmware, by decide +kernel⟩,
   ⟨stW upDev, 0, true, by decide +kernel⟩,
   ⟨stW upDev, 0, by decide +kernel⟩⟩

theorem witness_StampsTaken :
    (∃ (s : State) (port : Fin 48) (d : Dev), d = s.dev.eventBegins port s.dev.now ∧ d.isSoft port = true)
    ∧ (∃ (s : State) (port : Fin 48) (d : Dev), d = s.dev.eventBegins port s.dev.now ∧ d.isSoft port = false)
    ∧ (∃ (s : State) (acc : Accessor) (tsu : Fin 49), MayWrite s.dev acc (TSU.page tsu))
    ∧ (∃ (s : State) (acc : Accessor) (tsu : Fin 49), MayWrite s.dev acc (TSU.page tsu))
    ∧ (∃ (s : State) (sub : Fin 16), (∀ l, s.dev.cap.lastEdge = some l → l + 100 * nsU ≤ s.dev.now + sub * s.dev.rate / 16))
    ∧ (∃ (s : State) (sub : Fin 16) (l : Nat), s.dev.cap.lastEdge = some l ∧ s.dev.now + sub * s.dev.rate / 16 < l + 100 * nsU)
    ∧ (∃ (s : State), s.dev.crownOn = true) :=
  ⟨⟨stW upDev, 0, _, rfl, by decide +kernel⟩,
   ⟨stW (devW [((PRT.page 0), PRT.PORT_STAT.SOFT_STAMPS, 0, 0)]), 0, _, rfl, by decide +kernel⟩,
   ⟨stW upDev, .firmware, 0, by decide +kernel⟩,
   ⟨stW upDev, .firmware, 0, by decide +kernel⟩,
   ⟨stW ({ upDev with cap := ⟨0, 0, false, false, 0, 0, 0, some 0⟩, now := 100 * nsU } : Dev), 0, (by intro l h; rw [← Option.some.inj ((by decide +kernel : _ = some 0).symm.trans h)]; decide +kernel)⟩,
   ⟨stW ({ upDev with cap := ⟨0, 0, false, false, 0, 0, 0, some 0⟩, now := 99 * nsU } : Dev), 0, 0, by and_intros <;> decide +kernel⟩,
   ⟨stW upDev, by decide +kernel⟩⟩

theorem witness_ReferenceSeconds :
    (∃ (s : State) (ys : List (Fin 16 × Int)) (phase : Option Int) (d e f : Dev), (d = (ys.foldl (fun d e => d.measureSlot s.dev.predictPpt e.1 e.2) s.dev).majority) ∧ (e = refSlots.foldl (fun d i =>
      d.set REF.page REF.SLOT_STAT.TIMER_S (d.get REF.page REF.SLOT_STAT.TIMER_S i - 1) i) d) ∧ f = (match Option.or (match e.refSelected with | some k => e.slotPhase k | none => none) phase with
      | some p => e.setPhaseErr p
      | none => e) ∧ (¬(f.refState = refLocked ∧ f.flag REF.page REF.REF_STAT.SWITCHING = false)))
    ∧ (∃ (s : State) (ys : List (Fin 16 × Int)) (phase : Option Int) (d e f : Dev), (d = (ys.foldl (fun d e => d.measureSlot s.dev.predictPpt e.1 e.2) s.dev).majority) ∧ (e = refSlots.foldl (fun d i =>
      d.set REF.page REF.SLOT_STAT.TIMER_S (d.get REF.page REF.SLOT_STAT.TIMER_S i - 1) i) d) ∧ f = (match Option.or (match e.refSelected with | some k => e.slotPhase k | none => none) phase with
      | some p => e.setPhaseErr p
      | none => e) ∧ f.refState = refLocked ∧ f.flag REF.page REF.REF_STAT.SWITCHING = false)
    ∧ (∃ (s : State) (slot : Fin 16), (s.dev.get REF.page REF.SLOT_CFG.DRIFT_LIM slot * 1000 : Int) < (s.dev.getInt REF.page REF.SLOT_DRIFT.PPT slot.val).natAbs)
    ∧ (∃ (s : State) (slot : Fin 16), s.dev.flag REF.page REF.SLOT_STAT.MAJ_OUT slot.val = true ∧ s.dev.flag REF.page REF.REF_CFG.MAJ_ACT = true ∧ 2 * s.dev.outliers.length ≤ s.dev.compared.length)
    ∧ (∃ (s : State), s.dev.refState = refAcquiring ∧ s.dev.lockOk = true ∧ s.dev.flag REF.page REF.REF_STAT.SWITCHING = false)
    ∧ (∃ (s : State), s.dev.refState = refLocked)
    ∧ (∃ (s : State) (sensor : Int) (t : Int), (t = (if s.dev.flag REF.page REF.HO_CFG.TEMP_SRC ∧ s.dev.flag REF.page REF.HO_STAT.TEMP_STALE = false
          then s.dev.getInt REF.page REF.HO_TEMP.TEMP else sensor)) ∧ s.dev.flag REF.page REF.HO_STAT.ACTIVE = false)
    ∧ (∃ (s : State) (sensor : Int) (t : Int) (target : Rat) (e : Dev), (t = (if s.dev.flag REF.page REF.HO_CFG.TEMP_SRC ∧ s.dev.flag REF.page REF.HO_STAT.TEMP_STALE = false
          then s.dev.getInt REF.page REF.HO_TEMP.TEMP else sensor)) ∧ e = s.dev.set REF.page REF.HO_STAT.TEMP (toField 16 t) ∧ s.dev.flag REF.page REF.HO_STAT.ACTIVE = true ∧ e.hoTarget = some target)
    ∧ (∃ (s : State), s.dev.imageRuns = true ∧ s.dev.refState = refLocked ∧ s.dev.rate ≠ 0) :=
  ⟨⟨stW upDev, [], none, _, _, _, rfl, rfl, rfl, by decide +kernel⟩,
   ⟨stW (devW [(REF.page, REF.REF_STAT.STATE, refLocked, 0)]), [], none, _, _, _, rfl, rfl, rfl, by and_intros <;> decide +kernel⟩,
   ⟨stW (devW [(REF.page, REF.SLOT_DRIFT.PPT, 100000001, 15), (REF.page, REF.SLOT_CFG.DRIFT_LIM, 100, 15)]), 15, by decide +kernel⟩,
   ⟨stW (devW [(REF.page, REF.SLOT_STAT.MAJ_OUT, 1, (0 : Fin 16).val), (REF.page, REF.REF_CFG.MAJ_ACT, 1, 0)]), 0, by and_intros <;> decide +kernel⟩,
   ⟨stW (devW [(REF.page, REF.REF_STAT.STATE, refAcquiring, 0), (REF.page, REF.REF_STAT.SWITCHING, 0, 0), (REF.page, REF.REF_STAT.SEL_VALID, 1, 0)]), by and_intros <;> decide +kernel⟩,
   ⟨stW (devW [(REF.page, REF.REF_STAT.STATE, refLocked, 0)]), by decide +kernel⟩,
   ⟨stW (devW [(REF.page, REF.HO_STAT.ACTIVE, 0, 0)]), 0, _, rfl, by decide +kernel⟩,
   ⟨stW ({ (devW [(REF.page, REF.HO_STAT.ACTIVE, 1, 0)]) with hoHist := [17] } : Dev), 0, _, 17, _, rfl, rfl, by and_intros <;> decide +kernel⟩,
   ⟨stW (devW [(REF.page, REF.REF_STAT.STATE, refLocked, 0), (SVC.page, SVC.FW_STAT.IMAGE, 1, 0), (SVC.page, SVC.FW_STAT.STATE, 2, 0)]), by and_intros <;> decide +kernel⟩⟩

theorem witness_ReferenceSlots :
    (∃ (s : State) (slot : Fin 16) (i : Nat), i = s.dev.slotIndex slot ∧ s.dev.slotType slot ≠ 2 ∧ (s.dev.slotType slot = 1 → s.dev.flag (LNK.page i) LNK.LNK_STATE.LOS = false ∧ s.dev.flag (LNK.page i) LNK.LNK_STATE.LOL = false
        ∧ s.dev.flag (PRT.page i) PRT.PORT_STAT.LINK_UP = true) ∧ (s.dev.slotType slot = 4 → s.dev.flag EVT.page EVT.EVT_CFG.ENABLE i = true ∧ s.dev.get EVT.page EVT.EVT_CFG.SLOPE i ≠ 2) ∧ (s.dev.slotType slot = 5 → s.dev.flag DBL.page DBL.DBL_STAT.DL0_UP = true ∧ s.dev.flag DBL.page DBL.DBL_STAT.STALE = false))
    ∧ (∃ (s : State) (slot : Fin 16) (i : Nat), i = s.dev.slotIndex slot ∧ (s.dev.slotType slot = 2
        ∨ s.dev.slotType slot = 1 ∧ (s.dev.flag (LNK.page i) LNK.LNK_STATE.LOS = true ∨ s.dev.flag (LNK.page i) LNK.LNK_STATE.LOL = true
          ∨ s.dev.flag (PRT.page i) PRT.PORT_STAT.LINK_UP = false)
        ∨ s.dev.slotType slot = 4 ∧ (s.dev.flag EVT.page EVT.EVT_CFG.ENABLE i = false ∨ s.dev.get EVT.page EVT.EVT_CFG.SLOPE i = 2)
        ∨ s.dev.slotType slot = 5 ∧ (s.dev.flag DBL.page DBL.DBL_STAT.DL0_UP = false ∨ s.dev.flag DBL.page DBL.DBL_STAT.STALE = true)))
    ∧ (∃ (s : State) (slot : Fin 16), s.dev.slotState slot = slotQualifying ∧ (s.dev.slot slot).first = false ∧ s.dev.get REF.page REF.REF_CFG.WTR_S ≠ 0)
    ∧ (∃ (s : State) (slot : Fin 16), s.dev.slotState slot = slotQualifying ∧ ((s.dev.slot slot).first = true ∨ s.dev.get REF.page REF.REF_CFG.WTR_S = 0))
    ∧ (∃ (s : State) (slot : Fin 16), s.dev.slotState slot = slotWtr)
    ∧ (∃ (s : State) (acc : Accessor) (value : BitVec 32), MayWrite s.dev acc REF.page)
    ∧ (∃ (s : State) (slot : Fin 16), s.dev.slotType slot = 2)
    ∧ (∃ (s : State) (acc : Accessor) (value : BitVec 32), MayWrite s.dev acc REF.page)
    ∧ (∃ (s : State) (acc : Accessor) (temp : BitVec 16), MayWrite s.dev acc REF.page)
    ∧ (∃ (s : State), s.dev.flag REF.page REF.HO_CFG.TEMP_SRC = true) :=
  ⟨⟨stW upDev, 0, _, rfl, by and_intros <;> decide +kernel⟩,
   ⟨stW (devW [(REF.page, REF.SLOT_CFG.TYPE, 1, 0), (REF.page, REF.SLOT_CFG.INDEX, 0, 0)]), 0, _, rfl, by decide +kernel⟩,
   ⟨stW (((devW [(REF.page, REF.SLOT_STAT.STATE, slotQualifying, (0 : Fin 16)), (REF.page, REF.REF_CFG.WTR_S, 1, 0)])).setSlot 0 ⟨0, false, 0, 0, false, none⟩), 0, by and_intros <;> decide +kernel⟩,
   ⟨stW (devW [(REF.page, REF.SLOT_STAT.STATE, slotQualifying, (0 : Fin 16)), (REF.page, REF.SLOT_CFG.TYPE, 1, 0), (REF.page, REF.SLOT_CFG.INDEX, 0, 0)]), 0, by and_intros <;> decide +kernel⟩,
   ⟨stW (((devW [(REF.page, REF.SLOT_STAT.STATE, slotWtr, (0 : Fin 16))])).setSlot 0 ⟨0, false, 0, 0, false, none⟩), 0, by decide +kernel⟩,
   ⟨stW upDev, .firmware, 0, by decide +kernel⟩,
   ⟨stW (devW [(REF.page, REF.SLOT_CFG.TYPE, 2, (0 : Fin 16))]), 0, by decide +kernel⟩,
   ⟨stW upDev, .firmware, 0, by decide +kernel⟩,
   ⟨stW upDev, .firmware, 0, by decide +kernel⟩,
   ⟨stW (devW [(REF.page, REF.HO_CFG.TEMP_SRC, 1, 0)]), by decide +kernel⟩⟩

theorem witness_SwitchCommands :
    (∃ (s : State) (acc : Accessor) (slot : Fin 16) (d : Dev), d = s.dev.wrShadow .ref REF.page REF.SWITCH_CMD.MODE.off 0 (s.dev.switchWord [(REF.SWITCH_CMD.MODE, 1), (REF.SWITCH_CMD.SLOT, slot)]) ∧ MayWrite s.dev acc REF.page ∧ d.refRules.find? (·.1) = none)
    ∧ (∃ (s : State) (acc : Accessor) (slot : Fin 16) (d : Dev) (code off : Nat), d = s.dev.wrShadow .ref REF.page REF.SWITCH_CMD.MODE.off 0 (s.dev.switchWord [(REF.SWITCH_CMD.MODE, 1), (REF.SWITCH_CMD.SLOT, slot)]) ∧ MayWrite s.dev acc REF.page ∧ d.refRules.find? (·.1) = some (true, code, off))
    ∧ (∃ (s : State) (acc : Accessor) (slot : Fin 16) (d : Dev), d = s.dev.wrShadow .ref REF.page REF.SWITCH_CMD.MODE.off 0 (s.dev.switchWord [(REF.SWITCH_CMD.MODE, 2), (REF.SWITCH_CMD.SLOT, slot)]) ∧ MayWrite s.dev acc REF.page ∧ d.refRules.find? (·.1) = none)
    ∧ (∃ (s : State) (acc : Accessor) (slot : Fin 16) (d : Dev) (code off : Nat), d = s.dev.wrShadow .ref REF.page REF.SWITCH_CMD.MODE.off 0 (s.dev.switchWord [(REF.SWITCH_CMD.MODE, 2), (REF.SWITCH_CMD.SLOT, slot)]) ∧ MayWrite s.dev acc REF.page ∧ d.refRules.find? (·.1) = some (true, code, off))
    ∧ (∃ (s : State) (acc : Accessor) (slot : Fin 16) (d : Dev), d = s.dev.wrShadow .ref REF.page REF.SWITCH_CMD.MODE.off 0 (s.dev.switchWord [(REF.SWITCH_CMD.CLR_WTR, 1), (REF.SWITCH_CMD.SLOT, slot)]) ∧ MayWrite s.dev acc REF.page ∧ d.refRules.find? (·.1) = none)
    ∧ (∃ (s : State) (acc : Accessor) (slot : Fin 16) (d : Dev) (code off : Nat), d = s.dev.wrShadow .ref REF.page REF.SWITCH_CMD.MODE.off 0 (s.dev.switchWord [(REF.SWITCH_CMD.CLR_WTR, 1), (REF.SWITCH_CMD.SLOT, slot)]) ∧ MayWrite s.dev acc REF.page ∧ d.refRules.find? (·.1) = some (true, code, off))
    ∧ (∃ (s : State) (acc : Accessor) (d : Dev), d = s.dev.wrShadow .ref REF.page REF.SWITCH_CMD.MODE.off 0 (s.dev.switchWord [(REF.SWITCH_CMD.ABS_CLR, 1)]) ∧ MayWrite s.dev acc REF.page ∧ d.refRules.find? (·.1) = none)
    ∧ (∃ (s : State) (acc : Accessor) (d : Dev) (code off : Nat), d = s.dev.wrShadow .ref REF.page REF.SWITCH_CMD.MODE.off 0 (s.dev.switchWord [(REF.SWITCH_CMD.ABS_CLR, 1)]) ∧ MayWrite s.dev acc REF.page ∧ d.refRules.find? (·.1) = some (true, code, off))
    ∧ (∃ (s : State) (delta dl : Int) (new : Nat), dl = (match s.dev.slotPhase new with | some ps => ps * 65536 / 1000 | none => delta) ∧ s.dev.refTarget = some new ∧ s.dev.flag REF.page REF.REF_STAT.SWITCHING = true ∧ isTimeType (s.dev.slotType new) = true)
    ∧ (∃ (s : State) (delta dl : Int) (new : Nat), dl = (match s.dev.slotPhase new with | some ps => ps * 65536 / 1000 | none => delta) ∧ s.dev.refTarget = some new ∧ s.dev.flag REF.page REF.REF_STAT.SWITCHING = true ∧ isTimeType (s.dev.slotType new) = false)
    ∧ (∃ (s : State) (ports : List Nat) (d : Dev), (ports = ((List.range 48).filter (fun p => s.dev.flag (PRT.page p) PRT.PORT_STAT.LINK_UP)).take 16) ∧ (d = refSlots.foldl (fun d i =>
        match ports[i]? with
        | some p =>
          if d.flag REF.page REF.SLOT_CFG.ENABLE i && d.slotType i == 1 && d.slotIndex i == p then d
          else ((d.setSh .ref REF.page REF.SLOT_CFG.ENABLE 1 i).setSh .ref REF.page REF.SLOT_CFG.TYPE 1 i).setSh
            .ref REF.page REF.SLOT_CFG.INDEX p i
        | none => d.setSh .ref REF.page REF.SLOT_CFG.ENABLE 0 i) s.dev) ∧ s.dev.bootRomRuns = true ∧ (s.dev.owner REF.page = 1 ∨ s.dev.owner REF.page = 3)) :=
  ⟨⟨stW (devW [(REF.page, REF.SLOT_STAT.STATE, slotQualified, 15)]), .firmware, 15, _, rfl, by and_intros <;> decide +kernel⟩,
   ⟨stW upDev, .firmware, 0, _, 0x61, REF.SWITCH_CMD.MODE.off, rfl, by and_intros <;> decide +kernel⟩,
   ⟨stW (devW [(REF.page, REF.SLOT_STAT.STATE, slotQualified, 15)]), .firmware, 15, _, rfl, by and_intros <;> decide +kernel⟩,
   ⟨stW upDev, .firmware, 0, _, 0x61, REF.SWITCH_CMD.MODE.off, rfl, by and_intros <;> decide +kernel⟩,
   ⟨stW upDev, .firmware, 0, _, rfl, by and_intros <;> decide +kernel⟩,
   ⟨stW ((upDev).setSh .ref REF.page REF.SLOT_CFG.ENABLE 1 3), .firmware, 0, _, 0x60, REF.SLOT_CFG.TYPE.off, rfl, by and_intros <;> decide +kernel⟩,
   ⟨stW upDev, .firmware, _, rfl, by and_intros <;> decide +kernel⟩,
   ⟨stW ((upDev).setSh .ref REF.page REF.SLOT_CFG.ENABLE 1 3), .firmware, _, 0x60, REF.SLOT_CFG.TYPE.off, rfl, by and_intros <;> decide +kernel⟩,
   ⟨stW ({ (devW [(REF.page, REF.REF_STAT.SWITCHING, 1, 0), (REF.page, REF.SLOT_CFG.TYPE, 2, 0)]) with refTarget := some 0 } : Dev), 0, _, 0, rfl, by and_intros <;> decide +kernel⟩,
   ⟨stW ({ (devW [(REF.page, REF.REF_STAT.SWITCHING, 1, 0)]) with refTarget := some 0 } : Dev), 0, _, 0, rfl, by and_intros <;> decide +kernel⟩,
   ⟨stW (devW [(SVC.page, SVC.FW_STAT.IMAGE, 0, 0), (SVC.page, SVC.FW_STAT.STATE, 2, 0)]), _, _, rfl, rfl, by and_intros <;> decide +kernel⟩⟩

theorem witness_SynthesizersAndOutputs :
    (∃ (s : State) (acc : Accessor) (outs : BitVec 12) (walk : Bool) (d : Dev), (d = (List.range 12).foldl (fun d o =>
        if outs.getLsbD o then [(OUT.OUT_ALIGN.ALIGN, 1), (OUT.OUT_ALIGN.WALK, if walk then 1 else 0)].foldl (fun d x => d.setSh .out OUT.page x.1 x.2 o) d else d) s.dev) ∧ MayWrite s.dev acc OUT.page ∧ d.outRules.find? (·.1) = none)
    ∧ (∃ (s : State) (acc : Accessor) (outs : BitVec 12) (walk : Bool) (d : Dev) (code off : Nat), (d = (List.range 12).foldl (fun d o =>
        if outs.getLsbD o then [(OUT.OUT_ALIGN.ALIGN, 1), (OUT.OUT_ALIGN.WALK, if walk then 1 else 0)].foldl (fun d x => d.setSh .out OUT.page x.1 x.2 o) d else d) s.dev) ∧ MayWrite s.dev acc OUT.page ∧ d.outRules.find? (·.1) = some (true, code, off))
    ∧ (∃ (s : State) (acc : Accessor) (outs : BitVec 12) (d : Dev), (d = (List.range 12).foldl (fun d o =>
        if outs.getLsbD o then [(OUT.OUT_ALIGN.CANCEL, 1)].foldl (fun d x => d.setSh .out OUT.page x.1 x.2 o) d else d) s.dev) ∧ MayWrite s.dev acc OUT.page ∧ d.outRules.find? (·.1) = none)
    ∧ (∃ (s : State) (acc : Accessor) (outs : BitVec 12) (d : Dev) (code off : Nat), (d = (List.range 12).foldl (fun d o =>
        if outs.getLsbD o then [(OUT.OUT_ALIGN.CANCEL, 1)].foldl (fun d x => d.setSh .out OUT.page x.1 x.2 o) d else d) s.dev) ∧ MayWrite s.dev acc OUT.page ∧ d.outRules.find? (·.1) = some (true, code, off))
    ∧ (∃ (s : State) (out : Fin 12) (t : Nat), s.dev.alignAt out = some t ∧ t ≤ s.dev.now)
    ∧ (∃ (s : State) (acc : Accessor) (syn : Fin 4) (plan : Fin 8) (d : Dev), d = s.dev.setSh .syn SYN.page SYN.SYN_CFG.ACTIVE plan syn ∧ MayWrite s.dev acc SYN.page ∧ d.synRules.find? (·.1) = none)
    ∧ (∃ (s : State) (acc : Accessor) (syn : Fin 4) (plan : Fin 8) (d : Dev) (code off : Nat), d = s.dev.setSh .syn SYN.page SYN.SYN_CFG.ACTIVE plan syn ∧ MayWrite s.dev acc SYN.page ∧ d.synRules.find? (·.1) = some (true, code, off))
    ∧ (∃ (s : State) (acc : Accessor) (k : Nat), k = s.dev.get SYN.page SYN.SYN_SEL.SYN acc.idx ∧ MayWrite s.dev acc SYN.page ∧ s.dev.synOn k = true)
    ∧ (∃ (s : State) (acc : Accessor), MayWrite s.dev acc SYN.page ∧ s.dev.synOn (s.dev.get SYN.page SYN.SYN_SEL.SYN acc.idx) = false)
    ∧ (∃ (s : State) (acc : Accessor) (k plan : Nat), k = s.dev.get SYN.page SYN.SYN_SEL.SYN acc.idx ∧ plan = s.dev.get SYN.page SYN.PLAN_SEL.PLAN acc.idx ∧ MayWrite s.dev acc SYN.page)
    ∧ (∃ (s : State) (syn : Fin 4) (band : BitVec 6) (tune : BitVec 16) (plan : Nat) (searched : Bool) (d e : Dev), plan = s.dev.synActive syn ∧ searched = s.dev.flag SYN.page SYN.SYN_STAT.SEARCHING syn ∧ (d = (if searched then
          ((s.dev.set SYN.page SYN.PLAN_N.BAND_VALID 1 (planSel syn plan)).set SYN.page SYN.PLAN_N.BAND band.toNat (planSel syn plan)).set
            SYN.page SYN.SYN_STAT.BAND_VALID (putBit (((s.dev.set SYN.page SYN.PLAN_N.BAND_VALID 1 (planSel syn plan)).set
              SYN.page SYN.PLAN_N.BAND band.toNat (planSel syn plan)).get SYN.page SYN.SYN_STAT.BAND_VALID syn) plan true) syn
        else s.dev)) ∧ e = (((((((d.set SYN.page SYN.SYN_STAT.BAND_NOW (d.get SYN.page SYN.PLAN_N.BAND (planSel syn plan)) syn).set
        SYN.page SYN.SYN_STAT.ACTIVE_NOW plan syn).set SYN.page SYN.SYN_STAT.LOCK 1 syn).set
        SYN.page SYN.SYN_STAT.HOPPING 0 syn).set SYN.page SYN.SYN_STAT.SEARCHING 0 syn).set
        SYN.page SYN.SYN_STAT.TUNE_LIMIT 0 syn).showTune syn tune) ∧ s.dev.flag SYN.page SYN.SYN_STAT.HOPPING syn = true)
    ∧ (∃ (s : State) (syn : Fin 4) (tune : BitVec 16) (d : Dev), d = ((s.dev.showTune syn tune).set SYN.page SYN.SYN_STAT.TUNE_LIMIT 1 syn).set SYN.page SYN.SYN_STAT.LOCK 0 syn ∧ s.dev.synOn syn = true ∧ s.dev.flag SYN.page SYN.SYN_STAT.HOPPING syn = false ∧ (tune = 0x7FFF ∨ tune = 0x8000) ∧ s.dev.flag SYN.page SYN.SYN_STAT.TUNE_LIMIT syn = false)
    ∧ (∃ (s : State) (syn : Fin 4) (tune : BitVec 16), s.dev.synOn syn = true ∧ s.dev.flag SYN.page SYN.SYN_STAT.HOPPING syn = false ∧ tune ≠ 0x7FFF ∧ tune ≠ 0x8000 ∧ s.dev.flag SYN.page SYN.SYN_STAT.TUNE_LIMIT syn = true)
    ∧ (∃ (s : State) (syn : Fin 4) (tune : BitVec 16), s.dev.synOn syn = true ∧ s.dev.flag SYN.page SYN.SYN_STAT.HOPPING syn = false ∧ ((tune = 0x7FFF ∨ tune = 0x8000) ↔ s.dev.flag SYN.page SYN.SYN_STAT.TUNE_LIMIT syn = true))
    ∧ (∃ (s : State) (locked : Bool), s.dev.flag SYN.page SYN.LSY_STAT.LOCK = locked)
    ∧ (∃ (s : State), s.dev.flag SYN.page SYN.LSY_STAT.LOCK = false)
    ∧ (∃ (s : State) (d : Dev), d = (s.dev.set SYN.page SYN.LSY_STAT.LOCK 0).raise SYN.page SYN.INT_RAW.LSY_UNLOCK ∧ s.dev.flag SYN.page SYN.LSY_STAT.LOCK = true) :=
  ⟨⟨stW upDev, .firmware, 0, false, _, rfl, by and_intros <;> decide +kernel⟩,
   ⟨stW ((upDev).setSh .out OUT.page OUT.OUT_CFG.SRC 6 0), .firmware, 1, false, _, 0x73, OUT.OUT_CFG.SRC.off, rfl, by and_intros <;> decide +kernel⟩,
   ⟨stW upDev, .firmware, 0, _, rfl, by and_intros <;> decide +kernel⟩,
   ⟨stW ((upDev).setSh .out OUT.page OUT.OUT_CFG.SRC 6 0), .firmware, 1, _, 0x73, OUT.OUT_CFG.SRC.off, rfl, by and_intros <;> decide +kernel⟩,
   ⟨stW ({ upDev with outFrom := [(0, some 0)] } : Dev), 0, 0, by and_intros <;> decide +kernel⟩,
   ⟨stW upDev, .firmware, 0, 0, _, rfl, by and_intros <;> decide +kernel⟩,
   ⟨stW upDev, .firmware, 0, 1, _, 0x68, SYN.PLAN_N.N_INT.off, rfl, by and_intros <;> decide +kernel⟩,
   ⟨stW upDev, .firmware, _, rfl, by and_intros <;> decide +kernel⟩,
   ⟨stW (devW [(SYN.page, SYN.SYN_CFG.ENABLE, 0, 0)]), .firmware, by and_intros <;> decide +kernel⟩,
   ⟨stW upDev, .firmware, _, _, rfl, rfl, by decide +kernel⟩,
   ⟨stW (devW [(SYN.page, SYN.SYN_STAT.HOPPING, 1, (0 : Fin 4))]), 0, 0, 0, _, _, _, _, rfl, rfl, rfl, rfl, by decide +kernel⟩,
   ⟨stW (devW [(SYN.page, SYN.SYN_STAT.HOPPING, 0, (0 : Fin 4)), (SYN.page, SYN.SYN_STAT.TUNE_LIMIT, 0, (0 : Fin 4))]), 0, 0x7FFF, _, rfl, by and_intros <;> decide +kernel⟩,
   ⟨stW (devW [(SYN.page, SYN.SYN_STAT.HOPPING, 0, (0 : Fin 4)), (SYN.page, SYN.SYN_STAT.TUNE_LIMIT, 1, (0 : Fin 4))]), 0, 0, by and_intros <;> decide +kernel⟩,
   ⟨stW (devW [(SYN.page, SYN.SYN_STAT.HOPPING, 0, (0 : Fin 4))]), 0, 0, by and_intros <;> decide +kernel⟩,
   ⟨stW upDev, false, by decide +kernel⟩,
   ⟨stW (devW [(SYN.page, SYN.LSY_STAT.LOCK, 0, 0)]), by decide +kernel⟩,
   ⟨stW (devW [(SYN.page, SYN.LSY_STAT.LOCK, 1, 0)]), _, rfl, by decide +kernel⟩⟩

theorem witness_EventEdges :
    (∃ (s : State) (evt : Fin 8) (rising : Bool) (sub temp : BitVec 16), (s.dev.pageUp EVT.page = false ∨ s.dev.flag EVT.page EVT.EVT_CFG.ENABLE evt = false ∨ (s.dev.evtIn evt).blanked s.dev.now = true
      ∨ s.dev.get EVT.page EVT.EVT_CFG.SLOPE evt = (if rising then 1 else 0)))
    ∧ (∃ (s : State) (evt : Fin 8) (rising : Bool) (sub temp : BitVec 16) (d : Dev), d = s.dev.setEvtIn evt { s.dev.evtIn evt with count := (s.dev.evtIn evt).count + 1 } ∧ s.dev.pageUp EVT.page = true ∧ s.dev.flag EVT.page EVT.EVT_CFG.ENABLE evt = true ∧ (s.dev.evtIn evt).blanked s.dev.now = false ∧ (s.dev.get EVT.page EVT.EVT_CFG.SLOPE evt = 2 ∨ s.dev.get EVT.page EVT.EVT_CFG.SLOPE evt = (if rising then 0 else 1)) ∧ (s.dev.evtIn evt).count.succ % d.get EVT.page EVT.EVT_PRESCALE.N evt ≠ 0)
    ∧ (∃ (s : State) (evt : Fin 8) (rising : Bool) (sub temp : BitVec 16) (d : Dev) (at_ t : Nat), d = s.dev.setEvtIn evt { s.dev.evtIn evt with count := (s.dev.evtIn evt).count + 1 } ∧ at_ = d.now + sub.toNat * d.rate / 65536 ∧ s.dev.pageUp EVT.page = true ∧ s.dev.flag EVT.page EVT.EVT_CFG.ENABLE evt = true ∧ (s.dev.evtIn evt).blanked s.dev.now = false ∧ (s.dev.get EVT.page EVT.EVT_CFG.SLOPE evt = 2 ∨ s.dev.get EVT.page EVT.EVT_CFG.SLOPE evt = (if rising then 0 else 1)) ∧ (s.dev.evtIn evt).count.succ % d.get EVT.page EVT.EVT_PRESCALE.N evt = 0 ∧ (s.dev.evtIn evt).lastStamped = some t ∧ at_ ≤ t + 40 * nsU)
    ∧ (∃ (s : State) (evt : Fin 8) (rising : Bool) (sub temp : BitVec 16) (d e : Dev) (at_ t : Nat), d = s.dev.setEvtIn evt { s.dev.evtIn evt with count := (s.dev.evtIn evt).count + 1 } ∧ at_ = d.now + sub.toNat * d.rate / 65536 ∧ t = d.evtStamp evt sub.toNat temp.toInt ∧ e = d.setEvtIn evt { d.evtIn evt with lastStamped := some at_, lastStamp := some t } ∧ (∀ u, (s.dev.evtIn evt).lastStamped = some u → u + 40 * nsU < at_) ∧ s.dev.pageUp EVT.page = true ∧ s.dev.flag EVT.page EVT.EVT_CFG.ENABLE evt = true ∧ (s.dev.evtIn evt).blanked s.dev.now = false ∧ (s.dev.get EVT.page EVT.EVT_CFG.SLOPE evt = 2 ∨ s.dev.get EVT.page EVT.EVT_CFG.SLOPE evt = (if rising then 0 else 1)) ∧ (s.dev.evtIn evt).count.succ % d.get EVT.page EVT.EVT_PRESCALE.N evt = 0)
    ∧ (∃ (s : State) (acc : Accessor) (e : Nat), e = s.dev.evtSel acc ∧ MayWrite s.dev acc EVT.page)
    ∧ (∃ (s : State) (acc : Accessor) (e : Nat), e = s.dev.evtSel acc ∧ MayWrite s.dev acc EVT.page)
    ∧ (∃ (s : State) (evt : Fin 8), (s.dev.evtIn evt).blanked s.dev.now = false)
    ∧ (∃ (s : State) (evt : Fin 8), (s.dev.evtIn evt).blanked s.dev.now = true) :=
  ⟨⟨stW upDev, 0, false, 0, 0, by decide +kernel⟩,
   ⟨stW (devW [(EVT.page, EVT.EVT_CFG.ENABLE, 1, (0 : Fin 8)), (EVT.page, EVT.EVT_PRESCALE.N, 2, 0)]), 0, true, 0, 0, _, rfl, by and_intros <;> decide +kernel⟩,
   ⟨stW (((devW [(EVT.page, EVT.EVT_CFG.ENABLE, 1, (0 : Fin 8))])).setEvtIn 0 ⟨0, some 1, none, none, [], false, none⟩), 0, true, 0, 0, _, _, 1, rfl, rfl, by and_intros <;> decide +kernel⟩,
   ⟨stW (devW [(EVT.page, EVT.EVT_CFG.ENABLE, 1, (0 : Fin 8))]), 0, true, 0, 0, _, _, _, _, rfl, rfl, rfl, rfl, (by intro u h; have g := ((by decide +kernel : _ = (none : Option Nat)).symm.trans h); cases g), by and_intros <;> decide +kernel⟩,
   ⟨stW upDev, .firmware, _, rfl, by decide +kernel⟩,
   ⟨stW upDev, .firmware, _, rfl, by decide +kernel⟩,
   ⟨stW upDev, 0, by decide +kernel⟩,
   ⟨stW ({ (upDev).setEvtIn 0 ⟨0, none, none, some 1, [], false, none⟩ with now := 0 } : Dev), 0, by decide +kernel⟩⟩

theorem witness_Measurements :
    (∃ (s : State) (acc : Accessor) (evt : Fin 8) (gateMs : BitVec 20) (sec : BitVec 32) (ns : BitVec 30) (d : Dev), (d = [(EVT.MEAS_CFG.START, 1), (EVT.MEAS_CFG.TIMED, 1), (EVT.MEAS_CFG.GATE_MS, gateMs.toNat),
        (EVT.MEAS_START_SEC.SEC, sec.toNat), (EVT.MEAS_START_NS.NS, ns.toNat)].foldl (fun d x => d.setSh .evt EVT.page x.1 x.2 evt) s.dev) ∧ MayWrite s.dev acc EVT.page ∧ d.evtRules.find? (·.1) = none)
    ∧ (∃ (s : State) (acc : Accessor) (evt : Fin 8) (gateMs : BitVec 20) (sec : BitVec 32) (ns : BitVec 30) (d : Dev) (code off : Nat), (d = [(EVT.MEAS_CFG.START, 1), (EVT.MEAS_CFG.TIMED, 1), (EVT.MEAS_CFG.GATE_MS, gateMs.toNat),
        (EVT.MEAS_START_SEC.SEC, sec.toNat), (EVT.MEAS_START_NS.NS, ns.toNat)].foldl (fun d x => d.setSh .evt EVT.page x.1 x.2 evt) s.dev) ∧ MayWrite s.dev acc EVT.page ∧ d.evtRules.find? (·.1) = some (true, code, off))
    ∧ (∃ (s : State) (acc : Accessor) (evt : Fin 8) (gateMs : BitVec 20) (sec : BitVec 32) (ns : BitVec 30) (d : Dev), (d = [(EVT.MEAS_CFG.START, 1), (EVT.MEAS_CFG.TIMED, 0), (EVT.MEAS_CFG.GATE_MS, gateMs.toNat)].foldl (fun d x => d.setSh .evt EVT.page x.1 x.2 evt) s.dev) ∧ MayWrite s.dev acc EVT.page ∧ d.evtRules.find? (·.1) = none)
    ∧ (∃ (s : State) (acc : Accessor) (evt : Fin 8) (gateMs : BitVec 20) (sec : BitVec 32) (ns : BitVec 30) (d : Dev) (code off : Nat), (d = [(EVT.MEAS_CFG.START, 1), (EVT.MEAS_CFG.TIMED, 0), (EVT.MEAS_CFG.GATE_MS, gateMs.toNat)].foldl (fun d x => d.setSh .evt EVT.page x.1 x.2 evt) s.dev) ∧ MayWrite s.dev acc EVT.page ∧ d.evtRules.find? (·.1) = some (true, code, off))
    ∧ (∃ (s : State) (acc : Accessor) (evt : Fin 8) (d : Dev), d = s.dev.setSh .evt EVT.page EVT.MEAS_CFG.ABORT 1 evt ∧ MayWrite s.dev acc EVT.page ∧ d.evtRules.find? (·.1) = none)
    ∧ (∃ (s : State) (acc : Accessor) (evt : Fin 8) (d : Dev) (code off : Nat), d = s.dev.setSh .evt EVT.page EVT.MEAS_CFG.ABORT 1 evt ∧ MayWrite s.dev acc EVT.page ∧ d.evtRules.find? (·.1) = some (true, code, off))
    ∧ (∃ (s : State) (evt : Fin 8) (m : Meas), (s.dev.evtIn evt).meas = some m ∧ m.opened = false ∧ m.openAt ≤ s.dev.now)
    ∧ (∃ (s : State) (evt : Fin 8) (m : Meas), (s.dev.evtIn evt).meas = some m ∧ m.opened = true ∧ m.closed = false ∧ m.openAt + m.gate ≤ s.dev.now)
    ∧ (∃ (s : State) (evt : Fin 8) (m : Meas), (s.dev.evtIn evt).meas = some m ∧ m.closed = true ∧ m.n < 3)
    ∧ (∃ (s : State) (evt : Fin 8) (m : Meas) (freq rms unc : Nat) (d : Dev), d = s.dev.set EVT.page EVT.MEAS_N.N m.n evt ∧ (s.dev.evtIn evt).meas = some m ∧ m.closed = true ∧ 3 ≤ m.n ∧ m.fit = some (freq, rms, unc))
    ∧ (∃ (s : State) (evt : Fin 8) (m : Meas) (d : Dev), d = s.dev.set EVT.page EVT.MEAS_N.N m.n evt ∧ (s.dev.evtIn evt).meas = some m ∧ m.closed = true ∧ 3 ≤ m.n ∧ m.fit = none)
    ∧ (∃ (s : State) (evt : Fin 8) (ok : Bool), s.dev.pageUp EVT.page = true)
    ∧ (∃ (s : State) (acc : Accessor) (ok : Bool), MayWrite s.dev acc EVT.page) :=
  ⟨⟨stW upDev, .firmware, 0, 1, 0, 0, _, rfl, by and_intros <;> decide +kernel⟩,
   ⟨stW upDev, .firmware, 0, 1000001, 0, 0, _, 0x78, EVT.MEAS_CFG.GATE_MS.off, rfl, by and_intros <;> decide +kernel⟩,
   ⟨stW upDev, .firmware, 0, 1000000, 0, 0, _, rfl, by and_intros <;> decide +kernel⟩,
   ⟨stW upDev, .firmware, 0, 0, 0, 0, _, 0x78, EVT.MEAS_CFG.GATE_MS.off, rfl, by and_intros <;> decide +kernel⟩,
   ⟨stW upDev, .firmware, 0, _, rfl, by and_intros <;> decide +kernel⟩,
   ⟨stW ((upDev).setSh .evt EVT.page EVT.EVT_CFG.THRESH 851 7), .firmware, 0, _, 0x78, EVT.EVT_CFG.THRESH.off, rfl, by and_intros <;> decide +kernel⟩,
   ⟨stW ((upDev).setEvtIn 0 ⟨0, none, none, none, [], false, some ⟨0, false, false, 0, 0, 0, 0, 0, 0, 0, 0, 0⟩⟩), 0, ⟨0, false, false, 0, 0, 0, 0, 0, 0, 0, 0, 0⟩, by and_intros <;> decide +kernel⟩,
   ⟨stW ((upDev).setEvtIn 0 ⟨0, none, none, none, [], false, some ⟨0, true, false, 0, 0, 0, 0, 0, 0, 0, 0, 0⟩⟩), 0, ⟨0, true, false, 0, 0, 0, 0, 0, 0, 0, 0, 0⟩, by and_intros <;> decide +kernel⟩,
   ⟨stW ((upDev).setEvtIn 0 ⟨0, none, none, none, [], false, some ⟨0, true, true, 0, 0, 0, 2, 0, 0, 0, 0, 0⟩⟩), 0, ⟨0, true, true, 0, 0, 0, 2, 0, 0, 0, 0, 0⟩, by and_intros <;> decide +kernel⟩,
   ⟨stW ((upDev).setEvtIn 0 ⟨0, none, none, none, [], false, some ⟨0, true, true, 0, 0, 0, 3, 3, 5, 196608000, 327680000, 21474836480000000⟩⟩), 0, ⟨0, true, true, 0, 0, 0, 3, 3, 5, 196608000, 327680000, 21474836480000000⟩, 4294967296000000, 0, 0, _, rfl, by and_intros <;> decide +kernel⟩,
   ⟨stW ((upDev).setEvtIn 0 ⟨0, none, none, none, [], false, some ⟨0, true, true, 0, 0, 0, 3, 0, 0, 0, 0, 0⟩⟩), 0, ⟨0, true, true, 0, 0, 0, 3, 0, 0, 0, 0, 0⟩, _, rfl, by and_intros <;> decide +kernel⟩,
   ⟨stW upDev, 0, false, by decide +kernel⟩,
   ⟨stW upDev, .firmware, false, by decide +kernel⟩⟩

theorem witness_FramesReceived :
    (∃ (s : State) (port : Fin 49) (pre : Bool) (bytes : List (BitVec 8)) (edge : RxEdge) (errs : WordErrors) (k : Nat) (d : Dev), k = rxKey port pre ∧ (d = (if (parseFrame (s.dev.profileOf port) bytes false).ptp ≠ 0 ∧ (parseFrame (s.dev.profileOf port) bytes false).ptpType ≤ 3
          then s.dev.eventBegins port (s.dev.edgeTick edge) else s.dev)) ∧ port ≠ 48 ∧ s.dev.macOn port = true ∧ s.dev.released unitFelt = true ∧ s.dev.loopMode port = 0)
    ∧ (∃ (s : State) (port : Fin 49) (pre : Bool) (bytes : List (BitVec 8)) (e : RxEnd) (edge : RxEdge) (errs : WordErrors) (k : Nat) (d : Dev), k = rxKey port pre ∧ (d = (if (parseFrame (s.dev.profileOf port) bytes true).ptp ≠ 0 ∧ (parseFrame (s.dev.profileOf port) bytes true).ptpType ≤ 3
          then s.dev.eventBegins port (s.dev.edgeTick edge) else s.dev)) ∧ port ≠ 48 ∧ s.dev.macOn port = true ∧ s.dev.released unitFelt = true ∧ s.dev.loopMode port = 0)
    ∧ (∃ (s : State) (port : Fin 49) (pre : Bool) (bytes : List (BitVec 8)) (edge : RxEdge) (errs : WordErrors) (k : Nat) (d : Dev), k = rxKey port pre ∧ (d = (if (parseFrame (s.dev.profileOf port) bytes false).ptp ≠ 0 ∧ (parseFrame (s.dev.profileOf port) bytes false).ptpType ≤ 3
          then s.dev.eventBegins port (s.dev.edgeTick edge) else s.dev)) ∧ port ≠ 48 ∧ s.dev.macOn port = true ∧ s.dev.released unitFelt = true ∧ s.dev.loopMode port = 5)
    ∧ (∃ (s : State) (port : Fin 49) (pre : Bool) (bytes : List (BitVec 8)) (whole : Option RxEnd) (edge : RxEdge) (errs : WordErrors), port ≠ 48 ∧ s.dev.macOn port = true ∧ s.dev.released unitFelt = true ∧ s.dev.loopMode port ≠ 0 ∧ s.dev.loopMode port < 5)
    ∧ (∃ (s : State) (port : Fin 49) (pre : Bool) (bytes : List (BitVec 8)) (whole : Option RxEnd) (edge : RxEdge) (errs : WordErrors), port ≠ 48 ∧ s.dev.macOn port = true ∧ s.dev.released unitFelt = true ∧ 6 ≤ s.dev.loopMode port)
    ∧ (∃ (s : State) (pre : Bool) (bytes : List (BitVec 8)) (edge : RxEdge) (errs : WordErrors), s.dev.macOn 50 = true ∧ s.dev.get (LNK.page 50) LNK.LOOP_CFG.MODE = 0)
    ∧ (∃ (s : State) (pre : Bool) (bytes : List (BitVec 8)) (e : RxEnd) (edge : RxEdge) (errs : WordErrors), s.dev.macOn 50 = true ∧ s.dev.get (LNK.page 50) LNK.LOOP_CFG.MODE = 0)
    ∧ (∃ (s : State) (port : Fin 49) (pre : Bool) (more : List (BitVec 8)) (ending : RxEnd) (errs : WordErrors) (k : Nat) (d : Dev) (r : Rx), k = rxKey port pre ∧ d = s.dev.arrive k more ∧ port ≠ 48 ∧ s.dev.macOn port = true ∧ s.dev.loopMode port < 6 ∧ d.rx k = some r ∧ d.macOn port = true)
    ∧ (∃ (s : State) (port : Fin 49) (pre : Bool) (more : List (BitVec 8)) (ending : RxEnd) (errs : WordErrors) (k : Nat) (d : Dev) (r : Rx), k = rxKey port pre ∧ d = s.dev.arrive k more ∧ port ≠ 48 ∧ s.dev.macOn port = false ∧ d.rx k = some r ∧ d.macOn port = false)
    ∧ (∃ (s : State) (pre : Bool) (more : List (BitVec 8)) (ending : RxEnd) (errs : WordErrors) (d : Dev) (r : Rx), d = s.dev.setRx (rxKey 50 false) none ∧ s.dev.rx (rxKey 50 false) = some r ∧ d.macOn 50 = true)
    ∧ (∃ (s : State) (input : Fin 50) (pre : Bool) (more : List (BitVec 8)) (k : Nat) (d : Dev), k = rxKey input pre ∧ d = s.dev.arrive k more ∧ (d.tooLong k).1 = true)
    ∧ (∃ (s : State) (input : Fin 50) (pre : Bool) (more : List (BitVec 8)) (k : Nat) (d : Dev), k = rxKey input pre ∧ d = s.dev.arrive k more ∧ (d.tooLong k).2 = true) :=
  ⟨⟨stW (devW [((LNK.page 0), LNK.LNK_STATE.STATE, laneUp, 0), ((LNK.page 0), LNK.LOOP_CFG.MODE, 0, 0)]), 0, false, [], ⟨0, 0, 0⟩, noErrors, _, _, rfl, rfl, by and_intros <;> decide +kernel⟩,
   ⟨stW (devW [((LNK.page 0), LNK.LNK_STATE.STATE, laneUp, 0), ((LNK.page 0), LNK.LOOP_CFG.MODE, 0, 0)]), 0, false, [], ⟨.good, 0⟩, ⟨0, 0, 0⟩, noErrors, _, _, rfl, rfl, by and_intros <;> decide +kernel⟩,
   ⟨stW (devW [((LNK.page 0), LNK.LNK_STATE.STATE, laneUp, 0), ((LNK.page 0), LNK.LOOP_CFG.MODE, 5, 0)]), 0, false, [], ⟨0, 0, 0⟩, noErrors, _, _, rfl, rfl, by and_intros <;> decide +kernel⟩,
   ⟨stW (devW [((LNK.page 0), LNK.LNK_STATE.STATE, laneUp, 0), ((LNK.page 0), LNK.LOOP_CFG.MODE, 4, 0)]), 0, false, [], none, ⟨0, 0, 0⟩, noErrors, by and_intros <;> decide +kernel⟩,
   ⟨stW (devW [((LNK.page 0), LNK.LNK_STATE.STATE, laneUp, 0), ((LNK.page 0), LNK.LOOP_CFG.MODE, 6, 0)]), 0, false, [], none, ⟨0, 0, 0⟩, noErrors, by and_intros <;> decide +kernel⟩,
   ⟨stW (devW [((LNK.page 50), LNK.LOOP_CFG.MODE, 0, 0), ((LNK.page 50), LNK.LNK_STATE.STATE, laneUp, 0)]), false, [], ⟨0, 0, 0⟩, noErrors, by and_intros <;> decide +kernel⟩,
   ⟨stW (devW [((LNK.page 50), LNK.LOOP_CFG.MODE, 0, 0), ((LNK.page 50), LNK.LNK_STATE.STATE, laneUp, 0)]), false, [], ⟨.good, 0⟩, ⟨0, 0, 0⟩, noErrors, by and_intros <;> decide +kernel⟩,
   ⟨stW (((devW [((LNK.page 0), LNK.LNK_STATE.STATE, laneUp, 0)])).setRx 0 (some ⟨none, 0, none, none, none, none, 0, none, 0⟩)), 0, false, [], ⟨.good, 0⟩, noErrors, _, _, ⟨none, 0, none, none, none, none, 0, none, 0⟩, rfl, rfl, by and_intros <;> decide +kernel⟩,
   ⟨stW ((upDev).setRx 0 (some ⟨none, 0, none, none, none, none, 0, none, 0⟩)), 0, false, [], ⟨.good, 0⟩, noErrors, _, _, ⟨none, 0, none, none, none, none, 0, none, 0⟩, rfl, rfl, by and_intros <;> decide +kernel⟩,
   ⟨stW (((devW [((LNK.page 50), LNK.LNK_STATE.STATE, laneUp, 0)])).setRx (rxKey 50 false) (some ⟨none, 0, none, none, none, none, 0, none, 0⟩)), false, [], ⟨.good, 0⟩, noErrors, _, ⟨none, 0, none, none, none, none, 0, none, 0⟩, rfl, by and_intros <;> decide +kernel⟩,
   ⟨stW (((upDev).setRx 0 (some ⟨some 0, 0, none, none, none, none, 59, none, 0⟩)).setFrame 0 (some wFrame)), 0, false, [], _, _, rfl, rfl, by decide +kernel⟩,
   ⟨stW (((upDev).setRx 0 (some ⟨some 0, 0, none, none, none, none, 0, none, 0⟩)).setFrame 0 (some { wFrame with len := 64 * 200, buf := some ⟨3, 0, 0, 0⟩ })), 0, false, [], _, _, rfl, rfl, by decide +kernel⟩⟩

theorem witness_LearningAndAgeing :
    (∃ (s : State), s.dev.learnQ = [])
    ∧ (∃ (s : State) (q : LearnReq) (rest : List LearnReq) (d e : Dev) (i : Nat) (w : Data), s.dev.learnQ = q :: rest ∧
    d = ({ s.dev with learnQ := rest } : Dev).drawFdbKey ∧ e = d.reads .fdb (d.fdbWays q.fid q.mac) ∧ e.fdbFind q.fid q.mac = some i ∧
    e.reserved .fdb i = false ∧ w = e.lookupWord .fdb i ∧ bitOf w 60 = false ∧ bitsOf w 59 48 = q.ep)
    ∧ (∃ (s : State) (q : LearnReq) (rest : List LearnReq) (d e : Dev) (i : Nat) (w : Data), s.dev.learnQ = q :: rest ∧
    d = ({ s.dev with learnQ := rest } : Dev).drawFdbKey ∧ e = d.reads .fdb (d.fdbWays q.fid q.mac) ∧ e.fdbFind q.fid q.mac = some i ∧
    e.reserved .fdb i = false ∧ w = e.lookupWord .fdb i ∧ (bitOf w 60 = true ∨ bitsOf w 59 48 ≠ q.ep) ∧ bitOf w 62 = true)
    ∧ (∃ (s : State) (q : LearnReq) (rest : List LearnReq) (d e : Dev) (i : Nat) (w : Data), s.dev.learnQ = q :: rest ∧
    d = ({ s.dev with learnQ := rest } : Dev).drawFdbKey ∧ e = d.reads .fdb (d.fdbWays q.fid q.mac) ∧ e.fdbFind q.fid q.mac = some i ∧
    e.reserved .fdb i = false ∧ w = e.lookupWord .fdb i ∧ (bitOf w 60 = true ∨ bitsOf w 59 48 ≠ q.ep) ∧ bitOf w 62 = false)
    ∧ (∃ (s : State) (q : LearnReq) (rest : List LearnReq) (d e : Dev) (i : Nat), s.dev.learnQ = q :: rest ∧
    d = ({ s.dev with learnQ := rest } : Dev).drawFdbKey ∧ e = d.reads .fdb (d.fdbWays q.fid q.mac) ∧ e.fdbFind q.fid q.mac = some i ∧
    e.reserved .fdb i = true)
    ∧ (∃ (s : State) (q : LearnReq) (rest : List LearnReq) (d e : Dev) (i : Nat), s.dev.learnQ = q :: rest ∧
    d = ({ s.dev with learnQ := rest } : Dev).drawFdbKey ∧ e = d.reads .fdb (d.fdbWays q.fid q.mac) ∧ e.fdbFind q.fid q.mac = none ∧
    e.fdbWay (d.fdbMix q.fid q.mac).1 = some i)
    ∧ (∃ (s : State) (q : LearnReq) (rest : List LearnReq) (d e : Dev), s.dev.learnQ = q :: rest ∧
    d = ({ s.dev with learnQ := rest } : Dev).drawFdbKey ∧ e = d.reads .fdb (d.fdbWays q.fid q.mac) ∧ e.fdbFind q.fid q.mac = none ∧
    e.fdbWay (d.fdbMix q.fid q.mac).1 = none)
    ∧ (∃ (s : State) (d : Dev), d = { s.dev.reads .fdb (s.dev.listed .fdb) with sweptAt := s.dev.now } ∧ s.dev.get LKP.page LKP.LKP_CFG.AGE_TIME ≠ 0 ∧ s.dev.sweptAt + s.dev.get LKP.page LKP.LKP_CFG.AGE_TIME * secU / 2 ≤ s.dev.now)
    ∧ (∃ (s : State) (page : Nat) (d e : Dev), page = s.dev.commitPage ∧ (d = (({ s.dev with
          shadow := s.dev.waitShadow ++ s.dev.shadow.filter (fun e => rkeyPage e.1 != page)
          waitShadow := [] } : Dev).applyShadows page).writeImage page) ∧ (e = (((s.dev.shadow.filter (fun e => rkeyPage e.1 == page)).foldl (fun d e => match pageOf page with
          | some (t, _) => d.wrShadow t page (rkeyOff e.1) (rkeySel e.1) e.2
          | none => d) d).set LKP.page LKP.EPOCH_STAT.PENDING 0).set page COM.STAT.BUSY 0) ∧ s.dev.pendingCommit = true ∧ s.dev.epochBlocked = false ∧ s.dev.commitDevice = false)
    ∧ (∃ (s : State), s.dev.pendingCommit = true ∧ s.dev.epochBlocked = false ∧ s.dev.commitDevice = true)
    ∧ (∃ (s : State) (epoch : Fin 16) (d e : Dev), (d = s.dev.frames.foldl (fun d x => match x.2 with
          | some f => if f.epoch = epoch then d.setFrame x.1 (some { f with aged := true }) else d
          | none => d) s.dev) ∧ e = (d.drainEpoch epoch).set LKP.page LKP.EPOCH_AGED.AGED_FRAMES d.agedFrames ∧ (tget (fun _ => 0) s.dev.epochSince epoch + max 1 (s.dev.get BUF.page BUF.HOLD_CFG.HOLD_MS) * 1000000 * nsU ≤ s.dev.now) ∧ (epoch : Nat) ≠ s.dev.get LKP.page LKP.EPOCH_STAT.CUR ∧ (s.dev.get LKP.page LKP.EPOCH_STAT.OUTSTANDING).testBit epoch = true)
    ∧ (∃ (s : State), s.dev.flag BUF.page BUF.HASH_STAT.PENDING = true ∧ s.dev.rerollAt + 1000000 * nsU ≤ s.dev.now ∧ s.dev.pendingCommit = false ∧ s.dev.epochBlocked = false)
    ∧ (∃ (s : State), s.dev.flag BUF.page BUF.HASH_STAT.PENDING = true ∧ s.dev.rerollAt + 1000000 * nsU ≤ s.dev.now ∧ s.dev.pendingCommit = false ∧ s.dev.epochBlocked = true) :=
  ⟨⟨stW upDev, by decide +kernel⟩,
   learn_refresh_state,
   learn_static_state,
   learn_move_state,
   learn_reserved_state,
   learn_free_way_state,
   learn_refused_state,
   ⟨stW ({ (devW [(LKP.page, LKP.LKP_CFG.AGE_TIME, 1, 0)]) with now := secU } : Dev), _, rfl, by and_intros <;> decide +kernel⟩,
   ⟨stW ({ (devW [(LKP.page, LKP.EPOCH_STAT.PENDING, 1, 0)]) with commitPage := 17 } : Dev), _, _, _, rfl, rfl, rfl, by and_intros <;> decide +kernel⟩,
   ⟨stW ({ (devW [(LKP.page, LKP.EPOCH_STAT.PENDING, 1, 0)]) with commitDevice := true } : Dev), by and_intros <;> decide +kernel⟩,
   ⟨stW ({ (devW [(LKP.page, LKP.EPOCH_STAT.OUTSTANDING, 2, 0)]) with now := 1000000000 * secU } : Dev), 1, _, _, rfl, rfl, by and_intros <;> decide +kernel⟩,
   ⟨stW ({ (devW [(BUF.page, BUF.HASH_STAT.PENDING, 1, 0)]) with now := secU } : Dev), by and_intros <;> decide +kernel⟩,
   ⟨stW ({ (devW [(BUF.page, BUF.HASH_STAT.PENDING, 1, 0), (LKP.page, LKP.EPOCH_STAT.OUTSTANDING, 2, 0)]) with now := secU } : Dev), by and_intros <;> decide +kernel⟩⟩

theorem witness_TableWindows :
    (∃ (s : State) (acc : Accessor) (t : TableId), Reach s.dev LKP.page ∧ lkpTable (winTable s.dev lkpWin acc) = some t ∧ winIndex s.dev lkpWin acc < tableSize t ∧ winWord s.dev lkpWin acc < tableWords t)
    ∧ (∃ (s : State) (acc : Accessor), (∀ t, lkpTable (winTable s.dev lkpWin acc) = some t → tableSize t ≤ winIndex s.dev lkpWin acc ∨ tableWords t ≤ winWord s.dev lkpWin acc) ∧ Reach s.dev LKP.page)
    ∧ (∃ (s : State) (acc : Accessor) (t : TableId), MayWrite s.dev acc LKP.page ∧ lkpTable (winTable s.dev lkpWin acc) = some t)
    ∧ (∃ (s : State) (acc : Accessor), MayWrite s.dev acc LKP.page ∧ lkpTable (winTable s.dev lkpWin acc) = none)
    ∧ (∃ (s : State) (acc : Accessor) (t : TableId), MayWrite s.dev acc LKP.page ∧ lkpTable (winTable s.dev lkpWin acc) = some t)
    ∧ (∃ (s : State) (acc : Accessor), MayWrite s.dev acc LKP.page ∧ lkpTable (winTable s.dev lkpWin acc) = none)
    ∧ (∃ (s : State) (acc : Accessor) (i : Nat) (d : Dev), d = s.dev.reads .fdb [i] ∧ Reach s.dev LKP.page ∧ lkpTable (winTable s.dev lkpWin acc) = some .fdb ∧ i = winIndex s.dev lkpWin acc ∧ bitOf (d.lookupWord .fdb i) 63 = true)
    ∧ (∃ (s : State) (acc : Accessor) (i : Nat) (d : Dev), d = s.dev.reads .sid [i] ∧ Reach s.dev LKP.page ∧ lkpTable (winTable s.dev lkpWin acc) = some .sid ∧ i = winIndex s.dev lkpWin acc ∧ i < 16384 ∧ bitOf (d.lookupWord .sid i) 63 = true)
    ∧ (∃ (s : State) (acc : Accessor) (t : TableId) (i : Nat) (d : Dev), i = winIndex s.dev lkpWin acc ∧ d = s.dev.reads t [i] ∧ Reach s.dev LKP.page ∧ lkpTable (winTable s.dev lkpWin acc) = some t ∧ (t = .fdb ∨ (t = .sid ∧ i < 16384)) ∧ bitOf (d.lookupWord t i) 63 = false)
    ∧ (∃ (s : State) (acc : Accessor) (m v mac i : Nat) (d : Dev), d = s.dev.reads .fdb (s.dev.fdbWays v mac) ∧ Reach s.dev LKP.page ∧ winKeyOf s.dev acc = (m, v, mac) ∧
    s.dev.get LKP.page LKP.ENTRY_AUX.TARGET acc.idx = 0 ∧ s.dev.fdbFind v mac = some i)
    ∧ (∃ (s : State) (acc : Accessor) (m v mac i : Nat) (d : Dev), d = s.dev.reads .sid (s.dev.sidWays m v mac) ∧ Reach s.dev LKP.page ∧ winKeyOf s.dev acc = (m, v, mac) ∧
    s.dev.get LKP.page LKP.ENTRY_AUX.TARGET acc.idx = 1 ∧ s.dev.sidFind m v mac = some i)
    ∧ (∃ (s : State) (acc : Accessor) (m v mac : Nat) (d : Dev), ((s.dev.get LKP.page LKP.ENTRY_AUX.TARGET acc.idx = 0 ∧ s.dev.fdbFind v mac = none ∧ d = s.dev.reads .fdb (s.dev.fdbWays v mac))
        ∨ (s.dev.get LKP.page LKP.ENTRY_AUX.TARGET acc.idx = 1 ∧ s.dev.sidFind m v mac = none ∧ d = s.dev.reads .sid (s.dev.sidWays m v mac))) ∧ Reach s.dev LKP.page ∧ winKeyOf s.dev acc = (m, v, mac))
    ∧ (∃ (s : State) (acc : Accessor), MayWrite s.dev acc LKP.page)
    ∧ (∃ (s : State) (acc : Accessor), MayWrite s.dev acc LKP.page ∧ s.dev.pendingCommit = false)
    ∧ (∃ (s : State) (acc : Accessor), MayWrite s.dev acc LKP.page ∧ s.dev.pendingCommit = true)
    ∧ (∃ (s : State) (acc : Accessor) (ep : Nat), ep = s.dev.get LKP.page LKP.ENTRY_LO.DATA_LO acc.idx % 64 ∧ MayWrite s.dev acc LKP.page ∧ (ep ≤ 49 ∨ ep = 63))
    ∧ (∃ (s : State) (acc : Accessor), MayWrite s.dev acc LKP.page ∧ 49 < s.dev.get LKP.page LKP.ENTRY_LO.DATA_LO acc.idx % 64 ∧ s.dev.get LKP.page LKP.ENTRY_LO.DATA_LO acc.idx % 64 ≠ 63)
    ∧ (∃ (s : State) (acc : Accessor), Reach s.dev MTR.page ∧ winTable s.dev mtrWin acc = 0 ∧ (winWord s.dev mtrWin acc = 0 ∨ winWord s.dev mtrWin acc = 1))
    ∧ (∃ (s : State) (acc : Accessor), Reach s.dev MTR.page ∧ winTable s.dev mtrWin acc = 1 ∧ winWord s.dev mtrWin acc < 3)
    ∧ (∃ (s : State) (acc : Accessor), MayWrite s.dev acc MTR.page ∧ winTable s.dev mtrWin acc = 0)
    ∧ (∃ (s : State) (acc : Accessor), MayWrite s.dev acc MTR.page ∧ winTable s.dev mtrWin acc ≠ 0)
    ∧ (∃ (s : State) (acc : Accessor), MayWrite s.dev acc MTR.page ∧ winTable s.dev mtrWin acc = 0)
    ∧ (∃ (s : State) (acc : Accessor), MayWrite s.dev acc MTR.page ∧ winTable s.dev mtrWin acc ≠ 0)
    ∧ (∃ (s : State) (acc : Accessor) (i t : Nat) (d : Dev), i = winIndex s.dev mtrWin acc ∧ (t, d) = (s.dev.reads .meterCfg [i]).readTime ∧ MayWrite s.dev acc MTR.page) :=
  ⟨⟨stW (devW [(LKP.page, LKP.ENTRY_ADDR.INDEX, 4095, Accessor.firmware.idx), (LKP.page, LKP.ENTRY_ADDR.TABLE, 1, Accessor.firmware.idx), (LKP.page, LKP.ENTRY_ADDR.WORD, 1, Accessor.firmware.idx)]), .firmware, .vlan, by and_intros <;> decide +kernel⟩,
   ⟨stW (devW [(LKP.page, LKP.ENTRY_ADDR.INDEX, 50, Accessor.firmware.idx), (LKP.page, LKP.ENTRY_ADDR.TABLE, 0, Accessor.firmware.idx)]), .firmware, (by intro t h; left; rw [← Option.some.inj ((by decide +kernel : lkpTable _ = some .port).symm.trans h)]; decide +kernel), by decide +kernel⟩,
   ⟨stW (devW [(LKP.page, LKP.ENTRY_ADDR.INDEX, 0, Accessor.firmware.idx), (LKP.page, LKP.ENTRY_ADDR.TABLE, 10, Accessor.firmware.idx)]), .firmware, .punt, by and_intros <;> decide +kernel⟩,
   ⟨stW (devW [(LKP.page, LKP.ENTRY_ADDR.INDEX, 0, Accessor.firmware.idx), (LKP.page, LKP.ENTRY_ADDR.TABLE, 11, Accessor.firmware.idx)]), .firmware, by and_intros <;> decide +kernel⟩,
   ⟨stW (devW [(LKP.page, LKP.ENTRY_ADDR.INDEX, 262143, Accessor.firmware.idx), (LKP.page, LKP.ENTRY_ADDR.TABLE, 2, Accessor.firmware.idx)]), .firmware, .fdb, by and_intros <;> decide +kernel⟩,
   ⟨stW (devW [(LKP.page, LKP.ENTRY_ADDR.INDEX, 0, Accessor.firmware.idx), (LKP.page, LKP.ENTRY_ADDR.TABLE, 15, Accessor.firmware.idx)]), .firmware, by and_intros <;> decide +kernel⟩,
   ⟨stW (((devW [(LKP.page, LKP.ENTRY_ADDR.INDEX, 262143, Accessor.firmware.idx), (LKP.page, LKP.ENTRY_ADDR.TABLE, 2, Accessor.firmware.idx)])).setEntry .fdb 262143 (2 ^ 63)), .firmware, 262143, _, rfl, by and_intros <;> decide +kernel⟩,
   ⟨stW (((devW [(LKP.page, LKP.ENTRY_ADDR.INDEX, 16383, Accessor.firmware.idx), (LKP.page, LKP.ENTRY_ADDR.TABLE, 4, Accessor.firmware.idx)])).setEntry .sid 16383 (2 ^ 63)), .firmware, 16383, _, rfl, by and_intros <;> decide +kernel⟩,
   ⟨stW (devW [(LKP.page, LKP.ENTRY_ADDR.INDEX, 0, Accessor.firmware.idx), (LKP.page, LKP.ENTRY_ADDR.TABLE, 2, Accessor.firmware.idx)]), .firmware, .fdb, _, _, rfl, rfl, by and_intros <;> decide +kernel⟩,
   lookup_fdb_state,
   lookup_sid_state,
   ⟨stW upDev, .firmware, 0, 0, 0, _, (Or.inl ⟨by decide +kernel, by decide +kernel, rfl⟩), by and_intros <;> decide +kernel⟩,
   ⟨stW upDev, .firmware, by decide +kernel⟩,
   ⟨stW upDev, .firmware, by and_intros <;> decide +kernel⟩,
   ⟨stW (devW [(LKP.page, LKP.EPOCH_STAT.PENDING, 1, 0)]), .firmware, by and_intros <;> decide +kernel⟩,
   ⟨stW upDev, .firmware, _, rfl, by and_intros <;> decide +kernel⟩,
   ⟨stW (devW [(LKP.page, LKP.ENTRY_LO.DATA_LO, 50, Accessor.firmware.idx)]), .firmware, by and_intros <;> decide +kernel⟩,
   ⟨stW upDev, .firmware, by and_intros <;> decide +kernel⟩,
   ⟨stW (devW [(MTR.page, MTR.ENTRY_ADDR.INDEX, 0, Accessor.firmware.idx), (MTR.page, MTR.ENTRY_ADDR.TABLE, 1, Accessor.firmware.idx), (MTR.page, MTR.ENTRY_ADDR.WORD, 2, Accessor.firmware.idx)]), .firmware, by and_intros <;> decide +kernel⟩,
   ⟨stW upDev, .firmware, by and_intros <;> decide +kernel⟩,
   ⟨stW (devW [(MTR.page, MTR.ENTRY_ADDR.INDEX, 0, Accessor.firmware.idx), (MTR.page, MTR.ENTRY_ADDR.TABLE, 1, Accessor.firmware.idx)]), .firmware, by and_intros <;> decide +kernel⟩,
   ⟨stW upDev, .firmware, by and_intros <;> decide +kernel⟩,
   ⟨stW (devW [(MTR.page, MTR.ENTRY_ADDR.INDEX, 0, Accessor.firmware.idx), (MTR.page, MTR.ENTRY_ADDR.TABLE, 1, Accessor.firmware.idx)]), .firmware, by and_intros <;> decide +kernel⟩,
   ⟨stW upDev, .firmware, _, _, _, rfl, rfl, by decide +kernel⟩⟩

theorem witness_BufferManager :
    (∃ (s : State) (input : Fin 50) (pre : Bool) (more : List (BitVec 8)) (d : Dev), d = s.dev.arrive (rxKey input pre) more)
    ∧ (∃ (s : State) (pool : Fin 4) (bad : Fin 65), (s.dev.pool pool).inFlight = 0)
    ∧ (∃ (s : State) (pool : Fin 4) (q : Pool) (n : Nat), q = s.dev.pool pool ∧ n = min 64 q.inFlight ∧ 0 < n ∧ s.dev.dramOpen = true)
    ∧ (∃ (s : State) (pool : Fin 4) (bad : Fin 65) (q : Pool) (n : Nat) (d : Dev), q = s.dev.pool pool ∧ n = min 64 q.inFlight ∧ d = s.dev.setPool pool { q with inFlight := q.inFlight - n, cached := q.cached + (n - min bad.val n) } ∧ 0 < n ∧ s.dev.dramOpen = true)
    ∧ (∃ (s : State) (pool : Fin 4) (bad : Fin 65), s.dev.dramOpen = false)
    ∧ (∃ (s : State) (total hot : Nat) (hotter : Bool) (d e : Dev), (total = ((List.range 96).map (fun b => tget (fun _ => 0) s.dev.bankCount b)).sum) ∧ (hot = (List.range 96).foldl (fun h b => if tget (fun _ => 0) s.dev.bankCount h < tget (fun _ => 0) s.dev.bankCount b then b else h) 0) ∧ (d = ((List.range 96).foldl (fun d b =>
        (d.set BUF.page BUF.BANK_STAT.LOAD
          (if total = 0 then 0 else min (tget (fun _ => 0) s.dev.bankCount b * 96 * 64 / total) 255) b).set
          BUF.page BUF.BANK_STAT.ACC_K (tget (fun _ => 0) s.dev.bankCount b / 1024) b) s.dev).set BUF.page BUF.HASH_STAT.HOT_BANK hot) ∧ (hotter = decide (total * d.get BUF.page BUF.HASH_CFG.RATIO < tget (fun _ => 0) s.dev.bankCount hot * 96 * 64)) ∧ (e = { d with bankCount := [], hashOver := if hotter then d.hashOver + 1 else 0 }))
    ∧ (∃ (s : State) (acc : Accessor), MayWrite s.dev acc BUF.page)
    ∧ (∃ (s : State) (acc : Accessor), MayWrite s.dev acc BUF.page)
    ∧ (∃ (s : State) (acc : Accessor), MayWrite s.dev acc BUF.page ∧ s.dev.holding = [])
    ∧ (∃ (s : State) (acc : Accessor), MayWrite s.dev acc BUF.page)
    ∧ (∃ (s : State), s.dev.flag BUF.page BUF.MGR_CTRL.HALT = true)
    ∧ (∃ (s : State) (acc : Accessor) (p : Nat), p = s.dev.get BUF.page BUF.POOL_SEL.POOL acc.idx ∧ MayWrite s.dev acc BUF.page) :=
  ⟨⟨stW upDev, 0, false, [], _, rfl⟩,
   ⟨stW upDev, 0, 0, by decide +kernel⟩,
   ⟨stW (((devW [(FAB.page, FAB.XING_STAT.STATE, 0, 53)])).setPool 0 ⟨0, 65, false, false, false⟩), 0, _, _, rfl, rfl, by and_intros <;> decide +kernel⟩,
   ⟨stW (((devW [(FAB.page, FAB.XING_STAT.STATE, 0, 53)])).setPool 0 ⟨0, 65, false, false, false⟩), 0, 0, _, _, _, rfl, rfl, rfl, by and_intros <;> decide +kernel⟩,
   ⟨stW upDev, 0, 0, by decide +kernel⟩,
   ⟨stW upDev, _, _, _, _, _, rfl, rfl, rfl, rfl, rfl⟩,
   ⟨stW upDev, .firmware, by decide +kernel⟩,
   ⟨stW upDev, .firmware, by decide +kernel⟩,
   ⟨stW upDev, .firmware, by and_intros <;> decide +kernel⟩,
   ⟨stW upDev, .firmware, by decide +kernel⟩,
   ⟨stW (devW [(BUF.page, BUF.MGR_CTRL.HALT, 1, 0)]), by decide +kernel⟩,
   ⟨stW upDev, .firmware, _, rfl, by decide +kernel⟩⟩

theorem witness_QueuesAndSpill :
    (∃ (s : State) (voq : Fin 20000) (busy : Bool) (n : Nat) (rest : List Nat) (f : Frame) (d : Dev), d = (s.dev.setRefused (spillKey (voqInput voq) (voqTc voq)) none).countLines n ∧ s.dev.dramOpen = true ∧ (s.dev.voq voq).copying = n :: rest ∧ s.dev.frame n = some f ∧ f.ended = true ∧ f.mcast = false ∧ s.dev.spillRefused (voqInput voq) (linesOf f.len) busy = false)
    ∧ (∃ (s : State) (voq : Fin 20000) (busy : Bool) (n : Nat) (rest : List Nat) (f : Frame), s.dev.dramOpen = true ∧ (s.dev.voq voq).copying = n :: rest ∧ s.dev.frame n = some f ∧ f.ended = true ∧ f.mcast = false ∧ s.dev.spillRefused (voqInput voq) (linesOf f.len) busy = true)
    ∧ (∃ (s : State) (voq : Fin 20000) (busy : Bool) (n : Nat) (rest : List Nat) (f : Frame), s.dev.dramOpen = true ∧ (s.dev.voq voq).copying = n :: rest ∧ s.dev.frame n = some f ∧ f.ended = true ∧ f.mcast = true)
    ∧ (∃ (s : State) (voq : Fin 20000) (n : Nat) (rest : List Nat) (f : Frame) (d : Dev), d = (s.dev.setSpill (voqInput voq) (s.dev.spillOf (voqInput voq) - linesOf f.len)).setVoq
        voq
        ((s.dev.setSpill (voqInput voq) (s.dev.spillOf (voqInput voq) - linesOf f.len)).spillEnd
          ((s.dev.setSpill (voqInput voq) (s.dev.spillOf (voqInput voq) - linesOf f.len)).framePool n) { s.dev.voq voq with tail := rest }) ∧ s.dev.dramOpen = true ∧ (s.dev.voq voq).tail = n :: rest ∧ s.dev.frame n = some f)
    ∧ (∃ (s : State) (voq : Fin 20000) (n : Nat) (rest : List Nat) (f : Frame), s.dev.dramOpen = true ∧ (s.dev.voq voq).tail = n :: rest ∧ s.dev.frame n = some f ∧ s.dev.flag BUF.page BUF.MGR_CTRL.HALT = true)
    ∧ (∃ (s : State) (voq : Fin 20000) (n : Nat) (rest : List Nat) (f : Frame) (p : Nat), s.dev.dramOpen = true ∧ (s.dev.voq voq).tail = n :: rest ∧ s.dev.frame n = some f ∧ s.dev.choosePool (voqInput voq) f.len = some p ∧ s.dev.flag BUF.page BUF.MGR_CTRL.HALT = false ∧ (1024 * s.dev.get VOQ.page VOQ.SPILL_CFG.REFILL_LVL ≤ ((s.dev.voq voq).sram.map s.dev.frameLen).sum ∨ (s.dev.pool p).press = true))
    ∧ (∃ (s : State) (voq : Fin 20000) (n : Nat) (rest : List Nat) (f : Frame) (p : Nat) (b : Handle × Nat) (d e : Dev), d = s.dev.setSpill (voqInput voq) (s.dev.spillOf (voqInput voq) - linesOf f.len) ∧ d.takeBuffer p (voqInput voq) false = (b, e) ∧ s.dev.dramOpen = true ∧ (s.dev.voq voq).tail = n :: rest ∧ s.dev.frame n = some f ∧ s.dev.choosePool (voqInput voq) f.len = some p ∧ ((s.dev.voq voq).sram.map s.dev.frameLen).sum < 1024 * s.dev.get VOQ.page VOQ.SPILL_CFG.REFILL_LVL ∧ (s.dev.pool p).press = false ∧ s.dev.flag BUF.page BUF.MGR_CTRL.HALT = false)
    ∧ (∃ (s : State) (voq : Fin 20000) (busy : Bool), s.dev.dramOpen = false)
    ∧ (∃ (s : State) (voq : Fin 20000) (bad : Bool), s.dev.dramOpen = false)
    ∧ (∃ (s : State) (port : Fin 50), s.dev.holdDue port = true)
    ∧ (∃ (s : State) (acc : Accessor) (scope : BitVec 2) (ep : BitVec 6), MayWrite s.dev acc VOQ.page ∧ (scope = 3 ∨ (scope ≠ 0 ∧ 49 < ep.toNat)))
    ∧ (∃ (s : State) (acc : Accessor) (scope : BitVec 2) (ep : BitVec 6) (d : Dev), d = s.dev.set VOQ.page VOQ.FLUSH_CMD.BUSY 1 ∧ MayWrite s.dev acc VOQ.page ∧ scope ≠ 3 ∧ (scope = 0 ∨ ep.toNat ≤ 49) ∧ s.dev.flag VOQ.page VOQ.FLUSH_CMD.BUSY = false)
    ∧ (∃ (s : State) (n : Nat) (d : Dev), (n = (s.dev.flushing.map (fun v => (s.dev.voq v).all.length)).sum) ∧ (d = s.dev.flushing.foldl (fun d v => d.flushVoq v none) { s.dev with flushing := [] }) ∧ s.dev.flag VOQ.page VOQ.FLUSH_CMD.BUSY = true) :=
  ⟨⟨stW ((((devW [(DRM.page, DRM.DRM_STAT.TRAINED, 1, 0), (FAB.page, FAB.XING_STAT.STATE, 0, 53)])).setVoq 0 (⟨[], [], true, [0]⟩ : Voq)).setFrame 0 (some wFrame)), 0, false, 0, [], wFrame, _, rfl, by and_intros <;> decide +kernel⟩,
   ⟨stW ((((devW [(FAB.page, FAB.XING_STAT.STATE, 0, 53)])).setVoq 0 (⟨[], [], true, [0]⟩ : Voq)).setFrame 0 (some wFrame)), 0, true, 0, [], wFrame, by and_intros <;> decide +kernel⟩,
   ⟨stW ((((devW [(FAB.page, FAB.XING_STAT.STATE, 0, 53)])).setVoq 0 (⟨[], [], true, [0]⟩ : Voq)).setFrame 0 (some { wFrame with mcast := true })), 0, false, 0, [], { wFrame with mcast := true }, by and_intros <;> decide +kernel⟩,
   ⟨stW ((((devW [(FAB.page, FAB.XING_STAT.STATE, 0, 53)])).setVoq 0 (⟨[], [0], true, []⟩ : Voq)).setFrame 0 (some wFrame)), 0, 0, [], wFrame, _, rfl, by and_intros <;> decide +kernel⟩,
   ⟨stW (((((devW [(BUF.page, BUF.MGR_CTRL.HALT, 1, 0), (FAB.page, FAB.XING_STAT.STATE, 0, 53)])).setVoq 0 (⟨[], [0], true, []⟩ : Voq)).setFrame 0 (some wFrame))), 0, 0, [], wFrame, by and_intros <;> decide +kernel⟩,
   ⟨stW (((((devW [(BUF.page, BUF.MGR_CTRL.HALT, 0, 0), (FAB.page, FAB.XING_STAT.STATE, 0, 53)])).setVoq 0 (⟨[], [0], true, []⟩ : Voq)).setFrame 0 (some wFrame)) |>.setPool 0 ⟨64, 0, false, true, false⟩), 0, 0, [], wFrame, 0, by and_intros <;> decide +kernel⟩,
   ⟨stW (((((devW [(BUF.page, BUF.MGR_CTRL.HALT, 0, 0), (FAB.page, FAB.XING_STAT.STATE, 0, 53)])).setVoq 0 (⟨[], [0], true, []⟩ : Voq)).setFrame 0 (some wFrame)) |>.setPool 0 ⟨64, 0, false, false, false⟩), 0, 0, [], wFrame, 0, _, _, _, rfl, rfl, by and_intros <;> decide +kernel⟩,
   ⟨stW ({ (devW [((PRT.page 47), PRT.PORT_STAT.HOLD, 1, 0)]) with now := 1000 * secU } : Dev), 0, false, by decide +kernel⟩,
   ⟨stW upDev, 0, false, by decide +kernel⟩,
   ⟨stW ({ (devW [((PRT.page 47), PRT.PORT_STAT.HOLD, 1, 0)]) with now := 1000 * secU } : Dev), 47, by decide +kernel⟩,
   ⟨stW upDev, .firmware, 1, 50, by and_intros <;> decide +kernel⟩,
   ⟨stW (devW [(VOQ.page, VOQ.FLUSH_CMD.BUSY, 0, 0)]), .firmware, 0, 0, _, rfl, by and_intros <;> decide +kernel⟩,
   ⟨stW (devW [(VOQ.page, VOQ.FLUSH_CMD.BUSY, 1, 0)]), _, _, rfl, rfl, by decide +kernel⟩⟩

theorem witness_Egress :
    (∃ (s : State) (port : Fin 48) (n : Nat), s.dev.launchHead port = some n ∧ s.dev.launchDue port n = true)
    ∧ (∃ (s : State) (output : Fin 50) (errs : WordErrors), (output : Nat) ≠ 48)
    ∧ (∃ (s : State) (port : Fin 48) (x : Output_), x = s.dev.output port ∧ s.dev.get SCH.page SCH.PORT_STAT.VERIFY_STATE port = 2 ∧ x.verifyTries < 3)
    ∧ (∃ (s : State) (port : Fin 48), s.dev.get SCH.page SCH.PORT_STAT.VERIFY_STATE port = 2 ∧ 3 ≤ (s.dev.output port).verifyTries)
    ∧ (∃ (s : State) (port : Fin 48), s.dev.get SCH.page SCH.PORT_STAT.VERIFY_STATE port = 2 ∧ s.dev.loopMode port < 5) :=
  ⟨⟨stW ({ (upDev).setFrame 0 (some wFrame) with launchQ := [(0, [0])] } : Dev), 0, 0, by and_intros <;> decide +kernel⟩,
   ⟨stW upDev, 0, noErrors, by decide +kernel⟩,
   ⟨stW (devW [(SCH.page, SCH.PORT_STAT.VERIFY_STATE, 2, (0 : Fin 48))]), 0, _, rfl, by and_intros <;> decide +kernel⟩,
   ⟨stW (((devW [(SCH.page, SCH.PORT_STAT.VERIFY_STATE, 2, (0 : Fin 48))])).setOutput 0 ⟨none, none, 3⟩), 0, by and_intros <;> decide +kernel⟩,
   ⟨stW (devW [(SCH.page, SCH.PORT_STAT.VERIFY_STATE, 2, (0 : Fin 48))]), 0, by and_intros <;> decide +kernel⟩⟩

theorem witness_SchedulerWindow :
    (∃ (s : State) (acc : Accessor) (t : TableId), Reach s.dev SCH.page ∧ winTable s.dev schWin acc ≠ 6 ∧ schTable (winTable s.dev schWin acc) = some t ∧ winIndex s.dev schWin acc < schSize t ∧ winWord s.dev schWin acc < schWords t)
    ∧ (∃ (s : State) (acc : Accessor) (i : Nat), Reach s.dev SCH.page ∧ winTable s.dev schWin acc = 6 ∧ i = winIndex s.dev schWin acc ∧ i < 4546 ∧ winWord s.dev schWin acc = 0)
    ∧ (∃ (s : State) (acc : Accessor), (∀ t, schTable (winTable s.dev schWin acc) = some t → schSize t ≤ winIndex s.dev schWin acc ∨ schWords t ≤ winWord s.dev schWin acc) ∧ Reach s.dev SCH.page ∧ winTable s.dev schWin acc ≠ 6)
    ∧ (∃ (s : State) (acc : Accessor) (t : TableId), Reach s.dev SCH.page ∧ schTable (winTable s.dev schWin acc) = some t ∧ winTable s.dev schWin acc ≤ 3 ∧ winIndex s.dev schWin acc < schSize t ∧ winWord s.dev schWin acc < schWords t)
    ∧ (∃ (s : State) (acc : Accessor), MayWrite s.dev acc SCH.page ∧ (schTable (winTable s.dev schWin acc) = none ∨ 3 < winTable s.dev schWin acc))
    ∧ (∃ (s : State) (acc : Accessor) (t : TableId) (x : Dev × Option (List Data)), x = s.dev.winCollect schWin acc (schWords t - 1) ∧ MayWrite s.dev acc SCH.page ∧ schTable (winTable s.dev schWin acc) = some t ∧ winTable s.dev schWin acc ≤ 3 ∧ winIndex s.dev schWin acc < schSize t ∧ winWord s.dev schWin acc < schWords t ∧ (t ≠ .voqAttach ∨ winIndex s.dev schWin acc % 8 ≤ 5))
    ∧ (∃ (s : State) (acc : Accessor) (t : TableId) (i : Nat), MayWrite s.dev acc SCH.page ∧ schTable (winTable s.dev schWin acc) = some t ∧ i = winIndex s.dev schWin acc ∧ i < schSize t ∧ winWord s.dev schWin acc = 0 ∧ 4 ≤ winTable s.dev schWin acc)
    ∧ (∃ (s : State) (acc : Accessor) (t : TableId), MayWrite s.dev acc SCH.page ∧ schTable (winTable s.dev schWin acc) = some t ∧ 4 ≤ winTable s.dev schWin acc) :=
  ⟨⟨stW (devW [(SCH.page, SCH.ENTRY_ADDR.INDEX, 19999, Accessor.firmware.idx), (SCH.page, SCH.ENTRY_ADDR.TABLE, 4, Accessor.firmware.idx)]), .firmware, .voqHwm, by and_intros <;> decide +kernel⟩,
   ⟨stW (devW [(SCH.page, SCH.ENTRY_ADDR.INDEX, 4545, Accessor.firmware.idx), (SCH.page, SCH.ENTRY_ADDR.TABLE, 6, Accessor.firmware.idx)]), .firmware, 4545, by and_intros <;> decide +kernel⟩,
   ⟨stW (devW [(SCH.page, SCH.ENTRY_ADDR.INDEX, 50, Accessor.firmware.idx), (SCH.page, SCH.ENTRY_ADDR.TABLE, 3, Accessor.firmware.idx)]), .firmware, (by intro t h; left; rw [← Option.some.inj ((by decide +kernel : schTable _ = some .portNode).symm.trans h)]; decide +kernel), by and_intros <;> decide +kernel⟩,
   ⟨stW (devW [(SCH.page, SCH.ENTRY_ADDR.INDEX, 49, Accessor.firmware.idx), (SCH.page, SCH.ENTRY_ADDR.TABLE, 3, Accessor.firmware.idx), (SCH.page, SCH.ENTRY_ADDR.WORD, 1, Accessor.firmware.idx)]), .firmware, .portNode, by and_intros <;> decide +kernel⟩,
   ⟨stW (devW [(SCH.page, SCH.ENTRY_ADDR.INDEX, 0, Accessor.firmware.idx), (SCH.page, SCH.ENTRY_ADDR.TABLE, 4, Accessor.firmware.idx)]), .firmware, by and_intros <;> decide +kernel⟩,
   ⟨stW (devW [(SCH.page, SCH.ENTRY_ADDR.INDEX, 19997, Accessor.firmware.idx), (SCH.page, SCH.ENTRY_ADDR.TABLE, 0, Accessor.firmware.idx)]), .firmware, .voqAttach, _, rfl, by and_intros <;> decide +kernel⟩,
   ⟨stW (devW [(SCH.page, SCH.ENTRY_ADDR.INDEX, 399, Accessor.firmware.idx), (SCH.page, SCH.ENTRY_ADDR.TABLE, 5, Accessor.firmware.idx)]), .firmware, .portHwm, 399, by and_intros <;> decide +kernel⟩,
   ⟨stW (devW [(SCH.page, SCH.ENTRY_ADDR.INDEX, 0, Accessor.firmware.idx), (SCH.page, SCH.ENTRY_ADDR.TABLE, 4, Accessor.firmware.idx)]), .firmware, .voqHwm, by and_intros <;> decide +kernel⟩⟩

theorem witness_GateControlLists :
    (∃ (s : State) (acc : Accessor) (port : Fin 48) (sec : BitVec 32) (ns : BitVec 30), MayWrite s.dev acc (GCL.page port))
    ∧ (∃ (s : State) (acc : Accessor) (port : Fin 48), MayWrite s.dev acc (GCL.page port))
    ∧ (∃ (s : State) (acc : Accessor) (port : Fin 48), Reach s.dev (GCL.page port))
    ∧ (∃ (s : State) (acc : Accessor) (port : Fin 48) (bank : Nat), MayWrite s.dev acc (GCL.page port) ∧ bank = winTable s.dev (gclWin port) acc ∧ bank ≠ s.dev.activeBank port ∧ s.dev.flag (GCL.page port) GCL.GCL_STAT.SWAP_PENDING = false ∧ s.dev.flag (GCL.page port) GCL.GCL_STAT.BLOCKER_OWN = false)
    ∧ (∃ (s : State) (acc : Accessor) (port : Fin 48), MayWrite s.dev acc (GCL.page port) ∧ (winTable s.dev (gclWin port) acc = s.dev.activeBank port ∨ s.dev.flag (GCL.page port) GCL.GCL_STAT.SWAP_PENDING = true
        ∨ s.dev.flag (GCL.page port) GCL.GCL_STAT.BLOCKER_OWN = true))
    ∧ (∃ (s : State) (port : Fin 48), 96 ≤ (s.dev.launchOf port).length)
    ∧ (∃ (s : State) (port : Fin 48) (v n l : Nat) (d : Dev), l = (match s.dev.frame n with | some f => (s.dev.launchAt f).getD 0 | none => 0) ∧ (d = (s.dev.unqueue v n).modFrame n (fun f => { f with launch := some l })) ∧ (s.dev.launchOf port).length < 96 ∧ s.dev.timedWaiting port = some (v, n))
    ∧ (∃ (s : State) (acc : Accessor) (port : Fin 48), MayWrite s.dev acc (GCL.page port)) :=
  ⟨⟨stW upDev, .firmware, 0, 0, 0, by decide +kernel⟩,
   ⟨stW upDev, .firmware, 0, by decide +kernel⟩,
   ⟨stW upDev, .firmware, 0, by decide +kernel⟩,
   ⟨stW (devW [((GCL.page (0 : Fin 48)), GCL.GCL_STAT.SWAP_PENDING, 0, 0), ((GCL.page (0 : Fin 48)), GCL.GCL_STAT.BLOCKER_OWN, 0, 0), ((GCL.page 0), GCL.ENTRY_ADDR.BANK, 1, Accessor.firmware.idx)]), .firmware, 0, 1, by and_intros <;> decide +kernel⟩,
   ⟨stW upDev, .firmware, 0, by and_intros <;> decide +kernel⟩,
   ⟨stW ({ upDev with launchQ := [(0, List.replicate 96 0)] } : Dev), 0, by decide +kernel⟩,
   ⟨stW (((upDev).setVoq 6 (⟨[0], [], false, []⟩ : Voq)).setFrame 0 (some { wFrame with launch := some 5 })), 0, 6, 0, _, _, rfl, rfl, by and_intros <;> decide +kernel⟩,
   ⟨stW upDev, .firmware, 0, by decide +kernel⟩⟩

theorem witness_BlockerRequestsAndLaunchTable :
    (∃ (s : State) (acc : Accessor) (x : Nat × Dev), x = s.dev.blkPush ((List.range 4).map (s.dev.reqWord acc)) none ∧ MayWrite s.dev acc BLK.page ∧ x.1 ≠ 7)
    ∧ (∃ (s : State) (acc : Accessor) (x : Nat × Dev), x = s.dev.blkPush ((List.range 4).map (s.dev.reqWord acc)) none ∧ MayWrite s.dev acc BLK.page ∧ x.1 = 7)
    ∧ (∃ (s : State) (acc : Accessor), MayWrite s.dev acc BLK.page)
    ∧ (∃ (s : State) (q : BlkReq), s.dev.blkHead 1 = some q ∧ s.dev.blkWaits = false)
    ∧ (∃ (s : State) (q : BlkReq), s.dev.blkHead 2 = some q ∧ s.dev.blkWaits = false)
    ∧ (∃ (s : State) (q : BlkReq), s.dev.blkHead 3 = some q ∧ s.dev.blkWaits = false)
    ∧ (∃ (s : State) (q : BlkReq), s.dev.blkHead 4 = some q ∧ s.dev.blkWaits = false)
    ∧ (∃ (s : State) (q : BlkReq) (rest : List BlkReq) (d' : Dev), d' = ({ s.dev with blkWaits := false } : Dev).blkRun (breqOf q.words).op ∧ s.dev.blkPlan = none ∧ s.dev.blkWaits = true ∧ s.dev.reqQueue = q :: rest)
    ∧ (∃ (s : State) (plan : List (Nat × Place)) (d' : Dev), d' = s.dev.blkReplaceCommit (s.dev.planned plan) ∧ s.dev.blkPlan = some plan)
    ∧ (∃ (s : State), s.dev.blkPlan = none ∧ s.dev.blkWaits = false)
    ∧ (∃ (s : State) (acc : Accessor) (i : Nat), i = winIndex s.dev blkWin acc ∧ Reach s.dev BLK.page ∧ winTable s.dev blkWin acc = 0 ∧ winWord s.dev blkWin acc ≤ 1)
    ∧ (∃ (s : State) (acc : Accessor) (i : Nat) (p : Place), Reach s.dev BLK.page ∧ i = winIndex s.dev blkWin acc ∧ winTable s.dev blkWin acc = 1 ∧ winWord s.dev blkWin acc ≤ 3 ∧ i ≤ 4095 ∧ s.dev.place i = some p)
    ∧ (∃ (s : State) (acc : Accessor) (i : Nat), Reach s.dev BLK.page ∧ i = winIndex s.dev blkWin acc ∧ winTable s.dev blkWin acc = 1 ∧ winWord s.dev blkWin acc ≤ 3 ∧ i ≤ 4095 ∧ s.dev.place i = none)
    ∧ (∃ (s : State) (acc : Accessor), MayWrite s.dev acc BLK.page ∧ s.dev.copied 1 = true)
    ∧ (∃ (s : State) (acc : Accessor) (i : Nat) (x : Dev × Option (List Data)), i = winIndex s.dev blkWin acc ∧ x = s.dev.winCollect blkWin acc 1 ∧ MayWrite s.dev acc BLK.page ∧ s.dev.copied 1 = false ∧ winTable s.dev blkWin acc = 0 ∧ winWord s.dev blkWin acc ≤ 1)
    ∧ (∃ (s : State) (acc : Accessor) (i : Nat), i = winIndex s.dev blkWin acc ∧ MayWrite s.dev acc BLK.page ∧ s.dev.copied 1 = false ∧ winTable s.dev blkWin acc = 0 ∧ bitOf (s.dev.lookupWord .launch i) 61 = false)
    ∧ (∃ (s : State) (acc : Accessor), MayWrite s.dev acc BLK.page ∧ s.dev.copied 1 = false ∧ winTable s.dev blkWin acc = 0 ∧ bitOf (s.dev.lookupWord .launch (winIndex s.dev blkWin acc)) 61 = true) :=
  ⟨⟨stW upDev, .firmware, _, rfl, by and_intros <;> decide +kernel⟩,
   ⟨stW (devW [(DBL.page, DBL.DBL_CFG.ENABLE, 1, 0), (DBL.page, DBL.DBL_CFG.COPY, 2, 0), (DBL.page, DBL.DBL_STAT.OWNER, 0, 0)]), .firmware, _, rfl, by and_intros <;> decide +kernel⟩,
   ⟨stW upDev, .firmware, by decide +kernel⟩,
   ⟨stW ({ upDev with reqQueue := [⟨[1 * 2 ^ 60, 0, 0, 0], none⟩] } : Dev), ⟨[1 * 2 ^ 60, 0, 0, 0], none⟩, by and_intros <;> decide +kernel⟩,
   ⟨stW ({ upDev with reqQueue := [⟨[2 * 2 ^ 60, 0, 0, 0], none⟩] } : Dev), ⟨[2 * 2 ^ 60, 0, 0, 0], none⟩, by and_intros <;> decide +kernel⟩,
   ⟨stW ({ upDev with reqQueue := [⟨[3 * 2 ^ 60, 0, 0, 0], none⟩] } : Dev), ⟨[3 * 2 ^ 60, 0, 0, 0], none⟩, by and_intros <;> decide +kernel⟩,
   ⟨stW ({ upDev with reqQueue := [⟨[4 * 2 ^ 60, 0, 0, 0], none⟩] } : Dev), ⟨[4 * 2 ^ 60, 0, 0, 0], none⟩, by and_intros <;> decide +kernel⟩,
   ⟨stW ({ upDev with reqQueue := [⟨[2 * 2 ^ 60, 0, 0, 0], none⟩], blkWaits := true } : Dev), ⟨[2 * 2 ^ 60, 0, 0, 0], none⟩, [], _, rfl, by and_intros <;> decide +kernel⟩,
   ⟨stW ({ upDev with blkPlan := some [(0, ⟨0, [], 0, 0⟩)] } : Dev), [(0, ⟨0, [], 0, 0⟩)], _, rfl, by decide +kernel⟩,
   ⟨stW upDev, by and_intros <;> decide +kernel⟩,
   ⟨stW upDev, .firmware, _, rfl, by and_intros <;> decide +kernel⟩,
   ⟨stW ({ (devW [(BLK.page, BLK.ENTRY_ADDR.INDEX, 4095, Accessor.firmware.idx), (BLK.page, BLK.ENTRY_ADDR.TABLE, 1, Accessor.firmware.idx), (BLK.page, BLK.ENTRY_ADDR.WORD, 3, Accessor.firmware.idx)]) with resv := [(4095, some ⟨0, [], 0, 0⟩)] } : Dev), .firmware, 4095, ⟨0, [], 0, 0⟩, by and_intros <;> decide +kernel⟩,
   ⟨stW (devW [(BLK.page, BLK.ENTRY_ADDR.INDEX, 4095, Accessor.firmware.idx), (BLK.page, BLK.ENTRY_ADDR.TABLE, 1, Accessor.firmware.idx), (BLK.page, BLK.ENTRY_ADDR.WORD, 3, Accessor.firmware.idx)]), .firmware, 4095, by and_intros <;> decide +kernel⟩,
   ⟨stW (devW [(DBL.page, DBL.DBL_CFG.ENABLE, 1, 0), (DBL.page, DBL.DBL_CFG.COPY, 2, 0), (DBL.page, DBL.DBL_STAT.OWNER, 0, 0)]), .firmware, by and_intros <;> decide +kernel⟩,
   ⟨stW upDev, .firmware, _, _, rfl, rfl, by and_intros <;> decide +kernel⟩,
   ⟨stW upDev, .firmware, _, rfl, by and_intros <;> decide +kernel⟩,
   ⟨stW (((devW [(BLK.page, BLK.ENTRY_ADDR.INDEX, 0, Accessor.firmware.idx), (BLK.page, BLK.ENTRY_ADDR.TABLE, 0, Accessor.firmware.idx)])).setEntry .launch 0 (2 ^ 61)), .firmware, by and_intros <;> decide +kernel⟩⟩

theorem witness_DoubletOwnership :
    (∃ (s : State), s.dev.pageUp DBL.page = true ∧ s.dev.dbl.hbFrom ≤ s.dev.now)
    ∧ (∃ (s : State), s.dev.pageUp DBL.page = true)
    ∧ (∃ (s : State) (d : Dev), (d = (s.dev.set DBL.page DBL.DBL_STAT.HB_OK 0).setDbl (fun b => { b with hbAbsent := true })) ∧ s.dev.pageUp DBL.page = true ∧ s.dev.flag DBL.page DBL.DBL_STAT.HB_OK = true ∧ s.dev.dbl.hbLast + 2000 * nsU ≤ s.dev.now)
    ∧ (∃ (s : State), s.dev.pageUp DBL.page = true ∧ s.dev.flag DBL.page DBL.DBL_STAT.HB_OK = true ∧ s.dev.now < s.dev.dbl.hbLast + 2000 * nsU)
    ∧ (∃ (s : State) (d : Dev), (d = (s.dev.set DBL.page DBL.DBL_STAT.HB_OK 0).setDbl (fun b => { b with hbAbsent := true })) ∧ s.dev.pageUp DBL.page = true ∧ s.dev.flag DBL.page DBL.DBL_STAT.HB_OK = false)
    ∧ (∃ (s : State) (level : Bool), s.dev.pageUp DBL.page = true)
    ∧ (∃ (s : State) (t : Nat), s.dev.dbl.claimSince = some t ∧ s.dev.isOwner = false ∧ s.dev.pinOwnIn = false ∧ s.dev.flag DBL.page DBL.DBL_STAT.HB_OK = true ∧ s.dev.sideB = false ∧ s.dev.flag DBL.page DBL.DBL_CFG.AUTO_CLAIM = true ∧ t + s.dev.get DBL.page DBL.DBL_CFG.CLAIM_WAIT_MS * 1000000 * nsU ≤ s.dev.now)
    ∧ (∃ (s : State) (acc : Accessor), MayWrite s.dev acc DBL.page ∧ s.dev.isOwner = true ∧ s.dev.dblOn = true ∧ s.dev.dblUp = true ∧ s.dev.flag DBL.page DBL.DBL_STAT.TWIN_READY = true ∧ s.dev.dbl.hand = none)
    ∧ (∃ (s : State) (acc : Accessor), MayWrite s.dev acc DBL.page ∧ (s.dev.isOwner = false ∨ s.dev.dblOn = false ∨ s.dev.dblUp = false
        ∨ s.dev.flag DBL.page DBL.DBL_STAT.TWIN_READY = false ∨ s.dev.dbl.hand ≠ none))
    ∧ (∃ (s : State) (acc : Accessor), MayWrite s.dev acc DBL.page)
    ∧ (∃ (s : State) (e1 e2 t : Nat), e2 = (e1 / s.dev.dblCycle + 1) * s.dev.dblCycle ∧ t = s.dev.now / s.dev.dblCycle * s.dev.dblCycle ∧ s.dev.dbl.hand = some ⟨some e1, true⟩ ∧ e2 ≤ t ∧ (s.dev.pulsesLow t = true ∨ e2 + secU ≤ t)) :=
  ⟨⟨stW upDev, by and_intros <;> decide +kernel⟩,
   ⟨stW upDev, by decide +kernel⟩,
   ⟨stW ({ (devW [(DBL.page, DBL.DBL_STAT.HB_OK, 1, 0)]) with now := 2000 * nsU } : Dev), _, rfl, by and_intros <;> decide +kernel⟩,
   ⟨stW (devW [(DBL.page, DBL.DBL_STAT.HB_OK, 1, 0)]), by and_intros <;> decide +kernel⟩,
   ⟨stW (devW [(DBL.page, DBL.DBL_STAT.HB_OK, 0, 0)]), _, rfl, by and_intros <;> decide +kernel⟩,
   ⟨stW upDev, false, by decide +kernel⟩,
   ⟨stW ({ ((devW [(DBL.page, DBL.DBL_STAT.HB_OK, 1, 0), (DBL.page, DBL.DBL_CFG.AUTO_CLAIM, 1, 0), (DBL.page, DBL.DBL_CFG.CLAIM_WAIT_MS, 255, 0)])).setDbl (fun b => { b with claimSince := some 0 }) with now := 255000000 * nsU } : Dev), 0, by and_intros <;> decide +kernel⟩,
   ⟨stW (devW [(DBL.page, DBL.DBL_STAT.TWIN_READY, 1, 0), (DBL.page, DBL.DBL_CFG.ENABLE, 1, 0), (DBL.page, DBL.DBL_STAT.DL1_UP, 1, 0), (DBL.page, DBL.DBL_STAT.OWNER, 1, 0)]), .firmware, by and_intros <;> decide +kernel⟩,
   ⟨stW upDev, .firmware, by and_intros <;> decide +kernel⟩,
   ⟨stW upDev, .firmware, by decide +kernel⟩,
   ⟨stW ({ (upDev).setDbl (fun b => { b with hand := some ⟨some 0, true⟩ }) with now := 2 * secU } : Dev), 0, _, _, rfl, rfl, by and_intros <;> decide +kernel⟩⟩

theorem witness_DoubletCopy :
    (∃ (s : State) (fit : Nat) (kib : BitVec 10) (backlog : BitVec 22), s.dev.dblOn = true ∧ s.dev.pageUp DBL.page = true ∧ s.dev.cycleDue = true)
    ∧ (∃ (s : State) (crcOk : Bool) (hdr : TwinHeader) (items : List CopyItem) (edge : RxEdge) (kib : BitVec 10), (s.dev.dblOn = false ∨ s.dev.pageUp DBL.page = false ∨ s.dev.dblUp = false))
    ∧ (∃ (s : State) (hdr : TwinHeader) (items : List CopyItem) (edge : RxEdge) (kib : BitVec 10), s.dev.dblOn = true ∧ s.dev.pageUp DBL.page = true ∧ s.dev.dblUp = true)
    ∧ (∃ (s : State) (hdr : TwinHeader) (items : List CopyItem) (edge : RxEdge) (kib : BitVec 10) (d : Dev), d = s.dev.checkTwin hdr ∧ s.dev.dblOn = true ∧ s.dev.pageUp DBL.page = true ∧ s.dev.dblUp = true ∧ (d.isOwner = true ∨ d.dbl.sameSide = true ∨ d.dbl.taken = some hdr.time))
    ∧ (∃ (s : State) (hdr : TwinHeader) (items : List CopyItem) (edge : RxEdge) (kib : BitVec 10) (t2 : Nat) (accept : Bool) (d e f g x : Dev), d = s.dev.checkTwin hdr ∧ t2 = d.rxStamp 48 edge ∧ (e = (if (d.dbl.t2 != 0) && d.flag DBL.page DBL.DBL_STAT.DL0_UP then
          d.set DBL.page DBL.TWIN_OFS.PS
            (toField 32 (twinOfs (d.getInt DBL.page DBL.DL_ASYM_PS.ASYM) hdr.t1 d.dbl.t2 d.dbl.t3 hdr.t4)) else d)) ∧ f = items.foldl Dev.takeItem ((e.count 0xD81).set DBL.page DBL.COPY_STAT.LAST_KIB (min kib.toNat 256)) ∧ (g = (f.setFlag DBL.page DBL.DBL_STAT.FULL_COPY hdr.full).setDbl (fun b => { b with
          got := true, part := hdr.more, complete := b.complete || (f.flag DBL.page DBL.DBL_STAT.FULL_COPY && !hdr.full) })) ∧ (x = (if hdr.full then (g.setStale true).setReady false else g)) ∧ accept = (hdr.notice && x.flag DBL.page DBL.DBL_STAT.READY) ∧ s.dev.dblOn = true ∧ s.dev.pageUp DBL.page = true ∧ s.dev.dblUp = true ∧ d.isOwner = false ∧ d.dbl.sameSide = false ∧ d.dbl.taken ≠ some hdr.time)
    ∧ (∃ (s : State) (crcOk : Bool) (hdr : TwinHeader) (mismatch : BitVec 5) (edge : RxEdge), (s.dev.dblOn = false ∨ s.dev.pageUp DBL.page = false ∨ s.dev.dblUp = false ∨ s.dev.isOwner = false))
    ∧ (∃ (s : State) (hdr : TwinHeader) (mismatch : BitVec 5) (edge : RxEdge), s.dev.dblOn = true ∧ s.dev.pageUp DBL.page = true ∧ s.dev.dblUp = true ∧ s.dev.isOwner = true)
    ∧ (∃ (s : State) (hdr : TwinHeader) (mismatch : BitVec 5) (edge : RxEdge) (c d e : Dev), (c = ((s.dev.checkTwin hdr).setDbl (fun b => { b with
          awaiting := false, sent := [], t4 := s.dev.rxStamp 48 edge })).setFlag DBL.page DBL.DBL_STAT.TWIN_READY hdr.ready) ∧ (d = (if c.dbl.queue.isEmpty && !c.dbl.needFull then c.set DBL.page DBL.DBL_STAT.FULL_COPY 0 else c)) ∧ (e = (if mismatch = 0 then d else
          let x := ((d.incSat DBL.page DBL.COPY_ERR.DIGEST_CNT).raise DBL.page DBL.INT_RAW.DIGEST).count 0xD84
          let again := (x.fullCopy (x.now + 1)).filter (fun i => (itemOrder i == 2 && mismatch.getLsbD 0)
            || (itemOrder i == 3 && mismatch.getLsbD 2) || (itemOrder i == 4 && mismatch.getLsbD 1))
          (x.setDbl (fun b => { b with queue := b.queue ++ again })).setFlag DBL.page DBL.DBL_STAT.FULL_COPY
            (x.flag DBL.page DBL.DBL_STAT.FULL_COPY || !again.isEmpty))) ∧ (∀ h, e.dbl.hand = some h → h.e1 = none) ∧ s.dev.dblOn = true ∧ s.dev.pageUp DBL.page = true ∧ s.dev.dblUp = true ∧ s.dev.isOwner = true)
    ∧ (∃ (s : State) (hdr : TwinHeader) (mismatch : BitVec 5) (edge : RxEdge) (c d : Dev) (h : Handover), mismatch = 0 ∧ (c = ((s.dev.checkTwin hdr).setDbl (fun b => { b with
          awaiting := false, sent := [], t4 := s.dev.rxStamp 48 edge })).setFlag DBL.page DBL.DBL_STAT.TWIN_READY hdr.ready) ∧ (d = (if c.dbl.queue.isEmpty && !c.dbl.needFull then c.set DBL.page DBL.DBL_STAT.FULL_COPY 0 else c)) ∧ s.dev.dblOn = true ∧ s.dev.pageUp DBL.page = true ∧ s.dev.dblUp = true ∧ s.dev.isOwner = true ∧ d.dbl.hand = some h ∧ h.e1 ≠ none)
    ∧ (∃ (s : State) (acc : Accessor), MayWrite s.dev acc DBL.page) :=
  ⟨⟨stW ({ (devW [(DBL.page, DBL.DBL_CFG.ENABLE, 1, 0), (DBL.page, DBL.DBL_STAT.DL1_UP, 1, 0), (DBL.page, DBL.DBL_STAT.OWNER, 1, 0)]) with now := secU } : Dev), 0, 0, 0, by and_intros <;> decide +kernel⟩,
   ⟨stW (devW [(DBL.page, DBL.DBL_CFG.ENABLE, 1, 0), (DBL.page, DBL.DBL_STAT.DL1_UP, 0, 0), (DBL.page, DBL.DBL_STAT.OWNER, 0, 0)]), false, ⟨true, true, 0, false, false, false, 0, 0, false⟩, [], ⟨0, 0, 0⟩, 0, by decide +kernel⟩,
   ⟨stW (devW [(DBL.page, DBL.DBL_CFG.ENABLE, 1, 0), (DBL.page, DBL.DBL_STAT.DL1_UP, 1, 0), (DBL.page, DBL.DBL_STAT.OWNER, 0, 0)]), ⟨true, true, 0, false, false, false, 0, 0, false⟩, [], ⟨0, 0, 0⟩, 0, by and_intros <;> decide +kernel⟩,
   ⟨stW (devW [(DBL.page, DBL.DBL_CFG.ENABLE, 1, 0), (DBL.page, DBL.DBL_STAT.DL1_UP, 1, 0), (DBL.page, DBL.DBL_STAT.OWNER, 1, 0)]), ⟨true, true, 0, false, false, false, 0, 0, false⟩, [], ⟨0, 0, 0⟩, 0, _, rfl, by and_intros <;> decide +kernel⟩,
   ⟨stW (devW [(DBL.page, DBL.DBL_CFG.ENABLE, 1, 0), (DBL.page, DBL.DBL_STAT.DL1_UP, 1, 0), (DBL.page, DBL.DBL_STAT.OWNER, 0, 0)]), ⟨true, true, 0, false, false, false, 0, 0, false⟩, [], ⟨0, 0, 0⟩, 0, _, _, _, _, _, _, _, rfl, rfl, rfl, rfl, rfl, rfl, rfl, by and_intros <;> decide +kernel⟩,
   ⟨stW (devW [(DBL.page, DBL.DBL_CFG.ENABLE, 1, 0), (DBL.page, DBL.DBL_STAT.DL1_UP, 1, 0), (DBL.page, DBL.DBL_STAT.OWNER, 0, 0)]), false, ⟨true, true, 0, false, false, false, 0, 0, false⟩, 0, ⟨0, 0, 0⟩, by decide +kernel⟩,
   ⟨stW (devW [(DBL.page, DBL.DBL_CFG.ENABLE, 1, 0), (DBL.page, DBL.DBL_STAT.DL1_UP, 1, 0), (DBL.page, DBL.DBL_STAT.OWNER, 1, 0)]), ⟨true, false, 0, false, false, false, 0, 0, false⟩, 0, ⟨0, 0, 0⟩, by and_intros <;> decide +kernel⟩,
   ⟨stW (devW [(DBL.page, DBL.DBL_CFG.ENABLE, 1, 0), (DBL.page, DBL.DBL_STAT.DL1_UP, 1, 0), (DBL.page, DBL.DBL_STAT.OWNER, 1, 0)]), ⟨true, false, 0, false, false, false, 0, 0, false⟩, 3, ⟨0, 0, 0⟩, _, _, _, rfl, rfl, rfl, (by intro h g; have k := ((by decide +kernel : _ = (none : Option Handover)).symm.trans g); cases k), by and_intros <;> decide +kernel⟩,
   ⟨stW (((devW [(DBL.page, DBL.DBL_CFG.ENABLE, 1, 0), (DBL.page, DBL.DBL_STAT.DL1_UP, 1, 0), (DBL.page, DBL.DBL_STAT.OWNER, 1, 0)])).setDbl (fun b => { b with hand := some ⟨some 0, false⟩ })), ⟨true, false, 0, false, false, false, 0, 0, false⟩, _, ⟨0, 0, 0⟩, _, _, ⟨some 0, false⟩, rfl, rfl, rfl, by and_intros <;> decide +kernel⟩,
   ⟨stW upDev, .firmware, by decide +kernel⟩⟩

theorem witness_RecoveryWindow :
    (∃ (s : State) (acc : Accessor) (t : TableId), Reach s.dev DBL.page ∧ dblTable (winTable s.dev dblWin acc) = some t)
    ∧ (∃ (s : State) (acc : Accessor), Reach s.dev DBL.page ∧ dblTable (winTable s.dev dblWin acc) = none)
    ∧ (∃ (s : State) (acc : Accessor) (t : TableId), MayWrite s.dev acc DBL.page ∧ dblTable (winTable s.dev dblWin acc) = some t ∧ entryBad t (winData s.dev dblWin acc) = false)
    ∧ (∃ (s : State) (acc : Accessor), (∀ t, dblTable (winTable s.dev dblWin acc) = some t → entryBad t (winData s.dev dblWin acc) = true) ∧ MayWrite s.dev acc DBL.page)
    ∧ (∃ (s : State) (acc : Accessor), MayWrite s.dev acc DBL.page ∧ winTable s.dev dblWin acc = 1)
    ∧ (∃ (s : State) (acc : Accessor), MayWrite s.dev acc DBL.page ∧ winTable s.dev dblWin acc ≠ 1)
    ∧ (∃ (s : State) (handle : Fin 16384) (w : Data), w = s.dev.lookupWord .recv handle ∧ bitOf w 63 = true ∧ bitOf w 60 = false ∧ (tget (fun _ => 0) s.dev.recLast handle + bitsOf w 54 48 * 1000000 * nsU ≤ s.dev.now)) :=
  ⟨⟨stW (devW [(DBL.page, DBL.ENTRY_ADDR.INDEX, 0, Accessor.firmware.idx), (DBL.page, DBL.ENTRY_ADDR.TABLE, 1, Accessor.firmware.idx)]), .firmware, .recv, by and_intros <;> decide +kernel⟩,
   ⟨stW (devW [(DBL.page, DBL.ENTRY_ADDR.INDEX, 0, Accessor.firmware.idx), (DBL.page, DBL.ENTRY_ADDR.TABLE, 2, Accessor.firmware.idx)]), .firmware, by and_intros <;> decide +kernel⟩,
   ⟨stW (devW [(DBL.page, DBL.ENTRY_ADDR.INDEX, 0, Accessor.firmware.idx), (DBL.page, DBL.ENTRY_ADDR.TABLE, 1, Accessor.firmware.idx), (DBL.page, DBL.ENTRY_MID.DATA_MID, (2 * 2 ^ 23 + 2 ^ 16), Accessor.firmware.idx)]), .firmware, .recv, by and_intros <;> decide +kernel⟩,
   ⟨stW (devW [(DBL.page, DBL.ENTRY_ADDR.INDEX, 0, Accessor.firmware.idx), (DBL.page, DBL.ENTRY_ADDR.TABLE, 1, Accessor.firmware.idx)]), .firmware, (by intro t h; rw [← Option.some.inj ((by decide +kernel : dblTable _ = some .recv).symm.trans h)]; decide +kernel), by decide +kernel⟩,
   ⟨stW (devW [(DBL.page, DBL.ENTRY_ADDR.INDEX, 0, Accessor.firmware.idx), (DBL.page, DBL.ENTRY_ADDR.TABLE, 1, Accessor.firmware.idx)]), .firmware, by and_intros <;> decide +kernel⟩,
   ⟨stW upDev, .firmware, by and_intros <;> decide +kernel⟩,
   ⟨stW ({ (upDev).setEntry .recv 0 (2 ^ 63 + 127 * 2 ^ 48) with now := secU } : Dev), 0, _, rfl, by and_intros <;> decide +kernel⟩⟩

theorem witness_MailboxSendAndReceive :
    (∃ (s : State) (acc : Accessor) (ch : Fin 32) (fw : Bool) (mid : BitVec 32) (payload : List (BitVec 8)) (n : Data) (m : List Host.Cell) (d : Dev), n = s.dev.mbxNotice acc ch fw mid ∧ m = s.dev.storePayload s.dram acc ch fw mid payload ∧ d = ((s.dev.mbxStore ch fw n).mbxRing ch fw).mbxCarry ch n (readPayload m ch n) ∧ mbxReach acc ch = true ∧ s.dev.pageUp (mbxPage ch) = true ∧ s.dev.pageHeld (mbxPage ch) = false ∧ mbxSender acc ch fw = true ∧ (28 ≤ (ch : Nat) → s.dev.twinLink = true) ∧ s.dev.mbxFull ch fw = false)
    ∧ (∃ (s : State) (acc : Accessor) (ch : Fin 32) (fw : Bool) (mid : BitVec 32) (payload : List (BitVec 8)) (n : Data) (m : List Host.Cell), n = s.dev.mbxNotice acc ch fw mid ∧ m = s.dev.storePayload s.dram acc ch fw mid payload ∧ mbxReach acc ch = true ∧ s.dev.pageUp (mbxPage ch) = true ∧ s.dev.pageHeld (mbxPage ch) = false ∧ mbxSender acc ch fw = true ∧ (28 ≤ (ch : Nat) → s.dev.twinLink = true) ∧ s.dev.mbxFull ch fw = true)
    ∧ (∃ (s : State) (acc : Accessor) (ch : Fin 32) (fw : Bool) (mid : BitVec 32) (payload : List (BitVec 8)) (n : Data) (m : List Host.Cell), n = s.dev.mbxNotice acc ch fw mid ∧ m = s.dev.storePayload s.dram acc ch fw mid payload ∧ mbxReach acc ch = true ∧ s.dev.pageUp (mbxPage ch) = true ∧ s.dev.pageHeld (mbxPage ch) = false ∧ mbxSender acc ch fw = true ∧ 28 ≤ (ch : Nat) ∧ s.dev.twinLink = false)
    ∧ (∃ (s : State) (acc : Accessor) (ch : Fin 32) (fw : Bool) (mid : BitVec 32) (payload : List (BitVec 8)), mbxReach acc ch = true ∧ s.dev.pageUp (mbxPage ch) = true ∧ s.dev.pageHeld (mbxPage ch) = false ∧ mbxSender acc ch fw = false ∧ mbxReceiver acc ch fw = true)
    ∧ (∃ (s : State) (acc : Accessor) (ch : Fin 32) (fw : Bool), mbxReach acc ch = false)
    ∧ (∃ (s : State) (acc : Accessor) (ch : Fin 32) (fw : Bool), mbxReach acc ch = true ∧ s.dev.pageUp (mbxPage ch) = false)
    ∧ (∃ (s : State) (acc : Accessor) (ch : Fin 32) (fw : Bool) (e : Dev), e = s.dev.emit (.reply "mailbox" [0, 0]) ∧ mbxReach acc ch = true ∧ s.dev.pageUp (mbxPage ch) = true ∧ s.dev.pageHeld (mbxPage ch) = false ∧ s.dev.mbxFull ch fw = false)
    ∧ (∃ (s : State) (acc : Accessor) (ch : Fin 32) (fw : Bool) (n : Data) (e : Dev), n = s.dev.noticeHeld (mbxNo ch fw) ∧ e = (s.dev.seen .notice (mbxNo ch fw)).emit (.reply "mailbox" [bitsOf n 31 0, bitsOf n 63 32]) ∧ mbxReach acc ch = true ∧ s.dev.pageUp (mbxPage ch) = true ∧ s.dev.pageHeld (mbxPage ch) = false ∧ s.dev.mbxFull ch fw = true ∧ (acc.isFw = fw ∨ (28 ≤ (ch : Nat) ∧ acc.isFw = false)))
    ∧ (∃ (s : State) (acc : Accessor) (ch : Fin 32) (fw : Bool) (n : Data) (d e : Dev), d = (((((s.dev.mbxSet ch (mbxDir fw).ecc 0).mbxEmpty ch fw).mbxAck ch fw).mbxMirror ch).emit (.reply "mailbox" [bitsOf n 31 0, bitsOf n 63 32])).twinReports ch n ∧ (e = (if !fw && noticeKind n == 0 && decide ((ch : Nat) < 28) then d.setFwCmd ch (d.fwCmd ch ++ [n]) else d)) ∧ mbxReach acc ch = true ∧ s.dev.pageUp (mbxPage ch) = true ∧ s.dev.pageHeld (mbxPage ch) = false ∧ s.dev.mbxFull ch fw = true ∧ acc.isFw ≠ fw ∧ ((ch : Nat) < 28 ∨ acc.isFw = true) ∧ s.dev.readNative .notice (mbxNo ch fw) = .clean n) :=
  ⟨⟨stW (devW [(DBL.page, DBL.DBL_STAT.DL0_UP, 1, 0)]), .firmware, 31, true, 0, [], _, _, _, rfl, rfl, rfl, by and_intros <;> decide +kernel⟩,
   ⟨stW (((devW [(DBL.page, DBL.DBL_STAT.DL0_UP, 1, 0)])).mbxSet 31 (mbxDir true).full 1), .firmware, 31, true, 0, [], _, _, rfl, rfl, by and_intros <;> decide +kernel⟩,
   ⟨stW (devW [(DBL.page, DBL.DBL_STAT.DL0_UP, 0, 0)]), .firmware, 28, true, 0, [], _, _, rfl, rfl, by and_intros <;> decide +kernel⟩,
   ⟨stW upDev, .firmware, 0, false, 0, [], by and_intros <;> decide +kernel⟩,
   ⟨stW upDev, .host0, 16, false, by decide +kernel⟩,
   ⟨State.reset, .firmware, 0, false, by and_intros <;> decide +kernel⟩,
   ⟨stW upDev, .firmware, 0, false, _, rfl, by and_intros <;> decide +kernel⟩,
   ⟨stW ((upDev).mbxSet 0 (mbxDir true).full 1), .firmware, 0, true, _, _, rfl, rfl, by and_intros <;> decide +kernel⟩,
   ⟨stW ((upDev).mbxSet 27 (mbxDir true).full 1), .host1, 27, true, 0, _, _, rfl, rfl, by and_intros <;> decide +kernel⟩⟩

theorem witness_MailboxWaits :
    (∃ (s : State) (acc : Accessor) (ch : Fin 32), mbxReach acc ch = true ∧ MayWrite s.dev acc (mbxPage ch))
    ∧ (∃ (s : State) (acc : Accessor) (ch : Fin 32), mbxReach acc ch = true ∧ MayWrite s.dev acc (mbxPage ch))
    ∧ (∃ (s : State) (ch : Fin 32) (p w : Nat) (d e : Dev), p = mbxPage ch ∧ d = (s.dev.mbxSet ch MBX.CH_STAT.CROSSED 1).mbxSet ch MBX.CH_CNT.CROSSED_CNT
        (min ((s.dev.mbxSet ch MBX.CH_STAT.CROSSED 1).mbxGet ch MBX.CH_CNT.CROSSED_CNT + 1) 255) ∧ w = d.get p MBX.MB_CROSSED.CROSSED ∧ (e = d.set p MBX.MB_CROSSED.CROSSED (if w.testBit (ch % 16) then w else w + 2 ^ ((ch : Nat) % 16))) ∧ s.dev.mbxFull ch false = true ∧ s.dev.mbxFull ch true = true ∧ s.dev.mbxGet ch MBX.CH_STAT.TOFW_WAIT = 1 ∧ s.dev.mbxGet ch MBX.CH_STAT.FROMFW_WAIT = 1 ∧ s.dev.mbxGet ch MBX.CH_STAT.CROSSED = 0)
    ∧ (∃ (s : State) (ch : Fin 4) (what : TwinMbx), s.dev.twinLink = false)
    ∧ (∃ (s : State) (ch : Fin 4) (n : Data) (payload : List (BitVec 8)) (m : List Host.Cell), m = (match payloadAddr (28 + ch) n with
        | some a => memWrite s.dram a ((payload.take 4096).take (noticeLen n))
        | none => s.dram) ∧ s.dev.twinLink = true ∧ s.dev.mbxFull (28 + ch) false = false)
    ∧ (∃ (s : State) (ch : Fin 4) (full wait : Bool) (d : Dev), (d = (if full then s.dev else if s.dev.mbxFull (28 + ch) true then (s.dev.mbxEmpty (28 + ch) true).mbxAck (28 + ch) true else s.dev)) ∧ s.dev.twinLink = true) :=
  ⟨⟨stW upDev, .firmware, 0, by and_intros <;> decide +kernel⟩,
   ⟨stW upDev, .firmware, 0, by and_intros <;> decide +kernel⟩,
   ⟨stW (((((upDev).mbxSet 0 (mbxDir true).full 1).mbxSet 0 (mbxDir false).full 1).mbxSet 0 MBX.CH_STAT.TOFW_WAIT 1).mbxSet 0 MBX.CH_STAT.FROMFW_WAIT 1), 0, _, _, _, _, rfl, rfl, rfl, rfl, by and_intros <;> decide +kernel⟩,
   ⟨stW (devW [(DBL.page, DBL.DBL_STAT.DL0_UP, 0, 0)]), 0, (.mirror true false), by decide +kernel⟩,
   ⟨stW (devW [(DBL.page, DBL.DBL_STAT.DL0_UP, 1, 0)]), 3, 0, [], _, rfl, by and_intros <;> decide +kernel⟩,
   ⟨stW (devW [(DBL.page, DBL.DBL_STAT.DL0_UP, 1, 0)]), 0, false, false, _, rfl, by decide +kernel⟩⟩

theorem witness_SystemAndPageCommands :
    (∃ (s : State) (ch : Fin 32) (n : Data) (rest : List Data) (ws : List Nat) (d e : Dev), d = s.dev.setFwCmd ch rest ∧ ws = payloadWords (readPayload s.dram ch n) ∧ e = (d.fwReply ch n 0
        [getBits (d.rd SVC.page SVC.FW_VER.MAJOR.off) 24 8 * 2 ^ 48 + getBits (d.rd SVC.page SVC.FW_VER.MAJOR.off) 16 8 * 2 ^ 32
          + getBits (d.rd SVC.page SVC.FW_VER.MAJOR.off) 0 16, d.get SVC.page SVC.FW_STAT.IMAGE]) ∧ s.dev.fwCmd ch = n :: rest ∧ s.dev.fwRuns = true ∧ noticeFamily n = 0 ∧ noticeCode n = 1 ∧ s.dev.fwCheck ch n = none)
    ∧ (∃ (s : State) (ch : Fin 32) (n : Data) (rest : List Data) (ws : List Nat) (d e : Dev), d = s.dev.setFwCmd ch rest ∧ ws = payloadWords (readPayload s.dram ch n) ∧ e = (d.fwReply ch n 0 []).restartSame ∧ s.dev.fwCmd ch = n :: rest ∧ s.dev.fwRuns = true ∧ noticeFamily n = 0 ∧ noticeCode n = 2 ∧ s.dev.fwCheck ch n = none)
    ∧ (∃ (s : State) (ch : Fin 32) (n : Data) (rest : List Data) (ws : List Nat) (d e : Dev), d = s.dev.setFwCmd ch rest ∧ ws = payloadWords (readPayload s.dram ch n) ∧ (e = (d.fwReply ch n 0 ((List.range svcCount).map (fun k =>
        (if k = 8 then 4 else d.get SVC.page SVC.SVC_STAT.CORE_NOW k) * 2 ^ 8 + d.get SVC.page SVC.SVC_STAT.LOAD k)))) ∧ s.dev.fwCmd ch = n :: rest ∧ s.dev.fwRuns = true ∧ noticeFamily n = 0 ∧ noticeCode n = 3 ∧ s.dev.fwCheck ch n = none)
    ∧ (∃ (s : State) (ch : Fin 32) (n : Data) (rest : List Data) (ws : List Nat) (d e : Dev) (page ms : Nat), d = s.dev.setFwCmd ch rest ∧ ws = payloadWords (readPayload s.dram ch n) ∧ (e = ({ d with pageHolds := tset (fun _ => none) d.pageHolds page (some (d.now + ms * 1000000 * nsU)) } : Dev).fwReply ch n 0 []) ∧ s.dev.fwCmd ch = n :: rest ∧ s.dev.fwRuns = true ∧ noticeFamily n = 1 ∧ noticeCode n = 1 ∧ s.dev.fwCheck ch n = none ∧ page = fieldAt ws 0 15 0 ∧ ms = fieldAt ws 0 31 16 ∧ (pageOf page).isSome = true ∧ 0 < ms ∧ ms ≤ 60000 ∧ d.owns (chHost ch) page = true ∧ d.hostHolds page = false)
    ∧ (∃ (s : State) (ch : Fin 32) (n : Data) (rest : List Data) (ws : List Nat) (d e : Dev) (page ms : Nat), d = s.dev.setFwCmd ch rest ∧ ws = payloadWords (readPayload s.dram ch n) ∧ e = d.fwReply ch n 5 [] ∧ s.dev.fwCmd ch = n :: rest ∧ s.dev.fwRuns = true ∧ noticeFamily n = 1 ∧ noticeCode n = 1 ∧ s.dev.fwCheck ch n = none ∧ page = fieldAt ws 0 15 0 ∧ ms = fieldAt ws 0 31 16 ∧ (pageOf page).isSome = true ∧ 0 < ms ∧ ms ≤ 60000 ∧ d.owns (chHost ch) page = false)
    ∧ (∃ (s : State) (ch : Fin 32) (n : Data) (rest : List Data) (ws : List Nat) (d e : Dev) (page ms : Nat), d = s.dev.setFwCmd ch rest ∧ ws = payloadWords (readPayload s.dram ch n) ∧ e = d.fwReply ch n 6 [] ∧ s.dev.fwCmd ch = n :: rest ∧ s.dev.fwRuns = true ∧ noticeFamily n = 1 ∧ noticeCode n = 1 ∧ s.dev.fwCheck ch n = none ∧ page = fieldAt ws 0 15 0 ∧ ms = fieldAt ws 0 31 16 ∧ (pageOf page).isSome = true ∧ 0 < ms ∧ ms ≤ 60000 ∧ d.owns (chHost ch) page = true ∧ d.hostHolds page = true)
    ∧ (∃ (s : State) (ch : Fin 32) (n : Data) (rest : List Data) (bs : List (BitVec 8)) (r t : State) (page : Nat) (u : State), r = { s with dev := s.dev.setFwCmd ch rest } ∧ bs = readPayload s.dram ch n ∧ (u = (if r.dev.hostHolds page then holdOver page r else r)) ∧ t = { u with dev := u.dev.fwReply ch n 0 [] } ∧ s.dev.fwCmd ch = n :: rest ∧ s.dev.fwRuns = true ∧ noticeFamily n = 1 ∧ noticeCode n = 2 ∧ s.dev.fwCheck ch n = none ∧ page = fieldAt (payloadWords bs) 0 15 0 ∧ (pageOf page).isSome = true)
    ∧ (∃ (s : State) (page : BitVec 16) (t : Nat), (tget (fun _ => none) s.dev.pageHolds page.toNat = some t) ∧ t ≤ s.dev.now)
    ∧ (∃ (s : State) (page : BitVec 16), (∀ t, tget (fun _ => none) s.dev.pageHolds page.toNat = some t → s.dev.now < t))
    ∧ (∃ (s : State) (ch : Fin 32) (n : Data) (rest : List Data) (ws : List Nat) (d e : Dev) (page i : Nat) (t : PageType), d = s.dev.setFwCmd ch rest ∧ ws = payloadWords (readPayload s.dram ch n) ∧ (e = (d.setOwner page (if d.imageRuns && d.startOwner t == 3 then 3 else 1)).pageGiven.fwReply ch n 0 []) ∧ s.dev.fwCmd ch = n :: rest ∧ s.dev.fwRuns = true ∧ noticeFamily n = 1 ∧ noticeCode n = 3 ∧ s.dev.fwCheck ch n = none ∧ page = fieldAt ws 0 15 0 ∧ pageOf page = some (t, i) ∧ ownerFixed t = false ∧ d.owns (chHost ch) page = true)
    ∧ (∃ (s : State) (ch : Fin 32) (n : Data) (rest : List Data) (bs : List (BitVec 8)) (r t : State) (x : State × Option (Nat × Nat × Word)), r = { s with dev := s.dev.setFwCmd ch rest } ∧ bs = readPayload s.dram ch n ∧ x = pageWrites (chFw ch) (writeList (payloadWords bs)) r ∧ t = { x.1 with dev := x.1.dev.fwReply ch n 0 [x.1.dev.commitWord (((writeList (payloadWords bs)).getLast?.map (·.1)).getD 0)] } ∧ s.dev.fwCmd ch = n :: rest ∧ s.dev.fwRuns = true ∧ noticeFamily n = 1 ∧ noticeCode n = 4 ∧ s.dev.fwCheck ch n = none ∧ (writeList (payloadWords bs)).findSome? (r.dev.writeBad ch) = none ∧ x.2 = none)
    ∧ (∃ (s : State) (ch : Fin 32) (n : Data) (rest : List Data) (bs : List (BitVec 8)) (r t : State) (x : State × Option (Nat × Nat × Word)) (page off : Nat) (v : Word), r = { s with dev := s.dev.setFwCmd ch rest } ∧ bs = readPayload s.dram ch n ∧ x = pageWrites (chFw ch) (writeList (payloadWords bs)) r ∧ t = ({ r with dev := ((r.dev.rejectCommit page (x.1.dev.get page COM.COMMIT_STAT.CODE) (x.1.dev.get page COM.ERR_INFO.DETAIL)).fwRefused
          ch n page (x.1.dev.get page COM.COMMIT_STAT.CODE)) }) ∧ s.dev.fwCmd ch = n :: rest ∧ s.dev.fwRuns = true ∧ noticeFamily n = 1 ∧ noticeCode n = 4 ∧ s.dev.fwCheck ch n = none ∧ (writeList (payloadWords bs)).findSome? (r.dev.writeBad ch) = none ∧ x.2 = some (page, off, v) ∧ off < 0x40)
    ∧ (∃ (s : State) (ch : Fin 32) (n : Data) (rest : List Data) (bs : List (BitVec 8)) (r t : State) (x : State × Option (Nat × Nat × Word)) (page off : Nat) (v : Word), r = { s with dev := s.dev.setFwCmd ch rest } ∧ bs = readPayload s.dram ch n ∧ x = pageWrites (chFw ch) (writeList (payloadWords bs)) r ∧ t = { r with dev := r.dev.fwRefused ch n page 0 } ∧ s.dev.fwCmd ch = n :: rest ∧ s.dev.fwRuns = true ∧ noticeFamily n = 1 ∧ noticeCode n = 4 ∧ s.dev.fwCheck ch n = none ∧ (writeList (payloadWords bs)).findSome? (r.dev.writeBad ch) = none ∧ x.2 = some (page, off, v) ∧ 0x40 ≤ off)
    ∧ (∃ (s : State) (ch : Fin 32) (n : Data) (rest : List Data) (bs : List (BitVec 8)) (r t : State) (st : Nat), r = { s with dev := s.dev.setFwCmd ch rest } ∧ bs = readPayload s.dram ch n ∧ t = { r with dev := r.dev.fwReply ch n st [] } ∧ s.dev.fwCmd ch = n :: rest ∧ s.dev.fwRuns = true ∧ noticeFamily n = 1 ∧ noticeCode n = 4 ∧ s.dev.fwCheck ch n = none ∧ (writeList (payloadWords bs)).findSome? (r.dev.writeBad ch) = some st) :=
  ⟨⟨(fwW 0 1 16 16 [] upDev), 16, (fwN 0 1 16 16), [], _, _, _, rfl, rfl, rfl, by and_intros <;> decide +kernel⟩,
   ⟨(fwW 0 2 0 16 [] upDev), 16, (fwN 0 2 0 16), [], _, _, _, rfl, rfl, rfl, by and_intros <;> decide +kernel⟩,
   ⟨(fwW 0 3 72 16 [] upDev), 16, (fwN 0 3 72 16), [], _, _, _, rfl, rfl, rfl, by and_intros <;> decide +kernel⟩,
   ⟨(fwW 1 1 8 16 [60000 * 2 ^ 16] (devW [(GLB.page, COM.CTRL.OWNER, 2, 0)])), 16, (fwN 1 1 8 16), [], _, _, _, 0, 60000, rfl, rfl, rfl, by and_intros <;> decide +kernel⟩,
   ⟨(fwW 1 1 8 16 [2 ^ 16] (devW [(GLB.page, COM.CTRL.OWNER, 1, 0)])), 16, (fwN 1 1 8 16), [], _, _, _, 0, 1, rfl, rfl, rfl, by and_intros <;> decide +kernel⟩,
   ⟨(fwW 1 1 8 16 [60000 * 2 ^ 16] { (devW [(GLB.page, COM.CTRL.OWNER, 2, 0)]) with pageHolds := [(0, some 0)] }), 16, (fwN 1 1 8 16), [], _, _, _, 0, 60000, rfl, rfl, rfl, by and_intros <;> decide +kernel⟩,
   ⟨(fwW 1 2 8 16 [0] { (devW [(GLB.page, COM.CTRL.OWNER, 2, 0)]) with pageHolds := [(0, some 0)] }), 16, (fwN 1 2 8 16), [], _, _, _, 0, _, rfl, rfl, rfl, rfl, by and_intros <;> decide +kernel⟩,
   ⟨stW ({ upDev with pageHolds := [(0, some 0)] } : Dev), 0, 0, by and_intros <;> decide +kernel⟩,
   ⟨stW upDev, 0, by decide +kernel⟩,
   ⟨(fwW 1 3 8 16 [0] (devW [(GLB.page, COM.CTRL.OWNER, 2, 0)])), 16, (fwN 1 3 8 16), [], _, _, _, 0, 0, .glb, rfl, rfl, rfl, by and_intros <;> decide +kernel⟩,
   ⟨(fwW 1 4 8 16 [0] upDev), 16, (fwN 1 4 8 16), [], _, _, _, _, rfl, rfl, rfl, rfl, by and_intros <;> decide +kernel⟩,
   ⟨(fwW 1 4 16 16 [17 * 2 ^ 48 + 0x70 * 2 ^ 36 + 2 ^ 26, 17 * 2 ^ 48 + 0x1C * 2 ^ 36 + 1] upDev), 16, (fwN 1 4 16 16), [], _, _, _, _, 17, 0x1C, 1, rfl, rfl, rfl, rfl, by and_intros <;> decide +kernel⟩,
   ⟨(fwW 1 4 16 16 [17 * 2 ^ 48 + 0x54 * 2 ^ 36 + 15 * 2 ^ 28, 17 * 2 ^ 48 + 0x64 * 2 ^ 36 + 1] upDev), 16, (fwN 1 4 16 16), [], _, _, _, _, 17, 0x64, 1, rfl, rfl, rfl, rfl, by and_intros <;> decide +kernel⟩,
   ⟨(fwW 1 4 8 16 [0x3FFF * 2 ^ 48] upDev), 16, (fwN 1 4 8 16), [], _, _, _, 4, rfl, rfl, rfl, by and_intros <;> decide +kernel⟩⟩

theorem witness_ServiceCommands :
    (∃ (s : State) (ch : Fin 32) (n : Data) (rest : List Data) (ws : List Nat) (d e : Dev), d = s.dev.setFwCmd ch rest ∧ ws = payloadWords (readPayload s.dram ch n) ∧ (e = ({ d with ptpInst := tset (fun _ => 0) d.ptpInst (wordAt ws 0 % 4) (wordAt ws 0) } : Dev).fwReply ch n 0 []) ∧ (∀ j < 4, j ≠ wordAt ws 0 % 4 → wordAt ws 0 ≠ 0 → wordAt ws 0 / 2 ^ 50 % 4 ≠ 2 →
        tget (fun _ => 0) d.ptpInst j ≠ 0 → tget (fun _ => 0) d.ptpInst j / 2 ^ 50 % 4 ≠ 2 →
        tget (fun _ => 0) d.ptpInst j / 2 ^ 56 ≠ wordAt ws 0 / 2 ^ 56) ∧ s.dev.fwCmd ch = n :: rest ∧ s.dev.fwRuns = true ∧ noticeFamily n = 2 ∧ noticeCode n = 1 ∧ s.dev.fwCheck ch n = none ∧ wordAt ws 0 / 2 ^ 52 % 16 ≤ 5 ∧ wordAt ws 0 / 2 ^ 50 % 4 ≠ 3)
    ∧ (∃ (s : State) (ch : Fin 32) (n : Data) (rest : List Data) (ws : List Nat) (d e : Dev), d = s.dev.setFwCmd ch rest ∧ ws = payloadWords (readPayload s.dram ch n) ∧ (e = ({ d with ptpPort := tset (fun _ => 0) d.ptpPort (wordAt ws 0 / 2 ^ 58) (wordAt ws 0) } : Dev).fwReply ch n 0 []) ∧ s.dev.fwCmd ch = n :: rest ∧ s.dev.fwRuns = true ∧ noticeFamily n = 2 ∧ noticeCode n = 2 ∧ s.dev.fwCheck ch n = none ∧ wordAt ws 0 / 2 ^ 58 < 48 ∧ wordAt ws 0 / 2 ^ 54 % 4 ≤ 1 ∧ wordAt ws 0 / 2 ^ 52 % 4 ≤ 2 ∧ -7 ≤ (BitVec.ofNat 8 (wordAt ws 0 / 2 ^ 40)).toInt ∧ -7 ≤ (BitVec.ofNat 8 (wordAt ws 0 / 2 ^ 24)).toInt)
    ∧ (∃ (s : State) (ch : Fin 32) (n : Data) (rest : List Data) (ws : List Nat) (d e : Dev) (dataset : List (BitVec 8)), d = s.dev.setFwCmd ch rest ∧ ws = payloadWords (readPayload s.dram ch n) ∧ e = d.fwReplyBytes ch n dataset ∧ s.dev.fwCmd ch = n :: rest ∧ s.dev.fwRuns = true ∧ noticeFamily n = 2 ∧ noticeCode n = 3 ∧ s.dev.fwCheck ch n = none ∧ fieldAt ws 0 7 0 ≤ 4 ∧ (fieldAt ws 0 7 0 = 4 → wordAt ws 0 / 2 ^ 58 < 48))
    ∧ (∃ (s : State) (ch : Fin 32) (n : Data) (rest : List Data) (ws : List Nat) (d e : Dev) (port : Nat), d = s.dev.setFwCmd ch rest ∧ ws = payloadWords (readPayload s.dram ch n) ∧ e = d.fwCommit ch n (TSU.page port) (·.setSh .tsu (TSU.page port) TSU.ASYM_PS.ASYM (toField TSU.ASYM_PS.ASYM.wd (signed64 (wordAt ws 1)))) ∧ s.dev.fwCmd ch = n :: rest ∧ s.dev.fwRuns = true ∧ noticeFamily n = 2 ∧ noticeCode n = 4 ∧ s.dev.fwCheck ch n = none ∧ port = wordAt ws 0 / 2 ^ 58 ∧ port < 48 ∧ -2147483648 ≤ signed64 (wordAt ws 1) ∧ signed64 (wordAt ws 1) ≤ 2147483647)
    ∧ (∃ (s : State) (ch : Fin 32) (n : Data) (rest : List Data) (ws : List Nat) (d e : Dev), d = s.dev.setFwCmd ch rest ∧ ws = payloadWords (readPayload s.dram ch n) ∧ e = (d.fwCommit ch n REF.page (·.wrShadow .ref REF.page REF.SLOT_CFG.ENABLE.off (fieldAt ws 0 35 32)
        (BitVec.ofNat 32 (wordAt ws 0)))) ∧ s.dev.fwCmd ch = n :: rest ∧ s.dev.fwRuns = true ∧ noticeFamily n = 3 ∧ noticeCode n = 1 ∧ s.dev.fwCheck ch n = none)
    ∧ (∃ (s : State) (ch : Fin 32) (n : Data) (rest : List Data) (ws : List Nat) (d e : Dev), d = s.dev.setFwCmd ch rest ∧ ws = payloadWords (readPayload s.dram ch n) ∧ e = (d.fwReply ch n 0 [toField 64 (d.getInt REF.page REF.HO_C1.C1), toField 64 (d.getInt REF.page REF.HO_C2.C2),
        toField 64 (d.getInt REF.page REF.HO_C3.C3), toField 64 (d.getInt REF.page REF.HO_AGE.AGE),
        toField 64 (d.getInt REF.page REF.HO_CFG.T0), d.hoFit.1, d.hoFit.2]) ∧ s.dev.fwCmd ch = n :: rest ∧ s.dev.fwRuns = true ∧ noticeFamily n = 3 ∧ noticeCode n = 2 ∧ s.dev.fwCheck ch n = none)
    ∧ (∃ (s : State) (ch : Fin 32) (n : Data) (rest : List Data) (ws : List Nat) (d e : Dev), d = s.dev.setFwCmd ch rest ∧ ws = payloadWords (readPayload s.dram ch n) ∧ e = d.storeModel.fwReply ch n 0 [] ∧ s.dev.fwCmd ch = n :: rest ∧ s.dev.fwRuns = true ∧ noticeFamily n = 3 ∧ noticeCode n = 3 ∧ s.dev.fwCheck ch n = none ∧ d.optBusy = false ∧ d.optNextGen < 2 ^ 32)
    ∧ (∃ (s : State) (ch : Fin 32) (n : Data) (rest : List Data) (ws : List Nat) (d e : Dev), d = s.dev.setFwCmd ch rest ∧ ws = payloadWords (readPayload s.dram ch n) ∧ e = d.fwReply ch n 6 [] ∧ s.dev.fwCmd ch = n :: rest ∧ s.dev.fwRuns = true ∧ noticeFamily n = 3 ∧ noticeCode n = 3 ∧ s.dev.fwCheck ch n = none ∧ d.optBusy = true)
    ∧ (∃ (s : State) (ch : Fin 32) (n : Data) (rest : List Data) (ws : List Nat) (d e : Dev), d = s.dev.setFwCmd ch rest ∧ ws = payloadWords (readPayload s.dram ch n) ∧ e = (d.fwCommit ch n DBL.page (·.wrShadow .dbl DBL.page DBL.RED_CFG.MODE.off (fieldAt ws 0 33 32)
        (BitVec.ofNat 32 (wordAt ws 0)))) ∧ s.dev.fwCmd ch = n :: rest ∧ s.dev.fwRuns = true ∧ noticeFamily n = 4 ∧ noticeCode n = 1 ∧ s.dev.fwCheck ch n = none)
    ∧ (∃ (s : State) (ch : Fin 32) (n : Data) (rest : List Data) (ws : List Nat) (d e : Dev), d = s.dev.setFwCmd ch rest ∧ ws = payloadWords (readPayload s.dram ch n) ∧ e = (((d.writeDblEntry .gen (fieldAt ws 0 13 0) (BitVec.ofNat 64 (wordAt ws 1))).writeDblEntry
        .recv (fieldAt ws 0 13 0) (BitVec.ofNat 64 (wordAt ws 2))).fwReply ch n 0 []) ∧ s.dev.fwCmd ch = n :: rest ∧ s.dev.fwRuns = true ∧ noticeFamily n = 4 ∧ noticeCode n = 2 ∧ s.dev.fwCheck ch n = none ∧ d.fwMayWrite .firmware DBL.page = none ∧ entryBad .gen (BitVec.ofNat 64 (wordAt ws 1)) = false ∧ entryBad .recv (BitVec.ofNat 64 (wordAt ws 2)) = false)
    ∧ (∃ (s : State) (ch : Fin 32) (n : Data) (rest : List Data) (ws : List Nat) (d e : Dev), d = s.dev.setFwCmd ch rest ∧ ws = payloadWords (readPayload s.dram ch n) ∧ (e = ({ d with latent := tset (fun _ => 0) d.latent (fieldAt ws 0 13 0) (wordAt ws 0) } : Dev).fwReply ch n 0 []) ∧ s.dev.fwCmd ch = n :: rest ∧ s.dev.fwRuns = true ∧ noticeFamily n = 4 ∧ noticeCode n = 3 ∧ s.dev.fwCheck ch n = none)
    ∧ (∃ (s : State) (ch : Fin 32) (n : Data) (rest : List Data) (ws : List Nat) (d e : Dev) (x : Nat × Dev), d = s.dev.setFwCmd ch rest ∧ ws = payloadWords (readPayload s.dram ch n) ∧ (x = d.blkPush ((List.range 4).map (fun i => BitVec.ofNat 64 (wordAt ws i))) (some ((ch : Nat), n))) ∧ (e = (if x.1 = 0 then x.2 else if x.1 = 7 then x.2.fwReply ch n 9 []
      else x.2.fwReply ch n 0x0A [x.2.commitWord BLK.page])) ∧ s.dev.fwCmd ch = n :: rest ∧ s.dev.fwRuns = true ∧ noticeFamily n = 5 ∧ noticeCode n = 1 ∧ s.dev.fwCheck ch n = none ∧ d.fwMayWrite .firmware BLK.page = none)
    ∧ (∃ (s : State) (ch : Fin 32) (n : Data) (rest : List Data) (ws : List Nat) (d e : Dev), d = s.dev.setFwCmd ch rest ∧ ws = payloadWords (readPayload s.dram ch n) ∧ (e = ({ d with lldpPort := tset (fun _ => 0) d.lldpPort (wordAt ws 0 / 2 ^ 58) (wordAt ws 0) } : Dev).fwReply ch n 0 []) ∧ s.dev.fwCmd ch = n :: rest ∧ s.dev.fwRuns = true ∧ noticeFamily n = 6 ∧ noticeCode n = 1 ∧ s.dev.fwCheck ch n = none ∧ wordAt ws 0 / 2 ^ 58 < 48)
    ∧ (∃ (s : State) (ch : Fin 32) (n : Data) (rest : List Data) (ws : List Nat) (d e : Dev) (known : List Nat) (x : List Nat × Dev), d = s.dev.setFwCmd ch rest ∧ ws = payloadWords (readPayload s.dram ch n) ∧ (known = (List.range 48).filter (fun p => tget (fun _ => []) d.neigh p != [])) ∧ (x = known.foldl (fun (x : List Nat × Dev) p => (x.1 ++ [p * 2 ^ 58 + x.2.free.1 % 2 ^ 58], x.2.free.2)) ([], d)) ∧ (e = x.2.fwReplyBytes ch n ((x.1.map (bytesLE 8)).flatten ++ (known.map (fun p => tget (fun _ => []) d.neigh p)).flatten)) ∧ s.dev.fwCmd ch = n :: rest ∧ s.dev.fwRuns = true ∧ noticeFamily n = 6 ∧ noticeCode n = 2 ∧ s.dev.fwCheck ch n = none)
    ∧ (∃ (s : State) (ch : Fin 32) (n : Data) (rest : List Data) (bs : List (BitVec 8)) (r t : State), r = { s with dev := s.dev.setFwCmd ch rest } ∧ bs = readPayload s.dram ch n ∧ t = { r with dev := (r.dev.record (r.dev.svcSource 6) 0x11 (markData bs)).fwReply ch n 0 [] } ∧ s.dev.fwCmd ch = n :: rest ∧ s.dev.fwRuns = true ∧ noticeFamily n = 7 ∧ noticeCode n = 1 ∧ s.dev.fwCheck ch n = none ∧ bs.length ≤ 8)
    ∧ (∃ (s : State) (ch : Fin 32) (n : Data) (rest : List Data) (bs : List (BitVec 8)) (r t : State), r = { s with dev := s.dev.setFwCmd ch rest } ∧ bs = readPayload s.dram ch n ∧ (t = ({ r with dev := (r.dev.fwReplyBytes ch n (r.dev.logOrder.foldl (fun a i =>
          exportSlot (wordAt (payloadWords bs) 0 * 1000000000 + wordAt (payloadWords bs) 1)
            (wordAt (payloadWords bs) 2 * 1000000000 + wordAt (payloadWords bs) 3) a (memRead r.dram (logBase + 16 * i) 16))
          ⟨none, [], false, []⟩).bytes) })) ∧ s.dev.fwCmd ch = n :: rest ∧ s.dev.fwRuns = true ∧ noticeFamily n = 7 ∧ noticeCode n = 2 ∧ s.dev.fwCheck ch n = none)
    ∧ (∃ (s : State) (ch : Fin 32) (n : Data) (rest : List Data) (ws : List Nat) (d e : Dev), d = s.dev.setFwCmd ch rest ∧ ws = payloadWords (readPayload s.dram ch n) ∧ (e = (d.fwCommit ch n LKP.page (fun d =>
        ({ d with epashCfg := wordAt ws 0 } : Dev).setSh .lkp LKP.page LKP.LKP_CFG.EPASH_UDP (fieldAt ws 0 15 0)))) ∧ s.dev.fwCmd ch = n :: rest ∧ s.dev.fwRuns = true ∧ noticeFamily n = 8 ∧ noticeCode n = 1 ∧ s.dev.fwCheck ch n = none) :=
  ⟨⟨(fwW 2 1 8 16 [5 * 2 ^ 52 + 3] upDev), 16, (fwN 2 1 8 16), [], _, _, _, rfl, rfl, rfl, (fun j _ _ _ _ h => absurd rfl h), by and_intros <;> decide +kernel⟩,
   ⟨(fwW 2 2 8 16 [47 * 2 ^ 58 + 2 ^ 54 + 2 * 2 ^ 52] upDev), 16, (fwN 2 2 8 16), [], _, _, _, rfl, rfl, rfl, by and_intros <;> decide +kernel⟩,
   ⟨(fwW 2 3 8 16 [47 * 2 ^ 58 + 4] upDev), 16, (fwN 2 3 8 16), [], _, _, _, [], rfl, rfl, rfl, by and_intros <;> decide +kernel⟩,
   ⟨(fwW 2 4 16 16 [47 * 2 ^ 58, 2 ^ 64 - 2147483648] upDev), 16, (fwN 2 4 16 16), [], _, _, _, 47, rfl, rfl, rfl, by and_intros <;> decide +kernel⟩,
   ⟨(fwW 3 1 8 16 [] upDev), 16, (fwN 3 1 8 16), [], _, _, _, rfl, rfl, rfl, by and_intros <;> decide +kernel⟩,
   ⟨(fwW 3 2 56 16 [] upDev), 16, (fwN 3 2 56 16), [], _, _, _, rfl, rfl, rfl, by and_intros <;> decide +kernel⟩,
   ⟨(fwW 3 3 0 16 [] upDev), 16, (fwN 3 3 0 16), [], _, _, _, rfl, rfl, rfl, by and_intros <;> decide +kernel⟩,
   ⟨(fwW 3 3 0 16 [] (devW [(OPT.page, OPT.OPT_STAT.WRITING, 1, 0)])), 16, (fwN 3 3 0 16), [], _, _, _, rfl, rfl, rfl, by and_intros <;> decide +kernel⟩,
   ⟨(fwW 4 1 8 16 [] upDev), 16, (fwN 4 1 8 16), [], _, _, _, rfl, rfl, rfl, by and_intros <;> decide +kernel⟩,
   ⟨(fwW 4 2 24 16 [16383, 0, 2 ^ 63 + 2 * 2 ^ 55 + 2 ^ 48] upDev), 16, (fwN 4 2 24 16), [], _, _, _, rfl, rfl, rfl, by and_intros <;> decide +kernel⟩,
   ⟨(fwW 4 3 8 16 [] upDev), 16, (fwN 4 3 8 16), [], _, _, _, rfl, rfl, rfl, by and_intros <;> decide +kernel⟩,
   ⟨(fwW 5 1 32 16 [2 ^ 60, 0, 0, 0] upDev), 16, (fwN 5 1 32 16), [], _, _, _, _, rfl, rfl, rfl, rfl, by and_intros <;> decide +kernel⟩,
   ⟨(fwW 6 1 8 16 [47 * 2 ^ 58] upDev), 16, (fwN 6 1 8 16), [], _, _, _, rfl, rfl, rfl, by and_intros <;> decide +kernel⟩,
   ⟨(fwW 6 2 0 16 [] { upDev with neigh := [(47, [1])] }), 16, (fwN 6 2 0 16), [], _, _, _, _, _, rfl, rfl, rfl, rfl, rfl, by and_intros <;> decide +kernel⟩,
   ⟨(fwW 7 1 8 16 [] upDev), 16, (fwN 7 1 8 16), [], _, _, _, rfl, rfl, rfl, by and_intros <;> decide +kernel⟩,
   ⟨(fwW 7 2 32 16 [] upDev), 16, (fwN 7 2 32 16), [], _, _, _, rfl, rfl, rfl, by and_intros <;> decide +kernel⟩,
   ⟨(fwW 8 1 8 16 [] upDev), 16, (fwN 8 1 8 16), [], _, _, _, rfl, rfl, rfl, by and_intros <;> decide +kernel⟩⟩

theorem witness_UpdateCommands :
    (∃ (s : State) (ch : Fin 32) (n : Data) (rest : List Data) (ws : List Nat) (d e : Dev) (size i : Nat), d = s.dev.setFwCmd ch rest ∧ ws = payloadWords (readPayload s.dram ch n) ∧ e = ((((({ d.setSlotImage i none with upd := { d.upd with size := size, data := [], staged := none } } : Dev).setUpdSt 1).set
        SVC.page SVC.UPD_STAT.TARGET i).set SVC.page SVC.UPD_STAT.RX_KIB 0).fwReply ch n 0 []) ∧ s.dev.fwCmd ch = n :: rest ∧ s.dev.fwRuns = true ∧ noticeFamily n = 15 ∧ noticeCode n = 1 ∧ s.dev.fwCheck ch n = none ∧ size = fieldAt ws 0 31 0 ∧ 0 < size ∧ size ≤ 2 ^ 24 ∧ d.updSt ≠ 3 ∧ (i = (if d.get SVC.page SVC.FW_STAT.IMAGE = 1 then 1 else 0)))
    ∧ (∃ (s : State) (ch : Fin 32) (n : Data) (rest : List Data) (bs : List (BitVec 8)) (r t : State) (all : List (BitVec 8)), r = { s with dev := s.dev.setFwCmd ch rest } ∧ bs = readPayload s.dram ch n ∧ all = r.dev.upd.data ++ bs.drop 8 ∧ t = ({ r with dev := ((({ r.dev.setSlotImage r.dev.updSlot (some ⟨all, 0, false, false, false⟩) with
          upd := { r.dev.upd with data := all } } : Dev).set SVC.page SVC.UPD_STAT.RX_KIB (all.length / 1024)).fwReply ch n 0 []) }) ∧ s.dev.fwCmd ch = n :: rest ∧ s.dev.fwRuns = true ∧ noticeFamily n = 15 ∧ noticeCode n = 2 ∧ s.dev.fwCheck ch n = none ∧ r.dev.updSt = 1 ∧ wordAt (payloadWords bs) 0 = r.dev.upd.data.length ∧ all.length ≤ r.dev.upd.size ∧ (bs.drop 8).length ≤ 65520)
    ∧ (∃ (s : State) (ch : Fin 32) (n : Data) (rest : List Data) (ws : List Nat) (d e : Dev) (crcOk sigOk : Bool) (version : BitVec 32) (x : FlashImage) (c : Nat) (y : Dev), d = s.dev.setFwCmd ch rest ∧ ws = payloadWords (readPayload s.dram ch n) ∧ x = ⟨d.upd.data, version, crcOk && d.upd.data.length == d.upd.size, sigOk, false⟩ ∧ c = imageCause (some x) ∧ y = (d.setSlotImage d.updSlot (some x)).set SVC.page (failField d.updSlot) c ∧ (e = (if c = 0 then ((({ y with upd := { y.upd with staged := some x } } : Dev).setUpdSt 2)).fwReply ch n 0 []
        else (((if 3 ≤ c then y.raise SEC.page SEC.INT_RAW.AUTH_FAIL else y).setUpdSt 4)).fwReply ch n 0x0B [])) ∧ s.dev.fwCmd ch = n :: rest ∧ s.dev.fwRuns = true ∧ noticeFamily n = 15 ∧ noticeCode n = 3 ∧ s.dev.fwCheck ch n = none ∧ d.updSt = 1)
    ∧ (∃ (s : State) (ch : Fin 32) (n : Data) (rest : List Data) (ws : List Nat) (d e : Dev) (y : Dev), d = s.dev.setFwCmd ch rest ∧ ws = payloadWords (readPayload s.dram ch n) ∧ y = d.fwReply ch n 0 [] ∧ (e = (({ y with
          upd := { y.upd with
            trial := true
            confirmS := if fieldAt ws 0 15 0 = 0 then 600 else fieldAt ws 0 15 0
            prev := y.get SVC.page SVC.FW_STAT.IMAGE } } : Dev).restartBegin (y.updSlot + 1))) ∧ s.dev.fwCmd ch = n :: rest ∧ s.dev.fwRuns = true ∧ noticeFamily n = 15 ∧ noticeCode n = 4 ∧ s.dev.fwCheck ch n = none ∧ d.updSt = 2 ∧ (d.twinRestarts = false ∨ d.flag DBL.page DBL.DBL_CFG.ENABLE = false))
    ∧ (∃ (s : State) (ch : Fin 32) (n : Data) (rest : List Data) (ws : List Nat) (d e : Dev), d = s.dev.setFwCmd ch rest ∧ ws = payloadWords (readPayload s.dram ch n) ∧ e = d.fwReply ch n 0x0C [] ∧ s.dev.fwCmd ch = n :: rest ∧ s.dev.fwRuns = true ∧ noticeFamily n = 15 ∧ noticeCode n = 4 ∧ s.dev.fwCheck ch n = none ∧ d.updSt = 2 ∧ d.twinRestarts = true ∧ d.flag DBL.page DBL.DBL_CFG.ENABLE = true)
    ∧ (∃ (s : State) (ch : Fin 32) (n : Data) (rest : List Data) (ws : List Nat) (d e : Dev) (i : Nat) (y : Dev), d = s.dev.setFwCmd ch rest ∧ ws = payloadWords (readPayload s.dram ch n) ∧ y = (match d.slotImage i with
        | some x => d.setSlotImage i (some { x with confirmed := true })
        | none => d) ∧ e = (((({ y with upd := { y.upd with trial := false, confirmBy := none } } : Dev).setUpdSt 0).set SVC.page SVC.FW_STAT.TRIAL 0 |>.set
        SVC.page (failField i) 0).fwReply ch n 0 []) ∧ s.dev.fwCmd ch = n :: rest ∧ s.dev.fwRuns = true ∧ noticeFamily n = 15 ∧ noticeCode n = 5 ∧ s.dev.fwCheck ch n = none ∧ d.flag SVC.page SVC.FW_STAT.TRIAL = true ∧ d.upd.trial = true ∧ i = d.get SVC.page SVC.FW_STAT.IMAGE - 1)
    ∧ (∃ (s : State) (ch : Fin 32) (n : Data) (rest : List Data) (ws : List Nat) (d e : Dev), d = s.dev.setFwCmd ch rest ∧ ws = payloadWords (readPayload s.dram ch n) ∧ e = d.fwReply ch n 0 [] ∧ s.dev.fwCmd ch = n :: rest ∧ s.dev.fwRuns = true ∧ noticeFamily n = 15 ∧ noticeCode n = 6 ∧ s.dev.fwCheck ch n = none ∧ d.updSt = 0)
    ∧ (∃ (s : State) (ch : Fin 32) (n : Data) (rest : List Data) (ws : List Nat) (d e : Dev), d = s.dev.setFwCmd ch rest ∧ ws = payloadWords (readPayload s.dram ch n) ∧ e = (((({ d.setSlotImage d.updSlot none with upd := { d.upd with size := 0, data := [], staged := none } } : Dev).setUpdSt 0).set
        SVC.page SVC.UPD_STAT.RX_KIB 0).fwReply ch n 0 []) ∧ s.dev.fwCmd ch = n :: rest ∧ s.dev.fwRuns = true ∧ noticeFamily n = 15 ∧ noticeCode n = 6 ∧ s.dev.fwCheck ch n = none ∧ d.updSt ≠ 0 ∧ d.updSt ≠ 3)
    ∧ (∃ (s : State) (ch : Fin 32) (n : Data) (rest : List Data) (ws : List Nat) (d e : Dev), d = s.dev.setFwCmd ch rest ∧ ws = payloadWords (readPayload s.dram ch n) ∧ e = d.fwReply ch n 0 [(d.rd SVC.page SVC.UPD_STAT.STATE.off).toNat] ∧ s.dev.fwCmd ch = n :: rest ∧ s.dev.fwRuns = true ∧ noticeFamily n = 15 ∧ noticeCode n = 7 ∧ s.dev.fwCheck ch n = none) :=
  ⟨⟨(fwW 15 1 8 16 [2 ^ 24] upDev), 16, (fwN 15 1 8 16), [], _, _, _, 2 ^ 24, 1, rfl, rfl, rfl, by and_intros <;> decide +kernel⟩,
   ⟨(fwW 15 2 16 16 [0, 7] { (devW [(SVC.page, SVC.UPD_STAT.STATE, 1, 0)]) with upd := ⟨8, [], none, 0, false, 0, none, none, 0, []⟩ }), 16, (fwN 15 2 16 16), [], _, _, _, _, rfl, rfl, rfl, rfl, by and_intros <;> decide +kernel⟩,
   ⟨(fwW 15 3 0 16 [] (devW [(SVC.page, SVC.UPD_STAT.STATE, 1, 0)])), 16, (fwN 15 3 0 16), [], _, _, _, true, true, 0, _, _, _, rfl, rfl, rfl, rfl, rfl, rfl, by and_intros <;> decide +kernel⟩,
   ⟨(fwW 15 4 8 16 [0] (devW [(SVC.page, SVC.UPD_STAT.STATE, 2, 0)])), 16, (fwN 15 4 8 16), [], _, _, _, _, rfl, rfl, rfl, rfl, by and_intros <;> decide +kernel⟩,
   ⟨(fwW 15 4 8 16 [0] { (devW [(SVC.page, SVC.UPD_STAT.STATE, 2, 0), (DBL.page, DBL.DBL_CFG.ENABLE, 1, 0)]) with twinRestart := some 0 }), 16, (fwN 15 4 8 16), [], _, _, _, rfl, rfl, rfl, by and_intros <;> decide +kernel⟩,
   ⟨(fwW 15 5 0 16 [] { (devW [(SVC.page, SVC.FW_STAT.TRIAL, 1, 0)]) with upd := ⟨8, [], none, 0, true, 0, none, none, 0, []⟩ }), 16, (fwN 15 5 0 16), [], _, _, _, 0, _, rfl, rfl, rfl, rfl, by and_intros <;> decide +kernel⟩,
   ⟨(fwW 15 6 0 16 [] upDev), 16, (fwN 15 6 0 16), [], _, _, _, rfl, rfl, rfl, by and_intros <;> decide +kernel⟩,
   ⟨(fwW 15 6 0 16 [] (devW [(SVC.page, SVC.UPD_STAT.STATE, 2, 0)])), 16, (fwN 15 6 0 16), [], _, _, _, rfl, rfl, rfl, by and_intros <;> decide +kernel⟩,
   ⟨(fwW 15 7 8 16 [] upDev), 16, (fwN 15 7 8 16), [], _, _, _, rfl, rfl, rfl, by and_intros <;> decide +kernel⟩⟩

theorem witness_ServiceRestartsAndPlacement :
    (∃ (s : State) (acc : Accessor), MayWrite s.dev acc SVC.page ∧ s.dev.fwRuns = true)
    ∧ (∃ (s : State) (d : Dev), (d = (List.range 32).foldl (fun (d : Dev) ch => (d.mbxSet ch MBX.CH_STAT.FROMFW_WAIT 0).mbxMirror ch) s.dev) ∧ s.dev.get SVC.page SVC.FW_STAT.STATE = 3 ∧ s.dev.fwDown = false)
    ∧ (∃ (s : State), s.dev.released 6 = false)
    ∧ (∃ (s : State), s.dev.released 6 = true ∧ s.dev.get SVC.page SVC.FW_STAT.STATE = 1)
    ∧ (∃ (s : State), s.dev.released 6 = true ∧ s.dev.get SVC.page SVC.FW_STAT.STATE = 3 ∧ s.dev.fwDown = true)
    ∧ (∃ (s : State), s.dev.due s.dev.upd.confirmBy = true ∧ s.dev.upd.trial = true ∧ s.dev.flag SVC.page SVC.FW_STAT.TRIAL = true ∧ s.dev.fwRuns = true)
    ∧ (∃ (s : State), s.dev.due s.dev.upd.startBy = true ∧ s.dev.upd.trial = true ∧ s.dev.get SVC.page SVC.FW_STAT.STATE = 3)
    ∧ (∃ (s : State) (cores services : List (BitVec 7)), s.dev.imageRuns = false)
    ∧ (∃ (s : State) (cores services : List (BitVec 7)) (c : Nat → Nat) (d : Dev), (c = (fun i => (cores.getD i 0).toNat)) ∧ (d = (List.range svcCount).foldl (fun (d : Dev) n => d.set SVC.page SVC.SVC_STAT.LOAD (services.getD n 0).toNat n)
        ((((s.dev.set SVC.page SVC.CORE_LOAD.SC0 (c 0)).set SVC.page SVC.CORE_LOAD.SC1 (c 1)).set SVC.page SVC.CORE_LOAD.SC2 (c 2)).set
          SVC.page SVC.CORE_LOAD.SC3 (c 3))) ∧ s.dev.imageRuns = true ∧ d.flag SVC.page SVC.PLACE_CFG.AUTO = false)
    ∧ (∃ (s : State) (cores services : List (BitVec 7)) (c : Nat → Nat) (d : Dev), (c = (fun i => (cores.getD i 0).toNat)) ∧ (d = (List.range svcCount).foldl (fun (d : Dev) n => d.set SVC.page SVC.SVC_STAT.LOAD (services.getD n 0).toNat n)
        ((((s.dev.set SVC.page SVC.CORE_LOAD.SC0 (c 0)).set SVC.page SVC.CORE_LOAD.SC1 (c 1)).set SVC.page SVC.CORE_LOAD.SC2 (c 2)).set
          SVC.page SVC.CORE_LOAD.SC3 (c 3))) ∧ s.dev.imageRuns = true ∧ d.flag SVC.page SVC.PLACE_CFG.AUTO = true) :=
  ⟨⟨stW (devW [(SVC.page, SVC.FW_STAT.IMAGE, 1, 0), (SVC.page, SVC.FW_STAT.STATE, 2, 0)]), .firmware, by and_intros <;> decide +kernel⟩,
   ⟨stW (devW [(SVC.page, SVC.FW_STAT.STATE, 3, 0)]), _, rfl, by and_intros <;> decide +kernel⟩,
   ⟨State.reset, by decide +kernel⟩,
   ⟨stW (devW [(SVC.page, SVC.FW_STAT.STATE, 1, 0)]), by and_intros <;> decide +kernel⟩,
   ⟨stW ({ (devW [(SVC.page, SVC.FW_STAT.STATE, 3, 0)]) with fwDown := true } : Dev), by and_intros <;> decide +kernel⟩,
   ⟨stW ({ (devW [(SVC.page, SVC.FW_STAT.TRIAL, 1, 0), (SVC.page, SVC.FW_STAT.IMAGE, 1, 0), (SVC.page, SVC.FW_STAT.STATE, 2, 0)]) with upd := ⟨0, [], none, 1, true, 1, some 0, some 0, 0, []⟩ } : Dev), by and_intros <;> decide +kernel⟩,
   ⟨stW ({ (devW [(SVC.page, SVC.FW_STAT.STATE, 3, 0)]) with upd := ⟨0, [], none, 1, true, 1, some 0, some 0, 0, []⟩ } : Dev), by and_intros <;> decide +kernel⟩,
   ⟨stW upDev, [], [], by decide +kernel⟩,
   ⟨stW (devW [(SVC.page, SVC.FW_STAT.IMAGE, 1, 0), (SVC.page, SVC.FW_STAT.STATE, 2, 0), (SVC.page, SVC.PLACE_CFG.AUTO, 0, 0)]), [], [], _, _, rfl, rfl, by and_intros <;> decide +kernel⟩,
   ⟨stW (devW [(SVC.page, SVC.FW_STAT.IMAGE, 1, 0), (SVC.page, SVC.FW_STAT.STATE, 2, 0), (SVC.page, SVC.PLACE_CFG.AUTO, 1, 0)]), [], [], _, _, rfl, rfl, by and_intros <;> decide +kernel⟩⟩

theorem witness_FrameRings :
    (∃ (s : State) (acc : Accessor) (ring : Fin 16) (tail : BitVec 16), MayWrite s.dev acc PCI.page)
    ∧ (∃ (s : State) (ring : Fin 16) (t : Nat), (s.dev.ring ring).since = some t ∧ s.dev.pageUp PCI.page = true ∧ t + s.dev.get PCI.page PCI.RING_CFG.COAL_US ring * 1000 * nsU ≤ s.dev.now)
    ∧ (∃ (s : State) (ring : Fin 8) (w1 w2 : BitVec 64) (bytes : List (BitVec 8)) (errs : WordErrors), (s.dev.ringRuns ring = false ∨ s.dev.ringOwned ring ≤ s.dev.txPending ring ∨ (s.dev.bpOf 48).testBit ring = true
        ∨ s.dev.released unitFelt = false))
    ∧ (∃ (s : State) (ring : Fin 8) (w1 w2 : BitVec 64) (bytes : List (BitVec 8)) (errs : WordErrors) (st : Nat), s.dev.ringRuns ring = true ∧ s.dev.txPending ring < s.dev.ringOwned ring ∧ (s.dev.bpOf 48).testBit ring = false ∧ s.dev.released unitFelt = true ∧ s.dev.txDescBad ring w1 = some st)
    ∧ (∃ (s : State) (ring : Fin 8) (w1 w2 : BitVec 64) (bytes : List (BitVec 8)) (errs : WordErrors) (n : Nat) (d : Dev), n = s.dev.nextFrame ∧ d = (s.dev.txPut ring (some n) 1 w1).txEnter 48 0x032 bytes (txReq ring w1 w2 (bitOf w1 45) (bitOf w1 46)) errs ∧ s.dev.ringRuns ring = true ∧ s.dev.txPending ring < s.dev.ringOwned ring ∧ (s.dev.bpOf 48).testBit ring = false ∧ s.dev.released unitFelt = true ∧ s.dev.txDescBad ring w1 = none ∧ bytes.length = bitsOf w1 63 50)
    ∧ (∃ (s : State) (cls : Fin 8) (w1 w2 : BitVec 64) (bytes : List (BitVec 8)) (errs : WordErrors), s.dev.fwRuns = true ∧ s.dev.released 6 = true ∧ s.dev.xing 54 = 0 ∧ (s.dev.bpOf 49).testBit cls = false ∧ s.dev.released unitFelt = true ∧ bytes.length = bitsOf w1 63 50)
    ∧ (∃ (s : State) (cls : Fin 8) (w1 w2 : BitVec 64) (bytes : List (BitVec 8)) (errs : WordErrors), (s.dev.bpOf 49).testBit cls = true)
    ∧ (∃ (s : State) (w1 w2 : BitVec 64) (bytes : List (BitVec 8)) (errs : WordErrors) (first stamp mode : Nat) (soft : Bool) (p : Parsed) (d : Dev) (x : List (BitVec 8) × Bool), first = s.dev.now + 64 * nsU / rateGbit (s.dev.rateAct 50) ∧ soft = s.dev.isSoft 50 ∧ (stamp = (if soft then softStamp first else s.dev.txStampAt 50 first)) ∧ mode = s.dev.get (LNK.page 50) LNK.LOOP_CFG.MODE ∧ p = parseFrame mlProfile bytes true ∧ d = (s.dev.countFrame 50 8 1 stamp).countFrame 50 9 (bytes.length + 4) stamp ∧ (x = (if bitOf w1 47 && d.flag (TSU.page 48) TSU.TSU_CFG.ONE_STEP_EN && p.ptp != 0 && decide (p.ptpType ≤ 3)
          then ptpOneStep bytes p.ptp p.ptpOfs stamp else (bytes, false))) ∧ s.dev.fwRuns = true ∧ s.dev.released 6 = true ∧ s.dev.laneState 50 = laneUp ∧ bytes.length = bitsOf w1 63 50)
    ∧ (∃ (s : State) (descs : List (BitVec 64 × BitVec 64)) (errs : WordErrors), (s.dev.output 48).tx = none)
    ∧ (∃ (s : State) (descs : List (BitVec 64 × BitVec 64)) (errs : WordErrors) (t : Tx) (f : Frame) (ring : Nat) (parts : List (BitVec 64 × BitVec 64 × List (BitVec 8))), (s.dev.output 48).tx = some t ∧ s.dev.frame t.frame = some f ∧ ring = 8 + t.tc ∧ f.ended = true ∧ s.dev.ringRuns ring = true ∧ splitFrame (s.dev.outBytes f 48 f.hdr) (descs.take (s.dev.ringOwned ring)) = some parts)
    ∧ (∃ (s : State) (ring : Fin 16) (cause : Fin 4) (index : BitVec 16) (desc : Option (BitVec 64)) (d : Dev), (d = (match desc with
        | some w1 => if ring.val < 8 ∧ s.dev.txPending ring < s.dev.ringOwned ring then s.dev.txTake ring 4 w1 else s.dev
        | none => s.dev)) ∧ s.dev.ringRuns ring = true)
    ∧ (∃ (s : State) (up : Bool) (speed width : BitVec 3) (d : Dev), (d = ((s.dev.setFlag PCI.page PCI.PCI_STAT.LINK_UP up).set PCI.page PCI.PCI_STAT.SPEED (if up then pcieSpeed speed.toNat else 0)).set
        PCI.page PCI.PCI_STAT.WIDTH (if up then pcieWidth width.toNat else 0)) ∧ s.dev.pageUp PCI.page = true)
    ∧ (∃ (s : State) (fn : Fin 2) (hot : Bool), s.dev.pageUp PCI.page = true) :=
  ⟨⟨stW upDev, .firmware, 0, 0, by decide +kernel⟩,
   ⟨stW ({ upDev with rings := [(0, ⟨1, some 0⟩)], now := secU } : Dev), 0, 0, by and_intros <;> decide +kernel⟩,
   ⟨stW upDev, 0, 0, 0, [], noErrors, by decide +kernel⟩,
   ⟨stW (devW [(PCI.page, PCI.RING_CFG.ENABLE, 1, 0), (FAB.page, FAB.XING_STAT.STATE, 0, 52), (PCI.page, PCI.RING_DB.TAIL, 1, 0)]), 0, 0, 0, [], noErrors, 2, by and_intros <;> decide +kernel⟩,
   ⟨stW (devW [(PCI.page, PCI.RING_CFG.ENABLE, 1, 0), (FAB.page, FAB.XING_STAT.STATE, 0, 52), (PCI.page, PCI.RING_DB.TAIL, 1, 0)]), 0, (60 * 2 ^ 50), 0, (List.replicate 60 0), noErrors, _, _, rfl, rfl, by and_intros <;> decide +kernel⟩,
   ⟨stW (devW [(FAB.page, FAB.XING_STAT.STATE, 0, 54), (SVC.page, SVC.FW_STAT.STATE, 2, 0)]), 7, (60 * 2 ^ 50), 0, (List.replicate 60 0), noErrors, by and_intros <;> decide +kernel⟩,
   ⟨stW ({ (upDev).setFrame 0 (some wFrame) with holding := [(49, [0])] } : Dev), 0, 0, 0, [], noErrors, by decide +kernel⟩,
   ⟨stW (devW [(SVC.page, SVC.FW_STAT.STATE, 2, 0), ((LNK.page 50), LNK.LNK_STATE.STATE, laneUp, 0)]), (60 * 2 ^ 50), 0, (List.replicate 60 0), noErrors, _, _, _, _, _, _, _, rfl, rfl, rfl, rfl, rfl, rfl, rfl, by and_intros <;> decide +kernel⟩,
   ⟨stW upDev, [], noErrors, by decide +kernel⟩,
   ⟨stW ((((devW [(PCI.page, PCI.RING_CFG.ENABLE, 1, 8), (FAB.page, FAB.XING_STAT.STATE, 0, 52)])).setOutput 48 ⟨some ⟨0, 0, false, 0, 0, false, 0, false, false⟩, none, 0⟩).setFrame 0 (some wFrame)), [], noErrors, ⟨0, 0, false, 0, 0, false, 0, false, false⟩, wFrame, 8, [], by and_intros <;> decide +kernel⟩,
   ⟨stW (devW [(PCI.page, PCI.RING_CFG.ENABLE, 1, 0), (FAB.page, FAB.XING_STAT.STATE, 0, 52)]), 0, 0, 0, none, _, rfl, by decide +kernel⟩,
   ⟨stW upDev, false, 0, 0, _, rfl, by decide +kernel⟩,
   ⟨stW upDev, 0, false, by decide +kernel⟩⟩

theorem witness_CrownBus :
    (∃ (s : State) (bits setting : BitVec 32), s.dev.crownOn = true)
    ∧ (∃ (s : State), s.dev.crownOn = true)
    ∧ (∃ (s : State) (value : BitVec 32), s.dev.crownOn = true)
    ∧ (∃ (s : State) (tpl : Fin 64) (data : BitVec 32) (filter : Nat) (y : Dev), y = s.dev.seenWords .template tpl 34 ∧ filter = bitsOf (y.template tpl 0) 53 40 ∧ s.dev.crownOn = true ∧ (bitOf (y.template tpl 0) 63 = false ∨ y.tc7Filter filter = false))
    ∧ (∃ (s : State) (tpl : Fin 64) (data : BitVec 32) (filter : Nat) (y : Dev), y = s.dev.seenWords .template tpl 34 ∧ filter = bitsOf (y.template tpl 0) 53 40 ∧ s.dev.crownOn = true ∧ bitOf (y.template tpl 0) 63 = true ∧ y.tc7Filter filter = true ∧ (16 ≤ y.crown.launches.length ∨ y.xing 55 ≠ 0))
    ∧ (∃ (s : State) (tpl : Fin 64) (data : BitVec 32) (filter : Nat) (y : Dev) (l : Launch) (d e : Dev), y = s.dev.seenWords .template tpl 34 ∧ filter = bitsOf (y.template tpl 0) 53 40 ∧ l = ⟨y.templateBytes tpl data, filter, bitsOf (y.template tpl 1) 47 0, softStamp y.now, y.untrace⟩ ∧ (d = y.setCrown (fun c => { c with launches := c.launches ++ [l] })) ∧ (e = d.setCrown (fun c => { c with accepted := (c.accepted + 1) % 65536, last := tpl })) ∧ s.dev.crownOn = true ∧ bitOf (y.template tpl 0) 63 = true ∧ y.tc7Filter filter = true ∧ y.crown.launches.length < 16 ∧ y.xing 55 = 0)
    ∧ (∃ (s : State) (errs : WordErrors), (s.dev.crown.launches = [] ∨ s.dev.xing 55 ≠ 0 ∨ s.dev.released unitFelt = false))
    ∧ (∃ (s : State) (errs : WordErrors) (l : Launch) (rest : List Launch) (d e : Dev) (c : Ctx), (d = (s.dev.setCrown (fun c => { c with launches := rest })).wordErrors errs) ∧ stepMeter d (d.launchCtx l) = .drop e c ∧ s.dev.crown.launches = l :: rest ∧ s.dev.xing 55 = 0 ∧ s.dev.released unitFelt = true ∧ errs.bad = false)
    ∧ (∃ (s : State) (errs : WordErrors) (l : Launch) (rest : List Launch) (d e : Dev) (c : Ctx), (d = (s.dev.setCrown (fun c => { c with launches := rest })).wordErrors errs) ∧ stepMeter d (d.launchCtx l) = .go e c ∧ s.dev.crown.launches = l :: rest ∧ s.dev.xing 55 = 0 ∧ s.dev.released unitFelt = true ∧ errs.bad = false)
    ∧ (∃ (s : State) (errs : WordErrors) (l : Launch) (rest : List Launch), s.dev.crown.launches = l :: rest ∧ s.dev.xing 55 = 0 ∧ s.dev.released unitFelt = true ∧ errs.bad = true)
    ∧ (∃ (s : State) (acc : Accessor), Reach s.dev CRN.page ∧ winWord s.dev crnWin acc ≤ 33)
    ∧ (∃ (s : State) (acc : Accessor), Reach s.dev CRN.page ∧ winWord s.dev crnWin acc ≤ 33)
    ∧ (∃ (s : State) (acc : Accessor) (t w : Nat) (v : Data), t = winIndex s.dev crnWin acc ∧ w = winWord s.dev crnWin acc ∧ v = winData s.dev crnWin acc &&& tableMask .template w ∧ MayWrite s.dev acc CRN.page ∧ w ≤ 33 ∧ (w = 0 → templateBad v = false))
    ∧ (∃ (s : State) (acc : Accessor), MayWrite s.dev acc CRN.page ∧ (33 < winWord s.dev crnWin acc
        ∨ (winWord s.dev crnWin acc = 0 ∧ templateBad (winData s.dev crnWin acc &&& tableMask .template (winWord s.dev crnWin acc)) = true)))
    ∧ (∃ (s : State) (acc : Accessor), MayWrite s.dev acc CRN.page) :=
  ⟨⟨stW upDev, 0, 0, by decide +kernel⟩,
   ⟨stW upDev, by decide +kernel⟩,
   ⟨stW upDev, 0, by decide +kernel⟩,
   ⟨stW upDev, 0, 0, _, _, rfl, rfl, by and_intros <;> decide +kernel⟩,
   ⟨stW ({ ((((devW [(CRN.page, CRN.CRN_CFG.ENABLE, 1, 0)])).setEntry .template 0 (2 ^ 63)).setEntry .filter 0 (2 ^ 63 + 2 ^ 62 + 7 * 2 ^ 59 )) with crown := ⟨0, List.replicate 16 ⟨[], 0, 0, 0, false⟩, none, 0, 0, 0, 0⟩ } : Dev), 0, 0, _, _, rfl, rfl, by and_intros <;> decide +kernel⟩,
   ⟨stW ({ ((((devW [(CRN.page, CRN.CRN_CFG.ENABLE, 1, 0), (FAB.page, FAB.XING_STAT.STATE, 0, 55)])).setEntry .template 0 (2 ^ 63)).setEntry .filter 0 (2 ^ 63 + 2 ^ 62 + 7 * 2 ^ 59 )) with crown := ⟨0, [], none, 0, 0, 0, 0⟩ } : Dev), 0, 0, _, _, _, _, _, rfl, rfl, rfl, rfl, rfl, by and_intros <;> decide +kernel⟩,
   ⟨stW upDev, noErrors, by decide +kernel⟩,
   ⟨stW ({ ((((devW [(FAB.page, FAB.XING_STAT.STATE, 0, 55)])).setEntry .template 0 (2 ^ 63)).setEntry .filter 0 (2 ^ 63 + 2 ^ 62 + 7 * 2 ^ 59 + 2 ^ 44)) with crown := ⟨0, [⟨[], 0, 0, 0, false⟩], none, 0, 0, 0, 0⟩ } : Dev), noErrors, ⟨[], 0, 0, 0, false⟩, [], _, _, _, rfl, (by unfold stepMeter; exact (if_neg (by decide +kernel)).trans (if_pos (by decide +kernel))), by and_intros <;> decide +kernel⟩,
   ⟨stW ({ ((((devW [(FAB.page, FAB.XING_STAT.STATE, 0, 55)])).setEntry .template 0 (2 ^ 63)).setEntry .filter 0 (2 ^ 63 + 2 ^ 62 + 7 * 2 ^ 59 )) with crown := ⟨0, [⟨[], 0, 0, 0, false⟩], none, 0, 0, 0, 0⟩ } : Dev), noErrors, ⟨[], 0, 0, 0, false⟩, [], _, _, _, rfl, (by unfold stepMeter; exact if_pos (by decide +kernel)), by and_intros <;> decide +kernel⟩,
   ⟨stW ({ ((((devW [(FAB.page, FAB.XING_STAT.STATE, 0, 55)])).setEntry .template 0 (2 ^ 63)).setEntry .filter 0 (2 ^ 63 + 2 ^ 62 + 7 * 2 ^ 59 )) with crown := ⟨0, [⟨[], 0, 0, 0, false⟩], none, 0, 0, 0, 0⟩ } : Dev), ⟨0, true, 0, false⟩, ⟨[], 0, 0, 0, false⟩, [], by and_intros <;> decide +kernel⟩,
   ⟨stW upDev, .firmware, by and_intros <;> decide +kernel⟩,
   ⟨stW upDev, .firmware, by and_intros <;> decide +kernel⟩,
   ⟨stW upDev, .firmware, _, _, _, rfl, rfl, rfl, by and_intros <;> decide +kernel⟩,
   ⟨stW (devW [(CRN.page, CRN.ENTRY_ADDR.WORD, 34, Accessor.firmware.idx)]), .firmware, by and_intros <;> decide +kernel⟩,
   ⟨stW upDev, .firmware, by decide +kernel⟩⟩

theorem witness_PowerStatesAndWake :
    (∃ (s : State) (acc : Accessor) (cfg : BitVec 32) (d : Dev), d = s.dev.wrShadow .glb GLB.page GLB.PWR_CFG.TARGET.off 0 (setBits cfg GLB.PWR_CFG.TARGET.lo GLB.PWR_CFG.TARGET.wd pwrDoze) ∧ MayWrite s.dev acc GLB.page)
    ∧ (∃ (s : State) (acc : Accessor) (cfg : BitVec 32) (d : Dev), d = s.dev.wrShadow .glb GLB.page GLB.PWR_CFG.TARGET.off 0 (setBits cfg GLB.PWR_CFG.TARGET.lo GLB.PWR_CFG.TARGET.wd pwrRun) ∧ MayWrite s.dev acc GLB.page)
    ∧ (∃ (s : State) (acc : Accessor) (cfg : BitVec 32) (d : Dev), d = s.dev.wrShadow .glb GLB.page GLB.PWR_CFG.TARGET.off 0 (setBits cfg GLB.PWR_CFG.TARGET.lo GLB.PWR_CFG.TARGET.wd pwrKeep) ∧ MayWrite s.dev acc GLB.page)
    ∧ (∃ (s : State) (x : Dev × List Host.Cell) (d : Dev), x = s.dev.flushFirst false s.dram ∧ d = (x.1.islandsReset.set DRM.page DRM.DRM_STAT.SELF_REFRESH 1).set GLB.page GLB.PWR_STAT.CHANGING 0 ∧ s.dev.flag GLB.page GLB.PWR_STAT.CHANGING = true)
    ∧ (∃ (s : State) (x : Dev × List Host.Cell), x = Dev.wakeUp 2 s.dev s.dram ∧ s.dev.keeps = true ∧ s.dev.flag GLB.page GLB.PWR_CFG.WAKE_N_EN = true)
    ∧ (∃ (s : State) (x : Dev × List Host.Cell), x = Dev.wakeUp 3 s.dev s.dram ∧ s.dev.keeps = true ∧ s.dev.flag GLB.page GLB.PWR_CFG.WAKE_TIME_EN = true ∧ s.dev.wakeCome = true)
    ∧ (∃ (s : State), (s.dev.keeps = false ∨ s.dev.flag GLB.page GLB.PWR_CFG.WAKE_TIME_EN = false ∨ s.dev.wakeCome = false))
    ∧ (∃ (s : State), (s.dev.keeps = false ∨ s.dev.flag GLB.page GLB.PWR_CFG.WAKE_N_EN = false))
    ∧ (∃ (s : State) (d : Dev) (x : Dev × List Host.Cell), d = { s.dev with pinPerstN := true } ∧ x = Dev.wakeUp 4 d s.dram ∧ s.dev.keeps = true)
    ∧ (∃ (s : State), s.dev.keeps = false)
    ∧ (∃ (s : State), s.dev.seqr.supplies = false)
    ∧ (∃ (s : State) (code : Nat), (code = (if s.dev.waitsT0 then min 2 (s.dev.get RST.page RST.RST_CAUSE.CAUSE) else 2)) ∧ s.dev.seqr.supplies = true) :=
  ⟨⟨stW upDev, .firmware, 0, _, rfl, by decide +kernel⟩,
   ⟨stW upDev, .firmware, 0, _, rfl, by decide +kernel⟩,
   ⟨stW upDev, .firmware, 0, _, rfl, by decide +kernel⟩,
   ⟨stW (devW [(GLB.page, GLB.PWR_STAT.CHANGING, 1, 0)]), _, _, rfl, rfl, by decide +kernel⟩,
   ⟨stW (devW [(GLB.page, GLB.PWR_CFG.WAKE_N_EN, 1, 0), (GLB.page, GLB.PWR_STAT.CHANGING, 1, 0)]), _, rfl, by and_intros <;> decide +kernel⟩,
   ⟨stW ({ (devW [(GLB.page, GLB.PWR_CFG.WAKE_TIME_EN, 1, 0), (GLB.page, GLB.PWR_STAT.CHANGING, 1, 0)]) with wakeAt := some 0 } : Dev), _, rfl, by and_intros <;> decide +kernel⟩,
   ⟨stW upDev, by decide +kernel⟩,
   ⟨stW upDev, by decide +kernel⟩,
   ⟨stW (devW [(GLB.page, GLB.PWR_STAT.CHANGING, 1, 0)]), _, _, rfl, rfl, by decide +kernel⟩,
   ⟨stW upDev, by decide +kernel⟩,
   ⟨stW ({ upDev with seqr := ⟨4, 0, true, true, false⟩ } : Dev), by decide +kernel⟩,
   ⟨stW ({ upDev with seqr := ⟨4, 0, true, true, true⟩ } : Dev), _, rfl, by decide +kernel⟩⟩

theorem witness_OptionStore :
    (∃ (s : State) (badA badB : Bool) (d : Dev), d = (s.dev.optLoad badA badB).seqStep 2 ∧ s.dev.flag OPT.page OPT.OPT_STAT.LOADING = true ∧ d.seqr.cls = 3)
    ∧ (∃ (s : State) (badA badB : Bool) (d : Dev), d = (s.dev.optLoad badA badB).seqStep 2 ∧ s.dev.flag OPT.page OPT.OPT_STAT.LOADING = true ∧ d.seqr.cls ≠ 3)
    ∧ (∃ (s : State) (acc : Accessor), MayWrite s.dev acc OPT.page)
    ∧ (∃ (s : State) (w : OptWrite) (d : Dev), d = ((({ s.dev with optWrite := none } : Dev).set OPT.page OPT.OPT_STAT.WRITING 0).set OPT.page OPT.OPT_CMD.BUSY 0).setOptImage w.target ⟨true, false, w.gen, w.body⟩ ∧ s.dev.optWrite = some w)
    ∧ (∃ (s : State) (w : OptWrite) (d : Dev), d = (({ s.dev with optWrite := none } : Dev).set OPT.page OPT.OPT_STAT.WRITING 0).set OPT.page OPT.OPT_CMD.BUSY 0 ∧ s.dev.optWrite = some w)
    ∧ (∃ (s : State) (m : HoSet) (span : Nat) (d : Dev), d = { s.dev with hoNext := some m, hoFit := (m.residual, span), learn := [] } ∧ s.dev.fitModel = (m, span) ∧ s.dev.imageRuns = true ∧ s.dev.refState = refLocked ∧ s.dev.learn ≠ [])
    ∧ (∃ (s : State), (s.dev.imageRuns = false ∨ s.dev.refState ≠ refLocked ∨ s.dev.learn = [])) :=
  ⟨⟨stW (devW [(OPT.page, OPT.OPT_STAT.LOADING, 1, 0)]), false, false, _, rfl, by and_intros <;> decide +kernel⟩,
   ⟨stW ({ (devW [(OPT.page, OPT.OPT_STAT.LOADING, 1, 0)]) with seqr := ⟨2, 0, false, false, false⟩ } : Dev), false, false, _, rfl, by and_intros <;> decide +kernel⟩,
   ⟨stW upDev, .sec, by decide +kernel⟩,
   ⟨stW ({ upDev with optWrite := some ⟨1, 1, []⟩ } : Dev), ⟨1, 1, []⟩, _, rfl, by decide +kernel⟩,
   ⟨stW ({ upDev with optWrite := some ⟨1, 1, []⟩ } : Dev), ⟨1, 1, []⟩, _, rfl, by decide +kernel⟩,
   ⟨stW ({ (devW [(REF.page, REF.REF_STAT.STATE, refLocked, 0), (SVC.page, SVC.FW_STAT.IMAGE, 1, 0), (SVC.page, SVC.FW_STAT.STATE, 2, 0)]) with learn := [(0, 0, 0)] } : Dev), _, _, _, rfl, rfl, by and_intros <;> decide +kernel⟩,
   ⟨stW upDev, by decide +kernel⟩⟩

theorem witness_ReleaseSequence :
    (∃ (s : State) (what : Fin 7) (d : Dev), d = s.dev.set RST.page RST.CLK_GOOD.GOOD (putBit (s.dev.get RST.page RST.CLK_GOOD.GOOD) what true) ∧ (what : Nat) ≠ 0 ∧ (∀ i < 56, goodBit i = what → s.dev.flag FAB.page FAB.XING_STAT.CLK_STOP i = false))
    ∧ (∃ (s : State) (what : Fin 7) (d : Dev), d = s.dev.set RST.page RST.CLK_GOOD.GOOD (putBit (s.dev.get RST.page RST.CLK_GOOD.GOOD) what true))
    ∧ (∃ (s : State), s.dev.seqr.cls ≠ 0 ∧ s.dev.waitsT0 = false ∧ s.dev.xoOk = false)
    ∧ (∃ (s : State) (rate : BitVec 16) (attempts : Fin 4) (d e : Dev), d = ((s.dev.set DRM.page DRM.DRM_STAT.TRAINED 1).set DRM.page DRM.DRM_STAT.RATE_MTS rate.toNat).set DRM.page DRM.DRM_STAT.TRAIN_TRY attempts ∧ (e = (if d.released 5 then d.set PCI.page PCI.PCI_STAT.W2_READY 1 else d)) ∧ s.dev.released 53 = true ∧ s.dev.flag DRM.page DRM.DRM_STAT.TRAINED = false ∧ s.dev.flag RST.page RST.SEQ_STAT.DRAM_FAIL = false)
    ∧ (∃ (s : State), s.dev.released 53 = true ∧ s.dev.flag DRM.page DRM.DRM_STAT.TRAINED = false)
    ∧ (∃ (s : State) (crcFail : List (BitVec 16)) (n : Nat) (d : Dev), n = s.dev.get RST.page RST.SEQ_STAT.PACE_TRY + 1 ∧ (d = (if n = 1 then s.dev.loopStart else s.dev).set RST.page RST.SEQ_STAT.PACE_TRY (min n 3)) ∧ s.dev.feltReady = true ∧ d.pace.good = 100)
    ∧ (∃ (s : State) (crcFail : List (BitVec 16)) (n : Nat) (d : Dev), n = s.dev.get RST.page RST.SEQ_STAT.PACE_TRY + 1 ∧ (d = (if n = 1 then s.dev.loopStart else s.dev).set RST.page RST.SEQ_STAT.PACE_TRY (min n 3)) ∧ s.dev.feltReady = true ∧ d.pace.good ≠ 100)
    ∧ (∃ (s : State) (unit : Fin 128) (crcFail : List (BitVec 16)) (strapB : Bool), s.dev.released unit = true)
    ∧ (∃ (s : State) (crcFail : List (BitVec 16)) (strapB : Bool), s.dev.released 1 = false ∧ s.dev.mayRelease = true ∧ s.dev.pwrState ≠ pwrKeep ∧ (s.dev.xoOk = true ∨ s.dev.flag TMB.page TMB.TMB_STAT.BACKUP = true ∨ s.dev.clockGood 0 = true))
    ∧ (∃ (s : State) (crcFail : List (BitVec 16)) (strapB : Bool), s.dev.released 53 = false ∧ s.dev.seqr.cls ≠ 0 ∧ s.dev.released 1 = true ∧ s.dev.clockGood 4 = true)
    ∧ (∃ (s : State) (crcFail : List (BitVec 16)) (strapB : Bool), s.dev.released 2 = false ∧ s.dev.mayRelease = true ∧ s.dev.pwrState ≠ pwrKeep ∧ s.dev.released 1 = true ∧ s.dev.clockGood 2 = true)
    ∧ (∃ (s : State) (crcFail : List (BitVec 16)) (strapB : Bool), s.dev.released 5 = false ∧ s.dev.mayRelease = true ∧ s.dev.pwrState ≠ pwrKeep ∧ s.dev.clockGood 3 = true ∧ s.dev.pinPerstN = true)
    ∧ (∃ (s : State) (crcFail : List (BitVec 16)) (strapB : Bool), s.dev.released 7 = false ∧ s.dev.released unitFelt = true ∧ s.dev.clockGood 6 = true)
    ∧ (∃ (s : State) (crcFail : List (BitVec 16)) (strapB : Bool), s.dev.released 6 = false ∧ s.dev.released unitFelt = true ∧ s.dev.seqr.cls ≠ 0 ∧ s.dev.clockGood 5 = true)
    ∧ (∃ (s : State) (unit : Fin 128) (crcFail : List (BitVec 16)) (strapB : Bool) (lane : Nat), (unit : Nat) = 64 + lane ∧ lane < 51 ∧ s.dev.released unit = false ∧ s.dev.released unitFelt = true ∧ s.dev.clockGood 1 = true) :=
  ⟨⟨stW upDev, 6, _, rfl, by and_intros <;> decide +kernel⟩,
   ⟨stW upDev, 0, _, rfl⟩,
   ⟨stW ({ upDev with seqr := ⟨3, 0, true, true, false⟩ } : Dev), by and_intros <;> decide +kernel⟩,
   ⟨stW (devW [(DRM.page, DRM.DRM_STAT.TRAINED, 0, 0), (RST.page, RST.SEQ_STAT.DRAM_FAIL, 0, 0)]), 0, 0, _, _, rfl, rfl, by and_intros <;> decide +kernel⟩,
   ⟨stW (devW [(DRM.page, DRM.DRM_STAT.TRAINED, 0, 0)]), by and_intros <;> decide +kernel⟩,
   ⟨stW ({ (devW [(DRM.page, DRM.DRM_STAT.TRAINED, 1, 0), (RST.page, RST.SEQ_STAT.PACE_TRY, 1, 0)]) with rel := [(1, true)], seqr := ⟨3, 0, true, true, false⟩, pace := ⟨0, 0, 0, some 990, 75000, 75000, false, 0, 100⟩ } : Dev), [], _, _, rfl, rfl, by and_intros <;> decide +kernel⟩,
   ⟨stW ({ (devW [(DRM.page, DRM.DRM_STAT.TRAINED, 1, 0), (RST.page, RST.SEQ_STAT.PACE_TRY, 1, 0)]) with rel := [(1, true)], seqr := ⟨3, 0, true, true, false⟩, pace := ⟨0, 0, 0, some 990, 75000, 75000, false, 0, 99⟩ } : Dev), [], _, _, rfl, rfl, by and_intros <;> decide +kernel⟩,
   ⟨stW upDev, 0, [], false, by decide +kernel⟩,
   ⟨stW ({ (devW [(RST.page, RST.CLK_GOOD.GOOD, 0, 0)]) with rel := [], xoOk := true, seqr := ⟨3, 0, true, true, false⟩ } : Dev), [], false, by and_intros <;> decide +kernel⟩,
   ⟨stW ({ (devW [(RST.page, RST.CLK_GOOD.GOOD, 16, 0)]) with rel := [(1, true)], seqr := ⟨3, 0, true, true, false⟩ } : Dev), [], false, by and_intros <;> decide +kernel⟩,
   ⟨stW ({ (devW [(RST.page, RST.CLK_GOOD.GOOD, 4, 0)]) with rel := [(1, true)], seqr := ⟨3, 0, true, true, false⟩ } : Dev), [], false, by and_intros <;> decide +kernel⟩,
   ⟨stW ({ (devW [(RST.page, RST.CLK_GOOD.GOOD, 8, 0)]) with rel := [], pinPerstN := true, seqr := ⟨3, 0, true, true, false⟩ } : Dev), [], false, by and_intros <;> decide +kernel⟩,
   ⟨stW ({ (devW [(RST.page, RST.CLK_GOOD.GOOD, 64, 0)]) with rel := [(4, true)], seqr := ⟨3, 0, true, true, false⟩ } : Dev), [], false, by and_intros <;> decide +kernel⟩,
   ⟨stW ({ (devW [(RST.page, RST.CLK_GOOD.GOOD, 32, 0)]) with rel := [(4, true)], seqr := ⟨3, 0, true, true, false⟩ } : Dev), [], false, by and_intros <;> decide +kernel⟩,
   ⟨stW ({ (devW [(RST.page, RST.CLK_GOOD.GOOD, 2, 0)]) with rel := [(4, true)], seqr := ⟨3, 0, true, true, false⟩ } : Dev), 114, [], false, 50, by and_intros <;> decide +kernel⟩⟩

theorem witness_TallyCounters :
    (∃ (s : State) (acc : Accessor) (n : Nat) (d : Dev), n = s.dev.countShown (s.dev.get TAL.page TAL.CNT_SEL.INDEX acc.idx) ∧ d = s.dev.set TAL.page TAL.CNT_HI.COUNT_HI (n / 2 ^ 32) acc.idx ∧ s.dev.pageUp TAL.page = true)
    ∧ (∃ (s : State) (acc : Accessor), s.dev.pageUp TAL.page = false)
    ∧ (∃ (s : State) (acc : Accessor) (value : BitVec 32) (i : Nat), i ≤ 0xEFF ∧ s.dev.pageUp TAL.page = true ∧ acc.isFw = true ∧ i = getBits value TAL.SW_INC.INDEX.lo TAL.SW_INC.INDEX.wd ∧ 0xE00 ≤ i)
    ∧ (∃ (s : State) (acc : Accessor) (value : BitVec 32), s.dev.pageUp TAL.page = true ∧ acc.isFw = false)
    ∧ (∃ (s : State) (t : Nat), s.dev.freezeAt = some t ∧ s.dev.collecting = false ∧ t ≤ s.dev.now)
    ∧ (∃ (s : State) (t : Nat) (d : Dev), d = ({ s.dev with collecting := false, freezeAt := none, snapHeld := false } : Dev).set TAL.page TAL.SNAP_STAT.VALID 1 ∧ s.dev.freezeAt = some t ∧ s.dev.collecting = true ∧ t + 10000 * nsU ≤ s.dev.now)
    ∧ (∃ (s : State) (acc : Accessor) (timed : Bool) (sec : BitVec 32) (ns : BitVec 30) (d : Dev), (d = [(TAL.FRZ_CFG.ARM.off, frzCfg true timed false), (TAL.FRZ_SEC.SEC.off, sec),
        (TAL.FRZ_NS.NS.off, ns.setWidth 32)].foldl (fun d w => d.wrShadow .tal TAL.page w.1 0 w.2) s.dev) ∧ MayWrite s.dev acc TAL.page ∧ d.talRules.find? (·.1) = none)
    ∧ (∃ (s : State) (acc : Accessor) (timed : Bool) (sec : BitVec 32) (ns : BitVec 30) (d : Dev) (code off : Nat), (d = [(TAL.FRZ_CFG.ARM.off, frzCfg true timed false), (TAL.FRZ_SEC.SEC.off, sec),
        (TAL.FRZ_NS.NS.off, ns.setWidth 32)].foldl (fun d w => d.wrShadow .tal TAL.page w.1 0 w.2) s.dev) ∧ MayWrite s.dev acc TAL.page ∧ d.talRules.find? (·.1) = some (true, code, off))
    ∧ (∃ (s : State) (acc : Accessor) (d : Dev), (d = [(TAL.FRZ_CFG.ARM.off, frzCfg false (s.dev.flag TAL.page TAL.FRZ_CFG.TIMED) true)].foldl (fun d w => d.wrShadow .tal TAL.page w.1 0 w.2) s.dev) ∧ MayWrite s.dev acc TAL.page ∧ d.talRules.find? (·.1) = none)
    ∧ (∃ (s : State) (acc : Accessor) (d : Dev) (code off : Nat), (d = [(TAL.FRZ_CFG.ARM.off, frzCfg false (s.dev.flag TAL.page TAL.FRZ_CFG.TIMED) true)].foldl (fun d w => d.wrShadow .tal TAL.page w.1 0 w.2) s.dev) ∧ MayWrite s.dev acc TAL.page ∧ d.talRules.find? (·.1) = some (true, code, off))
    ∧ (∃ (s : State) (smp : Fin 4) (taken : Bool) (n c : Nat) (d : Dev), n = s.dev.get TAL.page TAL.SMP_PERIOD.N smp ∧ (c = tget (fun _ => 0) s.dev.smpCount smp) ∧ (d = (if taken then s.dev.set TAL.page TAL.SMP_STAT.PENDING 0 smp else s.dev)) ∧ d.pageUp TAL.page = true ∧ d.flag TAL.page TAL.SMP_CFG.EN smp = true ∧ (n ≤ c ∨ coreCounter (d.get TAL.page TAL.SMP_CFG.INDEX smp) = true))
    ∧ (∃ (s : State) (smp : Fin 4) (taken : Bool) (d : Dev), (d = (if taken then s.dev.set TAL.page TAL.SMP_STAT.PENDING 0 smp else s.dev)) ∧ (d.pageUp TAL.page = false ∨ d.flag TAL.page TAL.SMP_CFG.EN smp = false ∨ (tget (fun _ => 0) s.dev.smpCount smp < s.dev.get TAL.page TAL.SMP_PERIOD.N smp ∧ coreCounter (d.get TAL.page TAL.SMP_CFG.INDEX smp) = false))) :=
  ⟨⟨stW upDev, .firmware, _, _, rfl, rfl, by decide +kernel⟩,
   ⟨State.reset, .firmware, by decide +kernel⟩,
   ⟨stW upDev, .firmware, 0xEFF, 0xEFF, by decide +kernel, by and_intros <;> decide +kernel⟩,
   ⟨stW upDev, .host1, 0, by and_intros <;> decide +kernel⟩,
   ⟨stW ({ upDev with freezeAt := some 0 } : Dev), 0, by and_intros <;> decide +kernel⟩,
   ⟨stW ({ upDev with freezeAt := some 0, collecting := true, now := 10000 * nsU } : Dev), 0, _, rfl, by and_intros <;> decide +kernel⟩,
   ⟨stW upDev, .firmware, false, 0, 0, _, rfl, by and_intros <;> decide +kernel⟩,
   ⟨stW upDev, .firmware, false, 0, 1000000000, _, 0xD2, TAL.FRZ_NS.NS.off, rfl, by and_intros <;> decide +kernel⟩,
   ⟨stW upDev, .firmware, _, rfl, by and_intros <;> decide +kernel⟩,
   ⟨stW ((upDev).setSh .tal TAL.page TAL.SMP_PERIOD.N 0 1), .firmware, _, 0xD2, TAL.SMP_PERIOD.N.off, rfl, by and_intros <;> decide +kernel⟩,
   ⟨stW ({ (devW [(TAL.page, TAL.SMP_CFG.EN, 1, 0), (TAL.page, TAL.SMP_PERIOD.N, 1, 0)]) with smpCount := [(0, 1)] } : Dev), 0, false, _, _, _, rfl, rfl, rfl, by and_intros <;> decide +kernel⟩,
   ⟨stW upDev, 0, false, _, rfl, by decide +kernel⟩⟩

theorem witness_RecorderAndTests :
    (∃ (s : State), nextRecord s.dev.logHeld = none)
    ∧ (∃ (s : State) (r : LogRec) (d : Dev) (m : List Host.Cell), ({ s.dev with logHeld := s.dev.logHeld.erase r } : Dev).logWrite s.dram r = (d, m) ∧ nextRecord s.dev.logHeld = some r ∧ s.dev.released unitFelt = true ∧ s.dev.flag LOG.page LOG.LOG_STAT.DRAM_OK = true ∧ (r.late = true ∨ r.time + 8000 * nsU ≤ s.dev.now))
    ∧ (∃ (s : State) (acc : Accessor), MayWrite s.dev acc LOG.page)
    ∧ (∃ (s : State) (acc : Accessor), MayWrite s.dev acc DRM.page ∧ s.dev.testRefused = false)
    ∧ (∃ (s : State) (acc : Accessor), MayWrite s.dev acc DRM.page ∧ s.dev.testRefused = true)
    ∧ (∃ (s : State) (acc : Accessor), MayWrite s.dev acc DRM.page)
    ∧ (∃ (s : State) (errors : BitVec 32) (first : BitVec 27) (d : Dev), d = ((({ s.dev with dramTest := false } : Dev).set DRM.page DRM.TEST_STAT.BUSY 0).setFlag DRM.page DRM.TEST_STAT.PASS (errors == 0)).setFlag
        DRM.page DRM.TEST_STAT.FAIL (errors != 0) ∧ s.dev.dramTest = true)
    ∧ (∃ (s : State), s.dev.testMode = true) :=
  ⟨⟨stW upDev, by decide +kernel⟩,
   ⟨stW ({ (devW [(LOG.page, LOG.LOG_STAT.DRAM_OK, 1, 0)]) with logHeld := [⟨0, 0, 0, false, true, 0⟩] } : Dev), ⟨0, 0, 0, false, true, 0⟩, _, _, rfl, by and_intros <;> decide +kernel⟩,
   ⟨stW upDev, .firmware, by decide +kernel⟩,
   ⟨stW upDev, .firmware, by and_intros <;> decide +kernel⟩,
   ⟨stW ({ upDev with dramTest := true } : Dev), .firmware, by and_intros <;> decide +kernel⟩,
   ⟨stW upDev, .firmware, by decide +kernel⟩,
   ⟨stW ({ upDev with dramTest := true } : Dev), 0, 0, _, rfl, by decide +kernel⟩,
   ⟨stW ({ upDev with testMode := true } : Dev), by decide +kernel⟩⟩

theorem witness_EpashRequests :
    (∃ (s : State) (req : EpashReq), s.dev.epashOn = true ∧ req.version = 1 ∧ s.dev.epashOld 1 req = none ∧ req.body.length = 0 ∧ req.length.toNat = 0)
    ∧ (∃ (s : State) (req : EpashReq) (page off n : Nat) (x : List Word × Dev), x = s.dev.readMany page off n ∧ (∀ t i, pageOf page = some (t, i) → t ≠ .mbx ∧ t ≠ .sec ∧ t ≠ .opt) ∧ s.dev.epashOn = true ∧ req.version = 1 ∧ s.dev.epashOld 2 req = none ∧ req.body.length = 6 ∧ req.length.toNat = 6 ∧ page = reqNum req.body 0 2 ∧ off = reqNum req.body 2 2 ∧ n = reqNum req.body 4 2 ∧ 0 < n ∧ n ≤ 256 ∧ off % 4 = 0 ∧ off + 4 * n ≤ 4096 ∧ s.dev.pageHeld page = false)
    ∧ (∃ (s : State) (req : EpashReq) (page off n i : Nat) (t : PageType), s.dev.epashOn = true ∧ req.version = 1 ∧ s.dev.epashOld 2 req = none ∧ req.body.length = 6 ∧ req.length.toNat = 6 ∧ page = reqNum req.body 0 2 ∧ off = reqNum req.body 2 2 ∧ n = reqNum req.body 4 2 ∧ 0 < n ∧ n ≤ 256 ∧ off % 4 = 0 ∧ off + 4 * n ≤ 4096 ∧ pageOf page = some (t, i) ∧ (t = .mbx ∨ t = .sec ∨ t = .opt))
    ∧ (∃ (s : State) (req : EpashReq) (first n : Nat), s.dev.epashOn = true ∧ req.version = 1 ∧ s.dev.epashOld 3 req = none ∧ req.body.length = 4 ∧ req.length.toNat = 4 ∧ first = reqNum req.body 0 2 ∧ n = reqNum req.body 2 2 ∧ 0 < n ∧ n ≤ 180 ∧ first + n ≤ 4096)
    ∧ (∃ (s : State) (req : EpashReq) (first n : Nat), s.dev.epashOn = true ∧ req.version = 1 ∧ s.dev.epashOld 4 req = none ∧ req.body.length = 4 ∧ req.length.toNat = 4 ∧ first = reqNum req.body 0 2 ∧ n = reqNum req.body 2 2 ∧ 0 < n ∧ n ≤ 180 ∧ first + n ≤ 4096)
    ∧ (∃ (s : State) (req : EpashReq), s.dev.epashOn = true ∧ req.version = 1 ∧ s.dev.epashOld 4 req = none ∧ req.body.length = 4 ∧ req.length.toNat = 4 ∧ (reqNum req.body 2 2 = 0 ∨ 180 < reqNum req.body 2 2 ∨ 4096 < reqNum req.body 0 2 + reqNum req.body 2 2))
    ∧ (∃ (s : State) (req : EpashReq) (r : Dev), r = s.dev.freezeCommand .firmware [(TAL.FRZ_CFG.ARM.off, frzCfg true true false),
        (TAL.FRZ_SEC.SEC.off, BitVec.ofNat 32 (reqNum req.body 0 6)), (TAL.FRZ_NS.NS.off, BitVec.ofNat 32 (reqNum req.body 6 4))] ∧ s.dev.epashOn = true ∧ req.version = 1 ∧ s.dev.epashOld 5 req = none ∧ req.body.length = 10 ∧ req.length.toNat = 10 ∧ s.dev.owns .firmware TAL.page = true ∧ s.dev.collecting = false ∧ s.dev.hostHolds TAL.page = false ∧ r.flag TAL.page COM.COMMIT_STAT.REJECTED = false)
    ∧ (∃ (s : State) (req : EpashReq), s.dev.epashOn = true ∧ req.version = 1 ∧ s.dev.epashOld 5 req = none ∧ req.body.length = 10 ∧ req.length.toNat = 10 ∧ s.dev.owns .firmware TAL.page = false)
    ∧ (∃ (s : State) (req : EpashReq) (first n : Nat), s.dev.epashOn = true ∧ req.version = 1 ∧ s.dev.epashOld 6 req = none ∧ req.body.length = 6 ∧ req.length.toNat = 6 ∧ first = reqNum req.body 0 4 ∧ n = reqNum req.body 4 2 ∧ 0 < n ∧ n ≤ 90 ∧ first + n ≤ s.dev.logSlots)
    ∧ (∃ (s : State) (req : EpashReq), s.dev.epashOn = true ∧ req.version = 1 ∧ s.dev.epashOld 7 req = none ∧ req.body.length = 8 ∧ req.length.toNat = 8)
    ∧ (∃ (s : State) (req : EpashReq) (e : EpashReply), s.dev.epashOn = true ∧ req.version = 1 ∧ s.dev.epashOld 7 req = some e)
    ∧ (∃ (s : State) (req : EpashReq) (e : EpashReply), s.dev.epashOn = true ∧ req.version = 1 ∧ s.dev.epashOld 5 req = some e) :=
  ⟨⟨stW ({ (devW [(SVC.page, SVC.FW_STAT.IMAGE, 1, 0), (SVC.page, SVC.FW_STAT.STATE, 2, 0), (SVC.page, SVC.SVC_CFG.ENABLE, 1, 7)]) with epashCfg := 65536 } : Dev), ⟨0, 1, 0, 0, []⟩, by and_intros <;> decide +kernel⟩,
   ⟨stW ({ (devW [(SVC.page, SVC.FW_STAT.IMAGE, 1, 0), (SVC.page, SVC.FW_STAT.STATE, 2, 0), (SVC.page, SVC.SVC_CFG.ENABLE, 1, 7)]) with epashCfg := 65536 } : Dev), ⟨0, 1, 6, 0, [0, 0, 0, 0, 1, 0]⟩, 0, 0, 256, _, rfl, (by intro t i g; have k := Option.some.inj ((by decide +kernel : pageOf _ = some (.glb, 0)).symm.trans g); cases k; decide), by and_intros <;> decide +kernel⟩,
   ⟨stW ({ (devW [(SVC.page, SVC.FW_STAT.IMAGE, 1, 0), (SVC.page, SVC.FW_STAT.STATE, 2, 0), (SVC.page, SVC.SVC_CFG.ENABLE, 1, 7)]) with epashCfg := 65536 } : Dev), ⟨0, 1, 6, 0, [0, 2, 0, 0, 0, 1]⟩, 2, 0, 1, 0, .opt, by and_intros <;> decide +kernel⟩,
   ⟨stW ({ (devW [(SVC.page, SVC.FW_STAT.IMAGE, 1, 0), (SVC.page, SVC.FW_STAT.STATE, 2, 0), (SVC.page, SVC.SVC_CFG.ENABLE, 1, 7)]) with epashCfg := 65536 } : Dev), ⟨0, 1, 4, 0, [15, 76, 0, 180]⟩, 3916, 180, by and_intros <;> decide +kernel⟩,
   ⟨stW ({ (devW [(SVC.page, SVC.FW_STAT.IMAGE, 1, 0), (SVC.page, SVC.FW_STAT.STATE, 2, 0), (SVC.page, SVC.SVC_CFG.ENABLE, 1, 7)]) with epashCfg := 65536 } : Dev), ⟨0, 1, 4, 0, [15, 76, 0, 180]⟩, 3916, 180, by and_intros <;> decide +kernel⟩,
   ⟨stW ({ (devW [(SVC.page, SVC.FW_STAT.IMAGE, 1, 0), (SVC.page, SVC.FW_STAT.STATE, 2, 0), (SVC.page, SVC.SVC_CFG.ENABLE, 1, 7)]) with epashCfg := 65536 } : Dev), ⟨0, 1, 4, 0, [15, 77, 0, 180]⟩, by and_intros <;> decide +kernel⟩,
   ⟨stW ({ (devW [(SVC.page, SVC.FW_STAT.IMAGE, 1, 0), (SVC.page, SVC.FW_STAT.STATE, 2, 0), (SVC.page, SVC.SVC_CFG.ENABLE, 1, 7)]) with epashCfg := 65536 } : Dev), ⟨0, 1, 10, 0, [0, 0, 0, 0, 0, 1, 0, 0, 0, 0]⟩, _, rfl, by and_intros <;> decide +kernel⟩,
   ⟨stW ({ (devW [(SVC.page, SVC.FW_STAT.IMAGE, 1, 0), (SVC.page, SVC.FW_STAT.STATE, 2, 0), (SVC.page, SVC.SVC_CFG.ENABLE, 1, 7), (TAL.page, COM.CTRL.OWNER, 0, 0)]) with epashCfg := 65536 } : Dev), ⟨0, 1, 10, 0, (List.replicate 10 0)⟩, by and_intros <;> decide +kernel⟩,
   ⟨stW ({ (devW [(SVC.page, SVC.FW_STAT.IMAGE, 1, 0), (SVC.page, SVC.FW_STAT.STATE, 2, 0), (SVC.page, SVC.SVC_CFG.ENABLE, 1, 7)]) with epashCfg := 65536 } : Dev), ⟨0, 1, 6, 0, [0, 0, 0, 0, 0, 90]⟩, 0, 90, by and_intros <;> decide +kernel⟩,
   ⟨stW ({ (devW [(SVC.page, SVC.FW_STAT.IMAGE, 1, 0), (SVC.page, SVC.FW_STAT.STATE, 2, 0), (SVC.page, SVC.SVC_CFG.ENABLE, 1, 7)]) with epashCfg := 65536 } : Dev), ⟨0, 1, 8, 0, (List.replicate 8 0)⟩, by and_intros <;> decide +kernel⟩,
   ⟨stW ({ (devW [(SVC.page, SVC.FW_STAT.IMAGE, 1, 0), (SVC.page, SVC.FW_STAT.STATE, 2, 0), (SVC.page, SVC.SVC_CFG.ENABLE, 1, 7)]) with epashCfg := 65536, epash := [⟨0, 0, 7, []⟩] } : Dev), ⟨0, 1, 8, 0, (List.replicate 8 0)⟩, ⟨0, 0, 7, []⟩, by and_intros <;> decide +kernel⟩,
   ⟨stW ({ (devW [(SVC.page, SVC.FW_STAT.IMAGE, 1, 0), (SVC.page, SVC.FW_STAT.STATE, 2, 0), (SVC.page, SVC.SVC_CFG.ENABLE, 1, 7)]) with epashCfg := 65536, epash := [⟨0, 0, 5, []⟩] } : Dev), ⟨0, 1, 10, 0, (List.replicate 10 0)⟩, ⟨0, 0, 5, []⟩, by and_intros <;> decide +kernel⟩⟩

theorem witness_ColdSources :
    (∃ (s : State), s.dev.waitsT0 = false)
    ∧ (∃ (s : State), s.dev.waitsT0 = false)
    ∧ (∃ (s : State) (d : Dev), d = { s.dev with pinResetN := false } ∧ s.dev.waitsT0 = false)
    ∧ (∃ (s : State), s.dev.waitsT0 = true)
    ∧ (∃ (s : State) (d : Dev), d = { s.dev with pinResetN := true } ∧ s.dev.waitsT0 = true)
    ∧ (∃ (s : State), s.dev.waitsT0 = false) :=
  ⟨⟨stW ({ upDev with seqr := ⟨0, 0, true, true, false⟩ } : Dev), by decide +kernel⟩,
   ⟨stW ({ upDev with seqr := ⟨0, 0, true, true, false⟩ } : Dev), by decide +kernel⟩,
   ⟨stW ({ upDev with seqr := ⟨0, 0, true, true, false⟩ } : Dev), _, rfl, by decide +kernel⟩,
   ⟨stW upDev, by decide +kernel⟩,
   ⟨stW upDev, _, rfl, by decide +kernel⟩,
   ⟨stW ({ upDev with seqr := ⟨0, 0, true, true, false⟩ } : Dev), by decide +kernel⟩⟩

theorem witness_WarmSources :
    (∃ (s : State) (gates : List Nat) (x : Dev × List Host.Cell), (gates = (List.range 8).filter (fun e => (s.dev.evtIn e).open_)) ∧ x = Dev.warmReset 4 0 clsClock false s.dev s.dram ∧ s.dev.xoOk = true ∧ s.dev.waitsT0 = false)
    ∧ (∃ (s : State), (s.dev.xoOk = false ∨ s.dev.waitsT0 = true))
    ∧ (∃ (s : State), s.dev.wdogRuns = true ∧ s.dev.wdogWarned = false ∧ s.dev.wdogPassed 1 = true)
    ∧ (∃ (s : State), s.dev.wdogRuns = true ∧ s.dev.wdogWarned = true ∧ s.dev.wdogPassed 2 = true)
    ∧ (∃ (s : State), (s.dev.wdogRuns = false ∨ s.dev.wdogWarned = false ∨ s.dev.wdogPassed 2 = false))
    ∧ (∃ (s : State) (acc : Accessor), acc.isFw = true)
    ∧ (∃ (s : State) (acc : Accessor), acc.isFw = false)
    ∧ (∃ (s : State) (acc : Accessor) (value : BitVec 32), MayWrite s.dev acc RST.page ∧ getBits value RST.RST_CMD.WARM.lo 1 = 1 ∧ getBits value RST.RST_CMD.KEY.lo RST.RST_CMD.KEY.wd = 0xA5C3)
    ∧ (∃ (s : State) (acc : Accessor) (value : BitVec 32), MayWrite s.dev acc RST.page ∧ getBits value RST.RST_CMD.WARM.lo 1 = 1 ∧ getBits value RST.RST_CMD.KEY.lo RST.RST_CMD.KEY.wd ≠ 0xA5C3)
    ∧ (∃ (s : State), s.dev.flag SEC.page SEC.SEC_STAT.DEBUG_LOCKED = false)
    ∧ (∃ (s : State), s.dev.flag SEC.page SEC.SEC_STAT.DEBUG_LOCKED = true)
    ∧ (∃ (s : State) (island : Fin 64) (stage : BitVec 8), s.dev.released unitFelt = true ∧ (56 ≤ island.val ∨ s.dev.xing island.val ≠ xHeld))
    ∧ (∃ (s : State) (island : Fin 64) (stage : BitVec 8), island.val < 56 ∧ s.dev.xing island.val = xHeld)
    ∧ (∃ (s : State) (core : Fin 5), s.dev.released 6 = true) :=
  ⟨⟨stW ({ upDev with xoOk := true, seqr := ⟨0, 0, true, true, false⟩ } : Dev), _, _, rfl, rfl, by and_intros <;> decide +kernel⟩,
   ⟨stW upDev, by decide +kernel⟩,
   ⟨stW ({ (devW [(RST.page, RST.WDOG_CFG.EN, 1, 0)]) with now := 100 * secU } : Dev), by and_intros <;> decide +kernel⟩,
   ⟨stW ({ (devW [(RST.page, RST.WDOG_CFG.EN, 1, 0)]) with now := 100 * secU, wdogWarned := true } : Dev), by and_intros <;> decide +kernel⟩,
   ⟨stW upDev, by decide +kernel⟩,
   ⟨stW upDev, .firmware, by decide +kernel⟩,
   ⟨stW upDev, .host0, by decide +kernel⟩,
   ⟨stW upDev, .firmware, 0xA5C30001, by and_intros <;> decide +kernel⟩,
   ⟨stW upDev, .firmware, 0x00000001, by and_intros <;> decide +kernel⟩,
   ⟨stW ({ upDev with regs := [(rkey SEC.page 0x40 0, 0)] } : Dev), by decide +kernel⟩,
   ⟨stW ({ upDev with regs := [(rkey SEC.page 0x40 0, 2 ^ 30)] } : Dev), by decide +kernel⟩,
   ⟨stW upDev, 0, 0, by and_intros <;> decide +kernel⟩,
   ⟨stW (devW [(FAB.page, FAB.XING_STAT.STATE, xHeld, 0)]), 0, 0, by and_intros <;> decide +kernel⟩,
   ⟨stW upDev, 0, by decide +kernel⟩⟩

theorem witness_PageCommands :
    (∃ (s : State) (acc : Accessor) (page : BitVec 16), MayWrite s.dev acc page.toNat)
    ∧ (∃ (s : State) (acc : Accessor) (page : BitVec 16) (t : PageType) (i : Nat), MayWrite s.dev acc page.toNat ∧ pageOf page.toNat = some (t, i) ∧ hasShadow t = false)
    ∧ (∃ (s : State) (acc : Accessor) (page : BitVec 16) (t : PageType) (i : Nat), MayWrite s.dev acc page.toNat ∧ pageOf page.toNat = some (t, i) ∧ hasShadow t = true)
    ∧ (∃ (s : State) (acc : Accessor) (page : BitVec 16) (t : PageType) (i : Nat), MayWrite s.dev acc page.toNat ∧ pageOf page.toNat = some (t, i) ∧ softRstOk t = false)
    ∧ (∃ (s : State) (acc : Accessor) (page : BitVec 16) (t : PageType) (i : Nat) (r : Dev), r = ((s.dev.coldFirst t i).coldShadows t page.toNat).commitAt acc page.toNat ∧ MayWrite s.dev acc page.toNat ∧ pageOf page.toNat = some (t, i) ∧ softRstOk t = true ∧ hasShadow t = true ∧ r.flag page.toNat COM.COMMIT_STAT.REJECTED = true)
    ∧ (∃ (s : State) (acc : Accessor) (page : BitVec 16) (t : PageType) (i : Nat) (q r : Dev), q = ((s.dev.coldFirst t i).coldShadows t page.toNat).commitAt acc page.toNat ∧ r = (q.coldThen t i).coldRw t page.toNat ∧ MayWrite s.dev acc page.toNat ∧ pageOf page.toNat = some (t, i) ∧ softRstOk t = true ∧ (q.flag page.toNat COM.COMMIT_STAT.REJECTED = false ∨ hasShadow t = false))
    ∧ (∃ (s : State) (acc : Accessor) (page : BitVec 16) (owner : BitVec 2) (t : PageType) (i : Nat) (v : Nat), v = s.dev.get page.toNat COM.CTRL.VIEW acc.idx ∧ Reach s.dev page.toNat ∧ pageOf page.toNat = some (t, i) ∧ ownerFixed t = false ∧ s.dev.owns acc page.toNat = true ∧ (hostWrite acc = false ∨ owner ≠ 0 ∨ s.dev.owner page.toNat = 0))
    ∧ (∃ (s : State) (acc : Accessor) (page : BitVec 16) (view : Bool) (t : PageType) (i : Nat), Reach s.dev page.toNat ∧ pageOf page.toNat = some (t, i))
    ∧ (∃ (s : State) (acc : Accessor) (page : BitVec 16) (bits raised : BitVec 32) (t : PageType) (i : Nat), Reach s.dev page.toNat ∧ pageOf page.toNat = some (t, i))
    ∧ (∃ (s : State) (acc : Accessor) (page : BitVec 16), MayWrite s.dev acc page.toNat) :=
  ⟨⟨stW upDev, .firmware, 0, by decide +kernel⟩,
   ⟨stW upDev, .sec, 2, .opt, 0, by and_intros <;> decide +kernel⟩,
   ⟨stW upDev, .firmware, 0, .glb, 0, by and_intros <;> decide +kernel⟩,
   ⟨stW upDev, .firmware, 0, .glb, 0, by and_intros <;> decide +kernel⟩,
   ⟨stW (devW [(LKP.page, LKP.EPOCH_STAT.PENDING, 1, 0)]), .firmware, 17, .lkp, 0, _, rfl, by and_intros <;> decide +kernel⟩,
   ⟨stW upDev, .firmware, 24, .log, 0, _, _, rfl, rfl, by and_intros <;> decide +kernel⟩,
   ⟨stW upDev, .firmware, 24, 0, .log, 0, _, rfl, by and_intros <;> decide +kernel⟩,
   ⟨stW upDev, .firmware, 0, false, .glb, 0, by and_intros <;> decide +kernel⟩,
   ⟨stW upDev, .firmware, 0, 0, 0, .glb, 0, by and_intros <;> decide +kernel⟩,
   ⟨stW upDev, .firmware, 0, by decide +kernel⟩⟩

theorem witness_RegisterWrites :
    (∃ (s : State) (acc : Accessor) (addr : BitVec 26) (byteEn : BitVec 4) (data : List Word), w0Ok addr.toNat byteEn.toNat data.length = false)
    ∧ (∃ (s : State) (acc : Accessor) (addr : BitVec 26) (byteEn : BitVec 4) (v : Word) (data : List Word) (t : State), t = writeReg acc (addr.toNat / 4096) (addr.toNat % 4096) v s ∧ w0Ok addr.toNat byteEn.toNat (data.length + 1) = true ∧ addr.toNat + 4 * data.length < 2 ^ 26)
    ∧ (∃ (s : State) (acc : Accessor) (addr : BitVec 26) (v : Word) (page off : Nat), addr.toNat = page * 4096 + off ∧ off < 4096 ∧ off % 4 = 0 ∧ pageOf page = none)
    ∧ (∃ (s : State) (acc : Accessor) (addr : BitVec 26) (v : Word) (page off : Nat) (t : PageType) (i : Nat), commandReg acc t i off v = none ∧ addr.toNat = page * 4096 + off ∧ off < 4096 ∧ off % 4 = 0 ∧ pageOf page = some (t, i) ∧ (t = .mbx → mbxReach acc (16 * i) = true) ∧ Reach s.dev page ∧ 0x40 ≤ off ∧ (∀ w ∈ winOf t i, off ≠ w.result.off) ∧ anyWrites t off = false ∧ writable t off = true ∧ MayWrite s.dev acc page)
    ∧ (∃ (s : State) (acc : Accessor) (addr : BitVec 26) (v : Word) (page off : Nat) (t : PageType) (i : Nat), commandReg acc t i off v = none ∧ addr.toNat = page * 4096 + off ∧ off < 4096 ∧ off % 4 = 0 ∧ pageOf page = some (t, i) ∧ (t = .mbx → mbxReach acc (16 * i) = true) ∧ Reach s.dev page ∧ 0x40 ≤ off ∧ (∀ w ∈ winOf t i, off ≠ w.result.off) ∧ anyWrites t off = true)
    ∧ (∃ (s : State) (acc : Accessor) (addr : BitVec 26) (v : Word) (page off : Nat) (t : PageType) (i : Nat), commandReg acc t i off v = none ∧ addr.toNat = page * 4096 + off ∧ off < 4096 ∧ off % 4 = 0 ∧ pageOf page = some (t, i) ∧ (t = .mbx → mbxReach acc (16 * i) = true) ∧ Reach s.dev page ∧ 0x40 ≤ off ∧ (∀ w ∈ winOf t i, off ≠ w.result.off) ∧ anyWrites t off = false ∧ writable t off = false)
    ∧ (∃ (s : State) (acc : Accessor) (addr : BitVec 26) (v : Word) (page off : Nat) (t : PageType) (i : Nat), addr.toNat = page * 4096 + off ∧ off < 4096 ∧ off % 4 = 0 ∧ pageOf page = some (t, i) ∧ (t = .mbx → mbxReach acc (16 * i) = true) ∧ Reach s.dev page ∧ off < 0x40) :=
  ⟨⟨stW upDev, .firmware, 0, 0, [], by decide +kernel⟩,
   ⟨stW upDev, .firmware, 0x3FFFFC0, 15, 0, (List.replicate 15 0), _, rfl, by and_intros <;> decide +kernel⟩,
   ⟨stW upDev, .firmware, 0x3FFF000, 0, 0x3FFF, 0, by and_intros <;> decide +kernel⟩,
   ⟨stW upDev, .firmware, 0x18040, 0, 0x18, 0x40, .log, 0, rfl, by and_intros <;> decide +kernel⟩,
   ⟨stW upDev, .firmware, 0x22040, 0, 34, 0x40, .evt, 0, rfl, by and_intros <;> decide +kernel⟩,
   ⟨stW upDev, .firmware, 0x18044, 0, 24, 0x44, .log, 0, rfl, by and_intros <;> decide +kernel⟩,
   ⟨stW upDev, .firmware, 0x1803c, 0, 24, 0x3c, .log, 0, by and_intros <;> decide +kernel⟩⟩

theorem witness_PageWindows :
    (∃ (s : State) (offset : BitVec 32), (offset.toNat % 4 ≠ 0 ∨ 0x4000000 ≤ offset.toNat))
    ∧ (∃ (s : State) (offset : BitVec 32) (page off : Nat) (x : Word × Dev), x = s.dev.readBy .host0 page off ∧ offset.toNat = page * 4096 + off ∧ off < 4096 ∧ off % 4 = 0 ∧ page < 0x3FFF ∧ s.dev.pageUp page = true ∧ s.dev.pageHeld page = false ∧ page ≠ MBX.page 0 ∧ page ≠ MBX.page 1)
    ∧ (∃ (s : State) (offset : BitVec 32) (page off : Nat), offset.toNat = page * 4096 + off ∧ off < 4096 ∧ off % 4 = 0 ∧ page < 0x3FFF ∧ s.dev.pageUp page = false)
    ∧ (∃ (s : State) (page : BitVec 16) (addr : BitVec 10), s.dev.crownOn = true ∧ s.dev.crown.wait = none)
    ∧ (∃ (s : State) (page : BitVec 16) (addr : BitVec 10) (value : BitVec 32), s.dev.crownOn = true ∧ s.dev.crown.wait = none ∧ s.dev.flag CRN.page CRN.CRN_CFG.CTL_WR = true)
    ∧ (∃ (s : State) (page : BitVec 16) (addr : BitVec 10) (value : BitVec 32) (d : Dev), (d = s.dev.setCrown (fun c => { c with pageSel := page.toNat })) ∧ s.dev.crownOn = true ∧ s.dev.crown.wait = none ∧ s.dev.flag CRN.page CRN.CRN_CFG.CTL_WR = false)
    ∧ (∃ (s : State), s.dev.crown.wait = none)
    ∧ (∃ (s : State) (w : CrownWait) (d : Dev) (x : Word × Dev), (d = s.dev.setCrown (fun c => { c with wait := none })) ∧ x = d.readBy .controller w.page w.off ∧ s.dev.crown.wait = some w ∧ s.dev.pageHeld w.page = false ∧ w.write = false ∧ w.page ≠ MBX.page 0 ∧ w.page ≠ MBX.page 1)
    ∧ (∃ (s : State) (w : CrownWait) (d : Dev), (d = s.dev.setCrown (fun c => { c with wait := none })) ∧ s.dev.crown.wait = some w ∧ s.dev.pageHeld w.page = false ∧ w.write = true)
    ∧ (∃ (s : State), s.dev.crown.wait = none)
    ∧ (∃ (s : State) (w : CrownWait) (d : Dev), (d = (if w.write then s.dev.setCrown (fun c => { c with wait := none })
        else (s.dev.setCrown (fun c => { c with wait := none })).emit (.reply "crown" [0xFFFFFFFF]))) ∧ s.dev.crown.wait = some w ∧ w.since + waitMax (s.dev.get CRN.page CRN.CRN_CFG.WAIT_MAX) * nsU ≤ s.dev.now)
    ∧ (∃ (s : State) (w : CrownWait), s.dev.crown.wait = some w ∧ s.dev.now < w.since + waitMax (s.dev.get CRN.page CRN.CRN_CFG.WAIT_MAX) * nsU) :=
  ⟨⟨stW upDev, 0x4000000, by decide +kernel⟩,
   ⟨stW upDev, 0, 0, 0, _, rfl, by and_intros <;> decide +kernel⟩,
   ⟨State.reset, 0x11040, 0x11, 0x40, by and_intros <;> decide +kernel⟩,
   ⟨stW upDev, 0, 0, by and_intros <;> decide +kernel⟩,
   ⟨stW (devW [(CRN.page, CRN.CRN_CFG.CTL_WR, 1, 0)]), 0, 0, 0, by and_intros <;> decide +kernel⟩,
   ⟨stW (devW [(CRN.page, CRN.CRN_CFG.CTL_WR, 0, 0)]), 0, 0, 0, _, rfl, by and_intros <;> decide +kernel⟩,
   ⟨stW upDev, by decide +kernel⟩,
   ⟨stW ({ upDev with crown := ⟨0, [], some ⟨false, 17, 64, 0, 0⟩, 0, 0, 0, 0⟩, now := 0 } : Dev), ⟨false, 17, 64, 0, 0⟩, _, _, rfl, rfl, by and_intros <;> decide +kernel⟩,
   ⟨stW ({ upDev with crown := ⟨0, [], some ⟨true, 17, 64, 0, 0⟩, 0, 0, 0, 0⟩, now := 0 } : Dev), ⟨true, 17, 64, 0, 0⟩, _, rfl, by and_intros <;> decide +kernel⟩,
   ⟨stW upDev, by decide +kernel⟩,
   ⟨stW ({ upDev with crown := ⟨0, [], some ⟨true, 17, 64, 0, 0⟩, 0, 0, 0, 0⟩, now := secU } : Dev), ⟨true, 17, 64, 0, 0⟩, _, rfl, by and_intros <;> decide +kernel⟩,
   ⟨stW ({ upDev with crown := ⟨0, [], some ⟨true, 17, 64, 0, 0⟩, 0, 0, 0, 0⟩, now := 0 } : Dev), ⟨true, 17, 64, 0, 0⟩, by and_intros <;> decide +kernel⟩⟩

theorem witness_AccessInReset :
    (∃ (s : State) (acc : Accessor) (addr : BitVec 26) (v : Word) (page off i : Nat) (t : PageType), addr.toNat = page * 4096 + off ∧ off < 4096 ∧ off % 4 = 0 ∧ pageOf page = some (t, i) ∧ (t = .mbx → mbxReach acc (16 * i) = true) ∧ s.dev.pageUp page = false)
    ∧ (∃ (s : State) (offset : BitVec 32) (page off : Nat), offset.toNat = page * 4096 + off ∧ off < 4096 ∧ off % 4 = 0 ∧ page < 0x3FFF ∧ s.dev.pageUp page = false)
    ∧ (∃ (s : State) (w : CrownWait) (d : Dev), d = s.dev.setCrown (fun c => { c with wait := none }) ∧ s.dev.crown.wait = some w ∧
      s.dev.pageHeld w.page = false ∧ w.write = false ∧ w.page ≠ MBX.page 0 ∧ w.page ≠ MBX.page 1 ∧ s.dev.pageUp w.page = false)
    ∧ (∃ (d : Dev) (page : Nat), d.accStat / 65536 = 65535 ∧ page < 65536)
    ∧ (∃ (s : State) (acc : Accessor) (addr : BitVec 26) (v : Word) (page off i : Nat) (t : PageType), addr.toNat = page * 4096 + off ∧ off < 4096 ∧ off % 4 = 0 ∧ pageOf page = some (t, i) ∧ (t = .mbx → mbxReach acc (16 * i) = true) ∧ s.dev.pageUp page = true ∧ s.dev.pageHeld page = true)
    ∧ (∃ (s : State) (acc : Accessor) (page : BitVec 16) (c : Instr), c ∈ [Instr.commitGo acc page, .commitDiscard acc page, .softReset acc page] ∧ s.dev.pageUp page.toNat = false) :=
  ⟨⟨State.reset, .host0, 0x11ffc, 0, 0x11, 0xffc, 0, .lkp, by and_intros <;> decide +kernel⟩,
   ⟨State.reset, 0x11FFC, 0x11, 0xFFC, by and_intros <;> decide +kernel⟩,
   ⟨stW { Dev.reset with crown := ⟨0, [], some ⟨false, 0x11, 0x40, 0, 0⟩, 0, 0, 0, 0⟩ }, ⟨false, 0x11, 0x40, 0, 0⟩, _, rfl, by and_intros <;> decide +kernel⟩,
   ⟨{ Dev.reset with accStat := 0xFFFF0000 }, 65535, by and_intros <;> decide +kernel⟩,
   ⟨stW (devW [(FAB.page, FAB.XING_STAT.CLK_STOP, 1, 0)]), .host0, addrOf (LNK.page 0) 0x40, 0, LNK.page 0, 0x40, 0, .lnk, by and_intros <;> decide +kernel⟩,
   ⟨State.reset, .host0, 0x11, .softReset .host0 0x11, by simp, by decide +kernel⟩⟩

theorem witness_NonOwnerWrite :
    (∃ (s : State) (acc : Accessor) (addr : BitVec 26) (v : Word) (page off i : Nat) (t : PageType), off = 0x14 ∧ addr.toNat = page * 4096 + off ∧ off < 4096 ∧ off % 4 = 0 ∧ pageOf page = some (t, i) ∧ (t = .mbx → mbxReach acc (16 * i) = true) ∧
      Reach s.dev page ∧ (acc.isFw && s.dev.hostHolds page) = false ∧ s.dev.owns acc page = false)
    ∧ (∃ (s : State) (acc : Accessor) (addr : BitVec 26) (v : Word) (page off i : Nat) (t : PageType), off = 0x1C ∧ addr.toNat = page * 4096 + off ∧ off < 4096 ∧ off % 4 = 0 ∧ pageOf page = some (t, i) ∧ (t = .mbx → mbxReach acc (16 * i) = true) ∧
      Reach s.dev page ∧ (acc.isFw && s.dev.hostHolds page) = false ∧ s.dev.owns acc page = false)
    ∧ (∃ (s : State) (acc : Accessor) (addr : BitVec 26) (v : Word) (page off i : Nat) (t : PageType), off = 0x24 ∧ addr.toNat = page * 4096 + off ∧ off < 4096 ∧ off % 4 = 0 ∧ pageOf page = some (t, i) ∧ (t = .mbx → mbxReach acc (16 * i) = true) ∧
      Reach s.dev page ∧ (acc.isFw && s.dev.hostHolds page) = false ∧ s.dev.owns acc page = false)
    ∧ (∃ (s : State) (acc : Accessor) (addr : BitVec 26) (v : Word) (page off i : Nat) (t : PageType), addr.toNat = page * 4096 + off ∧ off < 4096 ∧ off % 4 = 0 ∧ pageOf page = some (t, i) ∧ (t = .mbx → mbxReach acc (16 * i) = true) ∧ Reach s.dev page ∧ (acc.isFw && s.dev.hostHolds page) = false ∧ s.dev.owns acc page = false ∧
      0x40 ≤ off ∧ writable t off = true ∧ anyWrites t off = false ∧ ownRule t off = false ∧ ∀ w ∈ winOf t i, off ≠ w.result.off) :=
  ⟨⟨upS, .controller, 0x11014, 0, 0x11, 0x14, 0, .lkp, rfl, by and_intros <;> decide +kernel⟩,
   ⟨upS, .controller, 0x1101c, 0, 0x11, 0x1C, 0, .lkp, rfl, by and_intros <;> decide +kernel⟩,
   ⟨upS, .controller, 0x11024, 0, 0x11, 0x24, 0, .lkp, rfl, by and_intros <;> decide +kernel⟩,
   ⟨upS, .controller, 0x11070, 0, 0x11, 0x70, 0, .lkp, by and_intros <;> decide +kernel⟩⟩

theorem witness_VoqNumbers :
    ∃ input output tc : Nat, input < 50 ∧ output < 50 ∧ tc < 8 ∧ voqNo input output tc = 19999 :=
  ⟨49, 49, 7, by and_intros <;> decide +kernel⟩

theorem witness_CommitAndShadows :
    (∃ (s : State) (acc : Accessor) (addr : BitVec 26) (v m : Word) (page off i k : Nat) (t : PageType),
      commandReg acc t i off v = none ∧ m = shMask t off ∧ addr.toNat = page * 4096 + off ∧ off < 4096 ∧ off % 4 = 0 ∧ pageOf page = some (t, i) ∧ (t = .mbx → mbxReach acc (16 * i) = true) ∧
      MayWrite s.dev acc page ∧ 0x40 ≤ off ∧ (∀ w ∈ winOf t i, off ≠ w.result.off) ∧
      anyWrites t off = false ∧ writable t off = true ∧ s.dev.instOf acc t page off = some k ∧ t ≠ .gcl ∧ t ≠ .rst ∧
      (t = .syn → off < SYN.PLAN_N.N_INT.off ∨ SYN.PLAN_DEN.DEN.off < off) ∧ m ≠ 0 ∧ accMask t off .rw = 0 ∧ accMask t off .w1c = 0)
    ∧ (∃ (s : State) (acc : Accessor) (addr : BitVec 26) (off k : Nat), addr.toNat = SYN.page * 4096 + off ∧ SYN.PLAN_N.N_INT.off ≤ off ∧
      off ≤ SYN.PLAN_DEN.DEN.off ∧ off % 4 = 0 ∧ MayWrite s.dev acc SYN.page ∧ s.dev.instOf acc .syn SYN.page off = some k)
    ∧ (∃ (s : State) (acc : Accessor) (page : BitVec 16) (t : PageType) (i : Nat), MayWrite s.dev acc page.toNat ∧
      pageOf page.toNat = some (t, i) ∧ hasShadow t = true)
    ∧ (∃ (page i : Nat) (t : PageType), pageOf page = some (t, i))
    ∧ (∃ (code off : Nat), code < 256 ∧ off < 65536) :=
  ⟨⟨upS, .firmware, 0x11070, 0xFFFFFFFF, _, 0x11, 0x70, 0, 0, .lkp, rfl, rfl, by and_intros <;> decide +kernel⟩,
   ⟨upS, .firmware, addrOf SYN.page 0x54, 0x54, 0, by and_intros <;> decide +kernel⟩,
   ⟨upS, .firmware, 0x11, .lkp, 0, by and_intros <;> decide +kernel⟩,
   ⟨0x11, 0, .lkp, by decide +kernel⟩,
   ⟨255, 65535, by and_intros <;> decide +kernel⟩⟩

theorem witness_FirmwareChecks :
    ∃ (s : State) (n : Data) (rest : List Data) (e : Dev), s.dev.fwCmd 0 = n :: rest ∧ s.dev.fwRuns = true ∧ noticeFamily n = 5 ∧
      noticeCode n = 1 ∧ s.dev.fwCheck 0 n = some 2 ∧ e = (s.dev.setFwCmd 0 rest).fwReply 0 n 2 [] :=
  ⟨fwW 5 1 31 0 [] upDev, _, _, _, by rfl, by decide +kernel, by decide +kernel, by decide +kernel, by decide +kernel, rfl⟩

theorem witness_LkpCommitRejected :
    (∃ (s : State) (acc : Accessor) (p : Nat) (g : Machine.Field → Nat), MayWrite s.dev acc LKP.page ∧ p < 8 ∧
      g = (fun f => s.dev.getSh .lkp LKP.page (f.nth p)) ∧ g LKP.PROF.L4 = 1 ∧ g LKP.PROF.L3 = 0)
    ∧ (∃ (s : State) (acc : Accessor) (p : Nat) (g : Machine.Field → Nat), MayWrite s.dev acc LKP.page ∧ p < 8 ∧
      g = (fun f => s.dev.getSh .lkp LKP.page (f.nth p)) ∧ g LKP.PROF.PTP_UDP = 1 ∧ g LKP.PROF.L4 = 0)
    ∧ (∃ (s : State) (acc : Accessor) (p : Nat) (g : Machine.Field → Nat), MayWrite s.dev acc LKP.page ∧ p < 8 ∧
      g = (fun f => s.dev.getSh .lkp LKP.page (f.nth p)) ∧ g LKP.PROF.ACL_KEY ≠ 0 ∧ g LKP.PROF.L3 = 0)
    ∧ (∃ (s : State) (acc : Accessor) (p : Nat) (g : Machine.Field → Nat), MayWrite s.dev acc LKP.page ∧ p < 8 ∧
      g = (fun f => s.dev.getSh .lkp LKP.page (f.nth p)) ∧ g LKP.PROF.ACL_KEY = 3)
    ∧ (∃ (s : State) (acc : Accessor) (p : Nat) (g : Machine.Field → Nat), MayWrite s.dev acc LKP.page ∧ p < 8 ∧
      g = (fun f => s.dev.getSh .lkp LKP.page (f.nth p)) ∧ g LKP.PROF.TAG_MODE = 3) :=
  ⟨⟨stW ((upDev.setSh .lkp LKP.page (LKP.PROF.L4.nth 7) 1).setSh .lkp LKP.page (LKP.PROF.L3.nth 7) 0), .firmware, 7, _, by decide +kernel, by decide, rfl, by and_intros <;> decide +kernel⟩,
   ⟨stW ((upDev.setSh .lkp LKP.page (LKP.PROF.PTP_UDP.nth 7) 1).setSh .lkp LKP.page (LKP.PROF.L4.nth 7) 0), .firmware, 7, _, by decide +kernel, by decide, rfl, by and_intros <;> decide +kernel⟩,
   ⟨stW ((upDev.setSh .lkp LKP.page (LKP.PROF.ACL_KEY.nth 7) 1).setSh .lkp LKP.page (LKP.PROF.L3.nth 7) 0), .firmware, 7, _, by decide +kernel, by decide, rfl, by and_intros <;> decide +kernel⟩,
   ⟨stW (upDev.setSh .lkp LKP.page (LKP.PROF.ACL_KEY.nth 7) 3), .firmware, 7, _, by decide +kernel, by decide, rfl, by decide +kernel⟩,
   ⟨stW (upDev.setSh .lkp LKP.page (LKP.PROF.TAG_MODE.nth 7) 3), .firmware, 7, _, by decide +kernel, by decide, rfl, by decide +kernel⟩⟩

theorem witness_SelectorsApart :
    ∃ (s : State) (acc other : Accessor) (addr : BitVec 26) (v : Word) (page off i : Nat) (t : PageType),
      commandReg acc t i off v = none ∧ addr.toNat = page * 4096 + off ∧ off < 4096 ∧ off % 4 = 0 ∧ pageOf page = some (t, i) ∧ (t = .mbx → mbxReach acc (16 * i) = true) ∧ Reach s.dev page ∧ 0x40 ≤ off ∧ (∀ w ∈ winOf t i, off ≠ w.result.off) ∧
      perAccessor t off = true ∧ other.idx ≠ acc.idx :=
  ⟨upS, .host0, .firmware, 0x11054, 0, 0x11, 0x54, 0, .lkp, rfl, by and_intros <;> decide +kernel⟩

theorem witness_CheckByteCorrects :
    ∃ i j : Nat, i < j ∧ j < 72 :=
  ⟨70, 71, by and_intros <;> decide +kernel⟩

end Sys2Proof.Tests
end

section
/-!
The numbers of virtual output queues (R8): a number is the digits input, output and traffic class in the mixed base
50, 8, so each digit is read back by division and remainder.
-/
namespace Sys2Proof.Machine

theorem voqNo_eq (input output tc : Nat) : voqNo input output tc = (input * 50 + output) * 8 + tc := rfl

theorem voqNo_lt {input output tc : Nat} (hi : input < 50) (ho : output < 50) (ht : tc < 8) :
    voqNo input output tc < 20000 := by
  rw [voqNo_eq]
  omega

/-- The class is the lowest digit: without it the number is that of the pair of endpoints. -/
theorem voqNo_div_eight (input output : Nat) {tc : Nat} (ht : tc < 8) :
    voqNo input output tc / 8 = input * 50 + output := by
  rw [voqNo_eq]
  omega

theorem voqTc_voqNo (input output : Nat) {tc : Nat} (ht : tc < 8) : voqTc (voqNo input output tc) = tc := by
  rw [voqTc, voqNo_eq, Nat.mul_add_mod_self_right, Nat.mod_eq_of_lt ht]

theorem voqOutput_voqNo (input : Nat) {output tc : Nat} (ho : output < 50) (ht : tc < 8) :
    voqOutput (voqNo input output tc) = output := by
  rw [voqOutput, voqNo_div_eight input output ht, Nat.mul_add_mod_self_right, Nat.mod_eq_of_lt ho]

/-- `voqInput` divides once by 400 = 8 × 50: first the class falls away, then the output. -/
theorem voqInput_voqNo (input : Nat) {output tc : Nat} (ho : output < 50) (ht : tc < 8) :
    voqInput (voqNo input output tc) = input :=
  calc voqNo input output tc / (8 * 50)
      = voqNo input output tc / 8 / 50 := (Nat.div_div_eq_div_mul ..).symm
    _ = (input * 50 + output) / 50 := by rw [voqNo_div_eight input output ht]
    _ = input := by omega

/-- Settles O55: a queue's number is the mixed-base number of its three digits, and each accessor reads its digit. -/
theorem voqNumbers : Obligations.VoqNumbers := by
  intro input output tc hi ho ht
  exact ⟨voqNo_eq input output tc, voqNo_lt hi ho ht, voqInput_voqNo input ho ht, voqOutput_voqNo input ho ht,
    voqTc_voqNo input output ht⟩

end Sys2Proof.Machine
end

section
/-!
A COMMIT of the LKP page under R90: what a refused COMMIT shows and what it leaves alone, that one broken rule refuses
the COMMIT of a page of tables, and that an inconsistent profile breaks the rule of the LKP page.
-/
namespace Sys2Proof.Machine

/-! ### COMMIT.GO -/

theorem exec_commitGo (acc : Accessor) (page : BitVec 16) (s : State) :
    exec (.commitGo acc page) s = execCommitGo acc page s := rfl

/-- COMMIT.GO from an accessor whose write takes effect now is the COMMIT of the page. -/
theorem does_commitGo {s : State} {acc : Accessor} {page : BitVec 16} {P : Dev → Prop}
    (hw : MayWrite s.dev acc page.toNat) (hp : P (s.dev.commitAt acc page.toNat)) : Does (.commitGo acc page) s P :=
  does_onDev (exec_commitGo acc page s) (by rwa [Dev.asOwner_may _ hw])

theorem Dev.commitAt_lkp (d : Dev) (acc : Accessor) : d.commitAt acc LKP.page = d.commitTables LKP.page := by
  have hp : pageOf LKP.page = some (.lkp, 0) := by decide
  have hs : hasShadow .lkp = true := by decide
  simp [Dev.commitAt, hp, hs]

/-! ### A refused COMMIT (R397) -/

@[simp] theorem Dev.rejectCommit_shadow (d : Dev) (page code off : Nat) :
    (d.rejectCommit page code off).shadow = d.shadow := by
  simp [Dev.rejectCommit]

@[simp] theorem Dev.rejectCommit_toLookup (d : Dev) (page code off : Nat) :
    (d.rejectCommit page code off).toLookup = d.toLookup := by
  simp [Dev.rejectCommit]

/-- COMMIT_STAT.REJECTED stands beside CODE and apart from the error registers, so it keeps the 1 written. -/
theorem Dev.rejectCommit_rejected (d : Dev) (page code off : Nat) :
    (d.rejectCommit page code off).get page COM.COMMIT_STAT.REJECTED = 1 := by
  have apart : ∀ c ∈ [0x24, 0x28, 0x2C], rkey page COM.COMMIT_STAT.REJECTED.off 0 ≠ rkey page c 0 := by
    simp only [Ne, rkey_same_page]
    decide
  rw [Dev.rejectCommit, Dev.err_get _ (apart _ (by decide)) (apart _ (by decide)) (apart _ (by decide)),
    Dev.get_set_beside _ _ (.inr (by decide)), Dev.get_set_same _ _ _ _ (by decide)]
  rfl

theorem OnlyPage.rejectCommit {p : Nat} {d e : Dev} (h : OnlyPage p d e) (code off : Nat) :
    OnlyPage p d (e.rejectCommit p code off) :=
  ((h.set (by decide) (by decide)).set (by decide) (by decide)).err _ _

/-- Above the common part of the page every register reads as before. -/
theorem Dev.rejectCommit_rd (d : Dev) (page code off : Nat) {o k : Nat} (ho : 0x40 ≤ o) :
    (d.rejectCommit page code off).rd page o k = d.rd page o k := by
  have apart : ∀ c < 0x40, rkey page o k ≠ rkey page c 0 := by
    intro c hc
    rw [Ne, rkey_same_page]
    omega
  rw [Dev.rejectCommit, Dev.err_rd _ (apart _ (by decide)) (apart _ (by decide)) (apart _ (by decide)),
    Dev.rd_set_other _ _ (apart _ (by decide)), Dev.rd_set_other _ _ (apart _ (by decide))]

/-! ### The rules of a COMMIT -/

/-- A rule broken for one instance is broken for the instances together. -/
theorem ruleAny_broken {n i : Nat} {r : Nat → Rule} (hi : i < n) (hr : (r i).1 = true) : (ruleAny n r).1 = true := by
  unfold ruleAny
  split
  case h_1 j hj => exact List.find?_some (p := fun i => (r i).1) hj
  case h_2 hnone => exact absurd hr (List.find?_eq_none.mp hnone i (List.mem_range.mpr hi))

/-- A COMMIT of a page of tables that breaks a rule is refused, though an earlier rule may give the code. -/
theorem Dev.commitTables_broken {d : Dev} {page : Nat} {r : Rule} (hr : r ∈ d.tableRules page) (hb : r.1 = true) :
    ∃ code off, d.commitTables page = d.rejectCommit page code off := by
  unfold Dev.commitTables
  split
  case h_1 code off _ => exact ⟨code, off, rfl⟩
  case h_2 hnone => exact absurd hb (List.find?_eq_none.mp hnone r hr)

/-- The shadow of profile `i` is inconsistent, or one of its fields holds a reserved code (R90). -/
def Dev.profileBroken (d : Dev) (i : Nat) : Bool :=
  let g (f : Field) : Nat := d.getSh .lkp LKP.page (f.nth i)
  g LKP.PROF.TAG_MODE == 3 || g LKP.PROF.ACL_KEY == 3
    || (g LKP.PROF.L4 == 1 && g LKP.PROF.L3 == 0) || (g LKP.PROF.PTP_UDP == 1 && g LKP.PROF.L4 == 0)
    || (g LKP.PROF.ACL_KEY != 0 && g LKP.PROF.L3 == 0)

theorem Dev.profileBroken_iff {d : Dev} {i : Nat} {g : Field → Nat}
    (hg : g = fun f => d.getSh .lkp LKP.page (f.nth i)) :
    d.profileBroken i = true ↔
      (g LKP.PROF.L4 = 1 ∧ g LKP.PROF.L3 = 0) ∨ (g LKP.PROF.PTP_UDP = 1 ∧ g LKP.PROF.L4 = 0)
        ∨ (g LKP.PROF.ACL_KEY ≠ 0 ∧ g LKP.PROF.L3 = 0) ∨ g LKP.PROF.ACL_KEY = 3 ∨ g LKP.PROF.TAG_MODE = 3 := by
  subst hg
  simp only [Dev.profileBroken, Bool.or_eq_true, Bool.and_eq_true, beq_iff_eq, bne_iff_ne]
  tauto

/-- The profiles' rule is among those of a COMMIT of the LKP page. -/
theorem Dev.profileRule_mem (d : Dev) :
    ruleAny 8 (fun i => (d.profileBroken i, 0x10, (LKP.PROF.L3.nth i).off)) ∈ d.tableRules LKP.page := by
  rw [Dev.tableRules, if_pos rfl]
  exact .tail _ (.tail _ (.head _))

/-- R90: a COMMIT of the LKP page with an inconsistent profile is refused. -/
theorem Dev.commitTables_lkp_profileBroken {d : Dev} {i : Nat} (hi : i < 8) (hb : d.profileBroken i = true) :
    ∃ code off, d.commitTables LKP.page = d.rejectCommit LKP.page code off :=
  Dev.commitTables_broken d.profileRule_mem (ruleAny_broken hi hb)

/-- Settles O58: each case of R90 breaks the profiles' rule, and a refused COMMIT applies nothing. -/
theorem lkpCommitRejected : Obligations.LkpCommitRejected := by
  intro s acc p g hw hp hg hbad
  obtain ⟨code, off, hrej⟩ := Dev.commitTables_lkp_profileBroken hp ((Dev.profileBroken_iff hg).mpr hbad)
  refine does_commitGo (page := 0x11) hw ?_
  have hcommit : s.dev.commitAt acc (0x11 : BitVec 16).toNat = s.dev.rejectCommit LKP.page code off :=
    (Dev.commitAt_lkp s.dev acc).trans hrej
  rw [hcommit]
  exact ⟨Dev.rejectCommit_rejected .., Dev.rejectCommit_shadow .., by rw [Dev.rejectCommit_toLookup],
    by rw [Dev.rejectCommit_toLookup], (OnlyPage.refl _ _).rejectCommit _ _, fun o k ho _ _ => Dev.rejectCommit_rd _ _ _ _ ho⟩

end Sys2Proof.Machine
end

section
/-!
Accesses to a page that cannot be reached (R392, R80). The write of one register, the read through I2C, the Crown wait
and the owner's commands each get one rule for what they meet at a page in reset, and the write also one for what it
meets at a page whose clock has stopped.
-/
namespace Sys2Proof.Machine

/-! ### ACC_STAT: the count in the upper half, the page in the lower -/

theorem Dev.accessInReset_accStat_eq (d : Dev) (page : Nat) :
    (d.accessInReset page).accStat = min (d.accStat / 65536 + 1) 65535 * 65536 + page % 65536 := rfl

theorem Dev.accessInReset_count (d : Dev) (page : Nat) :
    (d.accessInReset page).accStat / 65536 = min (d.accStat / 65536 + 1) 65535 := by
  rw [Dev.accessInReset_accStat_eq]
  omega

theorem Dev.accessInReset_page (d : Dev) {page : Nat} (hp : page < 65536) :
    (d.accessInReset page).accStat % 65536 = page := by
  rw [Dev.accessInReset_accStat_eq, Nat.mul_add_mod_self_right, Nat.mod_mod, Nat.mod_eq_of_lt hp]

/-- The frame of an access in reset: with ACC_STAT put back the device is as before. -/
theorem Dev.accessInReset_frame (d : Dev) (page : Nat) : { d.accessInReset page with accStat := d.accStat } = d := rfl

/-! ### The write of one register -/

theorem exec_registerWrite (acc : Accessor) (addr : BitVec 26) (byteEn : BitVec 4) (data : List (BitVec 32)) (s : State) :
    exec (.registerWrite acc addr byteEn data) s = execRegisterWrite acc addr byteEn data s := rfl

theorem burst_singleton {addr page off : Nat} (v : Word) (ha : addr = page * 4096 + off) (ho : off < 4096) :
    burst addr [v] = [(page, off, v)] := by
  have hpage : addr / 4096 = page := by omega
  have hoff : addr % 4096 = off := by omega
  simp [burst, hpage, hoff]

/-- W0 executes an aligned write of one whole register as the register's own write. -/
theorem exec_registerWrite_single {s t : State} {acc : Accessor} {addr : BitVec 26} {v : Word} {page off : Nat}
    (ha : addr.toNat = page * 4096 + off) (ho : off < 4096) (h4 : off % 4 = 0) (ht : writeReg acc page off v s = t) :
    exec (.registerWrite acc addr 15 [v]) s = .next { t with pending := s.pending } := by
  have haligned : addr.toNat % 4 = 0 := by omega
  have hok : w0Ok addr.toNat (15 : BitVec 4).toNat [v].length = true := by simp [w0Ok, haligned]
  rw [exec_registerWrite, execRegisterWrite, if_pos hok, burst_singleton v ha ho]
  simp only [onState, writeRegs, List.foldl_cons, List.foldl_nil, ht]

section
variable {s : State} {acc : Accessor} {page off i : Nat} {t : PageType} {v : Word}

/-- An accessor that reaches the mailbox page's channels is not turned away from the page (R329). -/
theorem mbxNotHidden (hm : t = .mbx → mbxReach acc (16 * i) = true) : ¬(t = .mbx ∧ !mbxReach acc (16 * i)) :=
  fun ⟨ht, hno⟩ => by simp [hm ht] at hno

/-- A register of a page in reset is not written: the access is counted (R392). -/
theorem writeReg_inReset (hp : pageOf page = some (t, i)) (hm : t = .mbx → mbxReach acc (16 * i) = true)
    (hu : s.dev.pageUp page = false) :
    writeReg acc page off v s = { s with dev := s.dev.accessInReset page } := by
  simp only [writeReg, hp, if_neg (mbxNotHidden hm), hu, Bool.not_false, if_true]

/-- The write of a register of a page whose clock has stopped waits at the page's crossing (R80). -/
theorem writeReg_clockStopped (hp : pageOf page = some (t, i)) (hm : t = .mbx → mbxReach acc (16 * i) = true)
    (hu : s.dev.pageUp page = true) (hh : s.dev.pageHeld page = true) :
    writeReg acc page off v s = { s with dev := s.dev.holdTransfer acc page [(off, v)] } := by
  simp only [writeReg, hp, if_neg (mbxNotHidden hm), hu, hh, Bool.not_true, Bool.false_eq_true, if_false, if_true]

end

/-! ### Reads through I2C and the Crown page window -/

theorem exec_i2cTransfer (offset : BitVec 32) (write : Bool) (s : State) :
    exec (.i2cTransfer offset write) s = execI2cTransfer offset write s := rfl

theorem exec_crownWaitComplete (s : State) : exec .crownWaitComplete s = execCrownWaitComplete s := rfl

theorem Dev.readBy_inReset {d : Dev} {page : Nat} (acc : Accessor) (off : Nat) (hu : d.pageUp page = false) :
    d.readBy acc page off = (0xFFFFFFFF, d.accessInReset page) := by
  simp [Dev.readBy, hu]

theorem Dev.setCrown_pageUp (d : Dev) (f : Crown → Crown) (page : Nat) : (d.setCrown f).pageUp page = d.pageUp page := rfl

/-- The I2C bus reads all ones from a page in reset, and the access is counted (R392). -/
theorem exec_i2cRead_inReset {s : State} {offset : BitVec 32} {page off : Nat} (ha : offset.toNat = page * 4096 + off)
    (ho : off < 4096) (h4 : off % 4 = 0) (hp : page < 0x3FFF) (hu : s.dev.pageUp page = false) :
    exec (.i2cTransfer offset false) s
      = .next { s with dev := (s.dev.accessInReset page).emit (.reply "i2c" [0xFFFFFFFF]) } := by
  have hpage : offset.toNat / 4096 = page := by omega
  have hin : ¬(offset.toNat % 4 ≠ 0 ∨ 0x4000000 ≤ offset.toNat) := by omega
  have hsummary : ¬0x3FFF000 ≤ offset.toNat := by omega
  refine onDev_eq (exec_i2cTransfer offset false s) ?_
  simp only [hpage, Bool.false_eq_true, if_false, if_neg hin, if_neg hsummary, hu, Bool.not_false, if_true]

/-- A Crown wait that reads a page, other than a mailbox page, whose crossing runs, ends with the controller's read. -/
theorem exec_crownWaitComplete_read {s : State} {w : CrownWait} {d : Dev} {x : Word × Dev}
    (hw : s.dev.crown.wait = some w) (hh : s.dev.pageHeld w.page = false) (hr : w.write = false)
    (h0 : w.page ≠ MBX.page 0) (h1 : w.page ≠ MBX.page 1)
    (hd : d = s.dev.setCrown (fun c => { c with wait := none })) (hx : d.readBy .controller w.page w.off = x) :
    exec .crownWaitComplete s = .next { s with dev := x.2.emit (.reply "crown" [x.1.toNat]) } := by
  subst hd hx
  have hmbx : ¬(w.page = MBX.page 0 ∨ w.page = MBX.page 1) := not_or.mpr ⟨h0, h1⟩
  simp [exec_crownWaitComplete, execCrownWaitComplete, onState, hw, hh, hr, hmbx]

/-! ### Commands of a page's owner -/

theorem exec_commitDiscard (acc : Accessor) (page : BitVec 16) (s : State) :
    exec (.commitDiscard acc page) s = execCommitDiscard acc page s := rfl

theorem exec_softReset (acc : Accessor) (page : BitVec 16) (s : State) :
    exec (.softReset acc page) s = execSoftReset acc page s := rfl

/-- COMMIT and CTRL.SOFT_RST of a page in reset are discarded and counted like any write (R392). -/
theorem exec_ownerCommand_inReset {s : State} {acc : Accessor} {page : BitVec 16} {c : Instr}
    (hc : c ∈ [Instr.commitGo acc page, .commitDiscard acc page, .softReset acc page])
    (hu : s.dev.pageUp page.toNat = false) :
    exec c s = .next { s with dev := s.dev.accessInReset page.toNat } := by
  simp only [List.mem_cons, List.not_mem_nil, or_false] at hc
  obtain rfl | rfl | rfl := hc
  · exact onDev_eq (exec_commitGo acc page s) (Dev.asOwner_reset _ hu)
  · exact onDev_eq (exec_commitDiscard acc page s) (Dev.asOwner_reset _ hu)
  · exact onDev_eq (exec_softReset acc page s) (Dev.asOwner_reset _ hu)

/-- Settles O53: each way to the page finds its island in reset before the access takes effect there, so the page in
reset only counts it; a write asks for the stopped clock only where the island is out of reset. -/
theorem accessInReset : Obligations.AccessInReset := by
  refine ⟨?registerWrite, ?i2cRead, ?crownRead, ?accStat, ?stoppedClock, ?ownerCommand⟩
  case registerWrite =>
    intro s acc addr v page off i t ha ho h4 hp hm hu
    exact exec_registerWrite_single ha ho h4 (writeReg_inReset hp hm hu)
  case i2cRead =>
    intro s offset page off ha ho h4 hp hu
    exact exec_i2cRead_inReset ha ho h4 hp hu
  case crownRead =>
    intro s w d hw hh hr h0 h1 hu hd
    have hup : d.pageUp w.page = false := by rw [hd, Dev.setCrown_pageUp, hu]
    exact exec_crownWaitComplete_read hw hh hr h0 h1 hd (Dev.readBy_inReset .controller w.off hup)
  case accStat =>
    intro d page hp
    exact ⟨d.accessInReset_count page, d.accessInReset_page hp, d.accessInReset_frame page⟩
  case stoppedClock =>
    intro s acc addr v page off i t ha ho h4 hp hm hu hh
    exact exec_registerWrite_single ha ho h4 (writeReg_clockStopped hp hm hu hh)
  case ownerCommand =>
    intro s acc page c hc hu
    exact exec_ownerCommand_inReset hc hu

end Sys2Proof.Machine
end

section
/-!
The DRAM bytes (R377) through a step. Every command answers a next state, leaves the queue alone and keeps the canonical
form: so do the operations that store, hence the commands made of them, hence the writes of registers that run them.
-/
namespace Sys2Proof.Machine

/-- A change of state that keeps the canonical form of the DRAM bytes. -/
def KeepsDram (f : State → State) : Prop := ∀ s, DramWf s → DramWf (f s)

/-- A meaning that answers a next state, leaves the queue alone, and keeps the canonical form of the DRAM bytes. -/
def Completes (f : State → Host.Outcome State Fault Refusal) : Prop :=
  ∀ s, ∃ t, f s = .next t ∧ t.pending = s.pending ∧ (DramWf s → DramWf t)

/-! ### The ways in which a command has a meaning -/

theorem completes_onDev (f : Dev → Dev) : Completes (onDev f) := fun s => ⟨{ s with dev := f s.dev }, rfl, rfl, id⟩

theorem completes_onMem {f : Dev → List Host.Cell → Dev × List Host.Cell}
    (hf : ∀ d m, Memory.wf m = true → Memory.wf (f d m).2 = true) : Completes (onMem f) :=
  fun s => ⟨_, rfl, rfl, hf s.dev s.dram⟩

theorem completes_onFw (f : Dev → List Host.Cell → Dev) : Completes (onFw f) :=
  completes_onMem fun d m h => (f d m).fwPump_wf h

theorem completes_onState {f : State → State} (hf : KeepsDram f) : Completes (onState f) :=
  fun s => ⟨_, rfl, rfl, hf s⟩

theorem keepsDram_id : KeepsDram fun s => s := fun _ h => h

theorem dramWf_ite {c : Prop} [Decidable c] {s t : State} (hs : DramWf s) (ht : DramWf t) :
    DramWf (if c then s else t) := by
  split
  · exact hs
  · exact ht

theorem dramWf_dev {s : State} (d : Dev) (h : DramWf s) : DramWf { s with dev := d } := h

theorem keepsDram_dev (f : State → Dev) : KeepsDram fun s => { s with dev := f s } := fun _ h => h

theorem KeepsDram.foldl {α : Type} {f : State → α → State} (hf : ∀ a, KeepsDram (f · a)) (l : List α) :
    KeepsDram fun s => l.foldl f s := by
  induction l with
  | nil => exact keepsDram_id
  | cons a l ih => exact fun s h => ih _ (hf a s h)

theorem Completes.after {f : State → Host.Outcome State Fault Refusal} (hf : Completes f) : KeepsDram (after f) := by
  intro s h
  obtain ⟨t, ht, -, hwf⟩ := hf s
  unfold Machine.after
  rw [ht]
  exact hwf h

/-- Firmware takes a command from its channel, answers it by its body or with the status of a check, and sends. -/
theorem completes_fwRun {ch : Fin 32} {family code : Nat} {body : Data → List (BitVec 8) → State → State}
    (hb : ∀ n bs, KeepsDram (body n bs)) : Completes (fwRun ch family code body) := by
  refine completes_onState fun s h => ?_
  dsimp only
  split
  case h_1 => exact h
  case h_2 n rest _ =>
    split
    · exact h
    · refine pump_wf ?_
      show DramWf _
      split
      · exact h
      · exact hb _ _ _ h

/-- A command that is run so, given by its equation. -/
theorem completes_of_fwRun {c : State → Host.Outcome State Fault Refusal} {ch : Fin 32} {family code : Nat}
    {body : Data → List (BitVec 8) → State → State} (hc : ∀ s, c s = fwRun ch family code body s)
    (hb : ∀ n bs s, DramWf s → DramWf (body n bs s)) : Completes c :=
  fun s => hc s ▸ completes_fwRun hb s

theorem completes_fwRunDev (ch : Fin 32) (family code : Nat) (body : Data → List Nat → Dev → Dev) :
    Completes (fwRunDev ch family code body) :=
  completes_fwRun (body := fun n bs s => { s with dev := body n (payloadWords bs) s.dev }) fun _ _ => keepsDram_dev _

/-! ### Mailbox notices (R314 to R316) -/

theorem Dev.w2Write_wf (d : Dev) {m : List Host.Cell} (fn off : Nat) (b : BitVec 8) (h : Memory.wf m = true) :
    Memory.wf (d.w2Write m fn off b) = true := by
  unfold Dev.w2Write
  split
  · exact h
  · split
    · exact memSetByte_wf _ _ h
    · exact h

theorem Dev.w2WriteAll_wf (d : Dev) (fn : Nat) (bs : List (BitVec 8)) {m : List Host.Cell} (off : Nat)
    (h : Memory.wf m = true) : Memory.wf (d.w2WriteAll m fn off bs) = true := by
  induction bs generalizing m off with
  | nil => exact h
  | cons b bs ih => exact ih _ (d.w2Write_wf _ _ _ h)

theorem Dev.storePayload_wf (d : Dev) {m : List Host.Cell} (acc : Accessor) (ch : Nat) (fw : Bool) (mid : BitVec 32)
    (payload : List (BitVec 8)) (h : Memory.wf m = true) : Memory.wf (d.storePayload m acc ch fw mid payload) = true := by
  unfold Dev.storePayload
  dsimp only
  split
  · exact h
  · split_ifs
    · exact h
    · exact memWrite_wf _ _ h
    · exact h
    all_goals exact d.w2WriteAll_wf _ _ _ h

theorem completes_mbxSend (acc : Accessor) (ch : Fin 32) (fw : Bool) (mid : BitVec 32) (payload : List (BitVec 8)) :
    Completes (execMbxSend acc ch fw mid payload) := by
  refine completes_onMem fun d m h => ?_
  dsimp only
  split_ifs
  · exact h
  · exact h
  · exact h
  · exact d.storePayload_wf _ _ _ _ _ h
  · exact d.storePayload_wf _ _ _ _ _ h
  · exact d.storePayload_wf _ _ _ _ _ h

theorem completes_mbxTwinDelivery (ch : Fin 4) (what : TwinMbx) : Completes (execMbxTwinDelivery ch what) := by
  refine completes_onMem fun d m h => ?_
  dsimp only
  split
  · exact h
  · cases what with
    | mirror full wait => exact h
    | notice n payload =>
      dsimp only
      split
      · exact h
      · dsimp only
        split
        · exact memWrite_wf _ _ h
        · exact h

theorem keepsDram_takeNotice (acc : Accessor) (ch : Nat) (fw : Bool) : KeepsDram (takeNotice acc ch fw) :=
  fun _ h => pump_wf h

theorem completes_mbxReceive (acc : Accessor) (ch : Fin 32) (fw : Bool) : Completes (execMbxReceive acc ch fw) :=
  completes_onState fun s h => dramWf_ite h (dramWf_ite h (dramWf_ite h (keepsDram_takeNotice acc ch fw s h)))

/-! ### The recorder, the DRAM test, the option store -/

theorem ite_wf {c : Prop} [Decidable c] {m n : List Host.Cell} (hm : Memory.wf m = true) (hn : Memory.wf n = true) :
    Memory.wf (if c then m else n) = true := by
  split
  · exact hm
  · exact hn

theorem ite_snd_wf {c : Prop} [Decidable c] {x y : Dev × List Host.Cell} (hx : Memory.wf x.2 = true)
    (hy : Memory.wf y.2 = true) : Memory.wf (if c then x else y).2 = true := by
  split
  · exact hx
  · exact hy

theorem completes_recordWrite : Completes execRecordWrite := by
  refine completes_onMem fun d m h => ?_
  split
  · exact h
  · exact ite_snd_wf h (Dev.logWrite_wf _ _ h)

theorem completes_logClear (acc : Accessor) : Completes (execLogClear acc) :=
  completes_onMem fun _ _ h => ite_wf (memZero_wf _ _ h) h

theorem completes_dramTestStart (acc : Accessor) : Completes (execDramTestStart acc) :=
  completes_onMem fun _ _ h => ite_wf h (ite_wf (memZero_wf _ _ h) (memZero_wf _ _ h))

theorem completes_optWrite (acc : Accessor) : Completes (execOptWrite acc) := completes_onMem fun _ _ h => h

/-! ### Resets and KEEP (R346 to R350, R360, R361) -/

theorem completes_coldSource (cause : Nat) (f : Dev → Dev) : Completes (coldSource cause f) :=
  completes_onMem fun _ _ _ => rfl

theorem completes_clockFailureReset : Completes execClockFailureReset :=
  completes_onMem fun d _ h => ite_snd_wf (Dev.warmReset_wf 4 0 clsClock false d h) h

theorem completes_watchdogExpiry : Completes execWatchdogExpiry :=
  completes_onMem fun _ _ h => ite_snd_wf (Dev.warmReset_wf _ _ _ _ _ h) h

theorem completes_softwareReset (acc : Accessor) (value : BitVec 32) : Completes (execSoftwareReset acc value) :=
  completes_onMem fun _ _ h => ite_snd_wf (Dev.warmReset_wf _ _ _ _ _ h) h

theorem completes_debugWarmReset : Completes execDebugWarmReset :=
  completes_onMem fun _ _ h => ite_snd_wf h (Dev.warmReset_wf _ _ _ _ _ h)

theorem completes_handshakeLockup (island : Fin 64) (stage : BitVec 8) : Completes (execHandshakeLockup island stage) :=
  completes_onMem fun _ _ h => ite_snd_wf h (Dev.warmReset_wf _ _ _ _ _ h)

theorem completes_coreLockup (core : Fin 5) : Completes (execCoreLockup core) :=
  completes_onMem fun _ _ h => ite_snd_wf (Dev.warmReset_wf _ _ _ _ _ h) h

theorem completes_keepIslandsReset : Completes execKeepIslandsReset :=
  completes_onMem fun d _ h => ite_snd_wf h (Dev.flushFirst_wf false d h)

theorem completes_wakeNLow : Completes execWakeNLow :=
  completes_onMem fun _ _ h => ite_snd_wf (Dev.wakeUp_wf _ _ h) h

theorem completes_wakeTimeReached : Completes execWakeTimeReached :=
  completes_onMem fun _ _ h => ite_snd_wf (Dev.wakeUp_wf _ _ h) h

theorem completes_perstNRise : Completes execPerstNRise :=
  completes_onMem fun _ _ h => ite_snd_wf (Dev.wakeUp_wf _ _ h) h

/-- A supply that stays away is a brown-out; else nothing happens. -/
theorem completes_keepSupplyTimeout : Completes execKeepSupplyTimeout := by
  intro s
  unfold execKeepSupplyTimeout
  split
  · exact completes_coldSource 2 id s
  · exact ⟨s, rfl, rfl, id⟩

/-! ### Registers with a command of their own -/

theorem keepsDram_strikes_nil (v : Word) : KeepsDram (strikes v []) := keepsDram_id

theorem keepsDram_strikes_cons {v : Word} {f : Field} {c : State → Host.Outcome State Fault Refusal}
    {l : List (Field × (State → Host.Outcome State Fault Refusal))} (hc : Completes c) (hl : KeepsDram (strikes v l)) :
    KeepsDram (strikes v ((f, c) :: l)) :=
  fun s h => hl _ (dramWf_ite (hc.after s h) h)

theorem keepsDram_strike {v : Word} {f : Field} {c : State → Host.Outcome State Fault Refusal} (hc : Completes c) :
    KeepsDram (strikes v [(f, c)]) := keepsDram_strikes_cons hc (keepsDram_strikes_nil v)

theorem completes_svcRestart (acc : Accessor) : Completes (execSvcRestart acc) := completes_onFw _

/-- Every operation of an entry window changes the device only. -/
theorem completes_entryOp {acc : Accessor} {t : PageType} {i op : Nat} {f : State → Host.Outcome State Fault Refusal}
    (h : entryOp acc t i op = some f) : Completes f := by
  unfold entryOp at h
  split at h <;> cases h <;> exact fun s => completes_onDev _ s

theorem keepsDram_writePrbs (acc : Accessor) (i : Nat) (v : Word) : KeepsDram (writePrbs acc i v) := by
  have hon : ∀ lane, Completes (execPrbsGenEnable acc lane) := fun _ s => completes_onDev _ s
  have hoff : ∀ lane, Completes (execPrbsGenDisable acc lane) := fun _ s => completes_onDev _ s
  have hclr : ∀ lane, Completes (execPrbsClear acc lane) := fun _ s => completes_onDev _ s
  have hinj : ∀ lane, Completes (execPrbsErrInject acc lane) := fun _ s => completes_onDev _ s
  intro s h
  unfold writePrbs
  dsimp only
  split
  · exact h
  · refine keepsDram_strikes_cons (hclr _) (keepsDram_strike (hinj _)) _ ?_
    split
    · exact (hon _).after _ h
    · split
      · exact (hoff _).after _ h
      · exact h

/-- Of a mailbox channel's registers only the MID half can store; the LO half and the WAIT bits change the device. -/
theorem keepsDram_writeMbx (acc : Accessor) (i off : Nat) (v : Word) : KeepsDram (writeMbx acc i off v) := by
  intro s h
  have hsend : ∀ ch fw, DramWf (after (execMbxSend acc ch fw v []) s) :=
    fun ch fw => (completes_mbxSend acc ch fw v []).after s h
  unfold writeMbx
  dsimp only
  refine dramWf_ite h (dramWf_ite h (dramWf_ite (hsend _ _) (dramWf_ite h (dramWf_ite (hsend _ _) (dramWf_ite ?_ h)))))
  -- WAIT_SET, then WAIT_CLR, of which each changes the device only
  refine dramWf_ite ?_ ?_ <;> exact dramWf_ite h h

/-- A register's command, if it has one, keeps the canonical form. -/
def KeepsDramIf (o : Option (State → State)) : Prop := ∀ f, o = some f → KeepsDram f

theorem keepsDramIf_none : KeepsDramIf none := fun _ h => nomatch h

theorem keepsDramIf_ite {c : Prop} [Decidable c] {f : State → State} {o : Option (State → State)} (hf : KeepsDram f)
    (ho : KeepsDramIf o) : KeepsDramIf (if c then some f else o) := by
  intro g hg
  split at hg
  · exact Option.some.inj hg ▸ hf
  · exact ho g hg

theorem keepsDramIf_ite_none {c : Prop} [Decidable c] {f : State → State} (hf : KeepsDram f) :
    KeepsDramIf (if c then some f else none) := keepsDramIf_ite hf keepsDramIf_none

/-- What a write of a command register does keeps the canonical form: the commands behind it do. -/
theorem keepsDram_commandReg (acc : Accessor) (t : PageType) (i off : Nat) (v : Word) :
    KeepsDramIf (commandReg acc t i off v) := by
  cases t
  case rst =>
    exact keepsDramIf_ite (completes_softwareReset acc v).after
      (keepsDramIf_ite_none (keepsDram_strike fun s => completes_onDev _ s))
  case opt => exact keepsDramIf_ite_none (keepsDram_strike (completes_optWrite acc))
  case svc => exact keepsDramIf_ite_none (keepsDram_strike (completes_svcRestart acc))
  case mbx => exact keepsDramIf_ite_none (keepsDram_writeMbx acc i off v)
  case log => exact keepsDramIf_ite_none (keepsDram_strike (completes_logClear acc))
  case drm =>
    exact keepsDramIf_ite_none (keepsDram_strikes_cons (completes_dramTestStart acc)
      (keepsDram_strike fun s => completes_onDev _ s))
  case pci => exact keepsDramIf_ite_none (Completes.after fun s => completes_onDev _ s)
  case fab => exact keepsDramIf_ite_none (keepsDram_strike fun s => completes_onDev _ s)
  case buf =>
    refine keepsDramIf_ite ?_ (keepsDramIf_ite (keepsDram_strike fun s => completes_onDev _ s)
      (keepsDramIf_ite_none (keepsDram_strike fun s => completes_onDev _ s)))
    split <;> exact Completes.after fun s => completes_onDev _ s
  case voq => exact keepsDramIf_ite_none (Completes.after fun s => completes_onDev _ s)
  case blk =>
    exact keepsDramIf_ite (keepsDram_strike fun s => completes_onDev _ s)
      (keepsDramIf_ite_none (keepsDram_strike fun s => completes_onDev _ s))
  case tal => exact keepsDramIf_ite_none (Completes.after fun s => completes_onDev _ s)
  case tmb =>
    refine keepsDramIf_ite (keepsDram_strike fun s => completes_onDev _ s) (keepsDramIf_ite_none ?_)
    split
    · exact Completes.after fun s => completes_onDev _ s
    · exact keepsDram_strike fun s => completes_onDev _ s
  case ref =>
    exact keepsDramIf_ite (Completes.after fun s => completes_onDev _ s)
      (keepsDramIf_ite (Completes.after fun s => completes_onDev _ s)
        (keepsDramIf_ite_none (Completes.after fun s => completes_onDev _ s)))
  case evt =>
    refine keepsDramIf_ite (keepsDram_strikes_cons (fun s => completes_onDev _ s)
      (keepsDram_strike fun s => completes_onDev _ s)) (keepsDramIf_ite_none fun s h => ?_)
    exact keepsDram_strike (fun s => completes_onDev _ s) _ h
  case dbl =>
    exact keepsDramIf_ite_none (keepsDram_strikes_cons (fun s => completes_onDev _ s)
      (keepsDram_strikes_cons (fun s => completes_onDev _ s) (keepsDram_strike fun s => completes_onDev _ s)))
  case syn =>
    exact keepsDramIf_ite_none (keepsDram_strikes_cons (fun s => completes_onDev _ s)
      (keepsDram_strike fun s => completes_onDev _ s))
  case lnk =>
    exact keepsDramIf_ite (fun s h => keepsDram_strike (fun s => completes_onDev _ s) _ h)
      (keepsDramIf_ite (Completes.after fun s => completes_onDev _ s) (keepsDramIf_ite_none (keepsDram_writePrbs acc i v)))
  case gcl => exact keepsDramIf_ite_none (keepsDram_strike fun s => completes_onDev _ s)
  case tsu =>
    exact keepsDramIf_ite_none (keepsDram_strikes_cons (fun s => completes_onDev _ s)
      (keepsDram_strike fun s => completes_onDev _ s))
  all_goals exact keepsDramIf_none

theorem keepsDram_ownersCommand (acc : Accessor) (t : PageType) (page off : Nat) (v : Word) {f : State → State}
    (hf : KeepsDram f) : KeepsDram (ownersCommand acc t page off v f) :=
  fun s h => dramWf_ite (hf s h) (dramWf_ite h (dramWf_ite (hf s h) h))

/-- A write of a register keeps the canonical form, whatever command the register has. -/
theorem keepsDram_writeReg (acc : Accessor) (page off : Nat) (v : Word) : KeepsDram (writeReg acc page off v) := by
  intro s h
  unfold writeReg
  split
  case h_1 => exact h
  case h_2 t i _ =>
    refine dramWf_ite h (dramWf_ite h (dramWf_ite h (dramWf_ite h ?_)))
    dsimp only
    split
    case h_1 f hop =>
      have hf : Completes f := by
        split at hop
        · split at hop
          · exact completes_entryOp (Option.some.inj hop)
          · cases hop
        · cases hop
      exact hf.after s h
    case h_2 => exact h
    case h_3 =>
      split
      case h_1 f hf => exact keepsDram_ownersCommand _ _ _ _ _ (keepsDram_commandReg _ _ _ _ _ f hf) s h
      case h_2 => exact h

theorem keepsDram_writeRegs (acc : Accessor) (l : List (Nat × Nat × Word)) : KeepsDram (writeRegs acc l) :=
  fun s h => KeepsDram.foldl (f := fun s (e : Nat × Nat × Word) => writeReg acc e.1 e.2.1 e.2.2 s)
    (fun e => keepsDram_writeReg acc e.1 e.2.1 e.2.2) l s h

/-! ### The commands that write registers -/

theorem completes_registerWrite (acc : Accessor) (addr : BitVec 26) (byteEn : BitVec 4) (data : List (BitVec 32)) :
    Completes (execRegisterWrite acc addr byteEn data) := by
  intro s
  unfold execRegisterWrite
  split
  · exact completes_onState (keepsDram_writeRegs acc _) s
  · exact completes_onDev _ s

theorem completes_crownWaitComplete : Completes execCrownWaitComplete := by
  refine completes_onState fun s h => ?_
  dsimp only
  split
  case h_1 => exact h
  case h_2 w _ =>
    exact dramWf_ite h (dramWf_ite (keepsDram_writeReg .controller w.page w.off w.value _ h)
      (dramWf_ite h h))

theorem keepsDram_holdOver (page : Nat) : KeepsDram (holdOver page) :=
  fun _ h => KeepsDram.foldl (f := fun t (w : Held) => writeReg w.acc w.page w.off w.value t)
    (fun w => keepsDram_writeReg w.acc w.page w.off w.value) _ _ h

theorem completes_pageHoldExpiry (page : BitVec 16) : Completes (execPageHoldExpiry page) :=
  completes_onState fun s h => dramWf_ite (pump_wf (keepsDram_holdOver page.toNat s h)) h

theorem completes_pageRelease (ch : Fin 32) : Completes (execPageRelease ch) := by
  refine completes_of_fwRun (fun _ => rfl) fun n bs s h => dramWf_ite h ?_
  have hover : DramWf (holdOver (fieldAt (payloadWords bs) 0 15 0) s) := keepsDram_holdOver _ s h
  dsimp only
  split
  · exact hover
  · exact h

theorem pageWrites_dramWf (acc : Accessor) (l : List (Nat × Nat × Word)) {s : State} (h : DramWf s) :
    DramWf (pageWrites acc l s).1 := by
  induction l generalizing s with
  | nil => exact h
  | cons e rest ih =>
    have hw : DramWf (writeReg acc e.1 e.2.1 e.2.2 s) := keepsDram_writeReg _ _ _ _ s h
    unfold pageWrites
    dsimp only
    split
    · exact hw
    · exact ih hw

theorem completes_pageWrite (ch : Fin 32) : Completes (execPageWrite ch) := by
  refine completes_of_fwRun (fun _ => rfl) fun n bs s h => ?_
  dsimp only
  split
  · exact h
  · split
    · exact h
    · exact pageWrites_dramWf _ _ h

theorem completes_logMarkCmd (ch : Fin 32) : Completes (execLogMarkCmd ch) :=
  completes_of_fwRun (fun _ => rfl) fun _ _ _ h => dramWf_ite h h

theorem completes_logExportCmd (ch : Fin 32) : Completes (execLogExportCmd ch) :=
  completes_of_fwRun (fun _ => rfl) fun _ _ _ h => h

theorem completes_updWrite (ch : Fin 32) : Completes (execUpdWrite ch) := by
  refine completes_of_fwRun (fun _ => rfl) fun _ _ _ h => ?_
  exact dramWf_ite (dramWf_dev _ h) (dramWf_dev _ h)

/-! ### Transfers that waited at a crossing (R80) -/

theorem keepsDram_replayRead (w : Held) : KeepsDram (replayRead w) :=
  fun s h => dramWf_ite h (dramWf_ite (keepsDram_takeNotice _ _ _ s h) h)

theorem keepsDram_replay (late : Bool) (w : Held) : KeepsDram (replay late w) := by
  intro s h
  have hread : DramWf (replayRead w s) := keepsDram_replayRead w s h
  exact dramWf_ite (dramWf_ite ((completes_mbxSend _ _ _ _ _).after s h) (keepsDram_writeReg _ _ _ _ s h)) (dramWf_ite hread hread)

theorem keepsDram_clockBack (island late : Nat) : KeepsDram (clockBack island late) := by
  intro s h
  exact List.foldlRecOn (motive := fun x : State × Nat => DramWf x.1) _ _ (dramWf_dev _ h) fun x hx w _ => keepsDram_replay _ w _ hx

theorem completes_clockRunningAgain (island : Fin 56) (late : BitVec 16) : Completes (execClockRunningAgain island late) :=
  completes_onState fun s h => dramWf_ite h (keepsDram_clockBack _ _ s h)

theorem completes_islandClockGood (what : Fin 7) : Completes (execIslandClockGood what) :=
  completes_onState fun _ h => KeepsDram.foldl
    (f := fun t i => if goodBit i = what.val ∧ t.dev.flag FAB.page FAB.XING_STAT.CLK_STOP i then clockBack i 0 t else t)
    (fun i t h => dramWf_ite (keepsDram_clockBack i 0 t h) h) _ _ h

end Sys2Proof.Machine
end

section
/-!
The step and the DRAM bytes: a command that does not store changes the device only; every other one completes, too.
-/
namespace Sys2Proof.Machine

/-- A command that does not store changes the device and nothing else. -/
theorem exec_device {c : Instr} (hc : stores c = false) (s : State) : ∃ d, exec c s = .next { s with dev := d } := by
  cases c
  case registerWrite | clockRunningAgain | islandClockGood | crownWaitComplete | mbxSend | mbxReceive | mbxTwinDelivery
      | pageHoldExpiry | svcRestart | restartDone | trialConfirmTimeout | trialStartTimeout | blkAdd | blkRemove
      | blkReplaceAll | blkQuery | blkResumeAfterSwap | handshakeLockup | powerOnReset | brownOut | resetNLow
      | clockFailureReset | watchdogExpiry | softwareReset | debugWarmReset | coreLockup | perstNRise | keepIslandsReset
      | wakeNLow | wakeTimeReached | keepSupplyTimeout | recordWrite | logClear | dramTestStart | pageRelease | pageWrite
      | logMarkCmd | logExportCmd | updWrite =>
    cases hc
  case sysVersion | sysRestart | sysPlacement | pageHold | pageGrant | ptpInstance | ptpPort | ptpDataset |
      ptpAsym | refSlotCmd | refModelCmd | refStoreCmd | redPairCmd | redStreamCmd | redLatentCmd |
      blkRequestCmd | lldpPortCmd | lldpNeighboursCmd | epashCfgCmd | updBegin | updVerify | updActivate |
      updConfirm | updAbort | updState =>
    cases hc
  -- what is left changes the device, whether it looks at the DRAM bytes or not
  all_goals exact ⟨_, rfl⟩

theorem completes_fwRunDev_of {c : State → Host.Outcome State Fault Refusal} {ch : Fin 32} {family code : Nat}
    {body : Data → List Nat → Dev → Dev} (hc : ∀ s, c s = fwRunDev ch family code body s) : Completes c :=
  fun s => hc s ▸ completes_fwRunDev ch family code body s

theorem exec_completes_of_stores {c : Instr} (hc : stores c = true) : Completes (exec c) := by
  cases c
  case registerWrite acc addr byteEn data => exact completes_registerWrite acc addr byteEn data
  case mbxSend acc ch fw mid payload => exact completes_mbxSend acc ch fw mid payload
  case mbxReceive acc ch fw => exact completes_mbxReceive acc ch fw
  case mbxTwinDelivery ch what => exact completes_mbxTwinDelivery ch what
  case clockRunningAgain island late => exact completes_clockRunningAgain island late
  case islandClockGood what => exact completes_islandClockGood what
  case crownWaitComplete => exact completes_crownWaitComplete
  case recordWrite => exact completes_recordWrite
  case logClear acc => exact completes_logClear acc
  case dramTestStart acc => exact completes_dramTestStart acc
  case powerOnReset => exact completes_coldSource 1 id
  case brownOut => exact completes_coldSource 2 id
  case resetNLow => exact (completes_coldSource 3 _ : Completes execResetNLow)
  case clockFailureReset => exact completes_clockFailureReset
  case watchdogExpiry => exact completes_watchdogExpiry
  case softwareReset acc value => exact completes_softwareReset acc value
  case debugWarmReset => exact completes_debugWarmReset
  case handshakeLockup island stage => exact completes_handshakeLockup island stage
  case coreLockup core => exact completes_coreLockup core
  case keepIslandsReset => exact completes_keepIslandsReset
  case wakeNLow => exact completes_wakeNLow
  case wakeTimeReached => exact completes_wakeTimeReached
  case perstNRise => exact completes_perstNRise
  case keepSupplyTimeout => exact completes_keepSupplyTimeout
  case pageHoldExpiry page => exact completes_pageHoldExpiry page
  case pageRelease ch => exact completes_pageRelease ch
  case pageWrite ch => exact completes_pageWrite ch
  case logMarkCmd ch => exact completes_logMarkCmd ch
  case logExportCmd ch => exact completes_logExportCmd ch
  case updWrite ch => exact completes_updWrite ch
  case svcRestart acc => exact completes_svcRestart acc
  case restartDone => exact (completes_onFw _ : Completes execRestartDone)
  case trialConfirmTimeout => exact (completes_onFw _ : Completes execTrialConfirmTimeout)
  case trialStartTimeout => exact (completes_onFw _ : Completes execTrialStartTimeout)
  case blkAdd => exact (completes_onFw _ : Completes execBlkAdd)
  case blkRemove => exact (completes_onFw _ : Completes execBlkRemove)
  case blkReplaceAll => exact (completes_onFw _ : Completes execBlkReplaceAll)
  case blkQuery => exact (completes_onFw _ : Completes execBlkQuery)
  case blkResumeAfterSwap => exact (completes_onFw _ : Completes execBlkResumeAfterSwap)
  case sysVersion ch => exact (completes_fwRunDev_of fun _ => rfl : Completes (execSysVersion ch))
  case sysRestart ch => exact (completes_fwRunDev_of fun _ => rfl : Completes (execSysRestart ch))
  case sysPlacement ch => exact (completes_fwRunDev_of fun _ => rfl : Completes (execSysPlacement ch))
  case pageHold ch => exact (completes_fwRunDev_of fun _ => rfl : Completes (execPageHold ch))
  case pageGrant ch => exact (completes_fwRunDev_of fun _ => rfl : Completes (execPageGrant ch))
  case ptpInstance ch => exact (completes_fwRunDev_of fun _ => rfl : Completes (execPtpInstance ch))
  case ptpPort ch => exact (completes_fwRunDev_of fun _ => rfl : Completes (execPtpPort ch))
  case ptpDataset ch dataset => exact (completes_fwRunDev_of fun _ => rfl : Completes (execPtpDataset ch dataset))
  case ptpAsym ch => exact (completes_fwRunDev_of fun _ => rfl : Completes (execPtpAsym ch))
  case refSlotCmd ch => exact (completes_fwRunDev_of fun _ => rfl : Completes (execRefSlotCmd ch))
  case refModelCmd ch => exact (completes_fwRunDev_of fun _ => rfl : Completes (execRefModelCmd ch))
  case refStoreCmd ch => exact (completes_fwRunDev_of fun _ => rfl : Completes (execRefStoreCmd ch))
  case redPairCmd ch => exact (completes_fwRunDev_of fun _ => rfl : Completes (execRedPairCmd ch))
  case redStreamCmd ch => exact (completes_fwRunDev_of fun _ => rfl : Completes (execRedStreamCmd ch))
  case redLatentCmd ch => exact (completes_fwRunDev_of fun _ => rfl : Completes (execRedLatentCmd ch))
  case blkRequestCmd ch => exact (completes_fwRunDev_of fun _ => rfl : Completes (execBlkRequestCmd ch))
  case lldpPortCmd ch => exact (completes_fwRunDev_of fun _ => rfl : Completes (execLldpPortCmd ch))
  case lldpNeighboursCmd ch => exact (completes_fwRunDev_of fun _ => rfl : Completes (execLldpNeighboursCmd ch))
  case epashCfgCmd ch => exact (completes_fwRunDev_of fun _ => rfl : Completes (execEpashCfgCmd ch))
  case updBegin ch => exact (completes_fwRunDev_of fun _ => rfl : Completes (execUpdBegin ch))
  case updVerify ch crcOk sigOk version =>
    exact (completes_fwRunDev_of fun _ => rfl : Completes (execUpdVerify ch crcOk sigOk version))
  case updActivate ch => exact (completes_fwRunDev_of fun _ => rfl : Completes (execUpdActivate ch))
  case updConfirm ch => exact (completes_fwRunDev_of fun _ => rfl : Completes (execUpdConfirm ch))
  case updAbort ch => exact (completes_fwRunDev_of fun _ => rfl : Completes (execUpdAbort ch))
  case updState ch => exact (completes_fwRunDev_of fun _ => rfl : Completes (execUpdState ch))
  all_goals cases hc

/-- Every command answers a next state, leaves the queue alone, and keeps the canonical form of the DRAM bytes. -/
theorem exec_completes (c : Instr) : Completes (exec c) := by
  cases hc : stores c
  case true => exact exec_completes_of_stores hc
  case false =>
    intro s
    obtain ⟨d, hd⟩ := exec_device hc s
    exact ⟨_, hd, rfl, dramWf_dev d⟩

/-- Settles O3: the command completes whatever stands in the state. -/
theorem everyCommandCompletes : Obligations.EveryCommandCompletes := by
  intro c s
  obtain ⟨t, ht, hp, -⟩ := exec_completes c s
  exact ⟨t, ht, hp⟩

/-- Settles O1: a step is one look at the front of the queue. -/
theorem stepTakesFront : Obligations.StepTakesFront := by
  refine ⟨fun _ _ _ => rfl, fun s hs => ?_⟩
  rw [step, hs]

/-- Settles O4: an idle step changes nothing, another runs one command, which keeps the canonical form. -/
theorem dramStaysCanonical : Obligations.DramStaysCanonical := by
  intro s t hwf hstep
  unfold step at hstep
  split at hstep
  case h_1 => exact Host.Outcome.next.inj hstep ▸ hwf
  case h_2 c rest _ =>
    obtain ⟨t', ht', -, hkeep⟩ := exec_completes c { s with pending := rest }
    have heq : t' = t := Host.Outcome.next.inj (ht'.symm.trans hstep)
    exact heq ▸ hkeep hwf

/-- A notice that its sender may send on a page that can be reached leaves in DRAM what the sender has stored. -/
theorem exec_mbxSend_dram {s t : State} {acc : Accessor} {ch : Fin 32} {fw : Bool} {mid : BitVec 32}
    {payload : List (BitVec 8)} (hreach : mbxReach acc ch = true) (hpage : Reach s.dev (mbxPage ch))
    (hsend : mbxSender acc ch fw = true) (ht : exec (.mbxSend acc ch fw mid payload) s = .next t) :
    t.dram = s.dev.storePayload s.dram acc ch fw mid payload := by
  obtain ⟨hup, hheld⟩ := hpage
  have hexec : exec (.mbxSend acc ch fw mid payload) s = execMbxSend acc ch fw mid payload s := rfl
  rw [hexec, execMbxSend] at ht
  simp only [onMem, hreach, hup, hheld, hsend, Bool.not_true, Bool.or_self, Bool.false_eq_true, if_false] at ht
  rw [← Host.Outcome.next.inj ht]
  dsimp only
  split_ifs <;> rfl

/-- Settles O5: a command outside `stores` changes the device only; a notice that is sent writes its payload at its
pointer's place, and a write of memory reads back and leaves the rest. -/
theorem dramFrame : Obligations.DramFrame := by
  refine ⟨?frame, ?notice⟩
  case frame =>
    intro c s t hc ht
    obtain ⟨d, hd⟩ := exec_device hc s
    rw [← Host.Outcome.next.inj (hd.symm.trans ht)]
  case notice =>
    intro s t acc ch fw mid payload n base hreach hpage hsend hn hbase htrained hlen hne ht
    subst hn
    rw [exec_mbxSend_dram hreach hpage hsend ht, s.dev.storePayload_placed s.dram hreach hsend hbase htrained hlen hne]
    exact ⟨memRead_memWrite _ _ _, fun a ha => memByte_memWrite_outside _ _ ha⟩

end Sys2Proof.Machine
end

section
/-!
Mailbox commands that do not pass their checks (R304, R320, R322, R324): every command of R321 and R324 is run in one
way, which answers a failed check at once.
-/
namespace Sys2Proof.Machine

/-- The commands of R321 and R324 with their family and code. -/
def mailboxCommands (ch : Fin 32) (dataset : List (BitVec 8)) (crcOk sigOk : Bool) (version : BitVec 32) :
    List (Instr × Nat × Nat) :=
  [(.sysVersion ch, 0, 1), (.sysRestart ch, 0, 2), (.sysPlacement ch, 0, 3), (.pageHold ch, 1, 1),
    (.pageRelease ch, 1, 2), (.pageGrant ch, 1, 3), (.pageWrite ch, 1, 4), (.ptpInstance ch, 2, 1),
    (.ptpPort ch, 2, 2), (.ptpDataset ch dataset, 2, 3), (.ptpAsym ch, 2, 4), (.refSlotCmd ch, 3, 1),
    (.refModelCmd ch, 3, 2), (.refStoreCmd ch, 3, 3), (.redPairCmd ch, 4, 1), (.redStreamCmd ch, 4, 2),
    (.redLatentCmd ch, 4, 3), (.blkRequestCmd ch, 5, 1), (.lldpPortCmd ch, 6, 1), (.lldpNeighboursCmd ch, 6, 2),
    (.logMarkCmd ch, 7, 1), (.logExportCmd ch, 7, 2), (.epashCfgCmd ch, 8, 1), (.updBegin ch, 15, 1),
    (.updWrite ch, 15, 2), (.updVerify ch crcOk sigOk version, 15, 3), (.updActivate ch, 15, 4), (.updConfirm ch, 15, 5),
    (.updAbort ch, 15, 6), (.updState ch, 15, 7)]

/-- A command with its family and code is run as the command of that family and code. -/
def RunsAs (ch : Fin 32) (x : Instr × Nat × Nat) : Prop := ∃ body, ∀ s, exec x.1 s = fwRun ch x.2.1 x.2.2 body s

theorem runsAs {ch : Fin 32} {c : Instr} {family code : Nat} {body : Data → List (BitVec 8) → State → State}
    (m : State → Host.Outcome State Fault Refusal) (hc : ∀ s, exec c s = m s)
    (hm : ∀ s, m s = fwRun ch family code body s) : RunsAs ch (c, family, code) := ⟨body, fun s => (hc s).trans (hm s)⟩

theorem runsAs_dev {ch : Fin 32} {c : Instr} {family code : Nat} {body : Data → List Nat → Dev → Dev}
    (m : State → Host.Outcome State Fault Refusal) (hc : ∀ s, exec c s = m s)
    (hm : ∀ s, m s = fwRunDev ch family code body s) : RunsAs ch (c, family, code) :=
  runsAs (body := fun n bs s => { s with dev := body n (payloadWords bs) s.dev }) m hc hm

theorem mailboxCommands_runsAs (ch : Fin 32) (dataset : List (BitVec 8)) (crcOk sigOk : Bool) (version : BitVec 32) :
    ∀ x ∈ mailboxCommands ch dataset crcOk sigOk version, RunsAs ch x := by
  simp only [mailboxCommands, List.forall_mem_cons]
  exact ⟨runsAs_dev (execSysVersion ch) (fun _ => rfl) fun _ => rfl, runsAs_dev (execSysRestart ch) (fun _ => rfl) fun _ => rfl,
    runsAs_dev (execSysPlacement ch) (fun _ => rfl) fun _ => rfl, runsAs_dev (execPageHold ch) (fun _ => rfl) fun _ => rfl,
    runsAs (execPageRelease ch) (fun _ => rfl) fun _ => rfl, runsAs_dev (execPageGrant ch) (fun _ => rfl) fun _ => rfl,
    runsAs (execPageWrite ch) (fun _ => rfl) fun _ => rfl, runsAs_dev (execPtpInstance ch) (fun _ => rfl) fun _ => rfl,
    runsAs_dev (execPtpPort ch) (fun _ => rfl) fun _ => rfl, runsAs_dev (execPtpDataset ch dataset) (fun _ => rfl) fun _ => rfl,
    runsAs_dev (execPtpAsym ch) (fun _ => rfl) fun _ => rfl, runsAs_dev (execRefSlotCmd ch) (fun _ => rfl) fun _ => rfl,
    runsAs_dev (execRefModelCmd ch) (fun _ => rfl) fun _ => rfl, runsAs_dev (execRefStoreCmd ch) (fun _ => rfl) fun _ => rfl,
    runsAs_dev (execRedPairCmd ch) (fun _ => rfl) fun _ => rfl, runsAs_dev (execRedStreamCmd ch) (fun _ => rfl) fun _ => rfl,
    runsAs_dev (execRedLatentCmd ch) (fun _ => rfl) fun _ => rfl, runsAs_dev (execBlkRequestCmd ch) (fun _ => rfl) fun _ => rfl,
    runsAs_dev (execLldpPortCmd ch) (fun _ => rfl) fun _ => rfl, runsAs_dev (execLldpNeighboursCmd ch) (fun _ => rfl) fun _ => rfl,
    runsAs (execLogMarkCmd ch) (fun _ => rfl) fun _ => rfl, runsAs (execLogExportCmd ch) (fun _ => rfl) fun _ => rfl,
    runsAs_dev (execEpashCfgCmd ch) (fun _ => rfl) fun _ => rfl, runsAs_dev (execUpdBegin ch) (fun _ => rfl) fun _ => rfl,
    runsAs (execUpdWrite ch) (fun _ => rfl) fun _ => rfl, runsAs_dev (execUpdVerify ch crcOk sigOk version) (fun _ => rfl) fun _ => rfl,
    runsAs_dev (execUpdActivate ch) (fun _ => rfl) fun _ => rfl, runsAs_dev (execUpdConfirm ch) (fun _ => rfl) fun _ => rfl,
    runsAs_dev (execUpdAbort ch) (fun _ => rfl) fun _ => rfl, runsAs_dev (execUpdState ch) (fun _ => rfl) fun _ => rfl,
    fun _ h => nomatch h⟩

/-- Settles O57: the command is run like every other, and the check that it fails answers in its body's place. -/
theorem firmwareChecks : Obligations.FirmwareChecks := by
  intro s ch dataset crcOk sigOk version c family code st n rest e hmem hfirst hruns hfamily hcode hcheck he
  obtain ⟨body, hbody⟩ := mailboxCommands_runsAs ch dataset crcOk sigOk version _ hmem
  exact fwRun_check (hbody s) hfirst hruns hfamily hcode hcheck he.symm

end Sys2Proof.Machine
end

section
/-!
The check byte (R428, R21). The code is linear: the syndrome of a word and its parity over all 72 bits turn an exclusive
OR of words into an exclusive OR of results, and both are zero on a word as the device writes it. What a read finds
after bits were inverted is therefore the syndrome and the parity of the inverted bits alone: those of one bit are its
position in the code, or zero for the parity bit, and no two of the 72 are equal.
-/
namespace Sys2Proof.Machine

/-- What `decodeNative` compares with positions: the check bits of the data read against the check bits read. -/
def syndrome (w : Native) : Nat := eccLow (w.setWidth 64) ^^^ w.toNat / 2 ^ 64 % 128

/-- The syndrome that inverting bit `i` of a native word leaves. -/
def bitSyndrome (i : Nat) : Nat :=
  if i < 64 then dataPositions.getD i 0 else if i < 71 then 2 ^ (i - 64) else 0

theorem foldl_xor_xor {A : Type} (f g : A → Bool) (l : List A) (b c : Bool) :
    l.foldl (fun x a => x ^^ (f a ^^ g a)) (b ^^ c)
      = (l.foldl (fun x a => x ^^ f a) b ^^ l.foldl (fun x a => x ^^ g a) c) := by
  induction l generalizing b c with
  | nil => rfl
  | cons a l ih =>
    simp only [List.foldl_cons]
    rw [← ih]
    congr 1
    cases b <;> cases c <;> cases f a <;> cases g a <;> rfl

theorem eccBit_xor (a b : Data) (j : Nat) : eccBit (a ^^^ b) j = (eccBit a j ^^ eccBit b j) := by
  simp only [eccBit, BitVec.toNat_xor, Nat.testBit_xor]
  exact foldl_xor_xor (fun e : Nat × Nat => a.toNat.testBit e.2) (fun e : Nat × Nat => b.toNat.testBit e.2) _ false false

theorem parity_xor (n x y : Nat) : parity n (x ^^^ y) = (parity n x ^^ parity n y) := by
  simp only [parity, Nat.testBit_xor]
  exact foldl_xor_xor (fun i => x.testBit i) (fun i => y.testBit i) _ false false

theorem eccLow_eq_ofFnLE (data : Data) : eccLow data = (BitVec.ofFnLE fun j : Fin 7 => eccBit data j).toNat := by
  have key : ∀ f : Fin 7 → Bool,
      (List.finRange 7).foldl (fun n j => n + if f j then 2 ^ j.val else 0) 0 = (BitVec.ofFnLE f).toNat := by
    decide +kernel
  exact key fun j => eccBit data j

theorem eccLow_lt (data : Data) : eccLow data < 128 := by
  rw [eccLow_eq_ofFnLE]
  exact BitVec.isLt _

theorem eccLow_xor (a b : Data) : eccLow (a ^^^ b) = eccLow a ^^^ eccLow b := by
  simp only [eccLow_eq_ofFnLE, ← BitVec.toNat_xor]
  congr 1
  ext j hj
  simp [eccBit_xor]

theorem syndrome_xor (v w : Native) : syndrome (v ^^^ w) = syndrome v ^^^ syndrome w := by
  have hstored : (v ^^^ w).toNat / 2 ^ 64 % 128 = v.toNat / 2 ^ 64 % 128 ^^^ w.toNat / 2 ^ 64 % 128 := by
    rw [BitVec.toNat_xor, Nat.xor_div_two_pow, show (128 : Nat) = 2 ^ 7 from rfl, Nat.xor_mod_two_pow]
  simp only [syndrome, BitVec.setWidth_xor, eccLow_xor, hstored]
  ac_rfl

theorem eccByte_toNat (data : Data) :
    (eccByte data).toNat
      = eccLow data + if parity 64 data.toNat ^^ parity 7 (eccLow data) then 128 else 0 := by
  have hlow := eccLow_lt data
  rw [eccByte, BitVec.toNat_ofNat, Nat.mod_eq_of_lt]
  split <;> omega

theorem encodeNative_toNat (data : Data) :
    (encodeNative data).toNat = (eccByte data).toNat * 2 ^ 64 + data.toNat := by
  rw [encodeNative, BitVec.toNat_append, ← Nat.shiftLeft_add_eq_or_of_lt data.isLt, Nat.shiftLeft_eq]

@[simp] theorem encodeNative_setWidth (data : Data) : (encodeNative data).setWidth 64 = data := by
  rw [encodeNative, BitVec.setWidth_append]
  simp

theorem syndrome_encodeNative (data : Data) : syndrome (encodeNative data) = 0 := by
  have hlow := eccLow_lt data
  have hdata := data.isLt
  have hstored : (encodeNative data).toNat / 2 ^ 64 % 128 = eccLow data := by
    rw [encodeNative_toNat, eccByte_toNat]
    split <;> omega
  rw [syndrome, hstored, encodeNative_setWidth, Nat.xor_self]

theorem parity_succ (n x : Nat) : parity (n + 1) x = (parity n x ^^ x.testBit n) := by
  simp [parity, List.range_succ]

theorem parity_add (m n x : Nat) : parity (m + n) x = (parity m x ^^ parity n (x / 2 ^ m)) := by
  induction n with
  | zero => simp [parity]
  | succ n ih => rw [← Nat.add_assoc, parity_succ, ih, parity_succ, Nat.testBit_div_two_pow, Nat.add_comm n m, Bool.xor_assoc]

theorem parity_mod {n m : Nat} (h : n ≤ m) (x : Nat) : parity n (x % 2 ^ m) = parity n x := by
  induction n with
  | zero => rfl
  | succ n ih =>
    rw [parity_succ, parity_succ, ih (by omega), Nat.testBit_mod_two_pow, decide_eq_true (by omega : n < m),
      Bool.true_and]

/-- The eighth check bit makes the number of ones of the whole word even. -/
theorem parity_encodeNative (data : Data) : parity 72 (encodeNative data).toNat = false := by
  have hlow := eccLow_lt data
  have hdata := data.isLt
  have hdataPart : (encodeNative data).toNat % 2 ^ 64 = data.toNat := by
    rw [encodeNative_toNat]; omega
  have hcheckPart : (encodeNative data).toNat / 2 ^ 64 = (eccByte data).toNat := by
    rw [encodeNative_toNat]; omega
  have hlowPart : (eccByte data).toNat % 2 ^ 7 = eccLow data := by
    rw [eccByte_toNat]; split <;> omega
  have htop : (eccByte data).toNat.testBit 7 = (parity 64 data.toNat ^^ parity 7 (eccLow data)) := by
    rw [Nat.testBit_eq_decide_div_mod_eq, eccByte_toNat]
    split
    case isTrue odd => rw [odd]; exact decide_eq_true (by omega)
    case isFalse even => rw [Bool.not_eq_true _ |>.mp even]; exact decide_eq_false (by omega)
  rw [parity_add 64 8, ← parity_mod (le_refl 64), hdataPart, hcheckPart, parity_succ 7,
    ← parity_mod (le_refl 7) (eccByte data).toNat, hlowPart, htop]
  cases parity 64 data.toNat <;> cases parity 7 (eccLow data) <;> rfl

/-- R428 restated by syndrome and parity. -/
theorem decodeNative_eq (w : Native) :
    decodeNative w =
      if parity 72 w.toNat = false then
        if syndrome w = 0 then .clean (w.setWidth 64) else .uncorrectable
      else if syndrome w = 0 ∨ isPow2 (syndrome w) then .corrected (w.setWidth 64)
      else if syndrome w ≤ 71 then
        match dataPositions.idxOf? (syndrome w) with
        | some i => .corrected (w.setWidth 64 ^^^ (1#64 <<< i))
        | none => .uncorrectable
      else .uncorrectable := by
  simp only [decodeNative, syndrome, Bool.not_eq_true']
  rfl

theorem syndrome_bit : ∀ i < 72, syndrome (1#72 <<< i) = bitSyndrome i := by decide +kernel

theorem parity_bit : ∀ i < 72, parity 72 (1#72 <<< i).toNat = true := by decide +kernel

theorem bitSyndrome_nodup : ((List.range 72).map bitSyndrome).Nodup := by decide +kernel

theorem bitSyndrome_inj {i j : Nat} (hi : i < 72) (hj : j < 72) (h : bitSyndrome i = bitSyndrome j) : i = j :=
  List.inj_on_of_nodup_map bitSyndrome_nodup (List.mem_range.mpr hi) (List.mem_range.mpr hj) h

/-- The position of a data bit is no power of two, is in range, and names that bit. -/
theorem bitSyndrome_data : ∀ i < 64, bitSyndrome i ≠ 0 ∧ isPow2 (bitSyndrome i) = false ∧ bitSyndrome i ≤ 71 ∧
    dataPositions.idxOf? (bitSyndrome i) = some i := by decide +kernel

theorem bitSyndrome_check : ∀ i < 72, 64 ≤ i → bitSyndrome i = 0 ∨ isPow2 (bitSyndrome i) = true := by
  decide +kernel

theorem dataBit_setWidth (i : Nat) : (1#72 <<< i).setWidth 64 = 1#64 <<< i := by
  simp [BitVec.setWidth_shiftLeft_of_le]

theorem checkBit_setWidth {i : Nat} (h : 64 ≤ i) : (1#72 <<< i).setWidth 64 = 0#64 := by
  ext k hk
  simp; omega

/-- Settles O60: by the linearity of syndrome and parity a read depends on the inverted bits alone. One inverted bit
leaves odd parity and its own position; two leave even parity and, their positions being different, no zero syndrome. -/
theorem checkByteCorrects : Obligations.CheckByteCorrects := by
  refine ⟨fun data => ?_, fun data i hi => ?_, fun data i j hij hj => ?_⟩
  · rw [decodeNative_eq, if_pos (parity_encodeNative data), if_pos (syndrome_encodeNative data),
      encodeNative_setWidth]
  · have hpar : ¬ parity 72 (encodeNative data ^^^ (1#72 <<< i)).toNat = false := by
      rw [BitVec.toNat_xor, parity_xor, parity_encodeNative, parity_bit i hi]; decide
    have hsyn : syndrome (encodeNative data ^^^ (1#72 <<< i)) = bitSyndrome i := by
      rw [syndrome_xor, syndrome_encodeNative, syndrome_bit i hi, Nat.zero_xor]
    rw [decodeNative_eq, if_neg hpar, hsyn, BitVec.setWidth_xor, encodeNative_setWidth]
    by_cases h : i < 64
    case pos =>
      obtain ⟨hzero, hpow, hrange, hpos⟩ := bitSyndrome_data i h
      rw [if_neg (by simp [hzero, hpow]), if_pos hrange, hpos, dataBit_setWidth i]
      simp
    case neg =>
      rw [if_pos (bitSyndrome_check i hi (by omega)), checkBit_setWidth (by omega), BitVec.xor_zero]
  · have hi : i < 72 := by omega
    have hpar : parity 72 (encodeNative data ^^^ (1#72 <<< i) ^^^ (1#72 <<< j)).toNat = false := by
      rw [BitVec.toNat_xor, BitVec.toNat_xor, parity_xor, parity_xor, parity_encodeNative, parity_bit i hi,
        parity_bit j hj]
      rfl
    have hsyn : syndrome (encodeNative data ^^^ (1#72 <<< i) ^^^ (1#72 <<< j)) ≠ 0 := by
      rw [syndrome_xor, syndrome_xor, syndrome_encodeNative, syndrome_bit i hi, syndrome_bit j hj, Nat.zero_xor]
      intro heq
      have := bitSyndrome_inj hi hj (Nat.xor_eq_zero_iff.mp heq)
      omega
    rw [decodeNative_eq, if_pos hpar, if_neg hsyn]

end Sys2Proof.Machine
end

section
/-!
The write of one register (R19, R307, R308), one rule for each way it goes: the common part, a block register of the
page's owner, a selector or window register, a register nobody writes, a register with a command of its own, and the
write of an accessor that does not own the page.
-/
namespace Sys2Proof.Machine

/-! ### Bursts (R391) -/

theorem burst_cons (addr : Nat) (v : Word) (data : List Word) :
    burst addr (v :: data) = (addr / 4096, addr % 4096, v) :: burst (addr + 4) data := by
  have hnext : ∀ k, addr + 4 * (k + 1) = addr + 4 + 4 * k := by omega
  simp [burst, List.range_succ_eq_map, List.zipWith_map_left, hnext]

/-- An access that W0 does not execute is answered so (R391). -/
theorem exec_registerWrite_unsupported {s : State} {acc : Accessor} {addr : BitVec 26} {byteEn : BitVec 4}
    {data : List Word} (h : w0Ok addr.toNat byteEn.toNat data.length = false) :
    exec (.registerWrite acc addr byteEn data) s
      = .next { s with dev := s.dev.emit (.reply "unsupported request" [addr.toNat]) } := by
  rw [exec_registerWrite, execRegisterWrite, if_neg (by rw [h]; decide)]
  rfl

/-- A burst writes its first register, then the rest from there. -/
theorem exec_registerWrite_burst {s : State} {acc : Accessor} {addr : BitVec 26} {byteEn : BitVec 4} {v : Word}
    {data : List Word} (h : w0Ok addr.toNat byteEn.toNat (data.length + 1) = true) :
    exec (.registerWrite acc addr byteEn (v :: data)) s
      = .next { writeRegs acc (burst (addr.toNat + 4) data)
          (writeReg acc (addr.toNat / 4096) (addr.toNat % 4096) v s) with pending := s.pending } := by
  rw [exec_registerWrite, execRegisterWrite, List.length_cons, if_pos h, burst_cons]
  rfl

/-! ### One register -/

section
variable {s : State} {acc : Accessor} {page off i : Nat} {t : PageType} {v : Word}

theorem writeReg_noPage (hp : pageOf page = none) : writeReg acc page off v s = s := by
  simp only [writeReg, hp]

variable (hp : pageOf page = some (t, i)) (hm : t = .mbx → mbxReach acc (16 * i) = true) (hr : Reach s.dev page)
include hp hm hr

theorem writeReg_common (h : off < 0x40) :
    writeReg acc page off v s = { s with dev := s.dev.writeCommon acc t page off v } := by
  simp only [writeReg, hp, if_neg (mbxNotHidden hm), hr.1, hr.2, Bool.not_true, Bool.false_eq_true, if_false, h, if_true]

/-- A register above the common part that is no window's command: its own command, if it has one, or a plain write. -/
theorem writeReg_above (h : 0x40 ≤ off) (hw : ∀ w ∈ winOf t i, off ≠ w.result.off) :
    writeReg acc page off v s = (commandReg acc t i off v).elim
      { s with dev :=
          if anyWrites t off then s.dev.writeWindow acc t i page off v
          else if writable t off then s.dev.asOwner acc page off (·.writeBlockReg acc t i page off v) [(off, v)]
          else s.dev }
      (fun f => ownersCommand acc t page off v f s) := by
  have hcommon : ¬off < 0x40 := by omega
  simp only [writeReg, hp, if_neg (mbxNotHidden hm), hr.1, hr.2, Bool.not_true, Bool.false_eq_true, if_false, hcommon]
  cases hwin : winOf t i with
  | none => cases commandReg acc t i off v <;> rfl
  | some w =>
    simp only [if_neg (hw w hwin)]
    cases commandReg acc t i off v <;> rfl

theorem writeReg_command {f : State → State} (h : 0x40 ≤ off) (hw : ∀ w ∈ winOf t i, off ≠ w.result.off)
    (hc : commandReg acc t i off v = some f) : writeReg acc page off v s = ownersCommand acc t page off v f s := by
  rw [writeReg_above hp hm hr h hw, hc, Option.elim_some]

variable (h : 0x40 ≤ off) (hw : ∀ w ∈ winOf t i, off ≠ w.result.off) (hc : commandReg acc t i off v = none)
include h hw hc

theorem writeReg_window (ha : anyWrites t off = true) :
    writeReg acc page off v s = { s with dev := s.dev.writeWindow acc t i page off v } := by
  simp only [writeReg_above hp hm hr h hw, hc, Option.elim_none, ha, if_true]

theorem writeReg_unwritable (ha : anyWrites t off = false) (hwr : writable t off = false) :
    writeReg acc page off v s = s := by
  simp only [writeReg_above hp hm hr h hw, hc, Option.elim_none, ha, hwr, Bool.false_eq_true, if_false]

theorem writeReg_block (ha : anyWrites t off = false) (hwr : writable t off = true) :
    writeReg acc page off v s
      = { s with dev := s.dev.asOwner acc page off (·.writeBlockReg acc t i page off v) [(off, v)] } := by
  simp only [writeReg_above hp hm hr h hw, hc, Option.elim_none, ha, hwr, Bool.false_eq_true, if_false, if_true]

end

/-- Settles O51: each clause is the rule of one way a write goes. -/
theorem registerWrites : Obligations.RegisterWrites := by
  refine ⟨?unsupported, ?burst, ?noPage, ?block, ?window, ?unwritable, ?common⟩
  case unsupported =>
    intro s acc addr byteEn data h
    exact exec_registerWrite_unsupported h
  case burst =>
    intro s acc addr byteEn v data t h _ ht
    rw [exec_registerWrite_burst h, ht]
  case noPage =>
    intro s acc addr v page off ha ho h4 hp
    exact exec_registerWrite_single ha ho h4 (writeReg_noPage hp)
  case block =>
    intro s acc addr v page off t i ha ho h4 hp hm hr h40 hw hc hany hwr hmay
    have hwrite := writeReg_block hp hm hr h40 hw hc hany hwr
    rw [Dev.asOwner_may _ hmay] at hwrite
    exact exec_registerWrite_single ha ho h4 hwrite
  case window =>
    intro s acc addr v page off t i ha ho h4 hp hm hr h40 hw hc hany
    exact exec_registerWrite_single ha ho h4 (writeReg_window hp hm hr h40 hw hc hany)
  case unwritable =>
    intro s acc addr v page off t i ha ho h4 hp hm hr h40 hw hc hany hwr
    exact exec_registerWrite_single ha ho h4 (writeReg_unwritable hp hm hr h40 hw hc hany hwr)
  case common =>
    intro s acc addr v page off t i ha ho h4 hp hm hr h40
    exact exec_registerWrite_single ha ho h4 (writeReg_common hp hm hr h40)

/-! ### A write by an accessor that does not own the page (R307) -/

theorem Dev.writeCommon_stranger {d : Dev} {acc : Accessor} {t : PageType} {page off : Nat} {v : Word}
    (hoff : off = 0x14 ∨ off = 0x1C ∨ off = 0x24) (hr : Reach d page) (hf : (acc.isFw && d.hostHolds page) = false)
    (ho : d.owns acc page = false) : d.writeCommon acc t page off v = d.refuseWrite page off := by
  rcases hoff with rfl | rfl | rfl <;> simp [Dev.writeCommon, Dev.asOwner_stranger _ hr.1 hr.2 hf ho]

theorem ownersCommand_stranger {s : State} {acc : Accessor} {t : PageType} {page off : Nat} {v : Word}
    {f : State → State} (hrule : ownRule t off = false) (hf : (acc.isFw && s.dev.hostHolds page) = false)
    (ho : s.dev.owns acc page = false) :
    ownersCommand acc t page off v f s = { s with dev := s.dev.refuseWrite page off } := by
  simp only [ownersCommand, hrule, hf, ho, Bool.false_eq_true, if_false]

theorem Dev.refuseWrite_counter (d : Dev) (page off j : Nat) :
    (d.refuseWrite page off).counter j = if j = 0xF42 then (d.counter 0xF42 + 1) % 2 ^ 48 else d.counter j := by
  rw [Dev.refuseWrite, Dev.counter_congr (Dev.err_toRecords ..), Dev.count_counter]

/-- Above the common part of the page every register reads as before. -/
theorem Dev.refuseWrite_rd (d : Dev) (page off : Nat) {o k : Nat} (ho : 0x40 ≤ o) :
    (d.refuseWrite page off).rd page o k = d.rd page o k := by
  rw [Dev.refuseWrite, Dev.err_rd, Dev.count_rd]
  all_goals rw [Ne, rkey_same_page]; omega

theorem quiet_refuseWrite (d : Dev) (page off : Nat) : Quiet d (d.refuseWrite page off) := by
  unfold Quiet Dev.refuseWrite
  simp

/-- What a refused write leaves: the count, the capture, and on the page nothing above the common part (R307). -/
theorem Dev.refuseWrite_effect (d : Dev) {page off : Nat} (ho : off < 4096) (e : Dev)
    (he : e = d.refuseWrite page off) :
    e.counter 0xF42 = (d.counter 0xF42 + 1) % 2 ^ 48 ∧ (∀ j, j ≠ 0xF42 → e.counter j = d.counter j)
      ∧ e.get page COM.ERR_INFO.VALID = 1 ∧ e.get page COM.ERR_INFO.CODE = 0x0E ∧ e.get page COM.ERR_INFO.DETAIL = off
      ∧ OnlyPage page d e ∧ Quiet d e ∧ (∀ o, 0x40 ≤ o → o < 4096 → ∀ k, k < 65536 → e.rd page o k = d.rd page o k) := by
  subst he
  refine ⟨?_, fun j hj => ?_, Dev.err_valid .., Dev.err_code .., ?_, ?_, quiet_refuseWrite .., fun o h _ k _ => ?_⟩
  · rw [Dev.refuseWrite_counter, if_pos rfl]
  · rw [Dev.refuseWrite_counter, if_neg hj]
  · exact (Dev.err_detail ..).trans (Nat.mod_eq_of_lt (by omega))
  · exact ((OnlyPage.refl page d).count _ _).err _ _
  · exact Dev.refuseWrite_rd d page off h

/-- A write by a stranger, in whichever of the ways the register has, is refused. -/
theorem writeReg_stranger {s : State} {acc : Accessor} {t : PageType} {page off i : Nat} {v : Word}
    (hp : pageOf page = some (t, i)) (hm : t = .mbx → mbxReach acc (16 * i) = true) (hr : Reach s.dev page)
    (hf : (acc.isFw && s.dev.hostHolds page) = false) (ho : s.dev.owns acc page = false)
    (hoff : off = 0x14 ∨ off = 0x1C ∨ off = 0x24 ∨ (0x40 ≤ off ∧ writable t off = true ∧ anyWrites t off = false
      ∧ ownRule t off = false ∧ ∀ w ∈ winOf t i, off ≠ w.result.off)) :
    writeReg acc page off v s = { s with dev := s.dev.refuseWrite page off } := by
  have hcommon : off = 0x14 ∨ off = 0x1C ∨ off = 0x24 →
      writeReg acc page off v s = { s with dev := s.dev.refuseWrite page off } := fun h => by
    rw [writeReg_common hp hm hr (by omega), Dev.writeCommon_stranger h hr hf ho]
  obtain h | h | h | ⟨habove, hwr, hany, hrule, hw⟩ := hoff
  · exact hcommon (.inl h)
  · exact hcommon (.inr (.inl h))
  · exact hcommon (.inr (.inr h))
  · cases hc : commandReg acc t i off v with
    | none => rw [writeReg_block hp hm hr habove hw hc hany hwr, Dev.asOwner_stranger _ hr.1 hr.2 hf ho]
    | some f => rw [writeReg_command hp hm hr habove hw hc, ownersCommand_stranger hrule hf ho]

/-- Settles O54: every way a stranger's write goes ends in the same refusal. -/
theorem nonOwnerWrite : Obligations.NonOwnerWrite := by
  intro s acc addr v page off i t ha ho h4 hp hm hr hf hown hoff
  exact ⟨s.dev.refuseWrite page off, exec_registerWrite_single ha ho h4 (writeReg_stranger hp hm hr hf hown hoff),
    s.dev.refuseWrite_effect ho _ rfl⟩

end Sys2Proof.Machine
end

section
/-!
Selectors and windows (R308): a write by one accessor touches registers of its own copy and of the common part only,
and its own window's buffer.
-/
namespace Sys2Proof.Machine

/-- From `d` to `e` what an accessor has selected and collected above the common parts has stayed. -/
def KeepsSelected (other : Accessor) (d e : Dev) : Prop :=
  (∀ p o, 0x40 ≤ o → o < 4096 → e.rd p o other.idx = d.rd p o other.idx) ∧ ∀ p, e.winBuf p other = d.winBuf p other

theorem accessorIdx_lt (acc : Accessor) : acc.idx < 8 := by
  cases acc <;> decide

theorem rkey_ne_of_sel {p o s p' o' s' : Nat} (h : s ≠ s') (hs : s < 65536) (hs' : s' < 65536) :
    rkey p o s ≠ rkey p' o' s' := by
  unfold rkey; omega

/-- A register above the common part is no register of a common part. -/
theorem rkey_ne_of_common {p o s p' o' s' : Nat} (ho : 0x40 ≤ o) (ho' : o < 4096) (hc : o' < 0x40) (hs : s < 65536)
    (hs' : s' < 65536) : rkey p o s ≠ rkey p' o' s' := by
  unfold rkey; omega

namespace KeepsSelected
variable {other acc : Accessor} {d e : Dev}

theorem refl (other : Accessor) (d : Dev) : KeepsSelected other d d := ⟨fun _ _ _ _ => rfl, fun _ => rfl⟩

theorem wr (h : KeepsSelected other d e) (hne : other.idx ≠ acc.idx) (p o : Nat) (w : Word) :
    KeepsSelected other d (e.wr p o w acc.idx) := by
  have hlt := accessorIdx_lt other
  have hlt' := accessorIdx_lt acc
  refine ⟨fun p' o' h1 h2 => ?_, h.2⟩
  rw [Dev.rd_wr_other _ _ (rkey_ne_of_sel hne (by omega) (by omega)), h.1 p' o' h1 h2]

theorem set (h : KeepsSelected other d e) (hne : other.idx ≠ acc.idx) (p v : Nat) (f : Field) :
    KeepsSelected other d (e.set p f v acc.idx) := h.wr hne _ _ _

theorem err (h : KeepsSelected other d e) (p code x : Nat) : KeepsSelected other d (e.err p code x) := by
  have hlt := accessorIdx_lt other
  refine ⟨fun p' o h1 h2 => ?_, fun p' => ?_⟩
  · rw [Dev.err_rd, h.1 p' o h1 h2]
    all_goals exact rkey_ne_of_common h1 h2 (by decide) (by omega) (by decide)
  · rw [← h.2 p', Dev.winBuf, Dev.err_wins, ← Dev.winBuf]

theorem setWinBuf (h : KeepsSelected other d e) (hne : other.idx ≠ acc.idx) (p : Nat) (b : WinBuf) :
    KeepsSelected other d (e.setWinBuf p acc b) := by
  have hlt := accessorIdx_lt other
  have hlt' := accessorIdx_lt acc
  refine ⟨h.1, fun p' => (tget_tset_other _ _ _ ?_).trans (h.2 p')⟩
  unfold winKey; omega

theorem wrShadow (h : KeepsSelected other d e) (t : PageType) (p o k : Nat) (w : Word) :
    KeepsSelected other d (e.wrShadow t p o k w) := h

theorem ite {c : Prop} [Decidable c] {e' : Dev} (h : KeepsSelected other d e) (h' : KeepsSelected other d e') :
    KeepsSelected other d (if c then e else e') := by
  split
  · exact h
  · exact h'

theorem winShow (h : KeepsSelected other d e) (hne : other.idx ≠ acc.idx) (w : EntryWin) (n : Native) :
    KeepsSelected other d (e.winShow w acc n) := ((h.set hne _ _ _).set hne _ _ _).set hne _ _ _

theorem winAddress (h : KeepsSelected other d e) (hne : other.idx ≠ acc.idx) (w : EntryWin) (v : Word) :
    KeepsSelected other d (e.winAddress w acc v) := by
  refine ite ((h.wr hne _ _ _).setWinBuf hne _ _) (ite (h.wr hne _ _ _) ?_)
  split
  · exact (h.wr hne _ _ _).winShow hne _ _
  · exact h.wr hne _ _ _

theorem winWriteData (h : KeepsSelected other d e) (hne : other.idx ≠ acc.idx) (w : EntryWin) (off : Nat) (v : Word) :
    KeepsSelected other d (e.winWriteData w acc off v) := ((h.wr hne _ _ _).setWinBuf hne _ _).set hne _ _ _

/-- A register that stands once for each accessor has no image, so its page's common part stays too. -/
theorem storeReg (h : KeepsSelected other d e) (hne : other.idx ≠ acc.idx) {t : PageType} {off : Nat} (page : Nat)
    (v : Word) (ha : perAccessor t off = true) : KeepsSelected other d (e.storeReg t page off acc.idx v) := by
  have hsh := ite (c := shMask t off = 0) h (h.wrShadow t page off acc.idx v)
  have hwc (w : Word) := ite (c := accMask t off .w1c = 0) hsh (hsh.wr hne page off w)
  unfold Dev.storeReg
  simp only [if_pos ha]
  exact ite (hwc _) (ite ((hwc _).err _ _ _) ((hwc _).wr hne _ _ _))

theorem writeWindow (h : KeepsSelected other d e) (hne : other.idx ≠ acc.idx) {t : PageType} {off : Nat} (i page : Nat)
    (v : Word) (ha : perAccessor t off = true) : KeepsSelected other d (e.writeWindow acc t i page off v) := by
  have hinst : e.instOf acc t page off = some acc.idx := if_pos ha
  unfold Dev.writeWindow
  rw [hinst, Option.getD_some]
  split
  · exact ite (h.winAddress hne _ _) (ite (h.winWriteData hne _ _ _) (ite h (h.storeReg hne page v ha)))
  · exact h.storeReg hne page v ha

end KeepsSelected

/-- Settles O59: the write of a selector or window register keeps what the others selected and collected. -/
theorem selectorsApart : Obligations.SelectorsApart := by
  intro s acc other addr v page off i t ha ho h4 hp hm hr h40 hw hc hper hne
  have hany : anyWrites t off = true := by rw [anyWrites, hper, Bool.true_or]
  obtain ⟨hrd, hwin⟩ := (KeepsSelected.refl other s.dev).writeWindow hne i page v hper
  exact ⟨s.dev.writeWindow acc t i page off v, exec_registerWrite_single ha ho h4 (writeReg_window hp hm hr h40 hw hc hany),
    fun o h1 h2 => hrd page o h1 h2, hwin page⟩

end Sys2Proof.Machine
end

section
/-!
Shadows and COMMIT (R397, R398): what a shadow reads after a write of one, after the page's shadows are dropped, and what
the page reads after they are made live. Making one live changes no shadow as it reads, so the order of the writes does
not matter.
-/
namespace Sys2Proof.Machine

/-- A write of one register that changes the device only. -/
theorem exec_registerWrite_dev {s : State} {d : Dev} {acc : Accessor} {addr : BitVec 26} {v : Word} {page off : Nat}
    (ha : addr.toNat = page * 4096 + off) (ho : off < 4096) (h4 : off % 4 = 0)
    (hd : writeReg acc page off v s = { s with dev := d }) :
    exec (.registerWrite acc addr 15 [v]) s = .next { s with dev := d } :=
  exec_registerWrite_single ha ho h4 hd

/-! ### Tables of shadows -/

/-- Another key reads the same, whatever an unlisted key reads as. -/
theorem tget_tset_default_other {V : Type} [DecidableEq V] (d e : Nat → V) (t : Tbl V) {k j : Nat} (v : V) (h : j ≠ k) :
    tget d (tset e t k v) j = tget d t j := by
  unfold tset
  split
  · exact tget_terase_other d t h
  · rw [tget_tinsert_other d _ v h, tget_terase_other d t h]

/-- A key that no entry has reads as an unlisted one. -/
theorem tget_of_not_mem {V : Type} (d : Nat → V) (t : Tbl V) {k : Nat} (h : ∀ e ∈ t, e.1 ≠ k) : tget d t k = d k := by
  induction t with
  | nil => rfl
  | cons e rest ih =>
    obtain ⟨j, v⟩ := e
    have hne : k ≠ j := fun heq => h (j, v) (by simp) heq.symm
    simpa [tget, hne] using ih fun e he => h e (List.mem_cons_of_mem _ he)

/-- A key that some entry has reads the same, whatever an unlisted key reads as. -/
theorem tget_of_mem {V : Type} (d e : Nat → V) (t : Tbl V) {k : Nat} (h : ∃ x ∈ t, x.1 = k) : tget d t k = tget e t k := by
  induction t with
  | nil => simp at h
  | cons x rest ih =>
    obtain ⟨j, v⟩ := x
    by_cases hk : k = j
    · simp [tget, hk]
    · have hrest : ∃ x ∈ rest, x.1 = k := by simpa [eq_comm, hk] using h
      simpa [tget, hk] using ih hrest

theorem rkey_eq (k : Nat) : rkey (rkeyPage k) (rkeyOff k) (rkeySel k) = k := by
  unfold rkey rkeyPage rkeyOff rkeySel; omega

/-! ### A shadow as it reads -/

theorem Word.and_split (w m : Word) : (w &&& ~~~m) ||| (w &&& m) = w := by
  ext i
  simp only [BitVec.getElem_or, BitVec.getElem_and, BitVec.getElem_not]
  cases w[i] <;> cases m[i] <;> rfl

theorem Word.merge_and_not (a b m : Word) : ((a &&& ~~~m) ||| (b &&& m)) &&& ~~~m = a &&& ~~~m := by
  ext i
  simp only [BitVec.getElem_or, BitVec.getElem_and, BitVec.getElem_not]
  cases a[i] <;> cases b[i] <;> cases m[i] <;> rfl

theorem Word.and_and_self (w m : Word) : w &&& m &&& m = w &&& m := by
  rw [BitVec.and_assoc, BitVec.and_self]

/-- A register without a shadow reads as it is. -/
theorem Dev.rdShadow_of_not_mem {d : Dev} {page off sel : Nat} (t : PageType)
    (h : ∀ e ∈ d.shadow, e.1 ≠ rkey page off sel) : d.rdShadow t page off sel = d.rd page off sel := by
  simp only [Dev.rdShadow, tget_of_not_mem _ _ h, Word.and_and_self, Word.and_split]

theorem Dev.rdShadow_wrShadow (d : Dev) (t : PageType) (page off sel : Nat) (w : Word) :
    (d.wrShadow t page off sel w).rdShadow t page off sel
      = (d.rd page off sel &&& ~~~shMask t off) ||| (w &&& shMask t off) := by
  have hlive : (d.wrShadow t page off sel w).rd page off sel = d.rd page off sel := rfl
  simp only [Dev.rdShadow, hlive]
  simp only [Dev.wrShadow, tget_tset_same, Word.and_and_self]

theorem Dev.wrShadow_shadow_other (d : Dev) (t : PageType) (e : Nat → Word) (w : Word) {page off sel j : Nat}
    (h : j ≠ rkey page off sel) : tget e (d.wrShadow t page off sel w).shadow j = tget e d.shadow j := by
  simp only [Dev.wrShadow]
  exact tget_tset_default_other _ _ _ _ h

/-- Whether a shadow bit comes from the table of shadows or from the live word, making it live does not change it. -/
theorem Dev.rdShadow_idem {d e : Dev} {t : PageType} {page off sel : Nat} (hs : e.shadow = d.shadow)
    (h : e.rd page off sel = d.rd page off sel ∨ e.rd page off sel = d.rdShadow t page off sel) :
    e.rdShadow t page off sel = d.rdShadow t page off sel := by
  rcases h with h | h
  · simp only [Dev.rdShadow, h, hs]
  · by_cases hk : ∃ x ∈ d.shadow, x.1 = rkey page off sel
    · simp only [Dev.rdShadow, hs, h, Word.merge_and_not]
      rw [tget_of_mem _ (fun _ => d.rd page off sel &&& shMask t off) d.shadow hk]
    · have hnone : ∀ x ∈ d.shadow, x.1 ≠ rkey page off sel := fun x hx he => hk ⟨x, hx, he⟩
      rw [Dev.rdShadow_of_not_mem t (hs ▸ hnone), h]

/-- Every field of a page's table stands above the common part, so the common part has no shadows. -/
theorem layoutOf_above (t : PageType) : (layoutOf t).all (fun f => decide (0x40 ≤ f.off)) = true := by
  cases t <;> rfl

theorem fieldsAt_common (t : PageType) {off : Nat} (h : off < 0x40) : fieldsAt t off = [] := by
  refine List.filter_eq_nil_iff.mpr fun f hf => ?_
  have habove := of_decide_eq_true (List.all_eq_true.mp (layoutOf_above t) f hf)
  have hbelow : ¬f.off ≤ off := by omega
  simp [Field.covers, hbelow]

theorem shMask_common (t : PageType) {off : Nat} (h : off < 0x40) : shMask t off = 0 := by
  simp [shMask, fieldsAt_common t h]

theorem Dev.rdShadow_common (d : Dev) (t : PageType) (page sel : Nat) {off : Nat} (h : off < 0x40) :
    d.rdShadow t page off sel = d.rd page off sel := by
  have hzero : ∀ a : Word, a &&& 0 = 0 := fun a => BitVec.and_zero
  simp only [Dev.rdShadow, shMask_common t h, hzero]
  simpa [hzero] using Word.and_split (d.rd page off sel) 0

/-! ### Every shadow of a page made live -/

/-- One shadow made live, as `applyShadows` does it. -/
def Dev.applyShadow (t : PageType) (page : Nat) (d : Dev) (x : Nat × Word) : Dev :=
  d.wr page (rkeyOff x.1) (d.rdShadow t page (rkeyOff x.1) (rkeySel x.1)) (rkeySel x.1)

theorem Dev.applyShadows_regs (d : Dev) {page i : Nat} {t : PageType} (hp : pageOf page = some (t, i)) :
    (d.applyShadows page).regs
      = ((d.shadow.filter (fun x => rkeyPage x.1 == page)).foldl (Dev.applyShadow t page) d).regs := by
  simp only [Dev.applyShadows, hp]
  rfl

/-- After some of the page's shadows have been made live: the shadows stand, and each register reads its old live word or
its shadow. -/
def PartlyApplied (t : PageType) (page : Nat) (d e : Dev) : Prop :=
  e.shadow = d.shadow ∧ ∀ off < 4096, ∀ sel < 65536,
    e.rd page off sel = d.rd page off sel ∨ e.rd page off sel = d.rdShadow t page off sel

section
variable {t : PageType} {page : Nat} {d e : Dev} {x : Nat × Word}

theorem Dev.applyShadow_rd (h : PartlyApplied t page d e) (hx : rkeyPage x.1 = page) {off sel : Nat} (ho : off < 4096)
    (hs : sel < 65536) :
    (e.applyShadow t page x).rd page off sel
      = if rkey page off sel = x.1 then d.rdShadow t page off sel else e.rd page off sel := by
  have hkey : rkey page (rkeyOff x.1) (rkeySel x.1) = x.1 := hx ▸ rkey_eq x.1
  rw [Dev.applyShadow, Dev.rd_wr, hkey]
  by_cases hsame : rkey page off sel = x.1
  · have hoff : rkeyOff x.1 = off := hsame ▸ rkeyOff_rkey ho hs
    have hsel : rkeySel x.1 = sel := hsame ▸ rkeySel_rkey hs
    rw [if_pos hsame, if_pos hsame, hoff, hsel, Dev.rdShadow_idem h.1 (h.2 off ho sel hs)]
  · rw [if_neg hsame, if_neg hsame]

theorem PartlyApplied.applyShadow (h : PartlyApplied t page d e) (hx : rkeyPage x.1 = page) :
    PartlyApplied t page d (e.applyShadow t page x) := by
  refine ⟨h.1, fun off ho sel hs => ?_⟩
  rw [Dev.applyShadow_rd h hx ho hs]
  split
  · exact .inr rfl
  · exact h.2 off ho sel hs

/-- A register one of the shadows made live belongs to, or that reads as its shadow before, reads as its shadow after. -/
theorem Dev.applyShadow_foldl_rd (l : List (Nat × Word)) (hl : ∀ x ∈ l, rkeyPage x.1 = page)
    (h : PartlyApplied t page d e) {off sel : Nat} (ho : off < 4096) (hs : sel < 65536)
    (hin : (∃ x ∈ l, x.1 = rkey page off sel) ∨ e.rd page off sel = d.rdShadow t page off sel) :
    (l.foldl (Dev.applyShadow t page) e).rd page off sel = d.rdShadow t page off sel := by
  induction l generalizing e with
  | nil => simpa using hin
  | cons x rest ih =>
    have hx := hl x (by simp)
    refine ih (fun y hy => hl y (List.mem_cons_of_mem _ hy)) (h.applyShadow hx) ?_
    rw [Dev.applyShadow_rd h hx ho hs]
    by_cases hsame : rkey page off sel = x.1
    · exact .inr (if_pos hsame)
    · rw [if_neg hsame]
      simpa [Ne.symm hsame] using hin

end

/-- COMMIT makes every shadow of the page live. -/
theorem Dev.applyShadows_rd (d : Dev) {page i : Nat} {t : PageType} (hp : pageOf page = some (t, i)) {off sel : Nat}
    (ho : off < 4096) (hs : sel < 65536) : (d.applyShadows page).rd page off sel = d.rdShadow t page off sel := by
  unfold Dev.rd
  rw [Dev.applyShadows_regs d hp]
  refine Dev.applyShadow_foldl_rd _ (by simp) ⟨rfl, fun _ _ _ _ => .inl rfl⟩ ho hs ?_
  by_cases hk : ∃ x ∈ d.shadow, x.1 = rkey page off sel
  · obtain ⟨x, hx, hkey⟩ := hk
    exact .inl ⟨x, List.mem_filter.mpr ⟨hx, by simp [hkey, rkeyPage_rkey ho hs]⟩, hkey⟩
  · exact .inr (Dev.rdShadow_of_not_mem t fun x hx he => hk ⟨x, hx, he⟩).symm

/-- The image's flag stands in the common part. -/
theorem Dev.writeImage_rd (d : Dev) (page : Nat) {off sel : Nat} (h : off ≠ 0x0C) (hs : sel < 65536) :
    (d.writeImage page).rd page off sel = d.rd page off sel := by
  unfold Dev.writeImage
  split
  · refine Dev.rd_set_other _ _ ?_
    rw [Ne, rkey_same_page]
    have : COM.STAT.IMAGE_VOID.off = 0x0C := rfl
    omega
  · rfl

/-- What COMMIT_STAT and the registers above the common part read after an accepted COMMIT. -/
theorem Dev.acceptCommit_effect (d : Dev) {page i : Nat} {t : PageType} (hp : pageOf page = some (t, i)) :
    (d.acceptCommit page).get page COM.COMMIT_STAT.REJECTED = 0
      ∧ (d.acceptCommit page).get page COM.COMMIT_STAT.ACCEPTED = (d.get page COM.COMMIT_STAT.ACCEPTED + 1) % 65536
      ∧ ∀ off k, 0x40 ≤ off → off < 4096 → k < 65536 →
        (d.acceptCommit page).rd page off k = d.rdShadow t page off k := by
  have hlive : ∀ off k, off ≠ 0x0C → off < 4096 → k < 65536 →
      ((d.applyShadows page).writeImage page).rd page off k = d.rdShadow t page off k := fun off k h ho hk => by
    rw [Dev.writeImage_rd _ _ h hk, Dev.applyShadows_rd d hp ho hk]
  have haccepted : ((d.applyShadows page).writeImage page).get page COM.COMMIT_STAT.ACCEPTED
      = d.get page COM.COMMIT_STAT.ACCEPTED := by
    unfold Dev.get
    rw [hlive _ _ (by decide) (by decide) (by decide), Dev.rdShadow_common _ _ _ _ (by decide)]
  refine ⟨?_, ?_, fun off k h1 h2 h3 => ?_⟩
  · rw [Dev.acceptCommit, Dev.incWrap, Dev.get_set_beside _ _ (.inr (by decide)),
      Dev.get_set_beside _ _ (.inr (by decide)), Dev.get_set_same _ _ _ _ (by decide)]
    rfl
  · rw [Dev.acceptCommit, Dev.incWrap, Dev.get_set_same _ _ _ _ (by decide),
      Dev.get_set_beside _ _ (.inr (by decide)), Dev.get_set_beside _ _ (.inr (by decide)), haccepted]
    rfl
  · have apart : rkey page off k ≠ rkey page 0x20 0 := by rw [Ne, rkey_same_page]; omega
    rw [Dev.acceptCommit, Dev.incWrap, Dev.rd_set_other (f := COM.COMMIT_STAT.ACCEPTED) _ _ apart,
      Dev.rd_set_other (f := COM.COMMIT_STAT.CODE) _ _ apart,
      Dev.rd_set_other (f := COM.COMMIT_STAT.REJECTED) _ _ apart, hlive off k (by omega) h2 h3]

/-! ### COMMIT.DISCARD -/

@[simp] theorem Dev.dropTabShadow_regs (d : Dev) (t : PageType) : (d.dropTabShadow t).regs = d.regs := by
  cases t <;> rfl

@[simp] theorem Dev.dropTabShadow_shadow (d : Dev) (t : PageType) : (d.dropTabShadow t).shadow = d.shadow := by
  cases t <;> rfl

theorem Dev.discardAt_eq (d : Dev) {page i : Nat} {t : PageType} (hp : pageOf page = some (t, i))
    (ht : hasShadow t = true) : d.discardAt page = (d.dropShadows page).dropTabShadow t := by
  simp only [Dev.discardAt, hp, ht, if_true]

theorem Dev.discardAt_rdShadow (d : Dev) {page i : Nat} {t : PageType} (hp : pageOf page = some (t, i))
    (ht : hasShadow t = true) {off sel : Nat} (ho : off < 4096) (hs : sel < 65536) :
    (d.discardAt page).rdShadow t page off sel = d.rd page off sel := by
  rw [Dev.discardAt_eq d hp ht, Dev.rdShadow_of_not_mem]
  · unfold Dev.rd
    rw [Dev.dropTabShadow_regs]
    rfl
  · intro x hx hkey
    rw [Dev.dropTabShadow_shadow] at hx
    have hpage := (List.mem_filter.mp hx).2
    rw [hkey, rkeyPage_rkey ho hs] at hpage
    simp at hpage

/-! ### A COMMIT refused -/

theorem Dev.rejectCommit_code (d : Dev) (page off : Nat) {code : Nat} (hc : code < 256) :
    (d.rejectCommit page code off).get page COM.COMMIT_STAT.CODE = code := by
  have apart : ∀ c ∈ [0x24, 0x28, 0x2C], rkey page COM.COMMIT_STAT.CODE.off 0 ≠ rkey page c 0 := by
    simp only [Ne, rkey_same_page]
    decide
  rw [Dev.rejectCommit, Dev.err_get _ (apart _ (by decide)) (apart _ (by decide)) (apart _ (by decide)),
    Dev.get_set_same _ _ _ _ (by decide)]
  exact Nat.mod_eq_of_lt hc

/-! ### An SH register written -/

/-- The device whose shadow is written: a write of Felt's voltage is noticed beside it (R73). -/
def Dev.noticedAvs (d : Dev) (t : PageType) (off : Nat) : Dev :=
  if t = .fab ∧ off = 0x44 then { d with avsWritten := true } else d

theorem Dev.noticedAvs_regs (d : Dev) (t : PageType) (off : Nat) : (d.noticedAvs t off).regs = d.regs := by
  unfold Dev.noticedAvs
  split <;> rfl

theorem Dev.noticedAvs_shadow (d : Dev) (t : PageType) (off : Nat) : (d.noticedAvs t off).shadow = d.shadow := by
  unfold Dev.noticedAvs
  split <;> rfl

theorem Dev.storeReg_sh (d : Dev) {t : PageType} {off : Nat} (page k : Nat) (v : Word) (hsh : shMask t off ≠ 0)
    (hrw : accMask t off .rw = 0) (hwc : accMask t off .w1c = 0) :
    d.storeReg t page off k v = d.wrShadow t page off k v := by
  simp only [Dev.storeReg, hrw, hwc, if_true, if_neg hsh]

theorem Dev.writeBlockReg_sh (d : Dev) {acc : Accessor} {t : PageType} {i page off k : Nat} {v : Word}
    (hk : d.instOf acc t page off = some k) (hg : t ≠ .gcl) (hrst : t ≠ .rst)
    (hsyn : t = .syn → off < SYN.PLAN_N.N_INT.off ∨ SYN.PLAN_DEN.DEN.off < off) (hsh : shMask t off ≠ 0)
    (hrw : accMask t off .rw = 0) (hwc : accMask t off .w1c = 0) :
    d.writeBlockReg acc t i page off v = (d.noticedAvs t off).wrShadow t page off k v := by
  have hplan : ¬(t = .syn ∧ SYN.PLAN_N.N_INT.off ≤ off ∧ off ≤ SYN.PLAN_DEN.DEN.off) := fun ⟨h1, h2, h3⟩ => by
    have := hsyn h1
    omega
  simp only [Dev.writeBlockReg, hk, hg, hrst, false_and, if_false, if_neg hplan]
  exact Dev.storeReg_sh _ page k v hsh hrw hwc

/-- The registers of a synthesizer's plan are plain shadows of the page's owner. -/
theorem planOffset {off : Nat} (hlo : SYN.PLAN_N.N_INT.off ≤ off) (hhi : off ≤ SYN.PLAN_DEN.DEN.off) (h4 : off % 4 = 0) :
    off = 0x4C ∨ off = 0x50 ∨ off = 0x54 := by
  have h1 : SYN.PLAN_N.N_INT.off = 0x4C := rfl
  have h2 : SYN.PLAN_DEN.DEN.off = 0x54 := rfl
  omega

theorem plan_masks {off : Nat} (h : off = 0x4C ∨ off = 0x50 ∨ off = 0x54) :
    anyWrites .syn off = false ∧ writable .syn off = true ∧ shMask .syn off ≠ 0 ∧ accMask .syn off .rw = 0
      ∧ accMask .syn off .w1c = 0 := by
  rcases h with rfl | rfl | rfl <;> decide

theorem writeReg_plan {s : State} {acc : Accessor} {off k : Nat} {v : Word} (hlo : SYN.PLAN_N.N_INT.off ≤ off)
    (hhi : off ≤ SYN.PLAN_DEN.DEN.off) (h4 : off % 4 = 0) (hmay : MayWrite s.dev acc SYN.page)
    (hk : s.dev.instOf acc .syn SYN.page off = some k) :
    writeReg acc SYN.page off v s
      = { s with dev := (s.dev.forgetBand (k / 8) (k % 8)).wrShadow .syn SYN.page off k v } := by
  have hoff := planOffset hlo hhi h4
  obtain ⟨hany, hwr, hsh, hrw, hwc⟩ := plan_masks hoff
  have hcmd : commandReg acc .syn 0 off v = none := if_neg (by rcases hoff with rfl | rfl | rfl <;> decide)
  have hwin : ∀ w ∈ winOf .syn 0, off ≠ w.result.off := fun w hw => nomatch hw
  rw [writeReg_block (t := .syn) (i := 0) (by decide) (fun h => nomatch h) hmay.1 (by omega) hwin hcmd hany hwr,
    Dev.asOwner_may _ hmay]
  simp only [Dev.writeBlockReg, hk, reduceCtorEq, false_and, if_false, hlo, hhi, and_self, if_true]
  rw [Dev.storeReg_sh _ SYN.page k v hsh hrw hwc]

/-- Settles O56: the rules of a shadow's write, of DISCARD, and of a COMMIT accepted and refused. -/
theorem commitAndShadows : Obligations.CommitAndShadows := by
  refine ⟨?shadowWrite, ?plan, ?discard, fun d page i t hp => d.acceptCommit_effect hp, ?reject⟩
  case shadowWrite =>
    intro s acc addr v m page off i k t ha ho h4 hp hm hmay h40 hw hc hany hwr hk hg hrst hsyn hmask hne hrw hwc
    subst hmask
    have hwrite := writeReg_block (v := v) hp hm hmay.1 h40 hw hc hany hwr
    rw [Dev.asOwner_may _ hmay, Dev.writeBlockReg_sh s.dev hk hg hrst hsyn hne hrw hwc] at hwrite
    refine ⟨_, exec_registerWrite_dev ha ho h4 hwrite, ?_, ?_, fun j hj => ?_⟩
    · rw [Dev.rdShadow_wrShadow, Dev.rd, Dev.noticedAvs_regs, ← Dev.rd]
    · rw [Dev.wrShadow_regs, Dev.noticedAvs_regs]
    · rw [← Dev.noticedAvs_shadow s.dev t off]
      exact Dev.wrShadow_shadow_other _ _ _ _ hj
  case plan =>
    intro s acc addr v off k ha hlo hhi h4 hmay hk
    have ho : off < 4096 := by rcases planOffset hlo hhi h4 with h | h | h <;> omega
    exact exec_registerWrite_dev ha ho h4 (writeReg_plan hlo hhi h4 hmay hk)
  case discard =>
    intro s acc page t i hmay hp ht
    refine does_onDev (exec_commitDiscard acc page s) ?_
    rw [Dev.asOwner_may _ hmay]
    exact ⟨by rw [Dev.discardAt_eq _ hp ht, Dev.dropTabShadow_regs]; rfl,
      fun off k ho hk => Dev.discardAt_rdShadow _ hp ht ho hk⟩
  case reject =>
    intro d page code off hc hoff
    exact ⟨Dev.rejectCommit_shadow .., Dev.rejectCommit_rejected .., Dev.rejectCommit_code _ _ _ hc,
      (Dev.err_code ..).trans (Nat.mod_eq_of_lt hc), (Dev.err_detail ..).trans (Nat.mod_eq_of_lt hoff),
      (OnlyPage.refl page d).rejectCommit _ _, fun o k ho _ _ => Dev.rejectCommit_rd _ _ _ _ ho⟩

end Sys2Proof.Machine
end

section
/-!
What a command answers, by the gate its meaning stands behind: nothing, a lane out of reset, a state of the lane, the
page's owner, anyone who reaches the page, a condition.
-/
namespace Sys2Proof.Machine

section
variable {c : Instr} {s : State} {f : Dev → Dev} {d : Dev} {P : Dev → Prop}

theorem does_of_exec (h : exec c s = .next { s with dev := d }) (hp : P d) : Does c s P := ⟨d, h, hp⟩

theorem exec_of_onLane {l : Nat} (h : exec c s = onDev (·.onLane l f) s) (up : s.dev.released (unitLane l) = true)
    (hd : f s.dev = d) : exec c s = .next { s with dev := d } :=
  onDev_eq h ((Dev.onLane_up s.dev f up).trans hd)

theorem exec_of_inState {l st : Nat} (h : exec c s = onDev (·.inState l st f) s)
    (up : s.dev.released (unitLane l) = true) (hst : s.dev.laneState l = st) (hd : f s.dev = d) :
    exec c s = .next { s with dev := d } :=
  onDev_eq h ((Dev.inState_at s.dev f up hst).trans hd)

theorem exec_of_asOwner {acc : Accessor} {page off : Nat} {w : List (Nat × Word)}
    (h : exec c s = onDev (·.asOwner acc page off f w) s) (hmay : MayWrite s.dev acc page) (hd : f s.dev = d) :
    exec c s = .next { s with dev := d } :=
  onDev_eq h ((Dev.asOwner_may s.dev hmay).trans hd)

theorem exec_of_asAny {acc : Accessor} {page : Nat} {w : List (Nat × Word)}
    (h : exec c s = onDev (·.asAny acc page f w) s) (hr : Reach s.dev page) (hd : f s.dev = d) :
    exec c s = .next { s with dev := d } :=
  onDev_eq h ((Dev.asAny_may s.dev hr).trans hd)

end

end Sys2Proof.Machine
end

section
/-!
Lanes (chapter 02): bring-up, loss, idle, PRBS, monitors and pauses. An event of a lane acts while its island is out of
reset and, mostly, in one state of the lane; what it then does is the row's.
-/
namespace Sys2Proof.Machine

/-- Settles O6: each event stands behind the lane's reset and its state. -/
theorem laneDetectorsAndBringUp : Obligations.LaneDetectorsAndBringUp := by
  refine ⟨?losDeassert, ?losAssert, ?lolAssert, ?lolClear, ?autonegClause37, ?autonegCommonRate, ?autonegNoRate,
    ?autonegTimeout, ?trainingTimeout, ?cdrAcquireTimeout, ?blockLockTimeout, ?latencyMeasureTimeout,
    ?rateSearchTryTimeout, ?trainingFramesDetected, ?faultTimeout⟩
  case losDeassert =>
    intro s lane up hLaneState hLaneState2 hLos
    exact exec_of_onLane rfl up (by simp [hLaneState, hLaneState2, hLos])
  case losAssert =>
    intro s lane up hLaneState hLaneState2 hLos
    exact exec_of_onLane rfl up (by simp [hLaneState, hLaneState2, hLos])
  case lolAssert =>
    intro s lane up hLaneState hLaneState2 hLol
    exact exec_of_onLane rfl up (if_neg (by simp [hLaneState, hLaneState2, hLol]))
  case lolClear =>
    intro s lane up hLaneState hLaneState2 hLol
    have hlol (x : Lane) : (s.dev.setLane lane x).flag (LNK.page lane) LNK.LNK_STATE.LOL = true := by
      rw [Dev.flag, Dev.setLane_get, ← Dev.flag, hLol]
    exact exec_of_onLane rfl up ((if_neg (by simp [hLaneState, hLaneState2])).trans (if_neg (by simp [hlol])))
  case autonegClause37 =>
    intro s lane partner up hst hRate
    exact exec_of_onLane rfl up (by simp [hst, hRate])
  case autonegCommonRate =>
    intro s lane partner rate up hst hRate hAnRate
    exact exec_of_onLane rfl up (by simp [hst, hRate, hAnRate])
  case autonegNoRate =>
    intro s lane partner up hst hRate hAnRate
    exact exec_of_onLane rfl up (by simp [hst, hRate, hAnRate])
  case autonegTimeout =>
    intro s lane up hst
    exact exec_of_onLane rfl up (if_pos hst)
  case trainingTimeout =>
    intro s lane up hst
    exact exec_of_inState rfl up hst rfl
  case cdrAcquireTimeout =>
    intro s lane up hst
    exact exec_of_inState rfl up hst rfl
  case blockLockTimeout =>
    intro s lane up hst
    exact exec_of_inState rfl up hst rfl
  case latencyMeasureTimeout =>
    intro s lane up hst
    exact exec_of_inState rfl up hst rfl
  case rateSearchTryTimeout =>
    intro s lane up hst
    exact exec_of_inState rfl up hst rfl
  case trainingFramesDetected =>
    intro s lane up hst hMedia hRateAct
    exact exec_of_inState rfl up hst (Dev.when_pos _ _ (by simp [hMedia, hRateAct]))
  case faultTimeout =>
    intro s lane up hst
    exact exec_of_inState rfl up hst rfl

/-- Settles O7: each event stands behind the lane's reset and its state. -/
theorem laneLinkUpAndLoss : Obligations.LaneLinkUpAndLoss := by
  refine ⟨?trainingDone, ?cdrLocked, ?blockLockAchieved, ?fecAligned, ?latencyMeasured, ?remoteFault, ?retrain,
    ?blockAlignerShift⟩
  case trainingDone =>
    intro s lane coef up hst
    exact exec_of_inState rfl up hst rfl
  case cdrLocked =>
    intro s lane up hst hLol hLane
    exact exec_of_inState rfl up hst (Dev.when_pos _ _ (by simp [hLol, hLane]))
  case blockLockAchieved =>
    intro s lane up hst
    exact exec_of_onLane rfl up (if_pos hst)
  case fecAligned =>
    intro s lane up hst hPcsLock
    exact exec_of_inState rfl up hst (if_pos hPcsLock)
  case latencyMeasured =>
    intro s lane meas up hst hRateAct
    exact exec_of_inState rfl up hst (if_pos hRateAct)
  case remoteFault =>
    intro s lane up hst
    exact exec_of_inState rfl up hst rfl
  case retrain =>
    intro s acc lane up hst hmay
    exact exec_of_asOwner rfl hmay (Dev.inState_at _ _ up hst)
  case blockAlignerShift =>
    intro s lane up hst
    exact exec_of_inState rfl up hst rfl

/-! ### PRBS -/

/-- In an ordinary link, and in a FABRIC loop-back, the transmitter's own reaches the line (R60). -/
theorem Dev.toLine_out (d : Dev) {l : Nat} (what : String) (v : Nat)
    (h : d.get (LNK.page l) LNK.LOOP_CFG.MODE = 0 ∨ d.get (LNK.page l) LNK.LOOP_CFG.MODE = 5) :
    d.toLine l what v = d.emit (.line l what v) := if_pos h

theorem Dev.toLine_kept (d : Dev) {l : Nat} (what : String) (v : Nat)
    (h : ¬(d.get (LNK.page l) LNK.LOOP_CFG.MODE = 0 ∨ d.get (LNK.page l) LNK.LOOP_CFG.MODE = 5)) :
    d.toLine l what v = d := if_neg h

theorem Dev.prbsClear_lane (d : Dev) (l : Nat) : ((d.prbsClear l).lane l).prbsBits = 0 := by
  rw [Dev.prbsClear, Dev.lane_congr (Dev.set_toPorts ..), Dev.setLane_lane, if_pos rfl]

/-- The PRBS counters after CLR: all zero, the lock as it was. -/
theorem Dev.prbsClear_get (d : Dev) (l : Nat) :
    (d.prbsClear l).get (LNK.page l) LNK.PRBS_ERR.ERR_CNT = 0 ∧ (d.prbsClear l).get (LNK.page l) LNK.PRBS_BITS.BIT_CNT = 0
      ∧ (d.prbsClear l).get (LNK.page l) LNK.PRBS_STAT.SAT = 0
      ∧ (d.prbsClear l).get (LNK.page l) LNK.PRBS_STAT.LOCK = d.get (LNK.page l) LNK.PRBS_STAT.LOCK := by
  simp (disch := decide) only [Dev.prbsClear, Dev.get_set_same, Dev.get_set_beside, Dev.setLane_get, Nat.zero_mod,
    and_self]

theorem OnlyPage.prbsClear (d : Dev) (l : Nat) : OnlyPage (LNK.page l) d (d.prbsClear l) :=
  ((((OnlyPage.refl _ d).set (by decide) (by decide)).set (by decide) (by decide)).of_regs
    (Dev.setLane_regs ..)).set (by decide) (by decide)

/-- A checker window with errors, as the row counts it. -/
def Dev.prbsErrors (d : Dev) (l errors bits : Nat) : Dev :=
  let p := LNK.page l
  let total := d.get p LNK.PRBS_ERR.ERR_CNT + errors
  let d := d.incSat p LNK.PRBS_ERR.ERR_CNT (n := errors)
  let d := if 0xFFFFFFFF ≤ total then d.set p LNK.PRBS_STAT.SAT 1 else d
  let b := (d.lane l).prbsBits + bits
  let d := d.incWrap p LNK.PRBS_BITS.BIT_CNT (n := b / 2 ^ 20)
  d.setLane l { d.lane l with prbsBits := b % 2 ^ 20 }

theorem Dev.prbsErrors_get (d : Dev) (l errors bits : Nat) :
    (d.prbsErrors l errors bits).get (LNK.page l) LNK.PRBS_ERR.ERR_CNT
        = min (d.get (LNK.page l) LNK.PRBS_ERR.ERR_CNT + errors) 0xFFFFFFFF
      ∧ (0xFFFFFFFF ≤ d.get (LNK.page l) LNK.PRBS_ERR.ERR_CNT + errors →
        (d.prbsErrors l errors bits).get (LNK.page l) LNK.PRBS_STAT.SAT = 1) := by
  have hcut : min (d.get (LNK.page l) LNK.PRBS_ERR.ERR_CNT + errors) (2 ^ 32 - 1) % 2 ^ 32
      = min (d.get (LNK.page l) LNK.PRBS_ERR.ERR_CNT + errors) (2 ^ 32 - 1) := Nat.mod_eq_of_lt (by omega)
  have hwd : LNK.PRBS_ERR.ERR_CNT.wd = 32 := rfl
  unfold Dev.prbsErrors
  simp only [Dev.setLane_get]
  refine ⟨?_, fun hsat => ?_⟩
  · split
    all_goals
      simp (disch := decide) only [Dev.incSat, Dev.incWrap, Dev.get_set_beside, Dev.get_set_same, hwd, hcut]
    all_goals rfl
  · rw [if_pos hsat]
    simp (disch := decide) only [Dev.incWrap, Dev.get_set_beside, Dev.get_set_same]
    rfl

theorem OnlyPage.prbsErrors (d : Dev) (l errors bits : Nat) : OnlyPage (LNK.page l) d (d.prbsErrors l errors bits) := by
  have hcount := (OnlyPage.refl (LNK.page l) d).incSat (f := LNK.PRBS_ERR.ERR_CNT) (n := errors) (s := 0) (by decide) (by decide)
  unfold Dev.prbsErrors
  refine OnlyPage.of_regs ?_ (Dev.setLane_regs ..)
  refine OnlyPage.incWrap ?_ (by decide) (by decide)
  split
  · exact hcount.set (by decide) (by decide)
  · exact hcount

/-- Settles O8: each event stands behind the lane's reset and its state, each write behind the page's owner; the
fields that CLR and a lost lock show are read off the writes. -/
theorem laneIdleAndPrbs : Obligations.LaneIdleAndPrbs := by
  refine ⟨?idleEntryDelayExpiry, ?idleRequestReceived, ?idleReplyReceived, ?idleReplyTimeout, ?wakeTrigger,
    ?wakeComplete, ?wakeTimeout, ?refreshBurstSend, ?refreshBurstReceived, ?refreshMissing, ?gclWakePort,
    ?prbsGenEnable, ?prbsGenDisable, ?prbsErrInject1, ?prbsErrInject2, ?prbsClear, ?prbsCheckerLock, ?prbsCheckerLoss⟩
  case idleEntryDelayExpiry =>
    intro s lane up hst hMayIdle
    exact exec_of_inState rfl up hst (if_pos hMayIdle)
  case idleRequestReceived =>
    intro s lane deep up hst hMayIdle hMode
    exact exec_of_inState rfl up hst (Dev.when_pos _ _ (by simp [hMayIdle, hMode]))
  case idleReplyReceived =>
    intro s lane deep up hst hLane
    exact exec_of_inState rfl up hst (Dev.when_pos _ _ (by simp [hLane]))
  case idleReplyTimeout =>
    intro s lane up hst
    exact exec_of_inState rfl up hst rfl
  case wakeTrigger =>
    intro s lane up hst
    exact exec_of_onLane rfl up (if_pos hst)
  case wakeComplete =>
    intro s lane shifted up hst
    exact exec_of_inState rfl up hst (by simp)
  case wakeTimeout =>
    intro s lane up hst
    exact exec_of_inState rfl up hst rfl
  case refreshBurstSend =>
    intro s lane up hst
    exact exec_of_inState rfl up hst rfl
  case refreshBurstReceived =>
    intro s lane up hst
    exact exec_of_inState rfl up hst rfl
  case refreshMissing =>
    intro s lane up hst hLane
    exact exec_of_inState rfl up hst (Dev.when_pos _ _ (by simp [hLane]))
  case gclWakePort =>
    intro s port up hst hLane
    exact exec_of_inState rfl up hst ((Dev.when_pos _ _ (by simp [hLane])).trans (if_pos hst))
  case prbsGenEnable =>
    intro s acc lane hmay
    exact exec_of_asOwner rfl hmay rfl
  case prbsGenDisable =>
    intro s acc lane hmay
    exact exec_of_asOwner rfl hmay rfl
  case prbsErrInject1 =>
    intro s acc lane hmay hst hMode
    exact exec_of_asOwner rfl hmay ((Dev.when_pos _ _ (by simp [hst])).trans (Dev.toLine_out _ _ _ hMode))
  case prbsErrInject2 =>
    intro s acc lane hmay hMode
    refine exec_of_asOwner rfl hmay ?_
    by_cases hst : s.dev.laneState lane = lanePrbs
    · exact (Dev.when_pos _ _ (by simp [hst])).trans (Dev.toLine_kept _ _ _ fun hm => hMode ⟨hst, hm⟩)
    · exact Dev.when_neg _ _ (by simp [hst])
  case prbsClear =>
    intro s acc lane hmay
    obtain ⟨herr, hbits, hsat, hlock⟩ := s.dev.prbsClear_get lane
    exact does_of_exec (exec_of_asOwner rfl hmay rfl)
      ⟨herr, hbits, hsat, s.dev.prbsClear_lane lane, hlock, OnlyPage.prbsClear s.dev lane⟩
  case prbsCheckerLock =>
    intro s lane up hChkEn
    exact exec_of_onLane rfl up (if_pos hChkEn)
  case prbsCheckerLoss =>
    intro s lane errors bits up hLock hx
    have hsome : ¬errors = 0 := by omega
    refine does_of_exec (d := ((s.dev.prbsErrors lane errors bits).set (LNK.page lane) LNK.PRBS_STAT.LOCK 0).raise (LNK.page lane)
      LNK.INT_RAW.PRBS_ERR) (exec_of_onLane rfl up ((if_pos hLock).trans ?_)) ?_
    · simp only [if_pos hx, if_neg hsome]
      rfl
    · obtain ⟨hcnt, hsat⟩ := s.dev.prbsErrors_get lane errors bits
      simp (disch := decide) only [Dev.raise_get_beside, Dev.raise_get_raised, Dev.get_set_same, Dev.get_set_beside, hcnt,
        Nat.zero_mod, true_and]
      exact ⟨hsat, ((OnlyPage.prbsErrors s.dev lane errors bits).set (by decide) (by decide)).raise _ _⟩

/-! ### The eye monitor and the trims -/

/-- One sweep of the eye monitor as the row stores it. -/
def Dev.eyeStore (d : Dev) (l height width worst : Nat) : Dev :=
  let p := LNK.page l
  let d := (d.set p LNK.EYE.WIDTH width).set p LNK.EYE.HEIGHT height
  (d.set p LNK.EYE.WORST_EYE (if 4 ≤ d.rateAct l then worst else 0)).incWrap p LNK.EYE.REFRESH

theorem Dev.eyeStore_effect (d : Dev) (l : Nat) {height width worst : Nat} (hh : height < 2 ^ 10) (hw : width < 2 ^ 8)
    (hworst : worst < 2 ^ 2) (e : Dev) (he : e = d.eyeStore l height width worst) :
    e.get (LNK.page l) LNK.EYE.WIDTH = width ∧ e.get (LNK.page l) LNK.EYE.HEIGHT = height
      ∧ e.get (LNK.page l) LNK.EYE.WORST_EYE = (if 4 ≤ d.rateAct l then worst else 0)
      ∧ e.get (LNK.page l) LNK.EYE.REFRESH = (d.get (LNK.page l) LNK.EYE.REFRESH + 1) % 2 ^ 12
      ∧ OnlyPage (LNK.page l) d e ∧ Quiet d e := by
  subst he
  have hwidth : LNK.EYE.WIDTH.wd = 8 := rfl
  have hheight : LNK.EYE.HEIGHT.wd = 10 := rfl
  have hworstWidth : LNK.EYE.WORST_EYE.wd = 2 := rfl
  have hrefresh : LNK.EYE.REFRESH.wd = 12 := rfl
  have hcut : (if 4 ≤ d.rateAct l then worst else 0) % 2 ^ 2 = if 4 ≤ d.rateAct l then worst else 0 :=
    Nat.mod_eq_of_lt (by split <;> omega)
  refine ⟨?_, ?_, ?_, ?_, ?_, ?_⟩
  case refine_5 =>
    exact ((((OnlyPage.refl _ d).set (by decide) (by decide)).set (by decide) (by decide)).set (by decide)
      (by decide)).incWrap (by decide) (by decide)
  case refine_6 =>
    unfold Quiet Dev.eyeStore
    simp
  all_goals
    simp (disch := decide) only [Dev.eyeStore, Dev.rateAct, Dev.incWrap, Dev.get_set_same, Dev.get_set_beside, hwidth,
      hheight, hworstWidth, hrefresh]
  · exact Nat.mod_eq_of_lt hw
  · exact Nat.mod_eq_of_lt hh
  · exact hcut

theorem Dev.trimWrite_of_range (d : Dev) {acc : Accessor} {l : Nat} {v : Word} {lo hi : Int}
    (h : trimRange (d.get (LNK.page l) LNK.TRIM_SEL.INDEX acc.idx) = some (lo, hi)) :
    d.trimWrite acc l v =
      if signed16 (getBits v 0 16) < lo ∨ hi < signed16 (getBits v 0 16) then
        d.err (LNK.page l) 0x08 LNK.TRIM_VAL.VALUE.off
      else (d.setTrim l (d.get (LNK.page l) LNK.TRIM_SEL.INDEX acc.idx) (signed16 (getBits v 0 16))).set (LNK.page l)
        LNK.TRIM_VAL.OVERRIDE (getBits v 31 1) (d.get (LNK.page l) LNK.TRIM_SEL.INDEX acc.idx) := by
  simp only [Dev.trimWrite, h]

/-- Settles O9: the snapshots are written field by field; a trim is written where its range allows it. -/
theorem laneMonitors : Obligations.LaneMonitors := by
  refine ⟨?eyeRefresh, ?pdPhaseRefresh, ?backgroundCalStep, ?trimValWriteInRange, ?trimValWriteOutOfRange⟩
  case eyeRefresh =>
    intro s lane height width worst up hLaneState hLaneState2
    exact does_of_exec (exec_of_onLane rfl up (Dev.when_pos _ _ (by simpa [hLaneState] using not_and_or.mp hLaneState2)))
      (s.dev.eyeStore_effect lane height.isLt width.isLt worst.isLt _ rfl)
  case pdPhaseRefresh =>
    intro s lane phase pcs up
    exact exec_of_onLane rfl up rfl
  case backgroundCalStep =>
    intro s lane dirs up hLaneState
    exact exec_of_onLane rfl up (Dev.when_pos _ _ (by simpa [or_assoc] using hLaneState))
  case trimValWriteInRange =>
    intro s acc lane value lo hi hmay hIndex hx hSigned16
    exact exec_of_asOwner rfl hmay ((s.dev.trimWrite_of_range hIndex).trans (if_neg (not_or.mpr ⟨not_lt.mpr hx, not_lt.mpr hSigned16⟩)))
  case trimValWriteOutOfRange =>
    intro s acc lane value lo hi hmay hIndex hSigned16
    exact exec_of_asOwner rfl hmay ((s.dev.trimWrite_of_range hIndex).trans (if_pos hSigned16))

/-! ### Pauses received (R430) -/

theorem Dev.pauseIn_pause (d : Dev) {port en : Nat} (q : Nat → Nat)
    (h : d.get (PRT.page port) PRT.PORT_CFG.FC_MODE = 1) :
    d.pauseIn port false en q = ((d.countLane port 5).pauseFor port 8 (q 0)).refreshPause port := by
  simp [Dev.pauseIn, h]

theorem Dev.pauseIn_pfc (d : Dev) {port en : Nat} (q : Nat → Nat)
    (h : d.get (PRT.page port) PRT.PORT_CFG.FC_MODE = 2) :
    d.pauseIn port true en q =
      ((List.range 8).foldl (fun e p =>
        if en.testBit p && (d.get (PRT.page port) PRT.PORT_CFG.PFC_EN).testBit (e.pcpTc port p) then e.pauseFor port p (q p)
        else e) (d.countLane port 5)).refreshPause port := by
  simp [Dev.pauseIn, h]

theorem Dev.pauseIn_other (d : Dev) {port en : Nat} {pfc : Bool} (q : Nat → Nat)
    (h : d.get (PRT.page port) PRT.PORT_CFG.FC_MODE ≠ if pfc then 2 else 1) :
    d.pauseIn port pfc en q = d.countLane port 5 := by
  cases pfc <;> simp_all [Dev.pauseIn]

/-- What a PAUSE sets: its end, PAUSED, the count. -/
theorem Dev.pauseFor_effect (d : Dev) {port q : Nat} (hp : port < 48) (e : Dev)
    (he : e = ((d.countLane port 5).pauseFor port 8 q).refreshPause port) :
    e.pauseEnd port 8 = (if q = 0 then none else some (d.now + q * 512 * nsU / rateGbit (d.rateAct port)))
      ∧ e.flag (PRT.page port) PRT.PORT_STAT.PAUSED = !(q == 0)
      ∧ e.counter (32 * port + 5) = (d.counter (32 * port + 5) + 1) % 2 ^ 48 := by
  subst he
  have hend : ((d.countLane port 5).pauseFor port 8 q).pauseEnd port 8
      = if q = 0 then none else some (d.now + q * 512 * nsU / rateGbit (d.rateAct port)) := by
    rw [Dev.pauseFor, Dev.pauseEnd_setPause, if_pos rfl, Dev.rateAct, Dev.countLane_get, Dev.countLane_toClocks]
    rfl
  refine ⟨(Dev.pauseEnd_congr (Dev.refreshPause_toPorts ..) _ _).trans hend, ?_, ?_⟩
  · rw [Dev.refreshPause_paused, hend]
    by_cases hq : q = 0 <;> simp [hq]
  · rw [Dev.counter_congr (Dev.refreshPause_toRecords ..), Dev.pauseFor, Dev.counter_congr (Dev.setPause_toRecords ..),
      Dev.countLane, Dev.count_counter, laneCounter, if_pos hp, if_pos rfl]

/-- Settles O10: the frame is counted, and the pause it asks for is set or ended where FC_MODE is its kind's. -/
theorem pausesReceived : Obligations.PausesReceived := by
  refine ⟨?pauseFrame, ?pfcFrame, ?otherMode, ?loopBack, ?pauseExpiry⟩
  case pauseFrame =>
    intro s port enables quanta up hLaneState hLoopMode hFcMode
    exact does_of_exec (exec_of_onLane rfl up ((Dev.when_pos _ _ (by simp [hLaneState, hLoopMode])).trans
      (s.dev.pauseIn_pause _ hFcMode))) (s.dev.pauseFor_effect port.isLt _ rfl)
  case pfcFrame =>
    intro s port enables quanta up hLaneState hLoopMode hFcMode
    exact exec_of_onLane rfl up ((Dev.when_pos _ _ (by simp [hLaneState, hLoopMode])).trans
      (s.dev.pauseIn_pfc _ hFcMode))
  case otherMode =>
    intro s port pfc enables quanta up hLaneState hLoopMode hFcMode
    exact exec_of_onLane rfl up ((Dev.when_pos _ _ (by simp [hLaneState, hLoopMode])).trans
      (s.dev.pauseIn_other _ hFcMode))
  case loopBack =>
    intro s port pfc enables quanta up hLoopMode
    exact exec_of_onLane rfl up (Dev.when_neg _ _ (by simp [hLoopMode]))
  case pauseExpiry =>
    intro s port
    rfl

end Sys2Proof.Machine
end

section
/-!
What reset leaves: an empty register file, which reads as its reset words (R310, R394).
-/
namespace Sys2Proof.Machine

/-- After reset the common part of a page reads as its table gives it. -/
theorem reset_rd_common {page i off : Nat} {t : PageType} (hp : pageOf page = some (t, i)) (ho : off < 0x40) :
    State.reset.dev.rd page off = commonReset t i off := by
  have hword : State.reset.dev.rd page off = resetReg (rkey page off 0) := rfl
  rw [hword, resetReg, rkeyPage_rkey (by omega) (by decide), hp, rkeyOff_rkey (by omega) (by decide),
    rkeySel_rkey (by decide)]
  simp [resetWord, ho]

theorem reset_owner {page i : Nat} {t : PageType} (hp : pageOf page = some (t, i)) :
    State.reset.dev.owner page = if t = .sec ∨ t = .opt then 2 else if t = .mbx then 3 else 1 := by
  have hoff : COM.CTRL.OWNER.off = 8 := rfl
  have hword : commonReset t i 8 = BitVec.ofNat 32 (coldOwner t) := by simp [commonReset]
  rw [Dev.owner, Dev.get, hoff, reset_rd_common hp (by decide), hword]
  cases t <;> decide

/-- Settles O2: the registers read as their reset words; the rest of the state is the reset state's own. -/
theorem stateAfterReset : Obligations.StateAfterReset := by
  refine ⟨rfl, rfl, fun page i t hp => ⟨reset_owner hp, ?_, ?_, ?_, ?_⟩, fun i => rfl, ?_, ?_, rfl⟩
  case refine_5 => decide +kernel
  case refine_6 => decide +kernel
  all_goals exact reset_rd_common hp (by decide)

end Sys2Proof.Machine
end

section
/-!
Shared rules: one copy of a register beside writes of its page, and a COMMIT by its rules (R397).
-/
namespace Sys2Proof.Machine

/-! ### Reading one copy beside writes of the page -/

/-- Another register of the page, of whichever instances. -/
theorem Dev.get_set_offset (d : Dev) {p s s' : Nat} (v : Nat) {f g : Field} (h : g.off ≠ f.off) (hs : s < 65536)
    (hs' : s' < 65536) : (d.set p f v s).get p g s' = d.get p g s' :=
  Dev.get_set_other d v (.inl (by rw [Ne, rkey_same_page]; omega))

/-- A register of the page that is none of the error registers. -/
theorem Dev.err_get_offset (d : Dev) {p c x s : Nat} {g : Field} (h1 : g.off ≠ 0x24) (h2 : g.off ≠ 0x28)
    (h3 : g.off ≠ 0x2C) (hs : s < 65536) : (d.err p c x).get p g s = d.get p g s := by
  refine Dev.err_get d ?_ ?_ ?_ <;> rw [Ne, rkey_same_page] <;> omega

/-- A field holds less than its width allows. -/
theorem Dev.get_lt (d : Dev) (p s : Nat) (f : Field) : d.get p f s < 2 ^ f.wd := getBits_lt _ _ _

/-- A field that is written within its width reads what was written. -/
theorem Dev.get_set_fits (d : Dev) (p s : Nat) {v : Nat} {f : Field} (h : f.lo + f.wd ≤ 32) (hv : v < 2 ^ f.wd) :
    (d.set p f v s).get p f s = v := by
  rw [Dev.get_set_same _ _ _ _ h, Nat.mod_eq_of_lt hv]

/-! ### A COMMIT by its rules -/

theorem Dev.commitBy_accepted {d : Dev} {rules : List Rule} (page : Nat) (effect : Dev → Dev → Dev)
    (h : rules.find? (·.1) = none) : d.commitBy page rules effect = effect d (d.acceptCommit page) := by
  rw [Dev.commitBy, h]

theorem Dev.commitBy_rejected {d : Dev} {rules : List Rule} (page : Nat) (effect : Dev → Dev → Dev) {b : Bool}
    {code off : Nat} (h : rules.find? (·.1) = some (b, code, off)) :
    d.commitBy page rules effect = d.rejectCommit page code off := by
  rw [Dev.commitBy, h]

/-- COMMIT_STAT shows the code of a refused COMMIT, cut to its field. -/
theorem Dev.rejectCommit_code_mod (d : Dev) (page code off : Nat) :
    (d.rejectCommit page code off).get page COM.COMMIT_STAT.CODE = code % 256 := by
  rw [Dev.rejectCommit, Dev.err_get_offset _ (by decide) (by decide) (by decide) (by decide),
    Dev.get_set_same _ _ _ _ (by decide)]
  rfl

@[simp] theorem Dev.rejectCommit_toClocks (d : Dev) (page code off : Nat) :
    (d.rejectCommit page code off).toClocks = d.toClocks := by
  simp [Dev.rejectCommit]

end Sys2Proof.Machine
end

section
/-!
Pace and the supply loop (R71, R73, R74). One run of the loop is written as its new voltage and the flags that show it.
-/
namespace Sys2Proof.Machine

/-! ### Pace -/

/-- The lowest reading is one of them, also where all of them are the largest there is. -/
theorem minReading_mem {l : List (BitVec 10)} (hne : l ≠ []) : ∃ r ∈ l, (minReading l).1 = r.toNat := by
  obtain ⟨r, rest, rfl⟩ := List.exists_cons_of_ne_nil hne
  rcases (minReading_fold (r :: rest).zipIdx (1023, 0)).1 with hstart | ⟨e, he, hfound⟩
  · have hle := minReading_le (r :: rest) (List.mem_cons_self (a := r) (l := rest))
    have hlt := r.isLt
    have hmin : (minReading (r :: rest)).1 = 1023 := congrArg Prod.fst hstart
    exact ⟨r, List.mem_cons_self, by omega⟩
  · exact ⟨e.1, List.fst_mem_of_mem_zipIdx he, congrArg Prod.fst hfound⟩

theorem minReading_lt {l : List (BitVec 10)} (hne : l ≠ []) : (minReading l).1 < 1024 := by
  obtain ⟨r, _, hr⟩ := minReading_mem hne
  rw [hr]
  exact r.isLt

/-- The readings of one microsecond, as the row stores them. -/
def Dev.paceStore (d : Dev) (readings : List (BitVec 10)) : Dev :=
  let (m, i) := minReading readings
  let d := d.showPace readings
  let d := (d.set FAB.page FAB.PACE_STAT.MIN m).set FAB.page FAB.PACE_STAT.MIN_IDX i
  let d := if d.released unitFelt && decide (m < d.get FAB.page FAB.PACE_STAT.LOW) then
    d.set FAB.page FAB.PACE_STAT.LOW m else d
  ({ d with pace := d.pace.read m (d.get FAB.page FAB.PACE_CFG.TARGET) } : Dev).paceAlarm m

theorem Dev.paceStore_min (d : Dev) {readings : List (BitVec 10)} (hne : readings ≠ []) :
    (d.paceStore readings).get FAB.page FAB.PACE_STAT.MIN = (minReading readings).1 := by
  have hwd : FAB.PACE_STAT.MIN.wd = 10 := rfl
  have hcut : (minReading readings).1 % 2 ^ 10 = (minReading readings).1 := Nat.mod_eq_of_lt (minReading_lt hne)
  have hpace (e : Dev) (x : Pace) :
      ({ e with pace := x } : Dev).get FAB.page FAB.PACE_STAT.MIN = e.get FAB.page FAB.PACE_STAT.MIN := rfl
  rw [Dev.paceStore, Dev.paceAlarm_min, hpace]
  split
  all_goals simp (disch := decide) only [Dev.get_set_beside, Dev.get_set_same, hwd, hcut]

theorem Dev.lowClr_effect (d e : Dev)
    (he : e = d.set FAB.page FAB.PACE_STAT.LOW (d.get FAB.page FAB.PACE_STAT.MIN)) :
    e.get FAB.page FAB.PACE_STAT.LOW = d.get FAB.page FAB.PACE_STAT.MIN
      ∧ e.get FAB.page FAB.PACE_STAT.MIN = d.get FAB.page FAB.PACE_STAT.MIN ∧ OnlyPage FAB.page d e ∧ Quiet d e := by
  subst he
  refine ⟨?_, Dev.get_set_beside _ _ (by decide), (OnlyPage.refl _ d).set (by decide) (by decide), ?_⟩
  · rw [Dev.get_set_same _ _ _ _ (by decide)]
    exact Nat.mod_eq_of_lt (getBits_lt _ _ _)
  · unfold Quiet
    simp

/-! ### The supply loop -/

/-- The voltage that a run over the reading `p` commands (R73). -/
def Dev.avsVoltage (d : Dev) (p : Nat) : Nat :=
  let floor := d.get FAB.page FAB.PACE_CFG.FLOOR
  let target := d.get FAB.page FAB.PACE_CFG.TARGET
  let step := avsStep (d.get FAB.page FAB.AVS_CFG.STEP)
  let vmax := 100 * d.get FAB.page FAB.AVS_LIMIT.VMAX
  let vmin := 100 * d.get FAB.page FAB.AVS_LIMIT.VMIN
  if p < floor then min (d.pace.v + 4 * step) vmax
  else if p < target then min (d.pace.v + step) vmax
  else if target + d.get FAB.page FAB.PACE_CFG.HYST < p then max (d.pace.v - step) vmin
  else d.pace.v

/-- A run's voltage commanded: the loop's memory, the regulator's write, its count. -/
def Dev.avsCommand (d : Dev) (p v : Nat) : Dev :=
  let a := d.pace
  let floor := d.get FAB.page FAB.PACE_CFG.FLOOR
  let d := { d with pace := { a with periodMin := none, v := v, waiting := v != a.v } }
  if v = a.v then d else ((d.setFlag FAB.page FAB.AVS_STAT.EMERG (decide (p < floor))).regulate v).count 0x783

/-- The limit flags of a run at voltage `v`. -/
def Dev.avsLimits (d : Dev) (atMin atMax : Bool) : Dev :=
  let d := d.setFlag FAB.page FAB.AVS_STAT.AT_VMIN atMin
  let was := d.flag FAB.page FAB.AVS_STAT.AT_VMAX
  let d := d.setFlag FAB.page FAB.AVS_STAT.AT_VMAX atMax
  if atMax && !was then d.raise FAB.page FAB.INT_RAW.AVS_LIMIT else d

/-- The run of an active loop that waits for nothing. -/
def Dev.avsRun (d : Dev) (p : Nat) : Dev :=
  let v := d.avsVoltage p
  (d.avsCommand p v).avsLimits (v == 100 * d.get FAB.page FAB.AVS_LIMIT.VMIN)
    (v == 100 * d.get FAB.page FAB.AVS_LIMIT.VMAX && decide (p < d.get FAB.page FAB.PACE_CFG.TARGET))

theorem exec_avsLoopRun (s : State) : exec .avsLoopRun s = execAvsLoopRun s := rfl

theorem exec_avsLoopRun_active {s : State} {p : Nat} (hp : s.dev.pace.periodMin = some p)
    (hmode : s.dev.get FAB.page FAB.AVS_CFG.MODE ≠ 0) (hfail : s.dev.flag FAB.page FAB.AVS_STAT.FAIL = false)
    (hwait : s.dev.pace.waiting = false) : exec .avsLoopRun s = .next { s with dev := s.dev.avsRun p } := by
  have hgate : (s.dev.get FAB.page FAB.AVS_CFG.MODE == 0 || s.dev.flag FAB.page FAB.AVS_STAT.FAIL
      || s.dev.pace.waiting) = false := by simp [hmode, hfail, hwait]
  refine onDev_eq (exec_avsLoopRun s) ?_
  simp only [hp]
  exact if_neg (Bool.eq_false_iff.mp hgate)

theorem exec_avsLoopRun_stopped {s : State} {p : Nat} (hp : s.dev.pace.periodMin = some p)
    (hstop : s.dev.get FAB.page FAB.AVS_CFG.MODE = 0 ∨ s.dev.flag FAB.page FAB.AVS_STAT.FAIL = true
      ∨ s.dev.pace.waiting = true) :
    exec .avsLoopRun s = .next { s with dev := { s.dev with pace := { s.dev.pace with periodMin := none } } } := by
  have hgate : (s.dev.get FAB.page FAB.AVS_CFG.MODE == 0 || s.dev.flag FAB.page FAB.AVS_STAT.FAIL
      || s.dev.pace.waiting) = true := by simpa [or_assoc] using hstop
  refine onDev_eq (exec_avsLoopRun s) ?_
  simp only [hp]
  exact if_pos hgate

theorem Dev.regulate_toPorts (d : Dev) (v : Nat) : (d.regulate v).toPorts = d.toPorts := by
  unfold Dev.regulate
  split <;> simp only [Dev.emit_toPorts]

theorem Dev.avsCommand_pace (d : Dev) (p v : Nat) :
    (d.avsCommand p v).pace = { d.pace with periodMin := none, v := v, waiting := v != d.pace.v } := by
  unfold Dev.avsCommand
  dsimp only
  split
  · rfl
  · rw [Dev.count_toPorts, Dev.regulate_toPorts, Dev.setFlag_toPorts]

theorem Dev.avsLimits_pace (d : Dev) (atMin atMax : Bool) : (d.avsLimits atMin atMax).pace = d.pace := by
  unfold Dev.avsLimits
  dsimp only
  split <;> simp only [Dev.raise_toPorts, Dev.setFlag_toPorts]

theorem Dev.avsLimits_atVmin (d : Dev) (atMin atMax : Bool) :
    (d.avsLimits atMin atMax).flag FAB.page FAB.AVS_STAT.AT_VMIN = atMin := by
  have hset (e : Dev) : (e.setFlag FAB.page FAB.AVS_STAT.AT_VMAX atMax).flag FAB.page FAB.AVS_STAT.AT_VMIN
      = e.flag FAB.page FAB.AVS_STAT.AT_VMIN := by
    rw [Dev.flag, Dev.setFlag, Dev.get_set_beside _ _ (by decide), ← Dev.flag]
  have hraise (e : Dev) : (e.raise FAB.page FAB.INT_RAW.AVS_LIMIT).flag FAB.page FAB.AVS_STAT.AT_VMIN
      = e.flag FAB.page FAB.AVS_STAT.AT_VMIN := by
    rw [Dev.flag, Dev.raise_get_beside _ (by decide), ← Dev.flag]
  unfold Dev.avsLimits
  dsimp only
  split
  · rw [hraise, hset, Dev.flag_setFlag_same _ _ _ _ _ rfl (by decide)]
  · rw [hset, Dev.flag_setFlag_same _ _ _ _ _ rfl (by decide)]

theorem Dev.avsLimits_atVmax (d : Dev) (atMin atMax : Bool) :
    (d.avsLimits atMin atMax).flag FAB.page FAB.AVS_STAT.AT_VMAX = atMax := by
  have hraise (e : Dev) : (e.raise FAB.page FAB.INT_RAW.AVS_LIMIT).flag FAB.page FAB.AVS_STAT.AT_VMAX
      = e.flag FAB.page FAB.AVS_STAT.AT_VMAX := by
    rw [Dev.flag, Dev.raise_get_beside _ (by decide), ← Dev.flag]
  unfold Dev.avsLimits
  dsimp only
  split
  · rw [hraise, Dev.flag_setFlag_same _ _ _ _ _ rfl (by decide)]
  · rw [Dev.flag_setFlag_same _ _ _ _ _ rfl (by decide)]

theorem Dev.avsRun_effect (d : Dev) (p : Nat) (e : Dev) (he : e = d.avsRun p) :
    let vmax := 100 * d.get FAB.page FAB.AVS_LIMIT.VMAX
    let vmin := 100 * d.get FAB.page FAB.AVS_LIMIT.VMIN
    e.pace.v = d.avsVoltage p ∧ (e.pace.waiting = true ↔ e.pace.v ≠ d.pace.v) ∧ e.pace.periodMin = none
      ∧ (e.flag FAB.page FAB.AVS_STAT.AT_VMIN = true ↔ e.pace.v = vmin)
      ∧ (e.flag FAB.page FAB.AVS_STAT.AT_VMAX = true → e.pace.v = vmax)
      ∧ (e.pace.v = vmax → p < d.get FAB.page FAB.PACE_CFG.TARGET → e.flag FAB.page FAB.AVS_STAT.AT_VMAX = true) := by
  subst he
  have hpace : (d.avsRun p).pace
      = { d.pace with periodMin := none, v := d.avsVoltage p, waiting := d.avsVoltage p != d.pace.v } :=
    (Dev.avsLimits_pace ..).trans (Dev.avsCommand_pace ..)
  have hmin : (d.avsRun p).flag FAB.page FAB.AVS_STAT.AT_VMIN = _ := Dev.avsLimits_atVmin ..
  have hmax : (d.avsRun p).flag FAB.page FAB.AVS_STAT.AT_VMAX = _ := Dev.avsLimits_atVmax ..
  simp only [hpace, hmin, hmax, bne_iff_ne, beq_iff_eq, Bool.and_eq_true, decide_eq_true_eq, true_and, and_imp]
  exact ⟨fun h _ => h, fun h1 h2 => ⟨h1, h2⟩⟩

/-- An acknowledgement: the loop goes on from the voltage it commanded, which VOUT shows. -/
theorem Dev.avsAck_effect (d e : Dev)
    (he : e = ({ d with pace := { d.pace with waiting := false, acked := d.pace.v } } : Dev).set FAB.page
      FAB.AVS_STAT.VOUT (d.pace.v / 100)) :
    e.pace.waiting = false ∧ e.pace.acked = d.pace.v ∧ e.pace.v = d.pace.v
      ∧ e.get FAB.page FAB.AVS_STAT.VOUT = d.pace.v / 100 % 2 ^ 10 := by
  subst he
  exact ⟨rfl, rfl, rfl, Dev.get_set_same _ _ _ _ (by decide)⟩

/-- The loop put back to the last acknowledged voltage, its limit flags judged by it. -/
def Dev.avsFallBack (d : Dev) : Dev :=
  let v := d.pace.acked
  let d := { d with pace := { d.pace with waiting := false, v := v } }
  let d := d.setFlag FAB.page FAB.AVS_STAT.AT_VMIN (v == 100 * d.get FAB.page FAB.AVS_LIMIT.VMIN)
  d.setFlag FAB.page FAB.AVS_STAT.AT_VMAX
    (d.flag FAB.page FAB.AVS_STAT.AT_VMAX && v == 100 * d.get FAB.page FAB.AVS_LIMIT.VMAX)

theorem OnlyPage.avsFallBack (d : Dev) : OnlyPage FAB.page d d.avsFallBack :=
  ((OnlyPage.refl FAB.page d).setFlag (f := FAB.AVS_STAT.AT_VMIN) (s := 0) (by decide) (by decide)).setFlag
    (f := FAB.AVS_STAT.AT_VMAX) (s := 0) (by decide) (by decide)

theorem Dev.avsFallBack_pace (d : Dev) :
    d.avsFallBack.pace = { d.pace with waiting := false, v := d.pace.acked } := by
  simp only [Dev.avsFallBack, Dev.setFlag_toPorts]

/-- No acknowledgement: the loop stops at the last acknowledged voltage, and FAIL says so. -/
theorem Dev.avsFail_effect (d e : Dev)
    (he : e = (d.avsFallBack.set FAB.page FAB.AVS_STAT.FAIL 1).raise FAB.page FAB.INT_RAW.AVS_FAIL) :
    e.pace.waiting = false ∧ e.pace.v = d.pace.acked ∧ e.pace.acked = d.pace.acked
      ∧ e.flag FAB.page FAB.AVS_STAT.FAIL = true ∧ e.get FAB.page FAB.INT_RAW.AVS_FAIL = 1 ∧ OnlyPage FAB.page d e := by
  have hpace : e.pace = { d.pace with waiting := false, v := d.pace.acked } := by
    rw [he, Dev.raise_toPorts, Dev.set_toPorts, d.avsFallBack_pace]
  have hfail : e.get FAB.page FAB.AVS_STAT.FAIL = 1 := by
    rw [he, Dev.raise_get_beside _ (by decide), Dev.get_set_same _ _ _ _ (by decide)]
    rfl
  have hraised : e.get FAB.page FAB.INT_RAW.AVS_FAIL = 1 := by
    rw [he, Dev.raise_get_raised _ _ _ (by decide) (by decide) (by decide)]
  have hpage : OnlyPage FAB.page d e :=
    he ▸ ((OnlyPage.avsFallBack d).set (f := FAB.AVS_STAT.FAIL) (s := 0) (by decide) (by decide)).raise _ _
  rw [hpace, Dev.flag, hfail]
  exact ⟨rfl, rfl, rfl, rfl, hraised, hpage⟩

theorem exec_paceReading (readings : List (BitVec 10)) (s : State) :
    exec (.paceReading readings) s = execPaceReading readings s := rfl

theorem exec_avsAck (s : State) : exec .avsAck s = execAvsAck s := rfl

theorem exec_avsAckTimeout (s : State) : exec .avsAckTimeout s = execAvsAckTimeout s := rfl

/-- Settles O11: the lowest reading stands in MIN; a run of the loop commands the voltage of R73's four lines and
shows it in its flags. -/
theorem paceAndSupplyLoop : Obligations.PaceAndSupplyLoop := by
  refine ⟨?paceReading, ?paceLowClr, ?avsLoopRunActive, ?avsAck, ?avsLoopRunNoReading, ?avsLoopRunStopped,
    ?avsAckNothing, ?avsAckTimeout, ?avsAckTimeoutNothing⟩
  case paceReading =>
    intro s readings hReadings
    have hne : readings ≠ [] := fun h => by simp [h] at hReadings
    have hlength : (readings.length == 16) = true := by simp [hReadings]
    refine does_of_exec (d := s.dev.paceStore readings) (onDev_eq (exec_paceReading readings s) (if_pos hlength)) ?_
    rw [s.dev.paceStore_min hne]
    exact ⟨fun r hr => minReading_le readings hr, minReading_mem hne⟩
  case paceLowClr =>
    intro s acc hmay
    exact does_of_exec (exec_of_asOwner rfl hmay rfl) (s.dev.lowClr_effect _ rfl)
  case avsLoopRunActive =>
    intro s p hPace hMode hFail hPace2
    exact does_of_exec (exec_avsLoopRun_active hPace hMode hFail hPace2) (s.dev.avsRun_effect p _ rfl)
  case avsAck =>
    intro s hPace
    exact does_of_exec (onDev_eq (exec_avsAck s) (Dev.when_pos _ _ hPace)) (s.dev.avsAck_effect _ rfl)
  case avsLoopRunNoReading =>
    intro s hPace
    refine onDev_eq (exec_avsLoopRun s) ?_
    simp only [hPace]
  case avsLoopRunStopped =>
    intro s p hPace hMode
    exact exec_avsLoopRun_stopped hPace hMode
  case avsAckNothing =>
    intro s hPace
    exact onDev_eq (exec_avsAck s) (Dev.when_neg _ _ hPace)
  case avsAckTimeout =>
    intro s hPace
    exact does_of_exec (onDev_eq (exec_avsAckTimeout s) (Dev.when_pos _ _ hPace))
      (s.dev.avsFail_effect _ rfl)
  case avsAckTimeoutNothing =>
    intro s hPace
    exact onDev_eq (exec_avsAckTimeout s) (Dev.when_neg _ _ hPace)

end Sys2Proof.Machine
end

section
/-!
Crossings (R78 to R83): a stopped clock holds its crossing, the compatibility time-out abandons the oldest transfer, the
resynchronization ends in three steps, and a clock that runs again completes what waited.
-/
namespace Sys2Proof.Machine

/-! ### A clock that stops -/

/-- The clock marked as stopped, and no longer good. -/
def Dev.markStopped (d : Dev) (i : Nat) : Dev := (d.set FAB.page FAB.XING_STAT.CLK_STOP 1 i).setGood (goodBit i) false

theorem Dev.markStopped_stat (d : Dev) {i : Nat} (hi : i < 65536) :
    (d.markStopped i).xing i = d.xing i ∧ (d.markStopped i).get FAB.page FAB.XING_STAT.CLK_STOP i = 1 := by
  have hpage : FAB.page ≠ RST.page := by decide
  unfold Dev.markStopped Dev.setGood Dev.xing
  constructor
  · rw [Dev.get_set_page _ _ hpage (by decide) (by decide) (by decide) hi, Dev.get_set_beside _ _ (.inr (by decide))]
  · rw [Dev.get_set_page _ _ hpage (by decide) (by decide) (by decide) hi, Dev.get_set_same _ _ _ _ (by decide)]
    rfl

theorem Dev.clockStop_eq (d : Dev) {i : Nat} (hi : i < 65536) (hstop : d.flag FAB.page FAB.XING_STAT.CLK_STOP i = false)
    (hx : d.xing i ≠ xReset) :
    d.clockStop i = ((d.markStopped i).setXing i xHeld).raise FAB.page FAB.INT_RAW.XING_HELD := by
  have hrun : ¬(d.markStopped i).xing i = xReset := by rwa [(d.markStopped_stat hi).1]
  rw [Dev.clockStop, if_neg (Bool.eq_false_iff.mp hstop)]
  exact if_neg hrun

theorem Dev.clockStop_effect (d : Dev) {i : Nat} (hi : i < 65536)
    (hstop : d.flag FAB.page FAB.XING_STAT.CLK_STOP i = false) (hx : d.xing i ≠ xReset) (e : Dev)
    (he : e = d.clockStop i) :
    e.xing i = xHeld ∧ e.flag FAB.page FAB.XING_STAT.CLK_STOP i = true ∧ e.get FAB.page FAB.INT_RAW.XING_HELD = 1
      ∧ e.held = d.held := by
  have hflag : e.get FAB.page FAB.XING_STAT.CLK_STOP i = 1 := by
    rw [he, d.clockStop_eq hi hstop hx, Dev.raise_get_sel _ (by decide) hi, Dev.setXing_stat _ hi (by decide) rfl,
      (d.markStopped_stat hi).2]
  rw [Dev.flag, hflag, he, d.clockStop_eq hi hstop hx]
  refine ⟨?_, rfl, Dev.raise_get_raised _ _ _ (by decide) (by decide) (by decide), ?_⟩
  · rw [Dev.xing, Dev.raise_get_sel _ (by decide) hi]
    exact Dev.setXing_xing _ (by decide) hi
  · rw [Dev.raise_held, Dev.setXing_held, Dev.markStopped, Dev.setGood, Dev.set_held, Dev.set_held]

/-! ### The compatibility time-out -/

/-- What an abandoned transfer leaves: the transfer taken from those that wait, the error, the count. -/
def Dev.giveUp (d : Dev) (i : Nat) (h : Held) : Dev :=
  let d := { d with held := d.held.erase h }
  let d := if h.write then d else d.emit (.reply "read" [0xFFFFFFFF])
  let d := (d.err FAB.page 0x01 i).incSat FAB.page FAB.XING_STAT.TMO_CNT i
  (d.raise FAB.page FAB.INT_RAW.XING_TMO).count 0x785

theorem Dev.answered_get (d : Dev) (h : Held) (p s : Nat) (f : Field) :
    (if h.write then ({ d with held := d.held.erase h } : Dev)
      else ({ d with held := d.held.erase h } : Dev).emit (.reply "read" [0xFFFFFFFF])).get p f s = d.get p f s := by
  split <;> rfl

theorem Dev.answered_held (d : Dev) (h : Held) :
    (if h.write then ({ d with held := d.held.erase h } : Dev)
      else ({ d with held := d.held.erase h } : Dev).emit (.reply "read" [0xFFFFFFFF])).held = d.held.erase h := by
  split <;> rfl

theorem Dev.giveUp_effect (d : Dev) {i : Nat} (hi : i < 65536) (h : Held) (hx : d.xing i = xHeld) (e : Dev)
    (he : e = d.giveUp i h) :
    e.held = d.held.erase h ∧ e.get FAB.page COM.ERR_INFO.CODE = 1 ∧ e.xing i = xHeld
      ∧ e.get FAB.page FAB.INT_RAW.XING_TMO = 1
      ∧ e.get FAB.page FAB.XING_STAT.TMO_CNT i = min (d.get FAB.page FAB.XING_STAT.TMO_CNT i + 1) 0xFFFF := by
  subst he
  have hwd : FAB.XING_STAT.TMO_CNT.wd = 16 := rfl
  have hcut : min (d.get FAB.page FAB.XING_STAT.TMO_CNT i + 1) (2 ^ 16 - 1) % 2 ^ 16
      = min (d.get FAB.page FAB.XING_STAT.TMO_CNT i + 1) 0xFFFF := Nat.mod_eq_of_lt (by omega)
  refine ⟨?_, ?_, ?_, ?_, ?_⟩
  · simp only [Dev.giveUp, Dev.count_toControl, Dev.raise_held, Dev.incSat_held, Dev.err_held]
    exact d.answered_held h
  · rw [Dev.giveUp, Dev.count_get, Dev.raise_get_beside _ (by decide), Dev.incSat,
      Dev.get_set_offset _ _ (by decide) hi (by decide), Dev.err_code]
  · rw [Dev.giveUp, Dev.xing, Dev.count_get, Dev.raise_get_sel _ (by decide) hi, Dev.incSat,
      Dev.get_set_beside _ _ (.inr (by decide)), Dev.err_get_offset _ (by decide) (by decide) (by decide) hi,
      d.answered_get h, ← Dev.xing, hx]
  · rw [Dev.giveUp, Dev.count_get, Dev.raise_get_raised _ _ _ (by decide) (by decide) (by decide)]
  · rw [Dev.giveUp, Dev.count_get, Dev.raise_get_sel _ (by decide) hi, Dev.incSat,
      Dev.get_set_same _ _ _ _ (by decide), Dev.err_get_offset _ (by decide) (by decide) (by decide) hi,
      d.answered_get h, hwd, hcut]

/-! ### The end of a resynchronization -/

/-- The crossing opened after its handshake. -/
def Dev.resynced (d : Dev) (i : Nat) : Dev :=
  let d := (d.setXph i 0).setXing i xOpen
  ((d.incSat FAB.page FAB.XING_STAT.RESYNC_CNT i).raise FAB.page FAB.INT_RAW.XING_RESYNC).count 0x784

theorem Dev.resynced_effect (d : Dev) {i : Nat} (hi : i < 65536) (e : Dev) (he : e = d.resynced i) :
    e.xing i = xOpen ∧ e.xph i = 0 ∧ e.get FAB.page FAB.INT_RAW.XING_RESYNC = 1
      ∧ e.get FAB.page FAB.XING_STAT.RESYNC_CNT i = min (d.get FAB.page FAB.XING_STAT.RESYNC_CNT i + 1) 0xFF := by
  subst he
  have hwd : FAB.XING_STAT.RESYNC_CNT.wd = 8 := rfl
  have hcut : min (d.get FAB.page FAB.XING_STAT.RESYNC_CNT i + 1) (2 ^ 8 - 1) % 2 ^ 8
      = min (d.get FAB.page FAB.XING_STAT.RESYNC_CNT i + 1) 0xFF := Nat.mod_eq_of_lt (by omega)
  refine ⟨?_, ?_, ?_, ?_⟩
  · rw [Dev.resynced, Dev.xing, Dev.count_get, Dev.raise_get_sel _ (by decide) hi, Dev.incSat,
      Dev.get_set_beside _ _ (.inr (by decide))]
    exact Dev.setXing_xing _ (by decide) hi
  · have hphase : (d.resynced i).xphase = (d.setXph i 0).xphase := by
      simp only [Dev.resynced, Dev.count_toControl, Dev.raise_xphase, Dev.incSat_xphase, Dev.setXing_xphase]
    rw [Dev.xph, hphase, ← Dev.xph, Dev.setXph_xph, if_pos rfl]
  · rw [Dev.resynced, Dev.count_get, Dev.raise_get_raised _ _ _ (by decide) (by decide) (by decide)]
  · rw [Dev.resynced, Dev.count_get, Dev.raise_get_sel _ (by decide) hi, Dev.incSat,
      Dev.get_set_same _ _ _ _ (by decide), Dev.setXing_stat _ hi (by decide) rfl, Dev.setXph_get, hwd, hcut]

theorem exec_xingCompatTimeout (island : Fin 56) (s : State) :
    exec (.xingCompatTimeout island) s = execXingCompatTimeout island s := rfl

/-! ### A clock that runs again (R80) -/

/-- One transfer completed, with the number of late ones still to come. -/
def replayNext (x : State × Nat) (h : Held) : State × Nat :=
  let isLate : Bool := !h.write && !h.bus && (h.acc == .host0 || h.acc == .host1) && decide (0 < x.2)
  (replay isLate h x.1, if isLate then x.2 - 1 else x.2)

theorem replayNext_onTime (t : State) (h : Held) : replayNext (t, 0) h = (replay false h t, 0) := by
  simp [replayNext]

theorem foldl_replayNext_onTime (l : List Held) (t : State) :
    l.foldl replayNext (t, 0) = (l.foldl (fun t h => replay false h t) t, 0) := by
  induction l generalizing t with
  | nil => rfl
  | cons h l ih => rw [List.foldl_cons, replayNext_onTime, ih, List.foldl_cons]

theorem clockBack_onTime (island : Nat) (s : State) :
    clockBack island 0 s = (s.dev.held.filter (fun h => h.island == island)).foldl (fun t h => replay false h t)
      { s with dev := ({ s.dev with held := s.dev.held.filter (fun h => h.island != island) } : Dev).clockReturn island } :=
  congrArg Prod.fst (foldl_replayNext_onTime _ _)

theorem exec_clockRunningAgain (island : Fin 56) (late : BitVec 16) (s : State) :
    exec (.clockRunningAgain island late) s = execClockRunningAgain island late s := rfl

/-- Settles O12: each event's device is named, and what its registers show is read off the writes; a clock that
runs again completes the transfers that waited for its island. -/
theorem crossingsAndHeldTransfers : Obligations.CrossingsAndHeldTransfers := by
  refine ⟨?clockStopDetected, ?xingCompatTimeout, ?xingResyncFlagSeen, ?xingResyncAckSeen, ?xingResyncConfirmed,
    ?clockRunningAgainUnlocked, ?clockRunningAgain⟩
  case clockStopDetected =>
    intro s island hClkStop hXing hLock
    have hrun : (!(decide (island.val < 51) && s.dev.flag SYN.page SYN.LSY_STAT.LOCK)) = true := by
      rw [Bool.not_eq_true', Bool.eq_false_iff]
      simpa using hLock
    exact does_of_exec (onDev_eq rfl (if_pos hrun))
      (s.dev.clockStop_effect (by omega) hClkStop hXing _ rfl)
  case xingCompatTimeout =>
    intro s island h hHeld hXing hCompat
    refine does_of_exec (d := s.dev.giveUp island h) ?_ (s.dev.giveUp_effect (by omega) h hXing _ rfl)
    refine onDev_eq (exec_xingCompatTimeout island s) ?_
    simp only [hHeld]
    exact if_neg (by simp [hXing, hCompat])
  case xingResyncFlagSeen =>
    intro s island hXing hXph
    exact onDev_eq rfl (by simp [hXing, hXph])
  case xingResyncAckSeen =>
    intro s island hXing hXph
    exact onDev_eq rfl (by simp [hXing, hXph])
  case xingResyncConfirmed =>
    intro s island hXing hXph
    exact does_of_exec (onDev_eq rfl (if_pos (by simp [hXing, hXph]))) (s.dev.resynced_effect (by omega) _ rfl)
  case clockRunningAgainUnlocked =>
    intro s island late hIsland hLock
    have hstill : (decide (island.val < 51) && !s.dev.flag SYN.page SYN.LSY_STAT.LOCK) = true := by
      simp [hIsland, hLock]
    rw [exec_clockRunningAgain, execClockRunningAgain, onState, if_pos hstill]
  case clockRunningAgain =>
    intro s island d hLock hd
    subst hd
    have hruns : ¬(decide (island.val < 51) && !s.dev.flag SYN.page SYN.LSY_STAT.LOCK) = true := by
      rcases hLock with h | h <;> simp [h]
    rw [exec_clockRunningAgain, execClockRunningAgain, onState, if_neg hruns]
    exact congrArg (fun t : State => Host.Outcome.next { t with pending := s.pending }) (clockBack_onTime island s)

end Sys2Proof.Machine
end

section
/-!
The time base (R25, R207 to R213), its snapshot and trace mark, the lane copies, and the stamps that are taken (R220,
R223, R226).
-/
namespace Sys2Proof.Machine

/-! ### Ticks and corrections -/

theorem exec_timeBaseTick (s : State) : exec .timeBaseTick s = execTimeBaseTick s := rfl

theorem exec_negStepDone (s : State) : exec .negStepDone s = execNegStepDone s := rfl

theorem exec_slewDone (s : State) : exec .slewDone s = execSlewDone s := rfl

theorem exec_timeStep (acc : Accessor) (ns frac : BitVec 32) (s : State) :
    exec (.timeStep acc ns frac) s = execTimeStep acc ns frac s := rfl

theorem exec_timeSet (acc : Accessor) (secHi : BitVec 16) (secLo : BitVec 32) (ns : BitVec 30) (frac : BitVec 16)
    (s : State) : exec (.timeSet acc secHi secLo ns frac) s = execTimeSet acc secHi secLo ns frac s := rfl

/-- What a tick does to the outputs leaves the time base. -/
theorem Dev.outsTick_time (d : Dev) :
    d.outsTick.now = d.now ∧ d.outsTick.slewRem = d.slewRem ∧ d.outsTick.deficit = d.deficit
      ∧ d.outsTick.negOn = d.negOn := by
  have h := d.outsTick_clocks
  exact ⟨(congrArg Clocks.now h :), (congrArg Clocks.slewRem h :), (congrArg Clocks.deficit h :),
    (congrArg Clocks.negOn h :)⟩

/-- The registers of a TMB COMMIT's command, written into their shadows. -/
def Dev.tmbShadows (d : Dev) (writes : List (Nat × Word)) : Dev :=
  writes.foldl (fun d w => d.wrShadow .tmb TMB.page w.1 0 w.2) d

theorem Dev.timeCommand_accepted {d : Dev} {acc : Accessor} {writes : List (Nat × Word)} (hmay : MayWrite d acc TMB.page)
    (hrules : ((d.tmbShadows writes).tmbRules acc).find? (·.1) = none) :
    d.timeCommand acc writes = Dev.tmbEffect (d.tmbShadows writes) ((d.tmbShadows writes).acceptCommit TMB.page) :=
  (Dev.asOwner_may d hmay).trans (Dev.commitBy_accepted _ _ hrules)

theorem Dev.timeCommand_rejected {d : Dev} {acc : Accessor} {writes : List (Nat × Word)} {code off : Nat}
    (hmay : MayWrite d acc TMB.page)
    (hrules : ((d.tmbShadows writes).tmbRules acc).find? (·.1) = some (true, code, off)) :
    d.timeCommand acc writes = (d.tmbShadows writes).rejectCommit TMB.page code off :=
  (Dev.asOwner_may d hmay).trans (Dev.commitBy_rejected _ _ hrules)

theorem Dev.rejectCommit_inc (d : Dev) (code off : Nat) : (d.rejectCommit TMB.page code off).inc = d.inc := by
  unfold Dev.inc Dev.get
  rw [Dev.rejectCommit_rd _ _ _ _ (by decide), Dev.rejectCommit_rd _ _ _ _ (by decide)]

/-- The end of a negative step. -/
theorem Dev.negStepDone_effect (d e : Dev)
    (he : e = ({ d with negOn := false } : Dev).refreshTime.raise TMB.page TMB.INT_RAW.STEP_DONE) :
    e.negOn = false ∧ e.get TMB.page TMB.INT_RAW.STEP_DONE = 1 ∧ e.get TMB.page TMB.TMB_STAT.NEG_STEP = 0
      ∧ e.now = d.now := by
  have hclocks : e.toClocks = ({ d with negOn := false } : Dev).toClocks := by
    rw [he, Dev.raise_toClocks, Dev.refreshTime_toClocks]
  refine ⟨congrArg Clocks.negOn hclocks, ?_, ?_, (congrArg Clocks.now hclocks :)⟩
  · rw [he, Dev.raise_get_raised _ _ _ (by decide) (by decide) (by decide)]
  · rw [he, Dev.raise_get_beside _ (by decide)]
    exact Dev.refreshTime_neg _ rfl

/-- The end of a slew. -/
theorem Dev.slewDone_effect (d e : Dev) (hrem : d.slewRem = 0)
    (he : e = ({ d with slewOn := false } : Dev).raise TMB.page TMB.INT_RAW.SLEW_DONE) :
    e.slewOn = false ∧ e.slewRem = 0 ∧ e.get TMB.page TMB.INT_RAW.SLEW_DONE = 1 := by
  have hclocks : e.toClocks = ({ d with slewOn := false } : Dev).toClocks := by rw [he, Dev.raise_toClocks]
  refine ⟨congrArg Clocks.slewOn hclocks, (congrArg Clocks.slewRem hclocks).trans hrem, ?_⟩
  rw [he, Dev.raise_get_raised _ _ _ (by decide) (by decide) (by decide)]

/-- Settles O13: the tick is the law of the clocks; the commands are COMMITs by the page's rules. -/
theorem timeTickAndCorrections : Obligations.TimeTickAndCorrections := by
  refine ⟨?timeBaseTick, ?timeStep, ?timeSet, ?timeSetRefused, ?negStepDone, ?slewDone⟩
  case timeBaseTick =>
    intro s hReleased
    refine does_of_exec (onDev_eq (exec_timeBaseTick s) (if_pos hReleased)) ?_
    obtain ⟨hnow, hrem, hdef, hneg⟩ := s.dev.tick_clock
    obtain ⟨onow, orem, odef, oneg⟩ := s.dev.tick.outsTick_time
    exact ⟨onow.trans hnow, orem.trans hrem, odef.trans hdef, oneg.trans hneg⟩
  case timeStep =>
    intro s acc ns frac d hmay hd hTmbRules
    subst hd
    exact onDev_eq (exec_timeStep acc ns frac s) (Dev.timeCommand_accepted hmay hTmbRules)
  case timeSet =>
    intro s acc secHi secLo ns frac d hmay hd hTmbRules
    subst hd
    exact onDev_eq (exec_timeSet acc secHi secLo ns frac s) (Dev.timeCommand_accepted hmay hTmbRules)
  case timeSetRefused =>
    intro s acc secHi secLo ns frac d code off hmay hd hTmbRules
    subst hd
    refine does_of_exec (onDev_eq (exec_timeSet acc secHi secLo ns frac s) (Dev.timeCommand_rejected hmay hTmbRules)) ?_
    exact ⟨Dev.rejectCommit_toClocks .., Dev.rejectCommit_inc .., Dev.rejectCommit_rejected ..,
      Dev.rejectCommit_code_mod .., Dev.err_code ..⟩
  case negStepDone =>
    intro s hNegOn hDeficit
    exact does_of_exec (onDev_eq (exec_negStepDone s) (if_pos (by simp [hNegOn, hDeficit]))) (s.dev.negStepDone_effect _ rfl)
  case slewDone =>
    intro s hSlewOn hSlewRem
    exact does_of_exec (onDev_eq (exec_slewDone s) (if_pos (by simp [hSlewOn, hSlewRem])))
      (s.dev.slewDone_effect _ hSlewRem rfl)

/-! ### The snapshot, the trace mark, the lane copies -/

theorem secOf_lt (t : Nat) : secOf t < 2 ^ 48 := Nat.mod_lt _ (by decide)

theorem nsOf_lt (t : Nat) : nsOf t < 2 ^ 30 := by
  have : t % secU < 1000000000 * nsU := Nat.mod_lt _ (by decide)
  have : t % secU / nsU < 1000000000 := Nat.div_lt_of_lt_mul (by omega)
  unfold nsOf
  omega

theorem fracOf_lt (t : Nat) : fracOf t < 2 ^ 16 := by
  unfold fracOf nsU
  omega

theorem Dev.snapshotTime_effect (d e : Dev) (he : e = d.snapshotTime) :
    e.get TMB.page TMB.TIME_SEC_HI.SEC_HI = secOf d.now / 2 ^ 32
      ∧ e.get TMB.page TMB.TIME_SEC_LO.SEC_LO = secOf d.now % 2 ^ 32 ∧ e.get TMB.page TMB.TIME_NS.NS = nsOf d.now
      ∧ e.get TMB.page TMB.TIME_FRAC.FRAC = fracOf d.now ∧ e.flag TMB.page TMB.TIME_SEC_HI.UNTRACE = d.untrace
      ∧ OnlyPage TMB.page d e ∧ Quiet d e := by
  subst he
  have hhi : secOf d.now / 2 ^ 32 % 2 ^ 16 = secOf d.now / 2 ^ 32 := by
    have := secOf_lt d.now
    omega
  have hns : nsOf d.now % 2 ^ 30 = nsOf d.now := Nat.mod_eq_of_lt (nsOf_lt _)
  have hfrac : fracOf d.now % 2 ^ 16 = fracOf d.now := Nat.mod_eq_of_lt (fracOf_lt _)
  refine ⟨?_, ?_, ?_, ?_, ?_, ?_, ?_⟩
  case refine_5 =>
    unfold Dev.flag Dev.snapshotTime
    simp (disch := decide) only [Dev.get_set_beside]
    exact Dev.flag_setFlag_same _ _ _ _ _ rfl (by decide)
  case refine_6 =>
    unfold Dev.snapshotTime
    exact (((((OnlyPage.refl _ d).setFlag (by decide) (by decide)).set (by decide) (by decide)).set (by decide)
      (by decide)).set (by decide) (by decide)).set (by decide) (by decide)
  case refine_7 =>
    unfold Quiet Dev.snapshotTime
    simp
  all_goals
    simp (disch := decide) only [Dev.snapshotTime, Dev.get_set_same, Dev.get_set_beside, Dev.set_toClocks,
      Dev.setFlag_toClocks]
  · exact hhi
  · rfl
  · exact hns
  · exact hfrac

theorem Dev.traceClear_effect (d e : Dev) (he : e = d.traceClear) :
    e.flag TMB.page TMB.TMB_STAT.TRACEABLE = false
      ∧ (d.flag TMB.page TMB.TMB_STAT.TRACEABLE = true → e.get TMB.page TMB.INT_RAW.TRACE_LOST = 1) := by
  subst he
  unfold Dev.traceClear
  cases htrace : d.flag TMB.page TMB.TMB_STAT.TRACEABLE with
  | false =>
    rw [if_pos (by simp [Dev.untrace, htrace])]
    exact ⟨htrace, fun h => nomatch h⟩
  | true =>
    rw [if_neg (by simp [Dev.untrace, htrace]), Dev.flag, Dev.raise_get_beside _ (by decide),
      Dev.get_set_same _ _ _ _ (by decide)]
    exact ⟨rfl, fun _ => Dev.raise_get_raised _ _ _ (by decide) (by decide) (by decide)⟩

/-- A lane copy that differs: reloaded, counted, reported. -/
def Dev.reloadCopy (d : Dev) (lane : Nat) : Dev :=
  let d := (d.setCopyOfs lane 0).set TMB.page TMB.COPY_STAT.LAST_LANE lane
  ((d.incSat TMB.page TMB.COPY_STAT.RELOADS).count 0xD21).raise TMB.page TMB.INT_RAW.COPY_ERR

theorem Dev.reloadCopy_toClocks (d : Dev) (lane : Nat) : (d.reloadCopy lane).toClocks = (d.setCopyOfs lane 0).toClocks := by
  simp only [Dev.reloadCopy, Dev.raise_toClocks, Dev.count_toClocks, Dev.incSat_toClocks, Dev.set_toClocks]

theorem Dev.reloadCopy_effect (d : Dev) {lane : Nat} (hl : lane < 51) (e : Dev) (he : e = d.reloadCopy lane) :
    e.laneNow lane = d.now ∧ e.get TMB.page TMB.COPY_STAT.LAST_LANE = lane ∧ e.get TMB.page TMB.INT_RAW.COPY_ERR = 1
      ∧ e.get TMB.page TMB.COPY_STAT.RELOADS = min (d.get TMB.page TMB.COPY_STAT.RELOADS + 1) 0xFFFF
      ∧ e.now = d.now ∧ OnlyPage TMB.page d e := by
  subst he
  have hnow : (d.reloadCopy lane).now = d.now := (congrArg Clocks.now (d.reloadCopy_toClocks lane) :)
  have hcopy : (d.reloadCopy lane).copyOfs = tset (fun _ => 0) d.copyOfs lane 0 :=
    (congrArg Clocks.copyOfs (d.reloadCopy_toClocks lane) :)
  have hofs (f : Field) : (d.setCopyOfs lane 0).get TMB.page f = d.get TMB.page f := rfl
  have hcut : min (d.get TMB.page TMB.COPY_STAT.RELOADS + 1) (2 ^ 16 - 1) % 2 ^ 16
      = min (d.get TMB.page TMB.COPY_STAT.RELOADS + 1) 0xFFFF := Nat.mod_eq_of_lt (by omega)
  have hreloads : TMB.COPY_STAT.RELOADS.wd = 16 := rfl
  refine ⟨?_, ?_, ?_, ?_, hnow, ?_⟩
  · rw [Dev.laneNow, hnow, hcopy, tget_tset_same]
    simp
  · simp (disch := decide) only [Dev.reloadCopy, Dev.raise_get_beside, Dev.count_get, Dev.incSat, Dev.get_set_beside,
      Dev.get_set_same]
    exact Nat.mod_eq_of_lt (by have : TMB.COPY_STAT.LAST_LANE.wd = 6 := rfl; rw [this]; omega)
  · rw [Dev.reloadCopy, Dev.raise_get_raised _ _ _ (by decide) (by decide) (by decide)]
  · simp (disch := decide) only [Dev.reloadCopy, Dev.raise_get_beside, Dev.count_get, Dev.incSat, Dev.get_set_beside,
      Dev.get_set_same, hofs, hreloads]
    exact hcut
  · exact (((((OnlyPage.refl _ d).of_regs (e' := d.setCopyOfs lane 0) rfl).set (by decide) (by decide)).incSat (by decide)
      (by decide)).count _ _).raise _ _

/-- Settles O14: what the snapshot, the trace mark and a reloaded copy show is read off their writes. -/
theorem timeSnapshotAndTrace : Obligations.TimeSnapshotAndTrace := by
  refine ⟨?timeSnapshot, ?traceSet, ?traceSetOnBackup, ?traceClr, ?laneCopyDiffers, ?laneCopyAgrees⟩
  case timeSnapshot =>
    intro s acc hr
    exact does_of_exec (exec_of_asAny rfl hr rfl) (s.dev.snapshotTime_effect _ rfl)
  case traceSet =>
    intro s acc hmay hBackup
    exact exec_of_asOwner rfl hmay (by simp [hBackup])
  case traceSetOnBackup =>
    intro s acc hmay hBackup
    exact exec_of_asOwner rfl hmay (if_pos hBackup)
  case traceClr =>
    intro s acc hmay
    exact does_of_exec (exec_of_asOwner rfl hmay rfl) (s.dev.traceClear_effect _ rfl)
  case laneCopyDiffers =>
    intro s lane differs hdiffers
    exact does_of_exec (onDev_eq rfl (if_pos (by simpa using hdiffers)))
      (s.dev.reloadCopy_effect lane.isLt _ rfl)
  case laneCopyAgrees =>
    intro s lane hLaneNow
    exact onDev_eq rfl (by simp [hLaneNow])

/-! ### Stamps -/

theorem exec_eventMsgStrobe (port : Fin 48) (s : State) : exec (.eventMsgStrobe port) s = execEventMsgStrobe port s := rfl

theorem exec_tcapEdge (sub : Fin 16) (s : State) : exec (.tcapEdge sub) s = execTcapEdge sub s := rfl

/-- CLR leaves an empty FIFO and nothing lost. -/
theorem Dev.txfClear_effect (d : Dev) (i : Nat) (e : Dev)
    (he : e = (d.setTxf i []).set (TSU.page i) TSU.TXF_STAT.LOST_CNT 0) :
    e.txfOf i = [] ∧ e.get (TSU.page i) TSU.TXF_STAT.FILL = 0 ∧ e.get (TSU.page i) TSU.TXF_STAT.LOST_CNT = 0 := by
  subst he
  refine ⟨?_, ?_, ?_⟩
  · rw [Dev.txfOf, Dev.set_toClocks, ← Dev.txfOf, Dev.setTxf_txfOf]
  · rw [Dev.get_set_beside _ _ (by decide), Dev.setTxf_fill]
    rfl
  · rw [Dev.get_set_same _ _ _ _ (by decide)]
    rfl

/-- Settles O15: the FIFO and the capture are as the last write leaves them; an edge is judged by the one before it. -/
theorem stampsTaken : Obligations.StampsTaken := by
  refine ⟨?softStrobe, ?hardStrobe, ?txfPop, ?txfClear, ?tcapEdge, ?tcapEdgeTooSoon, ?capNsRead⟩
  case softStrobe =>
    intro s port d hd hIsSoft
    subst hd
    exact onDev_eq (exec_eventMsgStrobe port s) (if_pos hIsSoft)
  case hardStrobe =>
    intro s port d hd hIsSoft
    subst hd
    exact onDev_eq (exec_eventMsgStrobe port s) (Dev.when_neg _ _ hIsSoft)
  case txfPop =>
    intro s acc tsu hmay
    exact does_of_exec (exec_of_asOwner rfl hmay rfl) ⟨Dev.setTxf_txfOf .., Dev.setTxf_fill ..⟩
  case txfClear =>
    intro s acc tsu hmay
    exact does_of_exec (exec_of_asOwner rfl hmay rfl) (s.dev.txfClear_effect tsu _ rfl)
  case tcapEdge =>
    intro s sub hCap
    refine onDev_eq (exec_tcapEdge sub s) ?_
    cases hlast : s.dev.cap.lastEdge with
    | none => simp only [hlast, Bool.false_eq_true, if_false]
    | some l =>
      have hlate : ¬s.dev.now + sub * s.dev.rate / 16 < l + 100 * nsU := not_lt.mpr (hCap l hlast)
      simp only [hlast, decide_eq_true_eq, if_neg hlate]
  case tcapEdgeTooSoon =>
    intro s sub l hCap hNow
    refine onDev_eq (exec_tcapEdge sub s) ?_
    simp only [hCap, decide_eq_true_eq, if_pos hNow]
  case capNsRead =>
    intro s hCrownOn
    exact onDev_eq rfl (if_pos hCrownOn)

end Sys2Proof.Machine
end

section
/-!
The references: what a second measures, the times of a slot, lock, readiness and the holdover engine (R227 to R243).
-/
namespace Sys2Proof.Machine

theorem exec_refSecondMeasure (ys : List (Fin 16 × Int)) (phase : Option Int) (s : State) :
    exec (.refSecondMeasure ys phase) s = execRefSecondMeasure ys phase s := rfl

theorem exec_holdoverUpdate (sensor : Int) (s : State) :
    exec (.holdoverUpdate sensor) s = execHoldoverUpdate sensor s := rfl

theorem exec_modelLearnSample (s : State) : exec .modelLearnSample s = execModelLearnSample s := rfl

theorem exec_driftDwellExpiry (slot : Fin 16) (s : State) :
    exec (.driftDwellExpiry slot) s = execDriftDwellExpiry slot s := rfl

theorem exec_majDwellExpiry (slot : Fin 16) (s : State) :
    exec (.majDwellExpiry slot) s = execMajDwellExpiry slot s := rfl

theorem exec_slotActivityReturn (slot : Fin 16) (s : State) :
    exec (.slotActivityReturn slot) s = execSlotActivityReturn slot s := rfl

theorem exec_qualTimerExpiry (slot : Fin 16) (s : State) :
    exec (.qualTimerExpiry slot) s = execQualTimerExpiry slot s := rfl

/-- Outside holdover the engine steers nothing. -/
theorem Dev.steer_idle {d : Dev} (h : d.flag REF.page REF.HO_STAT.ACTIVE = false) : d.steer = d :=
  if_pos (by rw [h]; rfl)

/-- In holdover the correction leads to the target. -/
theorem Dev.steer_active {d : Dev} {target : Rat} (h : d.flag REF.page REF.HO_STAT.ACTIVE = true)
    (ht : d.hoTarget = some target) :
    d.steer = (d.set REF.page REF.HO_CORR.CORR (toField 32 (ratRound (target - (d.inc : Rat))))).checkPpm := by
  rw [Dev.steer, if_neg (by rw [h]; decide), ht]

/-- The temperature the holdover engine takes is beside the ACTIVE flag. -/
theorem Dev.set_temp_active (d : Dev) (v : Nat) :
    (d.set REF.page REF.HO_STAT.TEMP v).flag REF.page REF.HO_STAT.ACTIVE = d.flag REF.page REF.HO_STAT.ACTIVE := by
  unfold Dev.flag
  rw [Dev.get_set_beside _ _ (by decide)]

theorem Dev.set_quiet (d : Dev) (p : Nat) (f : Field) (v s : Nat) : Quiet d (d.set p f v s) := by
  unfold Quiet
  simp

theorem Quiet.trans {d e f : Dev} (h : Quiet d e) (g : Quiet e f) : Quiet d f := by
  unfold Quiet at *
  grind

/-- HO_READY as the reference machine sets it. -/
theorem Dev.hoReady_effect (d e : Dev) (hlocked : d.refState = refLocked)
    (he : e = d.set REF.page REF.REF_STAT.HO_READY 1) :
    e.get REF.page REF.REF_STAT.HO_READY = 1 ∧ e.refState = refLocked ∧ OnlyPage REF.page d e ∧ Quiet d e := by
  subst he
  refine ⟨Dev.get_set_fits _ _ _ (by decide) (by decide), ?_, (OnlyPage.refl _ d).set (by decide) (by decide),
    Dev.set_quiet ..⟩
  rw [Dev.refState, Dev.get_set_beside _ _ (by decide)]
  exact hlocked

/-- Settles O16: each event by the condition it tests; the engine's own step is the law of `steer`. -/
theorem referenceSeconds : Obligations.ReferenceSeconds := by
  refine ⟨?refSecondUnlocked, ?refSecondLocked, ?driftDwellExpiry, ?majDwellExpiry, ?lockDetected, ?hoReadySet,
    ?holdoverIdle, ?holdoverSteers, ?modelLearnSample⟩
  case refSecondUnlocked =>
    intro s ys phase d e f hd he hf hSwitching
    have hopen : ¬(decide (f.refState = refLocked) && !f.flag REF.page REF.REF_STAT.SWITCHING) = true := by
      simpa using hSwitching
    subst hf he hd
    exact onDev_eq (exec_refSecondMeasure ys phase s) (if_neg hopen)
  case refSecondLocked =>
    intro s ys phase d e f hd he hf hx hSwitching
    have hlocked : (decide (f.refState = refLocked) && !f.flag REF.page REF.REF_STAT.SWITCHING) = true := by
      simp [hx, hSwitching]
    subst hf he hd
    exact onDev_eq (exec_refSecondMeasure ys phase s) (if_pos hlocked)
  case driftDwellExpiry =>
    intro s slot hDriftLim
    exact onDev_eq (exec_driftDwellExpiry slot s) (if_pos (decide_eq_true hDriftLim))
  case majDwellExpiry =>
    intro s slot hMajOut hMajAct hOutliers
    exact onDev_eq (exec_majDwellExpiry slot s) (if_pos (by simp [hMajOut, hMajAct, hOutliers]))
  case lockDetected =>
    intro s hRefState hLockOk hSwitching
    exact onDev_eq rfl (by simp [hRefState, hLockOk, hSwitching])
  case hoReadySet =>
    intro s hRefState
    exact does_of_exec (onDev_eq rfl (if_pos (beq_iff_eq.mpr hRefState))) (s.dev.hoReady_effect _ hRefState rfl)
  case holdoverIdle =>
    intro s sensor t ht hActive
    have hextern : (s.dev.flag REF.page REF.HO_CFG.TEMP_SRC && !s.dev.flag REF.page REF.HO_STAT.TEMP_STALE) = true
        ↔ s.dev.flag REF.page REF.HO_CFG.TEMP_SRC = true ∧ s.dev.flag REF.page REF.HO_STAT.TEMP_STALE = false := by simp
    subst ht
    refine onDev_eq (exec_holdoverUpdate sensor s) ?_
    simp only [hextern]
    exact Dev.steer_idle ((Dev.set_temp_active _ _).trans hActive)
  case holdoverSteers =>
    intro s sensor t target e ht he hActive hHoTarget
    have hextern : (s.dev.flag REF.page REF.HO_CFG.TEMP_SRC && !s.dev.flag REF.page REF.HO_STAT.TEMP_STALE) = true
        ↔ s.dev.flag REF.page REF.HO_CFG.TEMP_SRC = true ∧ s.dev.flag REF.page REF.HO_STAT.TEMP_STALE = false := by simp
    subst he ht
    refine onDev_eq (exec_holdoverUpdate sensor s) ?_
    simp only [hextern]
    exact Dev.steer_active ((Dev.set_temp_active _ _).trans hActive) hHoTarget
  case modelLearnSample =>
    intro s hImageRuns hRefState hRate
    exact onDev_eq (exec_modelLearnSample s) (if_pos (by simp [hImageRuns, hRefState, hRate]))

/-! ### Slots -/

/-- A slot's activity is absent by the causes that stand of it. -/
def Dev.slotAbsent (d : Dev) (slot : Nat) : Bool := (d.standingCauses slot).any fun c => c == 1 || c == 5

theorem Dev.slotAbsent_iff (d : Dev) (slot : Nat) :
    d.slotAbsent slot = true ↔
      d.slotType slot = 1 ∧ (d.flag (LNK.page (d.slotIndex slot)) LNK.LNK_STATE.LOS = true
          ∨ d.flag (LNK.page (d.slotIndex slot)) LNK.LNK_STATE.LOL = true
          ∨ d.flag (PRT.page (d.slotIndex slot)) PRT.PORT_STAT.LINK_UP = false)
        ∨ d.slotType slot = 4 ∧ (d.flag EVT.page EVT.EVT_CFG.ENABLE (d.slotIndex slot) = false
          ∨ d.get EVT.page EVT.EVT_CFG.SLOPE (d.slotIndex slot) = 2)
        ∨ d.slotType slot = 5 ∧ (d.flag DBL.page DBL.DBL_STAT.DL0_UP = false
          ∨ d.flag DBL.page DBL.DBL_STAT.STALE = true) := by
  unfold Dev.slotAbsent Dev.standingCauses
  have hif (c : Bool) (k : Nat) : ((if c then [k] else []).any fun x => x == 1 || x == 5) = (c && (k == 1 || k == 5)) := by
    cases c <;> simp
  simp only [List.any_append, hif]
  have h51 : ((5 == 1 || 5 == 5) : Bool) = true := rfl
  have h11 : ((1 == 1 || 1 == 5) : Bool) = true := rfl
  have h61 : ((6 == 1 || 6 == 5) : Bool) = false := rfl
  have h71 : ((7 == 1 || 7 == 5) : Bool) = false := rfl
  have h81 : ((8 == 1 || 8 == 5) : Bool) = false := rfl
  simp only [h51, h11, h61, h71, h81, Bool.and_true, Bool.and_false, Bool.or_false, Bool.or_eq_true, Bool.and_eq_true,
    beq_iff_eq, Bool.not_eq_true']
  generalize d.slotType slot = t
  constructor
  · grind
  · grind

/-- A slot that begins its wait to restore. -/
theorem Dev.slotWaits_effect (d : Dev) {slot : Nat} (hs : slot < 65536) (e : Dev)
    (he : e = (d.setSlotState slot slotWtr).set REF.page REF.SLOT_STAT.TIMER_S (d.get REF.page REF.REF_CFG.WTR_S) slot) :
    e.slotState slot = slotWtr ∧ e.get REF.page REF.SLOT_STAT.TIMER_S slot = d.get REF.page REF.REF_CFG.WTR_S
      ∧ OnlyPage REF.page d e ∧ Quiet d e := by
  subst he
  refine ⟨?_, ?_, ((OnlyPage.refl _ d).set (by decide) hs).set (by decide) hs,
    (Dev.set_quiet ..).trans (Dev.set_quiet ..)⟩
  · rw [Dev.slotState, Dev.get_set_beside _ _ (by decide)]
    exact Dev.get_set_fits _ _ _ (by decide) (by decide)
  · exact Dev.get_set_fits _ _ _ (by decide) (lt_of_lt_of_le (d.get_lt _ _ _) (by decide))

/-- A temperature that firmware writes. -/
theorem Dev.hoTempWritten_effect (d : Dev) (temp : BitVec 16) (e : Dev)
    (he : e = (d.set REF.page REF.HO_TEMP.TEMP temp.toNat).set REF.page REF.HO_STAT.TEMP_STALE 0) :
    e.get REF.page REF.HO_TEMP.TEMP = temp.toNat ∧ e.get REF.page REF.HO_STAT.TEMP_STALE = 0
      ∧ OnlyPage REF.page d e ∧ Quiet d e := by
  subst he
  refine ⟨?_, Dev.get_set_fits _ _ _ (by decide) (by decide),
    ((OnlyPage.refl _ d).set (by decide) (by decide)).set (by decide) (by decide),
    (Dev.set_quiet ..).trans (Dev.set_quiet ..)⟩
  rw [Dev.get_set_beside _ _ (by decide)]
  exact Dev.get_set_fits _ _ _ (by decide) temp.isLt

/-- Settles O17: each event by the condition it tests. -/
theorem referenceSlots : Obligations.ReferenceSlots := by
  refine ⟨?slotActivityFail, ?slotActivityReturns, ?slotStillAbsent, ?qualTimerToWtr, ?qualTimerToQualified,
    ?wtrExpiry, ?ptpOfsWrite, ?ptpOfsTimeout, ?slotFwWrite, ?hoTempWrite, ?hoTempStale⟩
  case slotActivityFail =>
    intro s slot
    rfl
  case slotActivityReturns =>
    intro s slot i hi hSlotType hLos hEnable hDl0Up
    subst hi
    have hpresent : s.dev.slotAbsent slot = false := by
      rw [Bool.eq_false_iff, Ne, Dev.slotAbsent_iff]
      grind
    exact onDev_eq (exec_slotActivityReturn slot s) (if_neg (by
      change ¬(s.dev.slotAbsent slot || s.dev.slotType slot == 2) = true
      simp [hpresent, hSlotType]))
  case slotStillAbsent =>
    intro s slot i hi hLos
    subst hi
    refine onDev_eq (exec_slotActivityReturn slot s) (if_pos ?_)
    change (s.dev.slotAbsent slot || s.dev.slotType slot == 2) = true
    rw [Bool.or_eq_true, Dev.slotAbsent_iff, beq_iff_eq]
    exact hLos.symm
  case qualTimerToWtr =>
    intro s slot hSlotState hSlot hWtrS
    have hwait : (!(s.dev.slot slot).first && s.dev.get REF.page REF.REF_CFG.WTR_S != 0) = true := by
      simp [hSlot, hWtrS]
    exact does_of_exec (onDev_eq (exec_qualTimerExpiry slot s) ((if_pos (beq_iff_eq.mpr hSlotState)).trans (if_pos hwait)))
      (s.dev.slotWaits_effect (by omega) _ rfl)
  case qualTimerToQualified =>
    intro s slot hSlotState hWtrS
    have hnow : ¬(!(s.dev.slot slot).first && s.dev.get REF.page REF.REF_CFG.WTR_S != 0) = true := by
      rcases hWtrS with h | h <;> simp [h]
    exact onDev_eq (exec_qualTimerExpiry slot s) ((if_pos (beq_iff_eq.mpr hSlotState)).trans (if_neg hnow))
  case wtrExpiry =>
    intro s slot hSlotState
    exact onDev_eq rfl (by simp [hSlotState])
  case ptpOfsWrite =>
    intro s acc value hmay
    exact exec_of_asOwner rfl hmay rfl
  case ptpOfsTimeout =>
    intro s slot hSlotType
    exact onDev_eq rfl (by simp [hSlotType])
  case slotFwWrite =>
    intro s acc value hmay
    exact exec_of_asOwner rfl hmay rfl
  case hoTempWrite =>
    intro s acc temp hmay
    exact does_of_exec (exec_of_asOwner rfl hmay rfl) (s.dev.hoTempWritten_effect temp _ rfl)
  case hoTempStale =>
    intro s hTempSrc
    exact onDev_eq rfl (if_pos hTempSrc)

end Sys2Proof.Machine
end

section
/-!
The switch commands, which are COMMITs of the REF page, and what a measured switch absorbs (R235, R240, R241, R248).
-/
namespace Sys2Proof.Machine

theorem exec_switchManual (acc : Accessor) (slot : Fin 16) (s : State) :
    exec (.switchManual acc slot) s = execSwitchManual acc slot s := rfl

theorem exec_switchForced (acc : Accessor) (slot : Fin 16) (s : State) :
    exec (.switchForced acc slot) s = execSwitchForced acc slot s := rfl

theorem exec_clrWtr (acc : Accessor) (slot : Fin 16) (s : State) :
    exec (.clrWtr acc slot) s = execClrWtr acc slot s := rfl

theorem exec_absClr (acc : Accessor) (s : State) : exec (.absClr acc) s = execAbsClr acc s := rfl

theorem exec_switchMeasureDone (delta : Int) (s : State) :
    exec (.switchMeasureDone delta) s = execSwitchMeasureDone delta s := rfl

theorem exec_bootromSlotRewrite (s : State) : exec .bootromSlotRewrite s = execBootromSlotRewrite s := rfl

/-- The shadow of SWITCH_CMD as a switch command writes it. -/
def Dev.switchShadow (d : Dev) (sets : List (Field × Nat)) : Dev :=
  d.wrShadow .ref REF.page REF.SWITCH_CMD.MODE.off 0 (d.switchWord sets)

theorem Dev.switchCommand_accepted {d e : Dev} {acc : Accessor} {sets : List (Field × Nat)}
    (hmay : MayWrite d acc REF.page) (he : e = d.switchShadow sets) (hrules : e.refRules.find? (·.1) = none) :
    d.switchCommand acc sets = Dev.refEffect e (e.acceptCommit REF.page) := by
  subst he
  rw [Dev.switchCommand, Dev.asOwner_may _ hmay]
  exact (Dev.commitBy_accepted REF.page Dev.refEffect hrules)

theorem Dev.switchCommand_rejected {d e : Dev} {acc : Accessor} {sets : List (Field × Nat)} {code off : Nat}
    (hmay : MayWrite d acc REF.page) (he : e = d.switchShadow sets)
    (hrules : e.refRules.find? (·.1) = some (true, code, off)) :
    d.switchCommand acc sets = e.rejectCommit REF.page code off := by
  subst he
  rw [Dev.switchCommand, Dev.asOwner_may _ hmay]
  exact (Dev.commitBy_rejected REF.page Dev.refEffect hrules)

/-- The device after a measured switch to the slot `n`, whose offset is `dl`. -/
def Dev.switchMeasured (d : Dev) (n : Nat) (dl : Int) : Dev :=
  let d := if isTimeType (d.slotType n) then ({ d with absOfs := dl * 2 ^ 24, refZero := 0 } : Dev).addSlew (dl * 2 ^ 24)
    else { d with refZero := dl * 1000 / 65536 % (max 1 (d.refPeriod n) : Nat) }
  ((d.set REF.page REF.PHASE_ERR.PS 0).record 0x001 0x0A (dl % (2 ^ 64 : Int)).toNat).switchEnd n

/-- The offset that a switch to the slot `n` measures: the slot's own phase, where it has one. -/
def Dev.switchOffset (d : Dev) (n : Nat) (delta : Int) : Int :=
  match d.slotPhase n with
  | some ps => ps * 65536 / 1000
  | none => delta

theorem exec_switchMeasureDone_switching {s : State} {delta : Int} {n : Nat} (htarget : s.dev.refTarget = some n)
    (hswitching : s.dev.flag REF.page REF.REF_STAT.SWITCHING = true) :
    exec (.switchMeasureDone delta) s = .next { s with
      dev := s.dev.switchMeasured n (s.dev.switchOffset n delta) } := by
  have hon : ¬(!s.dev.flag REF.page REF.REF_STAT.SWITCHING) = true := by simp [hswitching]
  refine onDev_eq (exec_switchMeasureDone delta s) ?_
  split
  case h_1 h => rw [htarget] at h; nomatch h
  case h_2 n' h =>
    obtain rfl : n = n' := Option.some.inj (htarget.symm.trans h)
    exact if_neg hon

/-- Settles O18: a command writes its shadow and commits by the page's rules; a measured switch by the slot's type. -/
theorem switchCommands : Obligations.SwitchCommands := by
  refine ⟨?switchManual, ?switchManualRefused, ?switchForced, ?switchForcedRefused, ?clrWtr, ?clrWtrRefused, ?absClr,
    ?absClrRefused, ?switchMeasuredTime, ?switchMeasuredFrequency, ?bootromSlotRewrite⟩
  case switchManual =>
    intro s acc slot d hmay hd hRefRules
    exact onDev_eq (exec_switchManual acc slot s) (Dev.switchCommand_accepted hmay hd hRefRules)
  case switchManualRefused =>
    intro s acc slot d code off hmay hd hRefRules
    exact onDev_eq (exec_switchManual acc slot s) (Dev.switchCommand_rejected hmay hd hRefRules)
  case switchForced =>
    intro s acc slot d hmay hd hRefRules
    exact onDev_eq (exec_switchForced acc slot s) (Dev.switchCommand_accepted hmay hd hRefRules)
  case switchForcedRefused =>
    intro s acc slot d code off hmay hd hRefRules
    exact onDev_eq (exec_switchForced acc slot s) (Dev.switchCommand_rejected hmay hd hRefRules)
  case clrWtr =>
    intro s acc slot d hmay hd hRefRules
    exact onDev_eq (exec_clrWtr acc slot s) (Dev.switchCommand_accepted hmay hd hRefRules)
  case clrWtrRefused =>
    intro s acc slot d code off hmay hd hRefRules
    exact onDev_eq (exec_clrWtr acc slot s) (Dev.switchCommand_rejected hmay hd hRefRules)
  case absClr =>
    intro s acc d hmay hd hRefRules
    exact onDev_eq (exec_absClr acc s) (Dev.switchCommand_accepted hmay hd hRefRules)
  case absClrRefused =>
    intro s acc d code off hmay hd hRefRules
    exact onDev_eq (exec_absClr acc s) (Dev.switchCommand_rejected hmay hd hRefRules)
  case switchMeasuredTime =>
    intro s delta dl new hRefTarget hSwitching hdl hSlotType
    have hdl' : s.dev.switchOffset new delta = dl := hdl.symm
    rw [exec_switchMeasureDone_switching hRefTarget hSwitching, hdl', Dev.switchMeasured, if_pos hSlotType]
  case switchMeasuredFrequency =>
    intro s delta dl new hRefTarget hSwitching hdl hSlotType
    have hdl' : s.dev.switchOffset new delta = dl := hdl.symm
    rw [exec_switchMeasureDone_switching hRefTarget hSwitching, hdl', Dev.switchMeasured, if_neg (by simp [hSlotType])]
  case bootromSlotRewrite =>
    intro s ports d hBootRomRuns hOwner hports hd
    have hmay : (s.dev.bootRomRuns && (s.dev.owner REF.page == 1 || s.dev.owner REF.page == 3)) = true := by
      simpa [hBootRomRuns] using hOwner
    subst hd hports
    exact onDev_eq (exec_bootromSlotRewrite s) (if_pos hmay)

end Sys2Proof.Machine
end

section
/-!
Outputs (R262 to R264) and synthesizers (R253, R254, R79).
-/
namespace Sys2Proof.Machine

theorem exec_outAlign (acc : Accessor) (outs : BitVec 12) (walk : Bool) (s : State) :
    exec (.outAlign acc outs walk) s = execOutAlign acc outs walk s := rfl

theorem exec_outAlignCancel (acc : Accessor) (outs : BitVec 12) (s : State) :
    exec (.outAlignCancel acc outs) s = execOutAlignCancel acc outs s := rfl

theorem exec_outAlignDone (out : Fin 12) (s : State) : exec (.outAlignDone out) s = execOutAlignDone out s := rfl

theorem exec_synHop (acc : Accessor) (syn : Fin 4) (plan : Fin 8) (s : State) :
    exec (.synHop acc syn plan) s = execSynHop acc syn plan s := rfl

theorem exec_synHopDone (syn : Fin 4) (band : BitVec 6) (tune : BitVec 16) (s : State) :
    exec (.synHopDone syn band tune) s = execSynHopDone syn band tune s := rfl

theorem exec_tuneLimitReached (syn : Fin 4) (tune : BitVec 16) (s : State) :
    exec (.tuneLimitReached syn tune) s = execTuneLimitReached syn tune s := rfl

theorem exec_lsyLockLoss (locked : Bool) (s : State) : exec (.lsyLockLoss locked) s = execLsyLockLoss locked s := rfl

/-! ### The commands, which are COMMITs -/

/-- The shadows of the selected outputs as an OUT command writes them. -/
def Dev.outShadows (d : Dev) (outs : BitVec 12) (sets : List (Field × Nat)) : Dev :=
  (List.range 12).foldl (fun d o =>
    if outs.getLsbD o then sets.foldl (fun d x => d.setSh .out OUT.page x.1 x.2 o) d else d) d

theorem Dev.outCommand_accepted {d e : Dev} {acc : Accessor} {outs : BitVec 12} {sets : List (Field × Nat)}
    (hmay : MayWrite d acc OUT.page) (he : e = d.outShadows outs sets) (hrules : e.outRules.find? (·.1) = none) :
    d.outCommand acc outs sets = Dev.outEffect e (e.acceptCommit OUT.page) := by
  subst he
  rw [Dev.outCommand, Dev.asOwner_may _ hmay]
  exact Dev.commitBy_accepted OUT.page Dev.outEffect hrules

theorem Dev.outCommand_rejected {d e : Dev} {acc : Accessor} {outs : BitVec 12} {sets : List (Field × Nat)}
    {code off : Nat} (hmay : MayWrite d acc OUT.page) (he : e = d.outShadows outs sets)
    (hrules : e.outRules.find? (·.1) = some (true, code, off)) :
    d.outCommand acc outs sets = e.rejectCommit OUT.page code off := by
  subst he
  rw [Dev.outCommand, Dev.asOwner_may _ hmay]
  exact Dev.commitBy_rejected OUT.page Dev.outEffect hrules

/-! ### An alignment that is done -/

theorem toField_zero (wd : Nat) : toField wd 0 = 0 := by simp [toField]

theorem wrapHalf_zero (per : Nat) : wrapHalf per 0 = 0 := by
  unfold wrapHalf
  split
  · rfl
  · rw [zero_add, Int.emod_eq_of_lt (by omega) (by omega), sub_self]

theorem Dev.walkStart_none {d : Dev} {o : Nat} (h : tget (fun _ => none) d.outFrom o = none) : d.walkStart o = none := by
  rw [Dev.walkStart, h]

theorem nsOf_fits (t : Nat) : nsOf t < 2 ^ 30 := by
  have : t % secU < 1000000000 * nsU := Nat.mod_lt _ (by decide)
  have : t % secU / nsU < 1000000000 := Nat.div_lt_of_lt_mul (by omega)
  unfold nsOf
  omega

/-- An output without a pending alignment whose error is set to 0 stands on its grid. -/
theorem Dev.setErr_zero (d : Dev) (o : Nat) (hfrom : tget (fun _ => none) d.outFrom o = none) :
    d.setErr o 0 = ({ d with outErr := tset (fun _ => 0) d.outErr o (0 - d.deficit) } : Dev).set OUT.page OUT.ALIGN_ERR.PS 0 o := by
  generalize he : ({ d with outErr := tset (fun _ => 0) d.outErr o (0 - d.deficit) } : Dev) = e
  have herr : tget (fun _ => 0) e.outErr o + e.deficit = 0 := by
    subst he
    rw [tget_tset_same]
    change (0 : Int) - d.deficit + d.deficit = 0
    omega
  have hwalk : e.walkStart o = none := Dev.walkStart_none (by subst he; exact hfrom)
  have hnow : e.outErrNow o = 0 := by
    rw [Dev.outErrNow, hwalk]
    change e.outErr0 o = 0
    rw [Dev.outErr0, herr, zero_mul, wrapHalf_zero]
  have hps : (0 + ((nsU * (e.outPeriod o).2 : Nat) : Int) / 2) / max 1 ((nsU * (e.outPeriod o).2 : Nat) : Int) = 0 :=
    Int.ediv_eq_zero_of_lt (by omega) (by omega)
  rw [Dev.setErr, he, Dev.showErr, hnow]
  simp only [hps, toField_zero]

/-- The output without its pending alignment. -/
def Dev.alignNoted (d : Dev) (o : Nat) : Dev :=
  let d := { d with outFrom := tset (fun _ => none) d.outFrom o none, outWalk := tset (fun _ => none) d.outWalk o none }
  (d.set OUT.page OUT.OUT_STAT.ALIGN_PENDING 0 o).set OUT.page OUT.OUT_STAT.ALIGNED 1 o

/-- The instant of the alignment published. -/
def Dev.alignShown (d : Dev) (o t : Nat) : Dev :=
  let d := (d.setErr o 0).set OUT.page OUT.ALIGN_SEC.SEC (secOf t) o
  let d := (d.set OUT.page OUT.ALIGN_NS.NS (nsOf t) o).raise OUT.page OUT.INT_RAW.ALIGN_DONE
  d.record (0x00A + o) 0x0D (16 + o)

/-- An alignment whose instant has come. -/
def Dev.aligned (d : Dev) (o t : Nat) : Dev := (d.alignNoted o).alignShown o t

theorem Dev.alignNoted_outFrom (d : Dev) (o : Nat) : tget (fun _ => none) (d.alignNoted o).outFrom o = none := by
  rw [Dev.alignNoted, Dev.set_toClocks, Dev.set_toClocks]
  exact tget_tset_same _ d.outFrom o none

theorem Dev.alignNoted_flags (d : Dev) (o : Nat) :
    (d.alignNoted o).get OUT.page OUT.OUT_STAT.ALIGNED o = 1
      ∧ (d.alignNoted o).get OUT.page OUT.OUT_STAT.ALIGN_PENDING o = 0 := by
  refine ⟨Dev.get_set_fits _ _ _ (by decide) (by decide), ?_⟩
  rw [Dev.alignNoted, Dev.get_set_beside _ _ (by decide)]
  exact Dev.get_set_fits _ _ _ (by decide) (by decide)

/-- What an output shows of the instant of its alignment. -/
theorem Dev.alignShown_get (d : Dev) {o t : Nat} (ho : o < 65536) (hfrom : tget (fun _ => none) d.outFrom o = none)
    {g : Field} (hoff : g.off ≠ 0x10) (hlt : g.off < 4096) :
    (d.alignShown o t).get OUT.page g o = (((d.set OUT.page OUT.ALIGN_ERR.PS 0 o).set OUT.page OUT.ALIGN_SEC.SEC (secOf t) o).set
      OUT.page OUT.ALIGN_NS.NS (nsOf t) o).get OUT.page g o := by
  rw [Dev.alignShown, Dev.setErr_zero _ _ hfrom, Dev.record_get _ _ _ _ _ _ (by decide) hlt ho, Dev.raise_get_sel _ hoff ho]
  rfl

theorem Dev.alignShown_outFrom (d : Dev) (o t : Nat) (hfrom : tget (fun _ => none) d.outFrom o = none) :
    tget (fun _ => none) (d.alignShown o t).outFrom o = none := by
  rw [Dev.alignShown, Dev.setErr_zero _ _ hfrom, Dev.record_toClocks, Dev.raise_toClocks, Dev.set_toClocks,
    Dev.set_toClocks, Dev.set_toClocks]
  exact hfrom

theorem exec_outAlignDone_due {out : Fin 12} {s : State} {t : Nat} (hat : s.dev.alignAt out = some t)
    (hdue : t ≤ s.dev.now) : exec (.outAlignDone out) s = .next { s with dev := s.dev.aligned out t } := by
  refine onDev_eq (exec_outAlignDone out s) ?_
  split
  case h_1 h => rw [hat] at h; nomatch h
  case h_2 t' h =>
    obtain rfl : t = t' := Option.some.inj (hat.symm.trans h)
    exact if_neg (by omega)

theorem Dev.aligned_effect (d : Dev) {o : Nat} (ho : o < 65536) (t : Nat) (e : Dev) (he : e = d.aligned o t) :
    e.get OUT.page OUT.ALIGN_SEC.SEC o = secOf t % 2 ^ 32 ∧ e.get OUT.page OUT.ALIGN_NS.NS o = nsOf t
      ∧ e.get OUT.page OUT.OUT_STAT.ALIGNED o = 1 ∧ e.get OUT.page OUT.OUT_STAT.ALIGN_PENDING o = 0
      ∧ e.get OUT.page OUT.ALIGN_ERR.PS o = 0 ∧ tget (fun _ => none) e.outFrom o = none := by
  subst he
  have hfrom := d.alignNoted_outFrom o
  obtain ⟨hdone, hpending⟩ := d.alignNoted_flags o
  have hsec : OUT.ALIGN_SEC.SEC.wd = 32 := rfl
  have hread {g : Field} (hoff : g.off ≠ 0x10) (hlt : g.off < 4096) :=
    (d.alignNoted o).alignShown_get (t := t) ho hfrom hoff hlt
  refine ⟨?_, ?_, ?_, ?_, ?_, Dev.alignShown_outFrom _ _ _ hfrom⟩ <;> rw [Dev.aligned, hread (by decide) (by decide)]
  · rw [Dev.get_set_beside _ _ (by decide), Dev.get_set_same _ _ _ _ (by decide), hsec]
  · exact Dev.get_set_fits _ _ _ (by decide) (nsOf_fits t)
  all_goals rw [Dev.get_set_beside _ _ (by decide), Dev.get_set_beside _ _ (by decide)]
  · rw [Dev.get_set_beside _ _ (by decide), hdone]
  · rw [Dev.get_set_beside _ _ (by decide), hpending]
  · exact Dev.get_set_fits _ _ _ (by decide) (by decide)

/-! ### Synthesizers -/

theorem exec_synHop_accepted {s : State} {acc : Accessor} {syn : Fin 4} {plan : Fin 8} {d : Dev}
    (hmay : MayWrite s.dev acc SYN.page) (hd : d = s.dev.setSh .syn SYN.page SYN.SYN_CFG.ACTIVE plan syn)
    (hrules : d.synRules.find? (·.1) = none) :
    exec (.synHop acc syn plan) s = .next { s with dev := Dev.synEffect d (d.acceptCommit SYN.page) } := by
  subst hd
  rw [exec_synHop, execSynHop, onDev_next, Dev.asOwner_may _ hmay, Dev.commitSyn, Dev.commitBy_accepted _ _ hrules]

theorem exec_synHop_rejected {s : State} {acc : Accessor} {syn : Fin 4} {plan : Fin 8} {d : Dev} {code off : Nat}
    (hmay : MayWrite s.dev acc SYN.page) (hd : d = s.dev.setSh .syn SYN.page SYN.SYN_CFG.ACTIVE plan syn)
    (hrules : d.synRules.find? (·.1) = some (true, code, off)) :
    exec (.synHop acc syn plan) s = .next { s with dev := d.rejectCommit SYN.page code off } := by
  subst hd
  rw [exec_synHop, execSynHop, onDev_next, Dev.asOwner_may _ hmay, Dev.commitSyn, Dev.commitBy_rejected _ _ hrules]

/-- Settles O19: the commands are COMMITs by their pages' rules; the events act by the flags they find. -/
theorem synthesizersAndOutputs : Obligations.SynthesizersAndOutputs := by
  refine ⟨?outAlign, ?outAlignRefused, ?outAlignCancel, ?outAlignCancelRefused, ?outAlignDone, ?synHop,
    ?synHopRefused, ?synSearch, ?synSearchOff, ?synForget, ?synHopDone, ?tuneAtLimit, ?tuneBackInRange,
    ?tuneUnchanged, ?lsyLockUnchanged, ?lsyLocks, ?lsyUnlocks⟩
  case outAlign =>
    intro s acc outs walk d hmay hd hOutRules
    exact onDev_eq (exec_outAlign acc outs walk s) (Dev.outCommand_accepted hmay hd hOutRules)
  case outAlignRefused =>
    intro s acc outs walk d code off hmay hd hOutRules
    exact onDev_eq (exec_outAlign acc outs walk s) (Dev.outCommand_rejected hmay hd hOutRules)
  case outAlignCancel =>
    intro s acc outs d hmay hd hOutRules
    exact onDev_eq (exec_outAlignCancel acc outs s) (Dev.outCommand_accepted hmay hd hOutRules)
  case outAlignCancelRefused =>
    intro s acc outs d code off hmay hd hOutRules
    exact onDev_eq (exec_outAlignCancel acc outs s) (Dev.outCommand_rejected hmay hd hOutRules)
  case outAlignDone =>
    intro s out t hAlignAt hNow
    exact does_of_exec (exec_outAlignDone_due hAlignAt hNow) (s.dev.aligned_effect (by omega) t _ rfl)
  case synHop =>
    intro s acc syn plan d hmay hd hSynRules
    exact exec_synHop_accepted hmay hd hSynRules
  case synHopRefused =>
    intro s acc syn plan d code off hmay hd hSynRules
    exact exec_synHop_rejected hmay hd hSynRules
  case synSearch =>
    intro s acc k hmay hk hSynOn
    subst hk
    exact exec_of_asOwner rfl hmay (if_pos hSynOn)
  case synSearchOff =>
    intro s acc hmay hSyn
    exact exec_of_asOwner rfl hmay (if_neg (by simp [hSyn]))
  case synForget =>
    intro s acc k plan hmay hk hplan
    subst hk hplan
    exact exec_of_asOwner rfl hmay rfl
  case synHopDone =>
    intro s syn band tune plan searched d e hHopping hplan hsearched hd he
    subst he hd hsearched hplan
    exact onDev_eq (exec_synHopDone syn band tune s) (if_pos hHopping)
  case tuneAtLimit =>
    intro s syn tune d hSynOn hHopping htune hTuneLimit hd
    have hruns : (s.dev.synOn syn && !s.dev.flag SYN.page SYN.SYN_STAT.HOPPING syn) = true := by simp [hSynOn, hHopping]
    have hend : ((tune == 0x7FFF || tune == 0x8000) && !s.dev.flag SYN.page SYN.SYN_STAT.TUNE_LIMIT syn) = true := by
      simpa [hTuneLimit] using htune
    subst hd
    exact onDev_eq (exec_tuneLimitReached syn tune s) ((if_pos hruns).trans (if_pos hend))
  case tuneBackInRange =>
    intro s syn tune hSynOn hHopping hTune hTune2 hTuneLimit
    have hruns : (s.dev.synOn syn && !s.dev.flag SYN.page SYN.SYN_STAT.HOPPING syn) = true := by simp [hSynOn, hHopping]
    have hin : (tune == 0x7FFF || tune == 0x8000) = false := by
      rw [beq_false_of_ne hTune, beq_false_of_ne hTune2, Bool.or_false]
    have hend : ¬((tune == 0x7FFF || tune == 0x8000) && !s.dev.flag SYN.page SYN.SYN_STAT.TUNE_LIMIT syn) = true := by
      simp [hTuneLimit]
    have hback : (!(tune == 0x7FFF || tune == 0x8000) && s.dev.flag SYN.page SYN.SYN_STAT.TUNE_LIMIT syn) = true := by
      rw [hin, hTuneLimit, Bool.not_false, Bool.and_self]
    exact onDev_eq (exec_tuneLimitReached syn tune s) ((if_pos hruns).trans ((if_neg hend).trans (if_pos hback)))
  case tuneUnchanged =>
    intro s syn tune hSynOn hHopping hTuneLimit
    have hruns : (s.dev.synOn syn && !s.dev.flag SYN.page SYN.SYN_STAT.HOPPING syn) = true := by simp [hSynOn, hHopping]
    have hsame : (tune == 0x7FFF || tune == 0x8000) = s.dev.flag SYN.page SYN.SYN_STAT.TUNE_LIMIT syn := by
      rw [Bool.eq_iff_iff, Bool.or_eq_true, beq_iff_eq, beq_iff_eq]
      exact hTuneLimit
    have hend : ¬((tune == 0x7FFF || tune == 0x8000) && !s.dev.flag SYN.page SYN.SYN_STAT.TUNE_LIMIT syn) = true := by
      rw [hsame, Bool.and_not_self]
      exact Bool.false_ne_true
    have hback : ¬(!(tune == 0x7FFF || tune == 0x8000) && s.dev.flag SYN.page SYN.SYN_STAT.TUNE_LIMIT syn) = true := by
      rw [hsame, Bool.not_and_self]
      exact Bool.false_ne_true
    exact onDev_eq (exec_tuneLimitReached syn tune s) ((if_pos hruns).trans ((if_neg hend).trans (if_neg hback)))
  case lsyLockUnchanged =>
    intro s locked hLock
    exact onDev_eq (exec_lsyLockLoss locked s) (if_pos (by simp [hLock]))
  case lsyLocks =>
    intro s hLock
    exact onDev_eq (exec_lsyLockLoss true s) ((if_neg (by simp [hLock])).trans (if_pos rfl))
  case lsyUnlocks =>
    intro s d hLock hd
    subst hd
    exact onDev_eq (exec_lsyLockLoss false s) ((if_neg (by simp [hLock])).trans (if_neg (by decide)))

end Sys2Proof.Machine
end

section
/-!
Event inputs (R268 to R272) and their measurements (R274 to R278).
-/
namespace Sys2Proof.Machine

theorem exec_evtEdge (evt : Fin 8) (rising : Bool) (sub temp : BitVec 16) (s : State) :
    exec (.evtEdge evt rising sub temp) s = execEvtEdge evt rising sub temp s := rfl

theorem exec_evtBlankEnd (evt : Fin 8) (s : State) : exec (.evtBlankEnd evt) s = execEvtBlankEnd evt s := rfl

theorem exec_measStart (acc : Accessor) (evt : Fin 8) (timed : Bool) (gateMs : BitVec 20) (sec : BitVec 32) (ns : BitVec 30) (s : State) :
    exec (.measStart acc evt timed gateMs sec ns) s = execMeasStart acc evt timed gateMs sec ns s := rfl

theorem exec_measAbort (acc : Accessor) (evt : Fin 8) (s : State) :
    exec (.measAbort acc evt) s = execMeasAbort acc evt s := rfl

theorem exec_measGateOpen (evt : Fin 8) (s : State) : exec (.measGateOpen evt) s = execMeasGateOpen evt s := rfl

theorem exec_measGateClose (evt : Fin 8) (s : State) : exec (.measGateClose evt) s = execMeasGateClose evt s := rfl

theorem exec_measResultReady (evt : Fin 8) (s : State) :
    exec (.measResultReady evt) s = execMeasResultReady evt s := rfl

theorem exec_interpCalSwap (evt : Fin 8) (ok : Bool) (s : State) :
    exec (.interpCalSwap evt ok) s = execInterpCalSwap evt ok s := rfl

/-! ### Edges -/

/-- The edges that an input's SLOPE takes. -/
def Dev.takesEdge (d : Dev) (e : Nat) (rising : Bool) : Bool :=
  d.get EVT.page EVT.EVT_CFG.SLOPE e == 2 || (d.get EVT.page EVT.EVT_CFG.SLOPE e == 0 && rising)
    || (d.get EVT.page EVT.EVT_CFG.SLOPE e == 1 && !rising)

/-- An input that takes no edges of this direction now. -/
def Dev.ignoresEdge (d : Dev) (e : Nat) (rising : Bool) : Bool :=
  !d.pageUp EVT.page || !d.flag EVT.page EVT.EVT_CFG.ENABLE e || (d.evtIn e).blanked d.now || !d.takesEdge e rising

theorem Dev.takesEdge_of_slope {d : Dev} {e : Nat} {rising : Bool}
    (h : d.get EVT.page EVT.EVT_CFG.SLOPE e = 2 ∨ d.get EVT.page EVT.EVT_CFG.SLOPE e = (if rising then 0 else 1)) :
    d.takesEdge e rising = true := by
  unfold Dev.takesEdge
  generalize d.get EVT.page EVT.EVT_CFG.SLOPE e = slope at h
  cases rising <;> rcases h with h | h <;> simp [h]

theorem Dev.not_takesEdge_of_slope {d : Dev} {e : Nat} {rising : Bool}
    (h : d.get EVT.page EVT.EVT_CFG.SLOPE e = (if rising then 1 else 0)) : d.takesEdge e rising = false := by
  unfold Dev.takesEdge
  generalize d.get EVT.page EVT.EVT_CFG.SLOPE e = slope at h
  cases rising <;> simp [h]

theorem Dev.not_ignoresEdge {d : Dev} {e : Nat} {rising : Bool} (hup : d.pageUp EVT.page = true)
    (hen : d.flag EVT.page EVT.EVT_CFG.ENABLE e = true) (hb : (d.evtIn e).blanked d.now = false)
    (hs : d.get EVT.page EVT.EVT_CFG.SLOPE e = 2 ∨ d.get EVT.page EVT.EVT_CFG.SLOPE e = (if rising then 0 else 1)) :
    ¬d.ignoresEdge e rising = true := by
  simp [Dev.ignoresEdge, hup, hen, hb, Dev.takesEdge_of_slope hs]

/-- The end of blanking touches the input's record alone. -/
theorem Dev.blankEnded_effect (d : Dev) (e : Nat) (f : Dev)
    (hf : f = d.setEvtIn e { d.evtIn e with blankTo := none }) :
    (f.evtIn e).blankTo = none ∧ f.regs = d.regs ∧ Quiet { d with evts := f.evts } f := by
  subst hf
  refine ⟨?_, rfl, ?_⟩
  · rw [Dev.evtIn, Dev.setEvtIn, tget_tset_same]
  · unfold Quiet Dev.setEvtIn
    exact ⟨rfl, rfl, rfl, rfl, rfl, rfl, rfl, rfl, rfl, rfl, rfl, rfl, rfl, rfl, rfl⟩

/-- Settles O20: an edge is ignored, skipped by the prescaler, too soon, or stamped. -/
theorem eventEdges : Obligations.EventEdges := by
  refine ⟨?edgeIgnored, ?edgeSkipped, ?edgeMissed, ?edgeStamped, ?evtFifoPop, ?evtFifoClear, ?blankEnds, ?blankStands⟩
  case edgeIgnored =>
    intro s evt rising sub temp hEnable
    refine onDev_eq (exec_evtEdge evt rising sub temp s) (if_pos ?_)
    change s.dev.ignoresEdge evt rising = true
    rcases hEnable with h | h | h | h
    · simp [Dev.ignoresEdge, h]
    · simp [Dev.ignoresEdge, h]
    · simp [Dev.ignoresEdge, h]
    · simp [Dev.ignoresEdge, Dev.not_takesEdge_of_slope h]
  case edgeSkipped =>
    intro s evt rising sub temp d hPageUp hEnable hEvtIn hSlope hd hN
    subst hd
    exact onDev_eq (exec_evtEdge evt rising sub temp s)
      ((if_neg (Dev.not_ignoresEdge hPageUp hEnable hEvtIn hSlope)).trans (if_pos hN))
  case edgeMissed =>
    intro s evt rising sub temp d at_ t hPageUp hEnable hEvtIn hSlope hd hN hat_ hEvtIn2 hAt_
    subst hat_ hd
    refine onDev_eq (exec_evtEdge evt rising sub temp s)
      ((if_neg (Dev.not_ignoresEdge hPageUp hEnable hEvtIn hSlope)).trans ((if_neg (not_not.mpr hN)).trans (if_pos ?_)))
    rw [hEvtIn2]
    exact decide_eq_true hAt_
  case edgeStamped =>
    intro s evt rising sub temp d e at_ t hPageUp hEnable hEvtIn hSlope hd hN hat_ hEvtIn2 ht he
    subst he ht hat_ hd
    refine onDev_eq (exec_evtEdge evt rising sub temp s)
      ((if_neg (Dev.not_ignoresEdge hPageUp hEnable hEvtIn hSlope)).trans ((if_neg (not_not.mpr hN)).trans (if_neg ?_)))
    cases hlast : (s.dev.evtIn evt).lastStamped with
    | none => exact Bool.false_ne_true
    | some u => exact fun h => absurd (of_decide_eq_true h) (not_le.mpr (hEvtIn2 u hlast))
  case evtFifoPop =>
    intro s acc e hmay he
    subst he
    exact exec_of_asOwner rfl hmay rfl
  case evtFifoClear =>
    intro s acc e hmay he
    subst he
    exact exec_of_asOwner rfl hmay rfl
  case blankEnds =>
    intro s evt hEvtIn
    exact does_of_exec (onDev_eq (exec_evtBlankEnd evt s) (if_pos (by rw [hEvtIn]; rfl))) (s.dev.blankEnded_effect evt _ rfl)
  case blankStands =>
    intro s evt hEvtIn
    exact onDev_eq rfl (by simp [hEvtIn])

/-! ### Measurements -/

/-- The shadows of an input as a measurement's command writes them. -/
def Dev.evtShadows (d : Dev) (e : Nat) (sets : List (Field × Nat)) : Dev :=
  sets.foldl (fun d x => d.setSh .evt EVT.page x.1 x.2 e) d

theorem Dev.evtCommand_accepted {d f : Dev} {acc : Accessor} {e : Nat} {sets : List (Field × Nat)}
    (hmay : MayWrite d acc EVT.page) (hf : f = d.evtShadows e sets) (hrules : f.evtRules.find? (·.1) = none) :
    d.evtCommand acc e sets = Dev.evtEffect f (f.acceptCommit EVT.page) := by
  subst hf
  rw [Dev.evtCommand, Dev.asOwner_may _ hmay]
  exact Dev.commitBy_accepted EVT.page Dev.evtEffect hrules

theorem Dev.evtCommand_rejected {d f : Dev} {acc : Accessor} {e : Nat} {sets : List (Field × Nat)} {code off : Nat}
    (hmay : MayWrite d acc EVT.page) (hf : f = d.evtShadows e sets)
    (hrules : f.evtRules.find? (·.1) = some (true, code, off)) :
    d.evtCommand acc e sets = f.rejectCommit EVT.page code off := by
  subst hf
  rw [Dev.evtCommand, Dev.asOwner_may _ hmay]
  exact Dev.commitBy_rejected EVT.page Dev.evtEffect hrules

/-- What a result is published from. -/
def Dev.resultOf (d : Dev) (m : Meas) : (Nat × Nat × Nat) × Dev :=
  match m.fit with
  | some x => (x, d)
  | none => ((d.free.1, d.free.2.free.1, d.free.2.free.2.free.1), d.free.2.free.2.free.2)

/-- A result published. -/
def Dev.publishResult (r : (Nat × Nat × Nat) × Dev) (e : Nat) : Dev :=
  ((((r.2.set EVT.page EVT.FREQ_INT.HZ (r.1.1 / 2 ^ 32) e).set EVT.page EVT.FREQ_FRAC.FRAC r.1.1 e).set
    EVT.page EVT.RES_RMS.FS r.1.2.1 e).set EVT.page EVT.RES_UNC.E18 r.1.2.2 e).measEnd e 1 true

theorem exec_measResultReady_fit {s : State} {evt : Fin 8} {m : Meas} (hmeas : (s.dev.evtIn evt).meas = some m)
    (hclosed : m.closed = true) (hn : 3 ≤ m.n) :
    exec (.measResultReady evt) s = .next { s with
      dev := Dev.publishResult ((s.dev.set EVT.page EVT.MEAS_N.N m.n evt).resultOf m) evt } := by
  refine onDev_eq (exec_measResultReady evt s) ?_
  simp only [hmeas]
  exact (if_neg (by simp [hclosed])).trans (if_neg (by omega))

/-- Settles O21: the commands are COMMITs by the page's rules; a gate and its result by the measurement's record. -/
theorem measurements : Obligations.Measurements := by
  refine ⟨?startTimed, ?startTimedRefused, ?start, ?startRefused, ?abort, ?abortRefused, ?measGateOpen,
    ?measGateClose, ?tooFew, ?fitPublished, ?noFit, ?interpCalSwap, ?interpRecal⟩
  case startTimed =>
    intro s acc evt gateMs sec ns d hmay hd hEvtRules
    exact onDev_eq (exec_measStart acc evt true gateMs sec ns s) (Dev.evtCommand_accepted hmay hd hEvtRules)
  case startTimedRefused =>
    intro s acc evt gateMs sec ns d code off hmay hd hEvtRules
    exact onDev_eq (exec_measStart acc evt true gateMs sec ns s) (Dev.evtCommand_rejected hmay hd hEvtRules)
  case start =>
    intro s acc evt gateMs sec ns d hmay hd hEvtRules
    exact onDev_eq (exec_measStart acc evt false gateMs sec ns s) (Dev.evtCommand_accepted hmay hd hEvtRules)
  case startRefused =>
    intro s acc evt gateMs sec ns d code off hmay hd hEvtRules
    exact onDev_eq (exec_measStart acc evt false gateMs sec ns s) (Dev.evtCommand_rejected hmay hd hEvtRules)
  case abort =>
    intro s acc evt d hmay hd hEvtRules
    exact onDev_eq (exec_measAbort acc evt s) (Dev.evtCommand_accepted hmay hd hEvtRules)
  case abortRefused =>
    intro s acc evt d code off hmay hd hEvtRules
    exact onDev_eq (exec_measAbort acc evt s) (Dev.evtCommand_rejected hmay hd hEvtRules)
  case measGateOpen =>
    intro s evt m hEvtIn hx hNow
    refine onDev_eq (exec_measGateOpen evt s) ?_
    rw [Dev.gateDue, hEvtIn]
    exact if_pos (by simp [hx, hNow])
  case measGateClose =>
    intro s evt m hEvtIn hx hx2 hNow
    refine onDev_eq (exec_measGateClose evt s) ?_
    simp only [hEvtIn]
    exact if_pos (by simp [hx, hx2, hNow])
  case tooFew =>
    intro s evt m hEvtIn hx hx2
    refine onDev_eq (exec_measResultReady evt s) ?_
    simp only [hEvtIn]
    exact (if_neg (by simp [hx])).trans (if_pos hx2)
  case fitPublished =>
    intro s evt m freq rms unc d hEvtIn hx hx2 hx3 hd
    subst hd
    rw [exec_measResultReady_fit hEvtIn hx hx2, Dev.resultOf, hx3]
    rfl
  case noFit =>
    intro s evt m d hEvtIn hx hx2 hx3 hd
    subst hd
    rw [exec_measResultReady_fit hEvtIn hx hx2, Dev.resultOf, hx3]
    rfl
  case interpCalSwap =>
    intro s evt ok hPageUp
    exact onDev_eq (exec_interpCalSwap evt ok s) (if_pos hPageUp)
  case interpRecal =>
    intro s acc ok hmay
    exact exec_of_asOwner rfl hmay rfl

end Sys2Proof.Machine
end

section
/-!
Frames received: how a frame begins and ends at a port, at a loop-back and on the management lane (R60 to R97).
-/
namespace Sys2Proof.Machine

theorem exec_rxFrameStart (port : Fin 49) (pre : Bool) (bytes : List (BitVec 8)) (whole : Option RxEnd) (edge : RxEdge) (errs : WordErrors) (s : State) :
    exec (.rxFrameStart port pre bytes whole edge errs) s = execRxFrameStart port pre bytes whole edge errs s := rfl

theorem exec_rxFrameEnd (port : Fin 49) (pre : Bool) (more : List (BitVec 8)) (ending : RxEnd) (errs : WordErrors) (s : State) :
    exec (.rxFrameEnd port pre more ending errs) s = execRxFrameEnd port pre more ending errs s := rfl

theorem exec_maxSduExceeded (input : Fin 50) (pre : Bool) (more : List (BitVec 8)) (s : State) :
    exec (.maxSduExceeded input pre more) s = execMaxSduExceeded input pre more s := rfl

theorem exec_lenHintOverrun (input : Fin 50) (pre : Bool) (more : List (BitVec 8)) (s : State) :
    exec (.lenHintOverrun input pre more) s = execLenHintOverrun input pre more s := rfl

/-- The device when an event message may begin with the frame. -/
def Dev.eventNoted (d : Dev) (port : Nat) (bytes : List (BitVec 8)) (whole : Bool) (edge : RxEdge) : Dev :=
  d.when ((parseFrame (d.profileOf port) bytes whole).ptp != 0
    && decide ((parseFrame (d.profileOf port) bytes whole).ptpType ≤ 3)) (fun d => d.eventBegins port (d.edgeTick edge))

theorem Dev.eventNoted_eq (d : Dev) (port : Nat) (bytes : List (BitVec 8)) (whole : Bool) (edge : RxEdge) :
    d.eventNoted port bytes whole edge
      = if (parseFrame (d.profileOf port) bytes whole).ptp ≠ 0 ∧ (parseFrame (d.profileOf port) bytes whole).ptpType ≤ 3
        then d.eventBegins port (d.edgeTick edge) else d := by
  unfold Dev.eventNoted Dev.when
  simp only [Bool.and_eq_true, bne_iff_ne, decide_eq_true_eq]

/-- The frame that begins, in a device whose port loops nothing back: checked as a whole if it is short. -/
def Dev.frameBegins (d : Dev) (mode port : Nat) (pre : Bool) (bytes : List (BitVec 8)) (whole : Option RxEnd) (edge : RxEdge)
    (errs : WordErrors) : Dev :=
  let st := d.portStamp port edge
  let d := d.rxCut port pre
  let start (d : Dev) (w : Bool) : Dev :=
    if mode = 5 then d.setRx (rxKey port pre) (some (rx0 bytes.length st.time))
    else d.lineStart port (rxKey port pre) bytes w st errs
  match whole with
  | none => start d false
  | some e =>
    let d := d.countRx port (bytes.length + 4) pre e st.time
    if d.macOk port (bytes.length + 4) e then (start d true).rxFinish port (rxKey port pre) .good true else d

theorem exec_rxFrameStart_port {s : State} {port : Fin 49} {pre : Bool} {bytes : List (BitVec 8)} {whole : Option RxEnd}
    {edge : RxEdge} {errs : WordErrors} {d : Dev} (h48 : port ≠ 48)
    (hd : s.dev.portFrameStart port pre bytes whole edge errs = d) :
    exec (.rxFrameStart port pre bytes whole edge errs) s = .next { s with dev := d } :=
  onDev_eq (exec_rxFrameStart port pre bytes whole edge errs s) ((if_neg h48).trans hd)

section
variable {d : Dev} {port : Nat} {pre : Bool} {bytes : List (BitVec 8)} {whole : Option RxEnd} {edge : RxEdge}
  {errs : WordErrors}

theorem Dev.portFrameStart_taken (hmac : d.macOn port = true) (hfelt : d.released unitFelt = true)
    (hmode : d.loopMode port = 0 ∨ d.loopMode port = 5) :
    d.portFrameStart port pre bytes whole edge errs =
      (d.eventNoted port bytes whole.isSome edge).frameBegins (d.loopMode port) port pre bytes whole edge errs := by
  have hon : (d.macOn port && d.released unitFelt) = true := by rw [hmac, hfelt]; rfl
  rw [Dev.portFrameStart, Dev.when_pos _ _ hon, if_neg (by omega), if_neg (by omega)]
  rfl

theorem Dev.portFrameStart_ignored (hmac : d.macOn port = true) (hfelt : d.released unitFelt = true)
    (h0 : d.loopMode port ≠ 0) (h5 : d.loopMode port < 5) : d.portFrameStart port pre bytes whole edge errs = d := by
  have hon : (d.macOn port && d.released unitFelt) = true := by rw [hmac, hfelt]; rfl
  rw [Dev.portFrameStart, Dev.when_pos _ _ hon, if_neg (by omega), if_pos (by omega)]

theorem Dev.portFrameStart_returned (hmac : d.macOn port = true) (hfelt : d.released unitFelt = true)
    (h6 : 6 ≤ d.loopMode port) : d.portFrameStart port pre bytes whole edge errs = d.lineLoop port bytes := by
  have hon : (d.macOn port && d.released unitFelt) = true := by rw [hmac, hfelt]; rfl
  rw [Dev.portFrameStart, Dev.when_pos _ _ hon, if_pos h6]

end

/-- The management lane takes a frame while it may receive and loops nothing back. -/
theorem exec_rxFrameStart_management {s : State} {pre : Bool} {bytes : List (BitVec 8)} {whole : Option RxEnd}
    {edge : RxEdge} {errs : WordErrors} (hmac : s.dev.macOn 50 = true)
    (hmode : s.dev.get (LNK.page 50) LNK.LOOP_CFG.MODE = 0) :
    exec (.rxFrameStart 48 pre bytes whole edge errs) s = .next { s with
      dev := s.dev.mlArrive bytes whole (s.dev.portStamp 50 edge) } :=
  onDev_eq (exec_rxFrameStart 48 pre bytes whole edge errs s)
    ((if_pos rfl).trans (Dev.when_pos _ _ (by rw [hmac, hmode]; rfl)))

/-- A port's frame that ends, of whose reception the device knows. -/
theorem exec_rxFrameEnd_port {s : State} {port : Fin 49} {pre : Bool} {more : List (BitVec 8)} {ending : RxEnd}
    {errs : WordErrors} {d : Dev} {r : Rx} (h48 : port ≠ 48)
    (hloop : ¬(s.dev.macOn port && decide (6 ≤ s.dev.loopMode port)) = true)
    (hd : d = s.dev.arrive (rxKey port pre) more) (hrx : d.rx (rxKey port pre) = some r) :
    exec (.rxFrameEnd port pre more ending errs) s = .next { s with dev :=
      (if d.macOn port then
        ((d.countRx port (r.bytes + 4) pre ending r.stamp).wordErrors errs).rxFinish port (rxKey port pre) ending.status
          (d.macOk port (r.bytes + 4) ending && !errs.bad)
      else d.rxCut port pre) } := by
  subst hd
  refine onDev_eq (exec_rxFrameEnd port pre more ending errs s) ((if_neg h48).trans ((if_neg hloop).trans ?_))
  simp only [hrx]

/-- A frame of the management lane that ends. -/
theorem exec_rxFrameEnd_management {s : State} {pre : Bool} {more : List (BitVec 8)} {ending : RxEnd} {errs : WordErrors}
    {d : Dev} {r : Rx} (hd : d = s.dev.setRx (rxKey 50 false) none) (hrx : s.dev.rx (rxKey 50 false) = some r)
    (hmac : d.macOn 50 = true) :
    exec (.rxFrameEnd 48 pre more ending errs) s = .next { s with dev :=
      ((d.countRx 50 (r.bytes + more.length + fcsBytes ending.status) false ending r.stamp).emit
        (.reply "ml end" ((if ending.status = .good then 1 else 0) :: more.map BitVec.toNat))) } := by
  subst hd
  refine onDev_eq (exec_rxFrameEnd 48 pre more ending errs s) ((if_pos rfl).trans ?_)
  rw [Dev.mlFrameEnd, hrx]
  simp only [hmac, if_true, beq_iff_eq]

/-- Settles O22: by the kind of input: a port by its loop-back, the management lane, and a frame that grows too long. -/
theorem framesReceived : Obligations.FramesReceived := by
  refine ⟨?begins, ?beginsWhole, ?beginsIgnored, ?lineShut, ?lineReturned, ?managementBegins, ?managementWhole,
    ?ends, ?endsCut, ?managementEnds, ?maxSduExceeded, ?lenHintOverrun⟩
  case begins =>
    intro s port pre bytes edge errs k d hk hPort hMacOn hReleased hLoopMode hd
    subst hd hk
    rw [← Dev.eventNoted_eq]
    refine exec_rxFrameStart_port hPort ((Dev.portFrameStart_taken hMacOn hReleased (.inl hLoopMode)).trans ?_)
    rw [hLoopMode]
    rfl
  case beginsWhole =>
    intro s port pre bytes e edge errs k d hk hPort hMacOn hReleased hLoopMode hd
    subst hd hk
    rw [← Dev.eventNoted_eq]
    refine exec_rxFrameStart_port hPort ((Dev.portFrameStart_taken hMacOn hReleased (.inl hLoopMode)).trans ?_)
    rw [hLoopMode]
    rfl
  case beginsIgnored =>
    intro s port pre bytes edge errs k d hk hPort hMacOn hReleased hLoopMode hd
    subst hd hk
    rw [← Dev.eventNoted_eq]
    refine exec_rxFrameStart_port hPort ((Dev.portFrameStart_taken hMacOn hReleased (.inr hLoopMode)).trans ?_)
    rw [hLoopMode]
    rfl
  case lineShut =>
    intro s port pre bytes whole edge errs hPort hMacOn hReleased hLoopMode hLoopMode2
    exact exec_rxFrameStart_port hPort (Dev.portFrameStart_ignored hMacOn hReleased hLoopMode hLoopMode2)
  case lineReturned =>
    intro s port pre bytes whole edge errs hPort hMacOn hReleased hLoopMode
    exact exec_rxFrameStart_port hPort (Dev.portFrameStart_returned hMacOn hReleased hLoopMode)
  case managementBegins =>
    intro s pre bytes edge errs hMacOn hMode
    exact exec_rxFrameStart_management hMacOn hMode
  case managementWhole =>
    intro s pre bytes e edge errs hMacOn hMode
    exact exec_rxFrameStart_management hMacOn hMode
  case ends =>
    intro s port pre more ending errs k d r hk hPort hMacOn hLoopMode hd hRx hMacOn2
    subst hk
    rw [exec_rxFrameEnd_port hPort (by simpa [hMacOn] using hLoopMode) hd hRx, if_pos hMacOn2]
  case endsCut =>
    intro s port pre more ending errs k d r hk hPort hMacOn hd hRx hMacOn2
    subst hk
    rw [exec_rxFrameEnd_port hPort (by simp [hMacOn]) hd hRx, if_neg (by simp [hMacOn2])]
  case managementEnds =>
    intro s pre more ending errs d r hd hRx hMacOn
    exact exec_rxFrameEnd_management hd hRx hMacOn
  case maxSduExceeded =>
    intro s input pre more k d hk hd hTooLong
    subst hd hk
    exact onDev_eq (exec_maxSduExceeded input pre more s) (if_pos hTooLong)
  case lenHintOverrun =>
    intro s input pre more k d hk hd hTooLong
    subst hd hk
    exact onDev_eq (exec_lenHintOverrun input pre more s) (if_pos hTooLong)

end Sys2Proof.Machine
end

section
/-!
Learning and ageing of the forwarding database, commits and epochs that wait (R101 to R117, R431).
-/
namespace Sys2Proof.Machine

theorem exec_learnWrite (s : State) : exec .learnWrite s = execLearnWrite s := rfl

theorem exec_ageingSweep (s : State) : exec .ageingSweep s = execAgeingSweep s := rfl

theorem exec_pendingCommitApply (s : State) : exec .pendingCommitApply s = execPendingCommitApply s := rfl

theorem exec_epochAged (epoch : Fin 16) (s : State) : exec (.epochAged epoch) s = execEpochAged epoch s := rfl

theorem exec_rerollEmptyCommit (s : State) : exec .rerollEmptyCommit s = execRerollEmptyCommit s := rfl

/-- A learn request for an address that stands in the way `i` (R101, R102). -/
def Dev.relearned (d : Dev) (q : LearnReq) (i : Nat) : Dev :=
  if d.reserved .fdb i then d else
  let w := d.lookupWord .fdb i
  if !bitOf w 60 && bitsOf w 59 48 == q.ep then d.setEntry .fdb i (putBits w 61 61 1)
  else if bitOf w 62 then (d.count 0x668).raise LKP.page LKP.INT_RAW.STATIC_MOVE
  else (d.setEntry .fdb i (putBits (putBits (putBits w 59 48 q.ep) 60 60 0) 61 61 1)).count 0x667

/-- A learn request for an address that stands nowhere: `b` its bucket, `r` the rest of its key (R103). -/
def Dev.newlyLearned (d : Dev) (q : LearnReq) (b r : Nat) : Dev :=
  match d.fdbWay b with
  | some i => ((d.setEntry .fdb i (learnWord q.ep r)).count 0x664).refreshFdb
  | none => (d.count 0x665).raise LKP.page LKP.INT_RAW.LEARN_FULL

section
variable {s : State} {q : LearnReq} {rest : List LearnReq} {d e : Dev} {i : Nat}
  (hq : s.dev.learnQ = q :: rest) (hd : d = ({ s.dev with learnQ := rest } : Dev).drawFdbKey)
  (he : e = d.reads .fdb (d.fdbWays q.fid q.mac))
include hq hd he

theorem exec_learnWrite_found (hfind : e.fdbFind q.fid q.mac = some i) :
    exec .learnWrite s = .next { s with dev := e.relearned q i } := by
  subst he hd
  refine onDev_eq (exec_learnWrite s) ?_
  split
  case h_1 h => rw [hq] at h; nomatch h
  case h_2 q' rest' h =>
    obtain ⟨rfl, rfl⟩ := List.cons.inj (hq.symm.trans h)
    simp only [hfind] <;> rfl

theorem exec_learnWrite_new (hfind : e.fdbFind q.fid q.mac = none) :
    exec .learnWrite s = .next { s with dev := e.newlyLearned q (d.fdbMix q.fid q.mac).1 (d.fdbMix q.fid q.mac).2 } := by
  subst he hd
  refine onDev_eq (exec_learnWrite s) ?_
  split
  case h_1 h => rw [hq] at h; nomatch h
  case h_2 q' rest' h =>
    obtain ⟨rfl, rfl⟩ := List.cons.inj (hq.symm.trans h)
    simp only [hfind] <;> rfl

end

section
variable {d : Dev} {q : LearnReq} {i b r : Nat}

theorem Dev.relearned_reserved (h : d.reserved .fdb i = true) : d.relearned q i = d := if_pos h

theorem Dev.relearned_refreshed (h : d.reserved .fdb i = false) (hdrop : bitOf (d.lookupWord .fdb i) 60 = false)
    (hep : bitsOf (d.lookupWord .fdb i) 59 48 = q.ep) :
    d.relearned q i = d.setEntry .fdb i (putBits (d.lookupWord .fdb i) 61 61 1) := by
  rw [Dev.relearned, if_neg (by simp [h]), if_pos (by simp [hdrop, hep])]

/-- The entry stands elsewhere, or does not forward. -/
theorem not_here {w : Data} {ep : Nat} (h : bitOf w 60 = true ∨ bitsOf w 59 48 ≠ ep) :
    ¬(!bitOf w 60 && bitsOf w 59 48 == ep) = true := by
  rcases h with h | h <;> simp [h]

theorem Dev.relearned_static (h : d.reserved .fdb i = false)
    (hmove : bitOf (d.lookupWord .fdb i) 60 = true ∨ bitsOf (d.lookupWord .fdb i) 59 48 ≠ q.ep)
    (hstatic : bitOf (d.lookupWord .fdb i) 62 = true) :
    d.relearned q i = (d.count 0x668).raise LKP.page LKP.INT_RAW.STATIC_MOVE := by
  rw [Dev.relearned, if_neg (by simp [h]), if_neg (not_here hmove), if_pos hstatic]

theorem Dev.relearned_moved (h : d.reserved .fdb i = false)
    (hmove : bitOf (d.lookupWord .fdb i) 60 = true ∨ bitsOf (d.lookupWord .fdb i) 59 48 ≠ q.ep)
    (hstatic : bitOf (d.lookupWord .fdb i) 62 = false) :
    d.relearned q i
      = (d.setEntry .fdb i (putBits (putBits (putBits (d.lookupWord .fdb i) 59 48 q.ep) 60 60 0) 61 61 1)).count 0x667 := by
  rw [Dev.relearned, if_neg (by simp [h]), if_neg (not_here hmove), if_neg (by simp [hstatic])]

end

/-- Settles O23: a learn request by where its address stands; the events that are due by their conditions. -/
theorem learningAndAgeing : Obligations.LearningAndAgeing := by
  refine ⟨?noRequest, ?refreshed, ?staticStays, ?moved, ?reservedStays, ?learned, ?bucketFull, ?ageingSweep,
    ?streamGateEntryAdvance, ?waitingCommit, ?waitingDeviceCommit, ?epochAged, ?rerollCommits, ?rerollWaits⟩
  case noRequest =>
    intro s hLearnQ
    refine onDev_eq (exec_learnWrite s) ?_
    rw [hLearnQ]
  case refreshed =>
    intro s q rest d e i w hLearnQ hd he hFdbFind hReserved hw hBitOf hBitsOf
    subst hw
    rw [exec_learnWrite_found hLearnQ hd he hFdbFind, Dev.relearned_refreshed hReserved hBitOf hBitsOf]
  case staticStays =>
    intro s q rest d e i w hLearnQ hd he hFdbFind hReserved hw hBitOf hBitOf2
    subst hw
    rw [exec_learnWrite_found hLearnQ hd he hFdbFind, Dev.relearned_static hReserved hBitOf hBitOf2]
  case moved =>
    intro s q rest d e i w hLearnQ hd he hFdbFind hReserved hw hBitOf hBitOf2
    subst hw
    rw [exec_learnWrite_found hLearnQ hd he hFdbFind, Dev.relearned_moved hReserved hBitOf hBitOf2]
  case reservedStays =>
    intro s q rest d e i hLearnQ hd he hFdbFind hReserved
    rw [exec_learnWrite_found hLearnQ hd he hFdbFind, Dev.relearned_reserved hReserved]
  case learned =>
    intro s q rest d e i hLearnQ hd he hFdbFind hFdbWay
    rw [exec_learnWrite_new hLearnQ hd he hFdbFind, Dev.newlyLearned, hFdbWay]
  case bucketFull =>
    intro s q rest d e hLearnQ hd he hFdbFind hFdbWay
    rw [exec_learnWrite_new hLearnQ hd he hFdbFind, Dev.newlyLearned, hFdbWay]
  case ageingSweep =>
    intro s d hAgeTime hAgeTime2 hd
    have hdue : s.dev.sweepDue = true := by simp [Dev.sweepDue, hAgeTime, hAgeTime2]
    subst hd
    exact onDev_eq (exec_ageingSweep s) (if_pos hdue)
  case streamGateEntryAdvance =>
    intro s gate
    rfl
  case waitingCommit =>
    intro s page d e hPendingCommit hEpochBlocked hCommitDevice hpage hd he
    have hready : (s.dev.pendingCommit && !s.dev.epochBlocked) = true := by rw [hPendingCommit, hEpochBlocked]; rfl
    subst he hd hpage
    exact onDev_eq (exec_pendingCommitApply s) ((if_pos hready).trans (if_neg (by simp [hCommitDevice])))
  case waitingDeviceCommit =>
    intro s hPendingCommit hEpochBlocked hCommitDevice
    have hready : (s.dev.pendingCommit && !s.dev.epochBlocked) = true := by rw [hPendingCommit, hEpochBlocked]; rfl
    exact onDev_eq (exec_pendingCommitApply s) ((if_pos hready).trans (if_pos hCommitDevice))
  case epochAged =>
    intro s epoch d e hHoldMs hCur hOutstanding hd he
    subst he hd
    exact onDev_eq (exec_epochAged epoch s) (if_pos (by simp [hHoldMs, hCur, hOutstanding]))
  case rerollCommits =>
    intro s hPending hRerollAt hPendingCommit hEpochBlocked
    have hdue : s.dev.rerollOverdue = true := by simp [Dev.rerollOverdue, hPending, hRerollAt, hPendingCommit]
    exact onDev_eq (exec_rerollEmptyCommit s) ((if_pos hdue).trans (if_neg (by simp [hEpochBlocked])))
  case rerollWaits =>
    intro s hPending hRerollAt hPendingCommit hEpochBlocked
    have hdue : s.dev.rerollOverdue = true := by simp [Dev.rerollOverdue, hPending, hRerollAt, hPendingCommit]
    exact onDev_eq (exec_rerollEmptyCommit s) ((if_pos hdue).trans (if_pos hEpochBlocked))

end Sys2Proof.Machine
end

section
/-!
The windows of the lookup and meter tables (R113, R115, R400, R431).
-/
namespace Sys2Proof.Machine

/-- Settles O24: an operation of a window by the table and the entry that it names. -/
theorem tableWindows : Obligations.TableWindows := by
  refine ⟨?lkpRead, ?lkpReadNoEntry, ?lkpStageWrite, ?lkpStageWriteNoTable, ?lkpStageDelete, ?lkpStageDeleteNoTable,
    ?fdbKey, ?sidKey, ?keyOfEmptyEntry, ?fdbLookup, ?sidLookup, ?lookupMisses, ?lkpStageInsert, ?lkpStageClear,
    ?lkpStageClearRefused, ?lkpFlushDynamic, ?lkpFlushNoEndpoint, ?mtrReadConfig, ?mtrReadState, ?mtrStageWrite,
    ?mtrStageWriteNoTable, ?mtrStageDelete, ?mtrStageDeleteNoTable, ?mtrResetState⟩
  case lkpRead =>
    intro s acc t hr hLkpTable hWinIndex hWinWord
    exact exec_of_asAny rfl hr (by simp [hLkpTable, hWinIndex, hWinWord])
  case lkpReadNoEntry =>
    intro s acc hr hx
    refine exec_of_asAny rfl hr ?_
    cases htable : lkpTable (winTable s.dev lkpWin acc) with
    | none => simp only [htable]
    | some t =>
      simp only [htable]
      exact if_pos (by simpa using hx t htable)
  case lkpStageWrite =>
    intro s acc t hmay hLkpTable
    exact exec_of_asOwner rfl hmay (by simp [hLkpTable])
  case lkpStageWriteNoTable =>
    intro s acc hmay hLkpTable
    exact exec_of_asOwner rfl hmay (by simp [hLkpTable])
  case lkpStageDelete =>
    intro s acc t hmay hLkpTable
    exact exec_of_asOwner rfl hmay (by simp [hLkpTable])
  case lkpStageDeleteNoTable =>
    intro s acc hmay hLkpTable
    exact exec_of_asOwner rfl hmay (by simp [hLkpTable])
  case fdbKey =>
    intro s acc i d hr hLkpTable hi hd hLookupWord
    subst hd hi
    refine exec_of_asAny rfl hr ?_
    simp only [hLkpTable]
    exact if_neg (by simp [hLookupWord])
  case sidKey =>
    intro s acc i d hr hLkpTable hi hx hd hLookupWord
    subst hd hi
    refine exec_of_asAny rfl hr ?_
    simp only [hLkpTable]
    exact (if_neg (by omega)).trans (if_neg (by simp [hLookupWord]))
  case keyOfEmptyEntry =>
    intro s acc t i d hr hLkpTable hi hd ht hLookupWord
    subst hd hi
    refine exec_of_asAny rfl hr ?_
    rcases ht with rfl | ⟨rfl, hsmall⟩
    · simp only [hLkpTable]
      exact if_pos (by simp [hLookupWord])
    · simp only [hLkpTable]
      exact (if_neg (by omega)).trans (if_pos (by simp [hLookupWord]))
  case fdbLookup =>
    intro s acc m v mac i d hr hWinKeyOf hTarget hFdbFind hd
    exact exec_of_asAny rfl hr (by simp [hWinKeyOf, hTarget, hFdbFind, hd])
  case sidLookup =>
    intro s acc m v mac i d hr hWinKeyOf hTarget hSidFind hd
    exact exec_of_asAny rfl hr (by simp [hWinKeyOf, hTarget, hSidFind, hd])
  case lookupMisses =>
    intro s acc m v mac d hr hWinKeyOf hTarget
    refine exec_of_asAny rfl hr ?_
    rcases hTarget with ⟨htarget, hmiss, rfl⟩ | ⟨htarget, hmiss, rfl⟩ <;> simp [hWinKeyOf, htarget, hmiss]
  case lkpStageInsert =>
    intro s acc hmay
    exact exec_of_asOwner rfl hmay rfl
  case lkpStageClear =>
    intro s acc hmay hPendingCommit
    exact exec_of_asOwner rfl hmay (by simp [hPendingCommit])
  case lkpStageClearRefused =>
    intro s acc hmay hPendingCommit
    exact exec_of_asOwner rfl hmay (if_pos hPendingCommit)
  case lkpFlushDynamic =>
    intro s acc ep hmay hep hx
    subst hep
    exact exec_of_asOwner rfl hmay (if_neg (by omega))
  case lkpFlushNoEndpoint =>
    intro s acc hmay hDataLo hDataLo2
    exact exec_of_asOwner rfl hmay (by simp [hDataLo, hDataLo2])
  case mtrReadConfig =>
    intro s acc hr hWinTable hWinWord
    refine exec_of_asAny rfl hr ?_
    rcases hWinWord with h | h <;> simp only [hWinTable, h]
  case mtrReadState =>
    intro s acc hr hWinTable hWinWord
    exact exec_of_asAny rfl hr (by simp [hWinTable, hWinWord])
  case mtrStageWrite =>
    intro s acc hmay hWinTable
    exact exec_of_asOwner rfl hmay (if_pos hWinTable)
  case mtrStageWriteNoTable =>
    intro s acc hmay hWinTable
    exact exec_of_asOwner rfl hmay (if_neg hWinTable)
  case mtrStageDelete =>
    intro s acc hmay hWinTable
    exact exec_of_asOwner rfl hmay (if_pos hWinTable)
  case mtrStageDeleteNoTable =>
    intro s acc hmay hWinTable
    exact exec_of_asOwner rfl hmay (if_neg hWinTable)
  case mtrResetState =>
    intro s acc i t d hmay hi hReads
    subst hi
    refine exec_of_asOwner rfl hmay ?_
    simp only [← hReads]

end Sys2Proof.Machine
end

section
/-!
The buffer manager (R118 to R136): buffers granted late, the pool caches, the hash window, halting and resuming.
-/
namespace Sys2Proof.Machine

theorem exec_bufferAssignLate (input : Fin 50) (pre : Bool) (more : List (BitVec 8)) (s : State) :
    exec (.bufferAssignLate input pre more) s = execBufferAssignLate input pre more s := rfl

theorem exec_cacheRefillDone (pool : Fin 4) (bad : Fin 65) (s : State) :
    exec (.cacheRefillDone pool bad) s = execCacheRefillDone pool bad s := rfl

theorem exec_mgrHalted (s : State) : exec .mgrHalted s = execMgrHalted s := rfl

/-- The entries of a refill that are lost. -/
def Dev.loseEntries (d : Dev) (pool : Nat) (bad : Nat) : Dev :=
  (List.range bad).foldl (fun d _ =>
    let busy := d.busyIdx pool
    let (k, d) := d.free
    let i := kthFree busy (k % (d.poolCount pool - busy.length))
    let d := d.setBufRec pool i { d.bufRec pool i with lost := true }
    (((d.err BUF.page 0x21 BUF.POOL_STAT.FREE.off).raise BUF.page BUF.INT_RAW.RING_ECC).count 0x706).dramUncorr) d

/-- A pool's cache after a refill of `n` entries, `bad` of them lost. -/
def Dev.refilled (d : Dev) (pool n bad : Nat) : Dev :=
  (((d.setPool pool { d.pool pool with inFlight := (d.pool pool).inFlight - n, cached := (d.pool pool).cached + (n - bad) }).loseEntries
    pool bad).refillPool pool).rebalance

theorem Dev.refilled_none_lost (d : Dev) (pool n : Nat) :
    d.refilled pool n 0 = ((d.setPool pool { d.pool pool with
      inFlight := (d.pool pool).inFlight - n, cached := (d.pool pool).cached + n }).refillPool pool).rebalance := by
  rw [Dev.refilled, Dev.loseEntries, List.range_zero, List.foldl_nil, Nat.sub_zero]

theorem exec_cacheRefillDone_open {s : State} {pool : Fin 4} {bad : Fin 65} {n : Nat}
    (hn : n = min 64 (s.dev.pool pool).inFlight) (hpos : 0 < n) (hopen : s.dev.dramOpen = true) :
    exec (.cacheRefillDone pool bad) s = .next { s with dev := s.dev.refilled pool n (min bad.val n) } := by
  subst hn
  exact onDev_eq (exec_cacheRefillDone pool bad s) (if_neg (by simp only [hopen]; simp; omega))

theorem exec_cacheRefillDone_idle {s : State} {pool : Fin 4} {bad : Fin 65}
    (h : min 64 (s.dev.pool pool).inFlight = 0 ∨ (!s.dev.dramOpen) = true) :
    exec (.cacheRefillDone pool bad) s = .next { s with dev := s.dev } :=
  onDev_eq (exec_cacheRefillDone pool bad s) (if_pos h)

theorem Dev.halted_effect (d : Dev) (hhold : d.holding = []) (e : Dev)
    (he : e = (d.holding.map Prod.fst).foldl Dev.serveArea (d.set BUF.page BUF.MGR_CTRL.HALT 1)) :
    e.get BUF.page BUF.MGR_CTRL.HALT = 1 ∧ e.get BUF.page BUF.MGR_CTRL.HALTED = d.get BUF.page BUF.MGR_CTRL.HALTED
      ∧ OnlyPage BUF.page d e ∧ Quiet d e := by
  rw [hhold, List.map_nil, List.foldl_nil] at he
  subst he
  exact ⟨Dev.get_set_fits _ _ _ (by decide) (by decide), Dev.get_set_beside _ _ (by decide),
    (OnlyPage.refl _ d).set (by decide) (by decide), Dev.set_quiet ..⟩

theorem Dev.resumed_effect (d e : Dev)
    (he : e = (d.set BUF.page BUF.MGR_CTRL.HALT 0).set BUF.page BUF.MGR_CTRL.HALTED 0) :
    e.get BUF.page BUF.MGR_CTRL.HALT = 0 ∧ e.get BUF.page BUF.MGR_CTRL.HALTED = 0 ∧ OnlyPage BUF.page d e ∧ Quiet d e := by
  subst he
  refine ⟨?_, Dev.get_set_fits _ _ _ (by decide) (by decide),
    ((OnlyPage.refl _ d).set (by decide) (by decide)).set (by decide) (by decide),
    (Dev.set_quiet ..).trans (Dev.set_quiet ..)⟩
  rw [Dev.get_set_beside _ _ (by decide)]
  exact Dev.get_set_fits _ _ _ (by decide) (by decide)

/-! ### The hash window -/

def Dev.bankTotal (d : Dev) : Nat := ((List.range 96).map (fun b => tget (fun _ => 0) d.bankCount b)).sum

def Dev.hotBank (d : Dev) : Nat :=
  (List.range 96).foldl (fun h b => if tget (fun _ => 0) d.bankCount h < tget (fun _ => 0) d.bankCount b then b else h) 0

/-- The loads of the banks as the window shows them. -/
def Dev.showLoads (d : Dev) (total hot : Nat) : Dev :=
  ((List.range 96).foldl (fun e b =>
    (e.set BUF.page BUF.BANK_STAT.LOAD (if total = 0 then 0 else min (tget (fun _ => 0) d.bankCount b * 96 * 64 / total) 255) b).set
      BUF.page BUF.BANK_STAT.ACC_K (tget (fun _ => 0) d.bankCount b / 1024) b) d).set BUF.page BUF.HASH_STAT.HOT_BANK hot

/-- The next window begins. -/
def Dev.nextWindow (d : Dev) (hotter : Bool) : Dev :=
  { d with bankCount := [], hashOver := if hotter then d.hashOver + 1 else 0 }

/-- A bank that was hotter for long enough asks for another key. -/
def Dev.judgeWindow (d : Dev) (hotter : Bool) : Dev :=
  if hotter && d.flag BUF.page BUF.HASH_CFG.AUTO && d.get BUF.page BUF.HASH_CFG.DWELL ≤ d.hashOver then d.rerollRequest else d

def Dev.windowHotter (d : Dev) (total load : Nat) : Bool :=
  decide (total * d.get BUF.page BUF.HASH_CFG.RATIO < load * 96 * 64)

theorem exec_hashWindowEnd_by_parts (s : State) : exec .hashWindowEnd s = .next { s with
    dev := (((s.dev.showLoads s.dev.bankTotal s.dev.hotBank).nextWindow
      ((s.dev.showLoads s.dev.bankTotal s.dev.hotBank).windowHotter s.dev.bankTotal
        (tget (fun _ => 0) s.dev.bankCount s.dev.hotBank))).judgeWindow
      ((s.dev.showLoads s.dev.bankTotal s.dev.hotBank).windowHotter s.dev.bankTotal
        (tget (fun _ => 0) s.dev.bankCount s.dev.hotBank))) } := rfl

theorem exec_hashWindowEnd_of {s : State} {total hot : Nat} {hotter : Bool} {d e : Dev} (htotal : total = s.dev.bankTotal)
    (hhot : hot = s.dev.hotBank) (hd : d = s.dev.showLoads total hot)
    (hhotter : hotter = d.windowHotter total (tget (fun _ => 0) s.dev.bankCount hot)) (he : e = d.nextWindow hotter) :
    exec .hashWindowEnd s = .next { s with dev := e.judgeWindow hotter } := by
  rw [exec_hashWindowEnd_by_parts, ← htotal, ← hhot, ← hd, ← hhotter, ← he]

/-- Settles O25: a refill by what is in flight and the crossing of DRAM; the manager's halt by its two flags. -/
theorem bufferManager : Obligations.BufferManager := by
  refine ⟨?holdingAreaGrant, ?bufferAssignLate, ?nothingInFlight, ?refilled, ?refilledWithLoss, ?dramNotOpen,
    ?hashWindowEnd, ?hashRerollRequest, ?mgrHalts, ?mgrHaltsIdle, ?mgrResume, ?mgrHalted, ?poolLowClr⟩
  case holdingAreaGrant =>
    intro s input
    rfl
  case bufferAssignLate =>
    intro s input pre more d hd
    subst hd
    exact onDev_eq (exec_bufferAssignLate input pre more s) rfl
  case nothingInFlight =>
    intro s pool bad hPool
    exact exec_cacheRefillDone_idle (.inl (by rw [hPool, Nat.min_zero]))
  case refilled =>
    intro s pool q n hq hn hx hDramOpen
    subst hq
    rw [exec_cacheRefillDone_open hn hx hDramOpen, Fin.val_zero, Nat.zero_min, Dev.refilled_none_lost]
  case refilledWithLoss =>
    intro s pool bad q n d hq hn hx hDramOpen hd
    subst hd hq
    exact exec_cacheRefillDone_open hn hx hDramOpen
  case dramNotOpen =>
    intro s pool bad hDramOpen
    exact exec_cacheRefillDone_idle (.inr (by rw [hDramOpen, Bool.not_false]))
  case hashWindowEnd =>
    intro s total hot hotter d e htotal hhot hd hhotter he
    exact exec_hashWindowEnd_of htotal hhot hd hhotter he
  case hashRerollRequest =>
    intro s acc hmay
    exact exec_of_asOwner rfl hmay rfl
  case mgrHalts =>
    intro s acc hmay
    exact exec_of_asOwner rfl hmay rfl
  case mgrHaltsIdle =>
    intro s acc hmay hHolding
    exact does_of_exec (exec_of_asOwner rfl hmay rfl) (s.dev.halted_effect hHolding _ rfl)
  case mgrResume =>
    intro s acc hmay
    exact does_of_exec (exec_of_asOwner rfl hmay rfl) (s.dev.resumed_effect _ rfl)
  case mgrHalted =>
    intro s hHalt
    exact onDev_eq (exec_mgrHalted s) (if_pos hHalt)
  case poolLowClr =>
    intro s acc p hmay hp
    subst hp
    exact exec_of_asOwner rfl hmay rfl

end Sys2Proof.Machine
end

section
/-!
Queues and the spill area (R66, R138 to R146): copies and refills, the hold time, flushes, back-pressure.
-/
namespace Sys2Proof.Machine

theorem exec_spillCopyDone (voq : Fin 20000) (busy : Bool) (s : State) :
    exec (.spillCopyDone voq busy) s = execSpillCopyDone voq busy s := rfl

theorem exec_spillRefillDone (voq : Fin 20000) (uncorrectable : Bool) (s : State) :
    exec (.spillRefillDone voq uncorrectable) s = execSpillRefillDone voq uncorrectable s := rfl

theorem exec_holdExpiry (port : Fin 50) (s : State) : exec (.holdExpiry port) s = execHoldExpiry port s := rfl

theorem exec_voqFlushStart (acc : Accessor) (scope : BitVec 2) (ep : BitVec 6) (s : State) :
    exec (.voqFlushStart acc scope ep) s = execVoqFlushStart acc scope ep s := rfl

theorem exec_voqFlushDone (s : State) : exec .voqFlushDone s = execVoqFlushDone s := rfl

theorem exec_spillCopyDone_shut {s : State} {voq : Fin 20000} {busy : Bool} (h : s.dev.dramOpen = false) :
    exec (.spillCopyDone voq busy) s = .next { s with dev := s.dev } :=
  onDev_eq (exec_spillCopyDone voq busy s) (Dev.when_neg _ _ h)

theorem exec_spillRefillDone_shut {s : State} {voq : Fin 20000} {bad : Bool} (h : s.dev.dramOpen = false) :
    exec (.spillRefillDone voq bad) s = .next { s with dev := s.dev } :=
  onDev_eq (exec_spillRefillDone voq bad s) (Dev.when_neg _ _ h)

/-- The copy of a frame of one destination that has ended: refused, or made. -/
def Dev.spillCopied (d : Dev) (voq n : Nat) (rest : List Nat) (f : Frame) (busy : Bool) : Dev :=
  if d.spillRefused (voqInput voq) (linesOf f.len) busy then
    (((((d.setRefused (spillKey (voqInput voq) (voqTc voq)) (some d.now)).setRefused spillAny (some d.now)).raise
      VOQ.page VOQ.INT_RAW.SPILL_REFUSED).count 0x712).rebalance)
  else
    let q := d.voq voq
    let d := (d.setRefused (spillKey (voqInput voq) (voqTc voq)) none).countLines n
    let d := d.setVoq voq { q with tail := q.tail ++ [n], copying := rest, spilling := true }
    let d := d.setSpill (voqInput voq) (d.spillOf (voqInput voq) + linesOf f.len)
    let d := match f.buf with
      | some h => d.freeBuffer h 0x023
      | none => d
    ((d.setFrame n (some { f with buf := none, spilled := true })).count 0x710).refreshSpill

/-- A frame that cannot be read back from the spill area. -/
def Dev.spillLost (d : Dev) (voq n : Nat) (rest : List Nat) (f : Frame) : Dev :=
  let q := d.voq voq
  let d := d.setSpill (voqInput voq) (d.spillOf (voqInput voq) - linesOf f.len)
  let d := d.setVoq voq (d.spillEnd (d.framePool n) { q with tail := rest })
  let d := (d.count 0x713).err VOQ.page 0x28 VOQ.VOQ_SPILL.LINES.off
  (d.clearDest n (voqOutput voq) 0x023).dramUncorr.refreshSpill

/-- A frame read back from the spill area into a buffer of the pool `p`. -/
def Dev.spillRefilled (d : Dev) (voq n : Nat) (rest : List Nat) (f : Frame) (p : Nat) : Dev :=
  let q := d.voq voq
  let d := d.setSpill (voqInput voq) (d.spillOf (voqInput voq) - linesOf f.len)
  let t := d.takeBuffer p (voqInput voq) false
  let d := (t.2.setFrame n (some { f with buf := some t.1.1, startBank := t.1.2 })).countLines n
  let q := d.spillEnd p { q with sram := q.sram ++ [n], tail := rest }
  ((d.setVoq voq q).count 0x711).refreshSpill

/-- A refill of the frame at the front of the queue's spilled part. -/
def Dev.spillFront (d : Dev) (voq n : Nat) (rest : List Nat) (f : Frame) (bad : Bool) : Dev :=
  if bad then d.spillLost voq n rest f
  else if d.flag BUF.page BUF.MGR_CTRL.HALT then d
  else match d.choosePool (voqInput voq) f.len with
    | none => d
    | some p =>
      if !decide (((d.voq voq).sram.map d.frameLen).sum < 1024 * d.get VOQ.page VOQ.SPILL_CFG.REFILL_LVL)
        || (d.pool p).press then d else d.spillRefilled voq n rest f p

section
variable {s : State} {voq : Fin 20000} {n : Nat} {rest : List Nat} {f : Frame}
  (hopen : s.dev.dramOpen = true) (hframe : s.dev.frame n = some f)
include hopen hframe

theorem exec_spillCopyDone_single {busy : Bool} (hcopy : (s.dev.voq voq).copying = n :: rest) (hended : f.ended = true)
    (hone : f.mcast = false) :
    exec (.spillCopyDone voq busy) s = .next { s with dev := s.dev.spillCopied voq n rest f busy } := by
  refine onDev_eq (exec_spillCopyDone voq busy s) ((Dev.when_pos _ _ hopen).trans ?_)
  simp only [hcopy, hframe]
  exact (if_neg (by simp [hended])).trans (if_neg (by simp [hone]))

theorem exec_spillCopyDone_shared {busy : Bool} (hcopy : (s.dev.voq voq).copying = n :: rest) (hended : f.ended = true)
    (hshared : f.mcast = true) :
    exec (.spillCopyDone voq busy) s = .next { s with dev := (if (s.dev.voq voq).tail.isEmpty then
      s.dev.setVoq voq { s.dev.voq voq with sram := (s.dev.voq voq).sram ++ [n], copying := rest } else s.dev) } := by
  refine onDev_eq (exec_spillCopyDone voq busy s) ((Dev.when_pos _ _ hopen).trans ?_)
  simp only [hcopy, hframe]
  exact (if_neg (by simp [hended])).trans (if_pos hshared)

theorem exec_spillRefillDone_front {bad : Bool} (htail : (s.dev.voq voq).tail = n :: rest) :
    exec (.spillRefillDone voq bad) s = .next { s with dev := s.dev.spillFront voq n rest f bad } := by
  refine onDev_eq (exec_spillRefillDone voq bad s) ((Dev.when_pos _ _ hopen).trans ?_)
  simp only [htail, hframe]
  rfl

end

section
variable {d : Dev} {voq n p : Nat} {rest : List Nat} {f : Frame}

theorem Dev.spillFront_halted (h : d.flag BUF.page BUF.MGR_CTRL.HALT = true) : d.spillFront voq n rest f false = d :=
  (if_neg Bool.false_ne_true).trans (if_pos h)

theorem Dev.spillFront_pool (h : d.flag BUF.page BUF.MGR_CTRL.HALT = false)
    (hpool : d.choosePool (voqInput voq) f.len = some p) :
    d.spillFront voq n rest f false =
      if !decide (((d.voq voq).sram.map d.frameLen).sum < 1024 * d.get VOQ.page VOQ.SPILL_CFG.REFILL_LVL)
        || (d.pool p).press then d else d.spillRefilled voq n rest f p := by
  rw [Dev.spillFront, if_neg Bool.false_ne_true, if_neg (by simp [h]), hpool]

end

/-- Settles O26: a copy and a refill by the frame at the queue's front, and what else is due by its condition. -/
theorem queuesAndSpill : Obligations.QueuesAndSpill := by
  refine ⟨?copied, ?copyRefused, ?sharedFrame, ?refillLost, ?refillHalted, ?refillNotYet, ?refilled, ?copyDramShut,
    ?refillDramShut, ?holdExpiry, ?flushBadScope, ?flushStarts, ?voqFlushDone, ?bpRefresh⟩
  case copied =>
    intro s voq busy n rest f d hDramOpen hVoq hFrame hx hx2 hSpillRefused hd
    subst hd
    rw [exec_spillCopyDone_single hDramOpen hFrame hVoq hx hx2, Dev.spillCopied, if_neg (by simp [hSpillRefused])] <;> rfl
  case copyRefused =>
    intro s voq busy n rest f hDramOpen hVoq hFrame hx hx2 hSpillRefused
    rw [exec_spillCopyDone_single hDramOpen hFrame hVoq hx hx2, Dev.spillCopied, if_pos hSpillRefused]
  case sharedFrame =>
    intro s voq busy n rest f hDramOpen hVoq hFrame hx hx2
    exact exec_spillCopyDone_shared hDramOpen hFrame hVoq hx hx2
  case refillLost =>
    intro s voq n rest f d hDramOpen hVoq hFrame hd
    subst hd
    exact exec_spillRefillDone_front hDramOpen hFrame hVoq
  case refillHalted =>
    intro s voq n rest f hDramOpen hVoq hFrame hHalt
    rw [exec_spillRefillDone_front hDramOpen hFrame hVoq, Dev.spillFront_halted hHalt]
  case refillNotYet =>
    intro s voq n rest f p hDramOpen hVoq hFrame hChoosePool hHalt hRefillLvl
    rw [exec_spillRefillDone_front hDramOpen hFrame hVoq, Dev.spillFront_pool hHalt hChoosePool, if_pos]
    simpa using hRefillLvl
  case refilled =>
    intro s voq n rest f p b d e hDramOpen hVoq hFrame hChoosePool hRefillLvl hPool hHalt hd hTakeBuffer
    rw [exec_spillRefillDone_front hDramOpen hFrame hVoq, Dev.spillFront_pool hHalt hChoosePool,
      if_neg (by simp [hRefillLvl, hPool]), Dev.spillRefilled, ← hd, hTakeBuffer]
  case copyDramShut =>
    intro s voq busy hDramOpen
    exact exec_spillCopyDone_shut hDramOpen
  case refillDramShut =>
    intro s voq bad hDramOpen
    exact exec_spillRefillDone_shut hDramOpen
  case holdExpiry =>
    intro s port hHoldDue
    exact onDev_eq (exec_holdExpiry port s) (if_pos hHoldDue)
  case flushBadScope =>
    intro s acc scope ep hmay hscope
    have hbad : scope.toNat = 3 ∨ (scope.toNat ≠ 0 ∧ 49 < ep.toNat) := by
      rcases hscope with rfl | ⟨h0, hep⟩
      · exact .inl rfl
      · exact .inr ⟨fun h => h0 (BitVec.eq_of_toNat_eq h), hep⟩
    exact exec_of_asOwner (exec_voqFlushStart acc scope ep s) hmay (if_pos hbad)
  case flushStarts =>
    intro s acc scope ep d hmay hScope hscope hBusy hd
    have hgood : ¬(scope.toNat = 3 ∨ (scope.toNat ≠ 0 ∧ 49 < ep.toNat)) := by
      rintro (h | ⟨h0, hep⟩)
      · exact hScope (BitVec.eq_of_toNat_eq h)
      · rcases hscope with rfl | h
        · exact h0 rfl
        · omega
    subst hd
    exact exec_of_asOwner (exec_voqFlushStart acc scope ep s) hmay ((if_neg hgood).trans (if_neg (by simp [hBusy])))
  case voqFlushDone =>
    intro s n d hBusy hn hd
    subst hd hn
    exact onDev_eq (exec_voqFlushDone s) (if_pos hBusy)
  case bpRefresh =>
    intro s port
    rfl

end Sys2Proof.Machine
end

section
/-!
The scheduler's window (R151, R167, R168, R400), the gate control lists and their launch queues (R153 to R175).
-/
namespace Sys2Proof.Machine

theorem exec_gclWrite (acc : Accessor) (port : Fin 48) (s : State) :
    exec (.gclWrite acc port) s = execGclWrite acc port s := rfl

theorem exec_launchEnqueue (port : Fin 48) (s : State) :
    exec (.launchEnqueue port) s = execLaunchEnqueue port s := rfl

/-- Settles O28: an operation of the window by the table and the entry that it names. -/
theorem schedulerWindow : Obligations.SchedulerWindow := by
  refine ⟨?schRead, ?schReadNode, ?schReadNoEntry, ?schReadShadow, ?schWriteNoShadow, ?schWriteShadow, ?schReadClr,
    ?schClearTable⟩
  case schRead =>
    intro s acc t hr hWinTable hSchTable hWinIndex hWinWord
    exact exec_of_asAny rfl hr (by simp [hWinTable, hSchTable, hWinIndex, hWinWord])
  case schReadNode =>
    intro s acc i hr hWinTable hi hx hWinWord
    subst hi
    refine exec_of_asAny rfl hr ((if_pos hWinTable).trans (if_pos ?_))
    simp [hx, hWinWord]
  case schReadNoEntry =>
    intro s acc hr hWinTable hx
    refine exec_of_asAny rfl hr ((if_neg hWinTable).trans ?_)
    cases htable : schTable (winTable s.dev schWin acc) with
    | none => rfl
    | some t =>
      exact if_pos (by simpa using hx t htable)
  case schReadShadow =>
    intro s acc t hr hSchTable hWinTable hWinIndex hWinWord
    exact exec_of_asAny rfl hr (by simp [hSchTable, hWinTable, hWinIndex, hWinWord])
  case schWriteNoShadow =>
    intro s acc hmay hSchTable
    refine exec_of_asOwner rfl hmay ?_
    cases htable : schTable (winTable s.dev schWin acc) with
    | none => simp only [htable]
    | some t =>
      have hno : 3 < winTable s.dev schWin acc := hSchTable.resolve_left (by simp [htable])
      simp only [htable]
      exact if_pos (by simp [hno])
  case schWriteShadow =>
    intro s acc t x hmay hSchTable hWinTable hWinIndex hWinWord hx hx2
    obtain ⟨e, words⟩ := x
    have hok : ¬(decide (schSize t ≤ winIndex s.dev schWin acc) || decide (schWords t ≤ winWord s.dev schWin acc)
        || decide (3 < winTable s.dev schWin acc) || (t == .voqAttach && decide (5 < winIndex s.dev schWin acc % 8))) = true := by
      rcases hx with h | h
      · simp [hWinIndex, hWinWord, hWinTable, h]
      · simp [hWinIndex, hWinWord, hWinTable, h]
    refine exec_of_asOwner rfl hmay ?_
    simp only [hSchTable]
    refine (if_neg hok).trans ?_
    rw [← hx2]
    cases words <;> rfl
  case schReadClr =>
    intro s acc t i hmay hSchTable hi hx hWinWord hx2
    subst hi
    refine exec_of_asOwner rfl hmay ?_
    simp only [hSchTable]
    exact if_neg (by simp [hx, hWinWord, hx2])
  case schClearTable =>
    intro s acc t hmay hSchTable hx
    exact exec_of_asOwner rfl hmay (by simp [hSchTable, hx])

/-- Settles O29: an entry that the Blocker or a swap holds is refused; a launch by the frame that waits. -/
theorem gateControlLists : Obligations.GateControlLists := by
  refine ⟨?gclEntryAdvance, ?gclSwapApply, ?gclSwapRequest, ?gclSwapCancel, ?gclRead, ?gclWrite, ?gclWriteHeld,
    ?launchQueueFull, ?launchEnqueued, ?launchLate, ?launchHwmClr⟩
  case gclEntryAdvance =>
    intro s port
    rfl
  case gclSwapApply =>
    intro s port
    rfl
  case gclSwapRequest =>
    intro s acc port sec ns hmay
    exact exec_of_asOwner rfl hmay rfl
  case gclSwapCancel =>
    intro s acc port hmay
    exact exec_of_asOwner rfl hmay rfl
  case gclRead =>
    intro s acc port hr
    exact exec_of_asAny rfl hr rfl
  case gclWrite =>
    intro s acc port bank hmay hbank hActiveBank hSwapPending hBlockerOwn
    subst hbank
    have hfree : ¬(winTable s.dev (gclWin port) acc = s.dev.activeBank port
        ∨ s.dev.flag (GCL.page port) GCL.GCL_STAT.SWAP_PENDING = true
        ∨ s.dev.flag (GCL.page port) GCL.GCL_STAT.BLOCKER_OWN = true) := by
      simp [hActiveBank, hSwapPending, hBlockerOwn]
    exact exec_of_asOwner (exec_gclWrite acc port s) hmay (if_neg hfree)
  case gclWriteHeld =>
    intro s acc port hmay hSwapPending
    exact exec_of_asOwner (exec_gclWrite acc port s) hmay (if_pos hSwapPending)
  case launchQueueFull =>
    intro s port hLaunchOf
    exact onDev_eq (exec_launchEnqueue port s) (if_pos hLaunchOf)
  case launchEnqueued =>
    intro s port v n l d hLaunchOf hTimedWaiting hl hd
    subst hd hl
    refine onDev_eq (exec_launchEnqueue port s) ((if_neg (by omega)).trans ?_)
    simp only [hTimedWaiting] <;> rfl
  case launchLate =>
    intro s port
    rfl
  case launchHwmClr =>
    intro s acc port hmay
    exact exec_of_asOwner rfl hmay rfl

end Sys2Proof.Machine
end

section
/-!
The Blocker's requests (R182 to R188) and the window of its launch table and reservations (R172, R400).
-/
namespace Sys2Proof.Machine

theorem exec_blkPush (acc : Accessor) (s : State) : exec (.blkPush acc) s = execBlkPush acc s := rfl

theorem exec_blkAdd (s : State) : exec .blkAdd s = execBlkAdd s := rfl

theorem exec_blkRemove (s : State) : exec .blkRemove s = execBlkRemove s := rfl

theorem exec_blkReplaceAll (s : State) : exec .blkReplaceAll s = execBlkReplaceAll s := rfl

theorem exec_blkQuery (s : State) : exec .blkQuery s = execBlkQuery s := rfl

theorem exec_blkResumeAfterSwap (s : State) : exec .blkResumeAfterSwap s = execBlkResumeAfterSwap s := rfl

theorem exec_blkLaunchRead (acc : Accessor) (s : State) : exec (.blkLaunchRead acc) s = execBlkLaunchRead acc s := rfl

theorem exec_blkLaunchWrite (acc : Accessor) (s : State) :
    exec (.blkLaunchWrite acc) s = execBlkLaunchWrite acc s := rfl

theorem exec_blkLaunchDelete (acc : Accessor) (s : State) :
    exec (.blkLaunchDelete acc) s = execBlkLaunchDelete acc s := rfl

section
variable {d : Dev} {q : BlkReq}

theorem Dev.blkRun_add (h : d.blkHead 1 = some q) (hw : d.blkWaits = false) : d.blkRun 1 = d.blkAdd q := by
  rw [Dev.blkRun, h]
  exact if_neg (by simp [hw])

theorem Dev.blkRun_remove (h : d.blkHead 2 = some q) (hw : d.blkWaits = false) : d.blkRun 2 = d.blkRemove q := by
  rw [Dev.blkRun, h]
  exact if_neg (by simp [hw])

theorem Dev.blkRun_replaceAll (h : d.blkHead 3 = some q) (hw : d.blkWaits = false) : d.blkRun 3 = d.blkReplaceAll q := by
  rw [Dev.blkRun, h]
  exact if_neg (by simp [hw])

theorem Dev.blkRun_query (h : d.blkHead 4 = some q) (hw : d.blkWaits = false) : d.blkRun 4 = d.blkQuery q := by
  rw [Dev.blkRun, h]
  exact if_neg (by simp [hw])

theorem Dev.blkResume_request {rest : List BlkReq} (hplan : d.blkPlan = none) (hw : d.blkWaits = true)
    (hq : d.reqQueue = q :: rest) : d.blkResume = ({ d with blkWaits := false } : Dev).blkRun (breqOf q.words).op := by
  rw [Dev.blkResume, hplan]
  refine (if_pos hw).trans ?_
  rw [hq]

theorem Dev.blkResume_plan {plan : List (Nat × Place)} (hplan : d.blkPlan = some plan) :
    d.blkResume = d.blkReplaceCommit (d.planned plan) := by
  rw [Dev.blkResume, hplan]

theorem Dev.blkResume_nothing (hplan : d.blkPlan = none) (hw : d.blkWaits = false) : d.blkResume = d := by
  rw [Dev.blkResume, hplan]
  exact if_neg (by simp [hw])

end

/-- Settles O30: a request at the head of the queue by its operation; a window operation by the entry that it names. -/
theorem blockerRequestsAndLaunchTable : Obligations.BlockerRequestsAndLaunchTable := by
  refine ⟨?pushed, ?pushRefused, ?blkPop, ?blkAdd, ?blkRemove, ?blkReplaceAll, ?blkQuery, ?resumeRequest,
    ?resumePlan, ?resumeNothing, ?launchRead, ?reservationRead, ?reservationReadEmpty, ?launchWriteCopied,
    ?launchWrite, ?launchDelete, ?launchDeleteHeld⟩
  case pushed =>
    intro s acc x hmay hx hx2
    subst hx
    exact exec_of_asOwner (exec_blkPush acc s) hmay (if_neg hx2)
  case pushRefused =>
    intro s acc x hmay hx hx2
    subst hx
    exact exec_of_asOwner (exec_blkPush acc s) hmay (if_pos hx2)
  case blkPop =>
    intro s acc hmay
    exact exec_of_asOwner rfl hmay rfl
  case blkAdd =>
    intro s q hBlkHead hBlkWaits
    exact onFw_eq (exec_blkAdd s) (Dev.blkRun_add hBlkHead hBlkWaits)
  case blkRemove =>
    intro s q hBlkHead hBlkWaits
    exact onFw_eq (exec_blkRemove s) (Dev.blkRun_remove hBlkHead hBlkWaits)
  case blkReplaceAll =>
    intro s q hBlkHead hBlkWaits
    exact onFw_eq (exec_blkReplaceAll s) (Dev.blkRun_replaceAll hBlkHead hBlkWaits)
  case blkQuery =>
    intro s q hBlkHead hBlkWaits
    exact onFw_eq (exec_blkQuery s) (Dev.blkRun_query hBlkHead hBlkWaits)
  case resumeRequest =>
    intro s q rest d' hBlkPlan hBlkWaits hReqQueue hx
    subst hx
    exact onFw_eq (exec_blkResumeAfterSwap s) (Dev.blkResume_request hBlkPlan hBlkWaits hReqQueue)
  case resumePlan =>
    intro s plan d' hBlkPlan hBlkReplaceCommit
    subst hBlkReplaceCommit
    exact onFw_eq (exec_blkResumeAfterSwap s) (Dev.blkResume_plan hBlkPlan)
  case resumeNothing =>
    intro s hBlkPlan hBlkWaits
    exact onFw_eq (exec_blkResumeAfterSwap s) (Dev.blkResume_nothing hBlkPlan hBlkWaits)
  case launchRead =>
    intro s acc i hr hi hWinTable hWinWord
    exact exec_of_asAny rfl hr (by simp [hi, hWinTable, hWinWord])
  case reservationRead =>
    intro s acc i p hr hi hWinTable hWinWord hx hPlace
    subst hi
    refine exec_of_asAny (exec_blkLaunchRead acc s) hr ((if_neg ?_).trans ((if_neg ?_).trans ?_))
    · simp [hWinTable, hWinWord, hx]
    · simp [hPlace]
    · rw [hWinTable]
  case reservationReadEmpty =>
    intro s acc i hr hi hWinTable hWinWord hx hPlace
    subst hi
    refine exec_of_asAny (exec_blkLaunchRead acc s) hr ((if_neg ?_).trans (if_pos ?_))
    · simp [hWinTable, hWinWord, hx]
    · simp [hWinTable, hPlace]
  case launchWriteCopied =>
    intro s acc hmay hCopied
    exact exec_of_asOwner (exec_blkLaunchWrite acc s) hmay (if_pos hCopied)
  case launchWrite =>
    intro s acc i x hmay hi hCopied hWinTable hWinWord hx
    subst hi hx
    exact exec_of_asOwner (exec_blkLaunchWrite acc s) hmay ((if_neg (by simp [hCopied])).trans (if_neg (by omega)))
  case launchDelete =>
    intro s acc i hmay hi hCopied hWinTable hLookupWord
    subst hi
    exact exec_of_asOwner (exec_blkLaunchDelete acc s) hmay
      ((if_neg (by simp [hCopied])).trans ((if_neg (by omega)).trans (if_neg (by simp [hLookupWord]))))
  case launchDeleteHeld =>
    intro s acc hmay hCopied hWinTable hLookupWord
    exact exec_of_asOwner (exec_blkLaunchDelete acc s) hmay
      ((if_neg (by simp [hCopied])).trans ((if_neg (by omega)).trans (if_pos hLookupWord)))

end Sys2Proof.Machine
end

section
/-!
The doublet: who owns (R282 to R284, R298), the copy of a cycle (R285 to R292) and the recovery tables (R293 to R296).
-/
namespace Sys2Proof.Machine

theorem exec_dblHbToggle (s : State) : exec .dblHbToggle s = execDblHbToggle s := rfl

theorem exec_dblHbInEdge (s : State) : exec .dblHbInEdge s = execDblHbInEdge s := rfl

theorem exec_dblHbTimeout (s : State) : exec .dblHbTimeout s = execDblHbTimeout s := rfl

theorem exec_dblOwnInChange (level : Bool) (s : State) :
    exec (.dblOwnInChange level) s = execDblOwnInChange level s := rfl

theorem exec_claimWaitExpiry (s : State) : exec .claimWaitExpiry s = execClaimWaitExpiry s := rfl

theorem exec_dblHandover (acc : Accessor) (s : State) : exec (.dblHandover acc) s = execDblHandover acc s := rfl

theorem exec_handoverRelease (s : State) : exec .handoverRelease s = execHandoverRelease s := rfl

theorem exec_dblCycleEnd (fit : Nat) (kib : BitVec 10) (backlog : BitVec 22) (s : State) :
    exec (.dblCycleEnd fit kib backlog) s = execDblCycleEnd fit kib backlog s := rfl

theorem exec_dblCopyReceived (crcOk : Bool) (hdr : TwinHeader) (items : List CopyItem) (edge : RxEdge) (kib : BitVec 10) (s : State) :
    exec (.dblCopyReceived crcOk hdr items edge kib) s = execDblCopyReceived crcOk hdr items edge kib s := rfl

theorem exec_dblAckReceived (crcOk : Bool) (hdr : TwinHeader) (mismatch : BitVec 5) (edge : RxEdge) (s : State) :
    exec (.dblAckReceived crcOk hdr mismatch edge) s = execDblAckReceived crcOk hdr mismatch edge s := rfl

theorem exec_dblEntryWrite (acc : Accessor) (s : State) : exec (.dblEntryWrite acc) s = execDblEntryWrite acc s := rfl

theorem exec_recoveryResetTimeout (handle : Fin 16384) (s : State) :
    exec (.recoveryResetTimeout handle) s = execRecoveryResetTimeout handle s := rfl

/-! ### Ownership -/

/-- No heartbeat within its time: the twin counts as absent. -/
def Dev.heartbeatLost (d : Dev) : Dev :=
  (d.set DBL.page DBL.DBL_STAT.HB_OK 0).setDbl (fun b => { b with hbAbsent := true })

theorem exec_dblHbTimeout_due {s : State} (hup : s.dev.pageUp DBL.page = true)
    (hdue : s.dev.flag DBL.page DBL.DBL_STAT.HB_OK = true → s.dev.dbl.hbLast + 2000 * nsU ≤ s.dev.now) :
    exec .dblHbTimeout s = .next { s with dev :=
      (if s.dev.flag DBL.page DBL.DBL_STAT.HB_OK then s.dev.heartbeatLost.raise DBL.page DBL.INT_RAW.HB_LOST
      else s.dev.heartbeatLost).dblEval } := by
  refine onDev_eq (exec_dblHbTimeout s) (if_neg ?_)
  cases hok : s.dev.flag DBL.page DBL.DBL_STAT.HB_OK with
  | false => simp [hup]
  | true => simpa [hup] using hdue hok

theorem claimWait_met {s : State} {t : Nat} (hsince : s.dev.dbl.claimSince = some t)
    (hrow : (!s.dev.isOwner && !s.dev.pinOwnIn && s.dev.flag DBL.page DBL.DBL_STAT.HB_OK && !s.dev.sideB
      && s.dev.flag DBL.page DBL.DBL_CFG.AUTO_CLAIM
      && decide (t + s.dev.get DBL.page DBL.DBL_CFG.CLAIM_WAIT_MS * 1000000 * nsU ≤ s.dev.now)) = true) :
    exec .claimWaitExpiry s = .next { s with dev := s.dev.claim false } := by
  refine onDev_eq (exec_claimWaitExpiry s) ?_
  rw [hsince]
  exact if_pos hrow

theorem handover_released {s : State} {e1 : Nat} (hhand : s.dev.dbl.hand = some ⟨some e1, true⟩)
    (hdue : (e1 / s.dev.dblCycle + 1) * s.dev.dblCycle ≤ s.dev.now / s.dev.dblCycle * s.dev.dblCycle
      ∧ (s.dev.pulsesLow (s.dev.now / s.dev.dblCycle * s.dev.dblCycle) = true
        ∨ (e1 / s.dev.dblCycle + 1) * s.dev.dblCycle + secU ≤ s.dev.now / s.dev.dblCycle * s.dev.dblCycle)) :
    exec .handoverRelease s = .next { s with dev := s.dev.release_ true } := by
  refine onDev_eq (exec_handoverRelease s) ?_
  rw [hhand]
  exact if_pos hdue

/-- Settles O31: each event by the flags and times that it tests. -/
theorem doubletOwnership : Obligations.DoubletOwnership := by
  refine ⟨?dblHbToggle, ?dblHbInEdge, ?heartbeatLost, ?heartbeatInTime, ?heartbeatStillLost, ?dblOwnInChange,
    ?claimWaitExpiry, ?handover, ?handoverRefused, ?dblHandoverCancel, ?handoverRelease⟩
  case dblHbToggle =>
    intro s hPageUp hDbl
    exact onDev_eq (exec_dblHbToggle s) (if_pos (by simp [hPageUp, hDbl]))
  case dblHbInEdge =>
    intro s hPageUp
    exact onDev_eq (exec_dblHbInEdge s) (if_pos hPageUp)
  case heartbeatLost =>
    intro s d hPageUp hHbOk hDbl hd
    subst hd
    rw [exec_dblHbTimeout_due hPageUp fun _ => hDbl, if_pos hHbOk]
    rfl
  case heartbeatInTime =>
    intro s hPageUp hHbOk hNow
    exact onDev_eq (exec_dblHbTimeout s) (if_pos (by simp [hHbOk, hNow]))
  case heartbeatStillLost =>
    intro s d hPageUp hHbOk hd
    subst hd
    rw [exec_dblHbTimeout_due hPageUp fun h => absurd h (by simp [hHbOk]), if_neg (by simp [hHbOk])]
    rfl
  case dblOwnInChange =>
    intro s level hPageUp
    exact onDev_eq (exec_dblOwnInChange level s) (if_pos hPageUp)
  case claimWaitExpiry =>
    intro s t hDbl hIsOwner hPinOwnIn hHbOk hSideB hAutoClaim hClaimWaitMs
    exact claimWait_met hDbl (by simp [hIsOwner, hPinOwnIn, hHbOk, hSideB, hAutoClaim, hClaimWaitMs])
  case handover =>
    intro s acc hmay hIsOwner hDblOn hDblUp hTwinReady hDbl
    exact exec_of_asOwner (exec_dblHandover acc s) hmay (if_neg (by simp [hIsOwner, hDblOn, hDblUp, hTwinReady, hDbl]))
  case handoverRefused =>
    intro s acc hmay hTwinReady
    refine exec_of_asOwner (exec_dblHandover acc s) hmay (if_pos ?_)
    rcases hTwinReady with h | h | h | h | h
    · simp [h]
    · simp [h]
    · simp [h]
    · simp [h]
    · simp [Option.isSome_iff_ne_none.mpr h]
  case dblHandoverCancel =>
    intro s acc hmay
    exact exec_of_asOwner rfl hmay rfl
  case handoverRelease =>
    intro s e1 e2 t hDbl he2 ht hx hPulsesLow
    subst he2 ht
    exact handover_released hDbl ⟨hx, hPulsesLow⟩

/-! ### The copy of a cycle -/

theorem Dev.twinLink_down {d : Dev} (h : d.dblOn = false ∨ d.pageUp DBL.page = false ∨ d.dblUp = false) :
    (!d.dblOn || !d.pageUp DBL.page || !d.dblUp) = true := by
  rcases h with h | h | h <;> simp [h]

theorem Dev.twinLink_up {d : Dev} (hon : d.dblOn = true) (hpage : d.pageUp DBL.page = true) (hup : d.dblUp = true) :
    ¬(!d.dblOn || !d.pageUp DBL.page || !d.dblUp) = true := by
  simp [hon, hpage, hup]

/-- The offset to the twin, where the times of an exchange are known (R290). -/
def Dev.showTwinOfs (d : Dev) (hdr : TwinHeader) : Dev :=
  if (d.dbl.t2 != 0) && d.flag DBL.page DBL.DBL_STAT.DL0_UP then
    d.set DBL.page DBL.TWIN_OFS.PS
      (toField 32 (twinOfs (d.getInt DBL.page DBL.DL_ASYM_PS.ASYM) hdr.t1 d.dbl.t2 d.dbl.t3 hdr.t4)) else d

/-- A copy's items taken. -/
def Dev.takeCopy (d : Dev) (items : List CopyItem) (kib : Nat) : Dev :=
  items.foldl Dev.takeItem ((d.count 0xD81).set DBL.page DBL.COPY_STAT.LAST_KIB (min kib 256))

/-- What a copy says of itself, noted. -/
def Dev.noteCopy (d : Dev) (hdr : TwinHeader) : Dev :=
  (d.setFlag DBL.page DBL.DBL_STAT.FULL_COPY hdr.full).setDbl (fun b => { b with
    got := true, part := hdr.more, complete := b.complete || (d.flag DBL.page DBL.DBL_STAT.FULL_COPY && !hdr.full) })

/-- While a full copy goes on, what the standby holds is stale. -/
def Dev.staleWhileFull (d : Dev) (hdr : TwinHeader) : Dev := if hdr.full then (d.setStale true).setReady false else d

/-- The acknowledgement of a copy. -/
def Dev.acknowledgeAs (x : Dev) (hdr : TwinHeader) (t2 : Nat) (accept : Bool) : Dev :=
  let y := x.setDbl (fun b => { b with
    accepted := if accept then some (b.accepted.getD hdr.time) else none, t2 := t2, t3 := x.txStampAt 48 x.now, taken := some hdr.time })
  let r := [0, 1, 2, 3, 4].foldl (fun (z : List Nat × Dev) _ => let w := z.2.free; (w.1 % 2 ^ 32 :: z.1, w.2)) ([], y)
  (r.2.sendCopy true (r.2.header hdr.time accept false) []).emit (.doublet "digests" r.1)

/-- A handover's notice is accepted while this side is ready. -/
def Dev.acknowledge (x : Dev) (hdr : TwinHeader) (t2 : Nat) : Dev :=
  x.acknowledgeAs hdr t2 (hdr.notice && x.flag DBL.page DBL.DBL_STAT.READY)

/-- A copy that arrives whole, once its header is checked. -/
def Dev.copyArrives (d : Dev) (hdr : TwinHeader) (items : List CopyItem) (edge : RxEdge) (kib : Nat) : Dev :=
  if d.isOwner || d.dbl.sameSide || d.dbl.taken == some hdr.time then d else
  ((((d.showTwinOfs hdr).takeCopy items kib).noteCopy hdr).staleWhileFull hdr).acknowledge hdr (d.rxStamp 48 edge)

theorem exec_dblCopyReceived_whole {s : State} {hdr : TwinHeader} {items : List CopyItem} {edge : RxEdge} {kib : BitVec 10}
    (hon : s.dev.dblOn = true) (hpage : s.dev.pageUp DBL.page = true) (hup : s.dev.dblUp = true) :
    exec (.dblCopyReceived true hdr items edge kib) s = .next { s with
      dev := (s.dev.checkTwin hdr).copyArrives hdr items edge kib.toNat } :=
  onDev_eq (exec_dblCopyReceived true hdr items edge kib s)
    ((if_neg (Dev.twinLink_up hon hpage hup)).trans (if_neg (by decide)))

/-- An acknowledgement's times and its twin's readiness, noted. -/
def Dev.noteAck (d : Dev) (hdr : TwinHeader) (edge : RxEdge) : Dev :=
  ((d.checkTwin hdr).setDbl (fun b => { b with awaiting := false, sent := [], t4 := d.rxStamp 48 edge })).setFlag
    DBL.page DBL.DBL_STAT.TWIN_READY hdr.ready

/-- A full copy is done once nothing of it waits. -/
def Dev.fullCopyDone (d : Dev) : Dev :=
  if d.dbl.queue.isEmpty && !d.dbl.needFull then d.set DBL.page DBL.DBL_STAT.FULL_COPY 0 else d

/-- What differs at the twin is copied again. -/
def Dev.copyAgain (d : Dev) (mismatch : BitVec 5) : Dev :=
  if mismatch = 0 then d else
    let x := ((d.incSat DBL.page DBL.COPY_ERR.DIGEST_CNT).raise DBL.page DBL.INT_RAW.DIGEST).count 0xD84
    let again := (x.fullCopy (x.now + 1)).filter (fun i => (itemOrder i == 2 && mismatch.getLsbD 0)
      || (itemOrder i == 3 && mismatch.getLsbD 2) || (itemOrder i == 4 && mismatch.getLsbD 1))
    (x.setDbl (fun b => { b with queue := b.queue ++ again })).setFlag DBL.page DBL.DBL_STAT.FULL_COPY
      (x.flag DBL.page DBL.DBL_STAT.FULL_COPY || !again.isEmpty)

/-- A handover that was announced goes on by what the acknowledgement says of it. -/
def Dev.handoverAcked (d : Dev) (hdr : TwinHeader) : Dev :=
  match d.dbl.hand with
  | some h =>
    if h.e1.isNone then d
    else if hdr.notice then d.setDbl (fun b => { b with hand := some { h with accepted := true } })
    else if h.accepted then d
    else ((d.setDbl (fun b => { b with hand := none })).set DBL.page DBL.DBL_STAT.HANDOVER_PEND 0).err DBL.page 0x81
      DBL.DBL_CMD.HANDOVER.off
  | none => d

theorem Dev.twinOwner_eq_true {d : Dev} (hon : d.dblOn = true) (hpage : d.pageUp DBL.page = true) (hup : d.dblUp = true)
    (hown : d.isOwner = true) : ¬(!d.dblOn || !d.pageUp DBL.page || !d.dblUp || !d.isOwner) = true := by
  simp [hon, hpage, hup, hown]

theorem exec_dblAckReceived_whole {s : State} {hdr : TwinHeader} {mismatch : BitVec 5} {edge : RxEdge}
    (hon : s.dev.dblOn = true) (hpage : s.dev.pageUp DBL.page = true) (hup : s.dev.dblUp = true)
    (hown : s.dev.isOwner = true) :
    exec (.dblAckReceived true hdr mismatch edge) s = .next { s with
      dev := (((s.dev.noteAck hdr edge).fullCopyDone).copyAgain mismatch).handoverAcked hdr } :=
  onDev_eq (exec_dblAckReceived true hdr mismatch edge s)
    ((if_neg (Dev.twinOwner_eq_true hon hpage hup hown)).trans (if_neg (by decide)))

theorem Dev.handoverAcked_none {d : Dev} {hdr : TwinHeader} (h : ∀ h, d.dbl.hand = some h → h.e1 = none) :
    d.handoverAcked hdr = d := by
  unfold Dev.handoverAcked
  split
  case h_1 x hx => exact if_pos (by rw [h x hx]; rfl)
  case h_2 => rfl

theorem Dev.handoverAcked_announced {d : Dev} {hdr : TwinHeader} {h : Handover} (hh : d.dbl.hand = some h) (he : h.e1 ≠ none) :
    d.handoverAcked hdr = if hdr.notice then d.setDbl (fun b => { b with hand := some { h with accepted := true } })
      else if h.accepted then d
      else ((d.setDbl (fun b => { b with hand := none })).set DBL.page DBL.DBL_STAT.HANDOVER_PEND 0).err DBL.page 0x81
        DBL.DBL_CMD.HANDOVER.off := by
  rw [Dev.handoverAcked, hh]
  exact if_neg (by simpa using he)

/-- Settles O32: a copy and its acknowledgement by what the link and the header say, their effect by its parts. -/
theorem doubletCopy : Obligations.DoubletCopy := by
  refine ⟨?dblCycleEnd, ?copyNotServed, ?copyBroken, ?copyNotTaken, ?copyTaken, ?ackNotServed, ?ackBroken, ?ackTaken,
    ?ackOfHandover, ?dblFullCopy⟩
  case dblCycleEnd =>
    intro s fit kib backlog hDblOn hPageUp hCycleDue
    exact onDev_eq (exec_dblCycleEnd fit kib backlog s) (Dev.when_pos _ _ (by simp [hDblOn, hPageUp, hCycleDue]))
  case copyNotServed =>
    intro s crcOk hdr items edge kib hDblOn
    exact onDev_eq (exec_dblCopyReceived crcOk hdr items edge kib s) (if_pos (Dev.twinLink_down hDblOn))
  case copyBroken =>
    intro s hdr items edge kib hDblOn hPageUp hDblUp
    exact onDev_eq (exec_dblCopyReceived false hdr items edge kib s)
      ((if_neg (Dev.twinLink_up hDblOn hPageUp hDblUp)).trans (if_pos rfl))
  case copyNotTaken =>
    intro s hdr items edge kib d hDblOn hPageUp hDblUp hd hIsOwner
    subst hd
    rw [exec_dblCopyReceived_whole hDblOn hPageUp hDblUp, Dev.copyArrives, if_pos]
    rcases hIsOwner with h | h | h <;> simp [h]
  case copyTaken =>
    intro s hdr items edge kib t2 accept d e f g x hDblOn hPageUp hDblUp hd hIsOwner hDbl hDbl2 ht2 he hf hg hx
      haccept
    have he' : d.showTwinOfs hdr = e := he.symm
    have hf' : e.takeCopy items kib.toNat = f := hf.symm
    have hg' : f.noteCopy hdr = g := hg.symm
    have hx' : g.staleWhileFull hdr = x := hx.symm
    rw [exec_dblCopyReceived_whole hDblOn hPageUp hDblUp, ← hd, Dev.copyArrives, if_neg (by simp [hIsOwner, hDbl, hDbl2]), he',
      hf', hg', hx', ← ht2, Dev.acknowledge, ← haccept]
    rfl
  case ackNotServed =>
    intro s crcOk hdr mismatch edge hDblOn
    refine onDev_eq (exec_dblAckReceived crcOk hdr mismatch edge s) (if_pos ?_)
    rcases hDblOn with h | h | h | h <;> simp [h]
  case ackBroken =>
    intro s hdr mismatch edge hDblOn hPageUp hDblUp hIsOwner
    exact onDev_eq (exec_dblAckReceived false hdr mismatch edge s)
      ((if_neg (Dev.twinOwner_eq_true hDblOn hPageUp hDblUp hIsOwner)).trans (if_pos rfl))
  case ackTaken =>
    intro s hdr mismatch edge c d e hDblOn hPageUp hDblUp hIsOwner hc hd he hDbl
    have hc' : s.dev.noteAck hdr edge = c := hc.symm
    have hd' : c.fullCopyDone = d := hd.symm
    have he' : d.copyAgain mismatch = e := he.symm
    rw [exec_dblAckReceived_whole hDblOn hPageUp hDblUp hIsOwner, hc', hd', he', Dev.handoverAcked_none hDbl]
  case ackOfHandover =>
    intro s hdr mismatch edge c d h hDblOn hPageUp hDblUp hIsOwner hmismatch hc hd hDbl hx
    have hc' : s.dev.noteAck hdr edge = c := hc.symm
    have hd' : c.fullCopyDone = d := hd.symm
    rw [exec_dblAckReceived_whole hDblOn hPageUp hDblUp hIsOwner, hc', hd', Dev.copyAgain, if_pos hmismatch,
      Dev.handoverAcked_announced hDbl hx]
  case dblFullCopy =>
    intro s acc hmay
    exact exec_of_asOwner rfl hmay rfl

/-! ### The recovery tables -/

/-- Settles O33: an operation of the window by the table that it names; the time-out by the function's entry. -/
theorem recoveryWindow : Obligations.RecoveryWindow := by
  refine ⟨?entryRead, ?entryReadNoTable, ?entryWrite, ?entryWriteRefused, ?resetRecovery, ?resetNoRecovery,
    ?recoveryResetTimeout⟩
  case entryRead =>
    intro s acc t hr hDblTable
    exact exec_of_asAny rfl hr (by simp [hDblTable])
  case entryReadNoTable =>
    intro s acc hr hDblTable
    exact exec_of_asAny rfl hr (by simp [hDblTable])
  case entryWrite =>
    intro s acc t hmay hDblTable hEntryBad
    exact exec_of_asOwner rfl hmay (by simp [hDblTable, hEntryBad])
  case entryWriteRefused =>
    intro s acc hmay hx
    refine exec_of_asOwner (exec_dblEntryWrite acc s) hmay ?_
    cases htable : dblTable (winTable s.dev dblWin acc) with
    | none => rfl
    | some t => exact if_pos (hx t htable)
  case resetRecovery =>
    intro s acc hmay hWinTable
    exact exec_of_asOwner rfl hmay (if_pos hWinTable)
  case resetNoRecovery =>
    intro s acc hmay hWinTable
    exact exec_of_asOwner rfl hmay (if_neg hWinTable)
  case recoveryResetTimeout =>
    intro s handle w hw hBitOf hBitOf2 hRecLast
    subst hw
    exact onDev_eq (exec_recoveryResetTimeout handle s) (if_pos (by simp [hBitOf, hBitOf2, hRecLast]))

end Sys2Proof.Machine
end

section
/-!
The mailboxes: a notice sent and read (R314 to R316, R329), WAIT, a crossed wait and the twin's side (R316 to R318).
-/
namespace Sys2Proof.Machine

theorem exec_mbxSend (acc : Accessor) (ch : Fin 32) (fw : Bool) (mid : BitVec 32) (payload : List (BitVec 8)) (s : State) :
    exec (.mbxSend acc ch fw mid payload) s = execMbxSend acc ch fw mid payload s := rfl

theorem exec_mbxReceive (acc : Accessor) (ch : Fin 32) (fw : Bool) (s : State) :
    exec (.mbxReceive acc ch fw) s = execMbxReceive acc ch fw s := rfl

theorem exec_mbxWaitSet (acc : Accessor) (ch : Fin 32) (s : State) :
    exec (.mbxWaitSet acc ch) s = execMbxWaitSet acc ch s := rfl

theorem exec_mbxWaitClr (acc : Accessor) (ch : Fin 32) (s : State) :
    exec (.mbxWaitClr acc ch) s = execMbxWaitClr acc ch s := rfl

theorem exec_mbxCrossed (ch : Fin 32) (s : State) : exec (.mbxCrossed ch) s = execMbxCrossed ch s := rfl

theorem exec_mbxTwinDelivery (ch : Fin 4) (what : TwinMbx) (s : State) :
    exec (.mbxTwinDelivery ch what) s = execMbxTwinDelivery ch what s := rfl

/-! ### Sending -/

section
variable {s : State} {acc : Accessor} {ch : Fin 32} {fw : Bool} {mid : BitVec 32} {payload : List (BitVec 8)}
  (hreach : mbxReach acc ch = true) (hup : s.dev.pageUp (mbxPage ch) = true)
  (hheld : s.dev.pageHeld (mbxPage ch) = false)
include hreach hup hheld

theorem exec_mbxSend_open {d : Dev} {m : List Host.Cell} (h : (if (!mbxSender acc ch fw) = true then
      (s.dev.when (mbxReceiver acc ch fw) (·.err (mbxPage ch) 0x91 (mbxNo ch fw)), s.dram)
    else if 28 ≤ ch.val ∧ (!s.dev.twinLink) = true then
      (s.dev.mbxRefuse ch fw 2, s.dev.storePayload s.dram acc ch fw mid payload)
    else if s.dev.mbxFull ch fw = true then (s.dev.mbxRefuse ch fw 1, s.dev.storePayload s.dram acc ch fw mid payload)
    else
      (((s.dev.mbxStore ch fw (s.dev.mbxNotice acc ch fw mid)).mbxRing ch fw).mbxCarry ch (s.dev.mbxNotice acc ch fw mid)
        (readPayload (s.dev.storePayload s.dram acc ch fw mid payload) ch (s.dev.mbxNotice acc ch fw mid)),
        s.dev.storePayload s.dram acc ch fw mid payload)) = (d, m)) :
    exec (.mbxSend acc ch fw mid payload) s = .next { s with dev := d, dram := m } :=
  onMem_eq (exec_mbxSend acc ch fw mid payload s)
    ((if_neg (by simp [hreach, hup])).trans ((if_neg (by simp [hheld])).trans h))

/-! ### Reading -/

/-- A MID read hands over what the direction holds, and firmware acts on it. -/
theorem exec_mbxReceive_open {e : Dev} (h : s.dev.mbxReceive acc ch fw = e) :
    exec (.mbxReceive acc ch fw) s = .next { pump { s with dev := e.fwSkim ch (e.fwCmd ch) } with pending := s.pending } := by
  subst h
  have hopen : ∀ a b c : State, (if (!mbxReach acc ch) = true then a else if (!s.dev.pageUp (mbxPage ch)) = true then b
      else if s.dev.pageHeld (mbxPage ch) = true then c else takeNotice acc ch fw s) = takeNotice acc ch fw s := by
    intro a b c
    rw [if_neg (by simp [hreach]), if_neg (by simp [hup]), if_neg (by simp [hheld])]
  rw [exec_mbxReceive, execMbxReceive, onState, hopen]
  rfl

end

section
variable {d : Dev} {acc : Accessor} {ch : Nat} {fw : Bool}

theorem Dev.mbxReceive_empty (h : d.mbxFull ch fw = false) : d.mbxReceive acc ch fw = d.emit (.reply "mailbox" [0, 0]) :=
  if_pos (by simp [h])

theorem Dev.mbxReceive_sender (h : d.mbxFull ch fw = true) (hside : acc.isFw = fw ∨ (28 ≤ ch ∧ acc.isFw = false)) :
    d.mbxReceive acc ch fw = (d.seen .notice (mbxNo ch fw)).emit (.reply "mailbox"
      [bitsOf (d.noticeHeld (mbxNo ch fw)) 31 0, bitsOf (d.noticeHeld (mbxNo ch fw)) 63 32]) := by
  have hsender : (acc.isFw == fw || (decide (28 ≤ ch) && !acc.isFw)) = true := by
    rcases hside with h | ⟨h28, hfw⟩
    · simp [h]
    · simp [h28, hfw]
  exact (if_neg (by simp [h])).trans (if_pos hsender)

/-- The notice taken out of its direction. -/
def Dev.noticeTaken (d : Dev) (ch : Nat) (fw : Bool) (n : Data) : Dev :=
  (((((d.mbxSet ch (mbxDir fw).ecc 0).mbxEmpty ch fw).mbxAck ch fw).mbxMirror ch).emit (.reply "mailbox"
    [bitsOf n 31 0, bitsOf n 63 32])).twinReports ch n

/-- A command that firmware has read waits for its service. -/
def Dev.noticeQueued (d : Dev) (ch : Nat) (fw : Bool) (n : Data) : Dev :=
  if !fw && noticeKind n == 0 && decide (ch < 28) then d.setFwCmd ch (d.fwCmd ch ++ [n]) else d

theorem Dev.mbxReceive_clean {n : Data} (h : d.mbxFull ch fw = true) (hfw : acc.isFw ≠ fw) (hside : ch < 28 ∨ acc.isFw = true)
    (hread : d.readNative .notice (mbxNo ch fw) = .clean n) :
    d.mbxReceive acc ch fw = (d.noticeTaken ch fw n).noticeQueued ch fw n := by
  have hseen : d.seen .notice (mbxNo ch fw) = d := by rw [Dev.seen, hread]
  have hheld : d.noticeHeld (mbxNo ch fw) = n := by rw [Dev.noticeHeld, hread]
  have hbad : (d.readNative .notice (mbxNo ch fw) == .uncorrectable) = false := by rw [hread]; rfl
  have hreceiver : ¬(acc.isFw == fw || (decide (28 ≤ ch) && !acc.isFw)) = true := by
    rcases hside with h | h
    · simp [hfw, h]
    · simpa [h] using fun e => hfw (h.trans e)
  refine (if_neg (by simp [h])).trans ((if_neg hreceiver).trans ?_)
  simp only [hseen, hheld, hbad, Bool.false_eq_true, if_false]
  rfl

end

/-- Settles O34: a write by the direction's state and the link, a read by the reader's side. -/
theorem mailboxSendAndReceive : Obligations.MailboxSendAndReceive := by
  refine ⟨?sent, ?sendFull, ?sendLinkDown, ?sendByReceiver, ?readUnreached, ?readInReset, ?readEmpty, ?readBySender,
    ?noticeTaken⟩
  case sent =>
    intro s acc ch fw mid payload n m d hMbxReach hPageUp hPageHeld hMbxSender hn hm hTwinLink hMbxFull hd
    subst hd hm hn
    exact exec_mbxSend_open hMbxReach hPageUp hPageHeld ((if_neg (by simp [hMbxSender])).trans
      ((if_neg (by simpa using hTwinLink)).trans (if_neg (by simp [hMbxFull]))))
  case sendFull =>
    intro s acc ch fw mid payload n m hMbxReach hPageUp hPageHeld hMbxSender hn hm hTwinLink hMbxFull
    subst hm hn
    exact exec_mbxSend_open hMbxReach hPageUp hPageHeld ((if_neg (by simp [hMbxSender])).trans
      ((if_neg (by simpa using hTwinLink)).trans (if_pos hMbxFull)))
  case sendLinkDown =>
    intro s acc ch fw mid payload n m hMbxReach hPageUp hPageHeld hMbxSender hn hm hx hTwinLink
    subst hm hn
    exact exec_mbxSend_open hMbxReach hPageUp hPageHeld ((if_neg (by simp [hMbxSender])).trans
      (if_pos ⟨hx, by simp [hTwinLink]⟩))
  case sendByReceiver =>
    intro s acc ch fw mid payload hMbxReach hPageUp hPageHeld hMbxSender hMbxReceiver
    refine exec_mbxSend_open hMbxReach hPageUp hPageHeld ((if_pos (by simp [hMbxSender])).trans ?_)
    rw [Dev.when_pos _ _ hMbxReceiver]
  case readUnreached =>
    intro s acc ch fw hMbxReach
    rw [exec_mbxReceive, execMbxReceive, onState, if_pos (by simp [hMbxReach])]
  case readInReset =>
    intro s acc ch fw hMbxReach hPageUp
    rw [exec_mbxReceive, execMbxReceive, onState, if_neg (by simp [hMbxReach]), if_pos (by simp [hPageUp])]
  case readEmpty =>
    intro s acc ch fw e hMbxReach hPageUp hPageHeld hMbxFull he
    subst he
    exact exec_mbxReceive_open hMbxReach hPageUp hPageHeld (Dev.mbxReceive_empty hMbxFull)
  case readBySender =>
    intro s acc ch fw n e hMbxReach hPageUp hPageHeld hMbxFull hAcc hn he
    subst he hn
    exact exec_mbxReceive_open hMbxReach hPageUp hPageHeld (Dev.mbxReceive_sender hMbxFull hAcc)
  case noticeTaken =>
    intro s acc ch fw n d e hMbxReach hPageUp hPageHeld hMbxFull hAcc hx hReadNative hd he
    subst he hd
    exact exec_mbxReceive_open hMbxReach hPageUp hPageHeld (Dev.mbxReceive_clean hMbxFull hAcc hx hReadNative)

/-! ### Waiting -/

/-- Settles O35: WAIT by the direction's owner; a crossed wait by the four flags; the twin's side by the link. -/
theorem mailboxWaits : Obligations.MailboxWaits := by
  refine ⟨?mbxWaitSet, ?mbxWaitClr, ?mbxCrossed, ?twinLinkDown, ?twinNotice, ?twinMirror⟩
  case mbxWaitSet =>
    intro s acc ch hMbxReach hmay
    exact onDev_eq (exec_mbxWaitSet acc ch s) ((Dev.when_pos _ _ hMbxReach).trans (Dev.asOwner_may _ hmay))
  case mbxWaitClr =>
    intro s acc ch hMbxReach hmay
    exact onDev_eq (exec_mbxWaitClr acc ch s) ((Dev.when_pos _ _ hMbxReach).trans (Dev.asOwner_may _ hmay))
  case mbxCrossed =>
    intro s ch p w d e hMbxFull hMbxFull2 hMbxGet hMbxGet2 hMbxGet3 hp hd hw he
    subst he hw hd hp
    exact onDev_eq (exec_mbxCrossed ch s) (if_pos (by simp [hMbxFull, hMbxFull2, hMbxGet, hMbxGet2, hMbxGet3]))
  case twinLinkDown =>
    intro s ch what hTwinLink
    exact onMem_eq (exec_mbxTwinDelivery ch what s) (if_pos (by simp [hTwinLink]))
  case twinNotice =>
    intro s ch n payload m hTwinLink hMbxFull hm
    subst hm
    exact onMem_eq (exec_mbxTwinDelivery ch (.notice n payload) s) ((if_neg (by simp [hTwinLink])).trans (if_neg (by simp [hMbxFull])))
  case twinMirror =>
    intro s ch full wait d hTwinLink hd
    subst hd
    exact onMem_eq (exec_mbxTwinDelivery ch (.mirror full wait) s) (if_neg (by simp [hTwinLink]))

end Sys2Proof.Machine
end

section
/-!
System and page commands of the mailboxes (R309, R311, R320, R321).
-/
namespace Sys2Proof.Machine

theorem exec_sysVersion (ch : Fin 32) (s : State) : exec (.sysVersion ch) s = execSysVersion ch s := rfl

theorem exec_sysRestart (ch : Fin 32) (s : State) : exec (.sysRestart ch) s = execSysRestart ch s := rfl

theorem exec_sysPlacement (ch : Fin 32) (s : State) : exec (.sysPlacement ch) s = execSysPlacement ch s := rfl

theorem exec_pageHold (ch : Fin 32) (s : State) : exec (.pageHold ch) s = execPageHold ch s := rfl

theorem exec_pageRelease (ch : Fin 32) (s : State) : exec (.pageRelease ch) s = execPageRelease ch s := rfl

theorem exec_pageHoldExpiry (page : BitVec 16) (s : State) :
    exec (.pageHoldExpiry page) s = execPageHoldExpiry page s := rfl

theorem exec_pageGrant (ch : Fin 32) (s : State) : exec (.pageGrant ch) s = execPageGrant ch s := rfl

theorem exec_pageWrite (ch : Fin 32) (s : State) : exec (.pageWrite ch) s = execPageWrite ch s := rfl

/-- The fields of a HOLD are good. -/
theorem holdFields_good {page ms : Nat} (hpage : (pageOf page).isSome = true) (hpos : 0 < ms) (hmax : ms ≤ 60000) :
    ¬((pageOf page).isNone || ms == 0 || decide (60000 < ms)) = true := by
  rw [← Option.not_isSome, hpage]
  simp
  omega

/-- What WRITE does once every entry of its list is allowed. -/
def writePages (ch : Fin 32) (n : Data) (l : List (Nat × Nat × Word)) (s : State) : State :=
  match (pageWrites (chFw ch) l s).2 with
  | some (page, off, _) =>
    let code := if off < 0x40 then (pageWrites (chFw ch) l s).1.dev.get page COM.COMMIT_STAT.CODE else 0
    let d := if off < 0x40 then
      s.dev.rejectCommit page code ((pageWrites (chFw ch) l s).1.dev.get page COM.ERR_INFO.DETAIL) else s.dev
    { s with dev := d.fwRefused ch n page code }
  | none =>
    let r := (pageWrites (chFw ch) l s).1
    { r with dev := r.dev.fwReply ch n 0 [r.dev.commitWord ((l.getLast?.map (·.1)).getD 0)] }

section
variable {s t : State} {ch : Fin 32} {n : Data} {rest : List Data} {bs : List (BitVec 8)} {r : State}
  (hcmd : s.dev.fwCmd ch = n :: rest) (hruns : s.dev.fwRuns = true) (hfam : noticeFamily n = 1)
  (hcode : noticeCode n = 4) (hcheck : s.dev.fwCheck ch n = none) (hr : r = { s with dev := s.dev.setFwCmd ch rest })
  (hbs : bs = readPayload s.dram ch n)
include hcmd hruns hfam hcode hcheck hr hbs

theorem exec_pageWrite_allowed (hlist : (writeList (payloadWords bs)).findSome? (r.dev.writeBad ch) = none)
    (ht : t = writePages ch n (writeList (payloadWords bs)) r) :
    exec (.pageWrite ch) s = .next { pump { t with dev := t.dev.fwSkim ch (t.dev.fwCmd ch) } with pending := s.pending } := by
  subst ht hr hbs
  refine fwRun_eq (exec_pageWrite ch s) hcmd hruns hfam hcode hcheck ?_
  simp only [hlist] <;> rfl

theorem exec_pageWrite_refused {st : Nat} (hlist : (writeList (payloadWords bs)).findSome? (r.dev.writeBad ch) = some st)
    (ht : t = { r with dev := r.dev.fwReply ch n st [] }) :
    exec (.pageWrite ch) s = .next { pump { t with dev := t.dev.fwSkim ch (t.dev.fwCmd ch) } with pending := s.pending } := by
  subst ht hr hbs
  refine fwRun_eq (exec_pageWrite ch s) hcmd hruns hfam hcode hcheck ?_
  simp only [hlist]

end

/-- Settles O36: a command at the front that passes its checks, by its fields and the page's owner. -/
theorem systemAndPageCommands : Obligations.SystemAndPageCommands := by
  refine ⟨?sysVersion, ?sysRestart, ?sysPlacement, ?pageHold, ?pageHoldNotOwner, ?pageHoldHeld, ?pageRelease,
    ?holdEnds, ?holdStands, ?pageGrant, ?pageWrite, ?pageWriteCommitRejected, ?pageWriteRefused, ?pageWriteNotAllowed⟩
  case sysVersion =>
    intro s ch n rest ws d e hFwCmd hFwRuns hNoticeFamily hNoticeCode hFwCheck hd hws he
    subst he hd
    exact fwRunDev_eq (exec_sysVersion ch s) hFwCmd hFwRuns hNoticeFamily hNoticeCode hFwCheck rfl
  case sysRestart =>
    intro s ch n rest ws d e hFwCmd hFwRuns hNoticeFamily hNoticeCode hFwCheck hd hws he
    subst he hd
    exact fwRunDev_eq (exec_sysRestart ch s) hFwCmd hFwRuns hNoticeFamily hNoticeCode hFwCheck rfl
  case sysPlacement =>
    intro s ch n rest ws d e hFwCmd hFwRuns hNoticeFamily hNoticeCode hFwCheck hd hws he
    subst he hd
    exact fwRunDev_eq (exec_sysPlacement ch s) hFwCmd hFwRuns hNoticeFamily hNoticeCode hFwCheck rfl
  case pageHold =>
    intro s ch n rest ws d e page ms hFwCmd hFwRuns hNoticeFamily hNoticeCode hFwCheck hd hws hpage hms hPageOf hx hx2
      hOwns hHostHolds he
    have hgood := holdFields_good hPageOf hx hx2
    subst he hms hpage hws hd
    exact fwRunDev_eq (exec_pageHold ch s) hFwCmd hFwRuns hNoticeFamily hNoticeCode hFwCheck
      ((if_neg hgood).trans ((if_neg (by simp [hOwns])).trans (if_neg (by simp [hHostHolds]))))
  case pageHoldNotOwner =>
    intro s ch n rest ws d e page ms hFwCmd hFwRuns hNoticeFamily hNoticeCode hFwCheck hd hws hpage hms hPageOf hx hx2
      hOwns he
    have hgood := holdFields_good hPageOf hx hx2
    subst he hms hpage hws hd
    exact fwRunDev_eq (exec_pageHold ch s) hFwCmd hFwRuns hNoticeFamily hNoticeCode hFwCheck
      ((if_neg hgood).trans (if_pos (by simp [hOwns])))
  case pageHoldHeld =>
    intro s ch n rest ws d e page ms hFwCmd hFwRuns hNoticeFamily hNoticeCode hFwCheck hd hws hpage hms hPageOf hx hx2
      hOwns hHostHolds he
    have hgood := holdFields_good hPageOf hx hx2
    subst he hms hpage hws hd
    exact fwRunDev_eq (exec_pageHold ch s) hFwCmd hFwRuns hNoticeFamily hNoticeCode hFwCheck
      ((if_neg hgood).trans ((if_neg (by simp [hOwns])).trans (if_pos hHostHolds)))
  case pageRelease =>
    intro s ch n rest bs r t page u hFwCmd hFwRuns hNoticeFamily hNoticeCode hFwCheck hr hbs hpage hPageOf hu ht
    have hpresent : ¬(pageOf page).isNone = true := by simp [← Option.not_isSome, hPageOf]
    subst ht hu hpage hbs hr
    exact fwRun_eq (exec_pageRelease ch s) hFwCmd hFwRuns hNoticeFamily hNoticeCode hFwCheck (if_neg hpresent)
  case holdEnds =>
    intro s page t hPageHolds hNow
    have hdue : s.dev.due (tget (fun _ => none) s.dev.pageHolds page.toNat) = true := by
      rw [hPageHolds]
      exact decide_eq_true hNow
    rw [exec_pageHoldExpiry, execPageHoldExpiry, onState, if_pos hdue]
  case holdStands =>
    intro s page hPageHolds
    have hwaits : ¬s.dev.due (tget (fun _ => none) s.dev.pageHolds page.toNat) = true := by
      cases hold : tget (fun _ => none) s.dev.pageHolds page.toNat with
      | none => exact Bool.false_ne_true
      | some t => simpa [Dev.due] using hPageHolds t hold
    rw [exec_pageHoldExpiry, execPageHoldExpiry, onState, if_neg hwaits]
  case pageGrant =>
    intro s ch n rest ws d e page i t hFwCmd hFwRuns hNoticeFamily hNoticeCode hFwCheck hd hws hpage hPageOf
      hOwnerFixed hOwns he
    subst he hpage hws hd
    refine fwRunDev_eq (exec_pageGrant ch s) hFwCmd hFwRuns hNoticeFamily hNoticeCode hFwCheck ?_
    simp only [hPageOf]
    exact (if_neg (by simp [hOwnerFixed])).trans (if_neg (by simp [hOwns]))
  case pageWrite =>
    intro s ch n rest bs r t x hFwCmd hFwRuns hNoticeFamily hNoticeCode hFwCheck hr hbs hWriteList hx hx2 ht
    refine exec_pageWrite_allowed hFwCmd hFwRuns hNoticeFamily hNoticeCode hFwCheck hr hbs hWriteList ?_
    subst hx
    rw [ht, writePages, hx2]
  case pageWriteCommitRejected =>
    intro s ch n rest bs r t x page off v hFwCmd hFwRuns hNoticeFamily hNoticeCode hFwCheck hr hbs hWriteList hx hx2
      hOff ht
    refine exec_pageWrite_allowed hFwCmd hFwRuns hNoticeFamily hNoticeCode hFwCheck hr hbs hWriteList ?_
    subst hx
    rw [ht, writePages, hx2]
    simp only [hOff, if_true]
  case pageWriteRefused =>
    intro s ch n rest bs r t x page off v hFwCmd hFwRuns hNoticeFamily hNoticeCode hFwCheck hr hbs hWriteList hx hx2
      hx3 ht
    refine exec_pageWrite_allowed hFwCmd hFwRuns hNoticeFamily hNoticeCode hFwCheck hr hbs hWriteList ?_
    subst hx
    rw [ht, writePages, hx2]
    simp only [not_lt.mpr hx3, if_false]
  case pageWriteNotAllowed =>
    intro s ch n rest bs r t st hFwCmd hFwRuns hNoticeFamily hNoticeCode hFwCheck hr hbs hWriteList ht
    exact exec_pageWrite_refused hFwCmd hFwRuns hNoticeFamily hNoticeCode hFwCheck hr hbs hWriteList ht

end Sys2Proof.Machine
end

section
/-!
The service commands of the mailboxes (R305, R321): PTP, REF, RED, BLK, LLDP, LOG and EPASH.
-/
namespace Sys2Proof.Machine

theorem exec_ptpInstance (ch : Fin 32) (s : State) : exec (.ptpInstance ch) s = execPtpInstance ch s := rfl

theorem exec_ptpPort (ch : Fin 32) (s : State) : exec (.ptpPort ch) s = execPtpPort ch s := rfl

theorem exec_ptpDataset (ch : Fin 32) (dataset : List (BitVec 8)) (s : State) :
    exec (.ptpDataset ch dataset) s = execPtpDataset ch dataset s := rfl

theorem exec_ptpAsym (ch : Fin 32) (s : State) : exec (.ptpAsym ch) s = execPtpAsym ch s := rfl

theorem exec_refSlotCmd (ch : Fin 32) (s : State) : exec (.refSlotCmd ch) s = execRefSlotCmd ch s := rfl

theorem exec_refModelCmd (ch : Fin 32) (s : State) : exec (.refModelCmd ch) s = execRefModelCmd ch s := rfl

theorem exec_refStoreCmd (ch : Fin 32) (s : State) : exec (.refStoreCmd ch) s = execRefStoreCmd ch s := rfl

theorem exec_redPairCmd (ch : Fin 32) (s : State) : exec (.redPairCmd ch) s = execRedPairCmd ch s := rfl

theorem exec_redStreamCmd (ch : Fin 32) (s : State) : exec (.redStreamCmd ch) s = execRedStreamCmd ch s := rfl

theorem exec_redLatentCmd (ch : Fin 32) (s : State) : exec (.redLatentCmd ch) s = execRedLatentCmd ch s := rfl

theorem exec_blkRequestCmd (ch : Fin 32) (s : State) : exec (.blkRequestCmd ch) s = execBlkRequestCmd ch s := rfl

theorem exec_lldpPortCmd (ch : Fin 32) (s : State) : exec (.lldpPortCmd ch) s = execLldpPortCmd ch s := rfl

theorem exec_lldpNeighboursCmd (ch : Fin 32) (s : State) :
    exec (.lldpNeighboursCmd ch) s = execLldpNeighboursCmd ch s := rfl

theorem exec_logMarkCmd (ch : Fin 32) (s : State) : exec (.logMarkCmd ch) s = execLogMarkCmd ch s := rfl

theorem exec_logExportCmd (ch : Fin 32) (s : State) : exec (.logExportCmd ch) s = execLogExportCmd ch s := rfl

theorem exec_epashCfgCmd (ch : Fin 32) (s : State) : exec (.epashCfgCmd ch) s = execEpashCfgCmd ch s := rfl

/-- Another PTP entity than the one that `w` sets runs in the same domain. -/
def Dev.ptpClash (d : Dev) (w : Nat) : Bool :=
  (w != 0 && w / 2 ^ 50 % 4 != 2) && (List.range 4).any (fun j =>
    j != w % 4 && (tget (fun _ => 0) d.ptpInst j != 0 && tget (fun _ => 0) d.ptpInst j / 2 ^ 50 % 4 != 2)
      && tget (fun _ => 0) d.ptpInst j / 2 ^ 56 == w / 2 ^ 56)

theorem Dev.not_ptpClash {d : Dev} {w : Nat}
    (h : ∀ j < 4, j ≠ w % 4 → w ≠ 0 → w / 2 ^ 50 % 4 ≠ 2 → tget (fun _ => 0) d.ptpInst j ≠ 0 →
      tget (fun _ => 0) d.ptpInst j / 2 ^ 50 % 4 ≠ 2 → tget (fun _ => 0) d.ptpInst j / 2 ^ 56 ≠ w / 2 ^ 56) :
    ¬d.ptpClash w = true := by
  intro hclash
  simp only [Dev.ptpClash, Bool.and_eq_true, bne_iff_ne, List.any_eq_true, List.mem_range, beq_iff_eq] at hclash
  obtain ⟨⟨hw, htype⟩, j, hj, ⟨hother, hon, htype'⟩, hsame⟩ := hclash
  exact h j hj hother hw htype hon htype' hsame

/-- Settles O37: a command at the front that passes its checks and whose fields are good. -/
theorem serviceCommands : Obligations.ServiceCommands := by
  refine ⟨?ptpInstance, ?ptpPort, ?ptpDataset, ?ptpAsym, ?refSlotCmd, ?refModelCmd, ?refStoreCmd, ?refStoreBusy,
    ?redPairCmd, ?redStreamCmd, ?redLatentCmd, ?blkRequestCmd, ?lldpPortCmd, ?lldpNeighboursCmd, ?logMarkCmd,
    ?logExportCmd, ?epashCfgCmd⟩
  case ptpInstance =>
    intro s ch n rest ws d e hFwCmd hFwRuns hNoticeFamily hNoticeCode hFwCheck hd hws hWordAt hWordAt2 hPtpInst he
    have hgood : ¬(5 < wordAt ws 0 / 2 ^ 52 % 16 ∨ wordAt ws 0 / 2 ^ 50 % 4 = 3 ∨ d.ptpClash (wordAt ws 0) = true) := by
      rintro (h | h | h)
      · exact absurd h (not_lt.mpr hWordAt)
      · exact hWordAt2 h
      · exact Dev.not_ptpClash hPtpInst h
    subst he hws hd
    exact fwRunDev_eq (exec_ptpInstance ch s) hFwCmd hFwRuns hNoticeFamily hNoticeCode hFwCheck (if_neg hgood)
  case ptpPort =>
    intro s ch n rest ws d e hFwCmd hFwRuns hNoticeFamily hNoticeCode hFwCheck hd hws hWordAt hWordAt2 hWordAt3 hx hx2
      he
    have hgood : ¬(48 ≤ wordAt ws 0 / 2 ^ 58 ∨ 1 < wordAt ws 0 / 2 ^ 54 % 4 ∨ 2 < wordAt ws 0 / 2 ^ 52 % 4
        ∨ decide ((BitVec.ofNat 8 (wordAt ws 0 / 2 ^ 40)).toInt < -7) = true
        ∨ decide ((BitVec.ofNat 8 (wordAt ws 0 / 2 ^ 24)).toInt < -7) = true) := by
      simp only [decide_eq_true_eq]
      omega
    subst he hws hd
    exact fwRunDev_eq (exec_ptpPort ch s) hFwCmd hFwRuns hNoticeFamily hNoticeCode hFwCheck (if_neg hgood)
  case ptpDataset =>
    intro s ch n rest ws d e dataset hFwCmd hFwRuns hNoticeFamily hNoticeCode hFwCheck hd hws hFieldAt hFieldAt2 he
    have hgood : ¬(4 < fieldAt ws 0 7 0 ∨ (fieldAt ws 0 7 0 = 4 ∧ 48 ≤ wordAt ws 0 / 2 ^ 58)) := by omega
    subst he hws hd
    exact fwRunDev_eq (exec_ptpDataset ch dataset s) hFwCmd hFwRuns hNoticeFamily hNoticeCode hFwCheck (if_neg hgood)
  case ptpAsym =>
    intro s ch n rest ws d e port hFwCmd hFwRuns hNoticeFamily hNoticeCode hFwCheck hd hws hport hPort hx hSigned64 he
    have hgood : ¬(48 ≤ port ∨ signed64 (wordAt ws 1) < -2147483648 ∨ 2147483647 < signed64 (wordAt ws 1)) := by omega
    subst he hport hws hd
    exact fwRunDev_eq (exec_ptpAsym ch s) hFwCmd hFwRuns hNoticeFamily hNoticeCode hFwCheck (if_neg hgood)
  case refSlotCmd =>
    intro s ch n rest ws d e hFwCmd hFwRuns hNoticeFamily hNoticeCode hFwCheck hd hws he
    subst he hws hd
    exact fwRunDev_eq (exec_refSlotCmd ch s) hFwCmd hFwRuns hNoticeFamily hNoticeCode hFwCheck rfl
  case refModelCmd =>
    intro s ch n rest ws d e hFwCmd hFwRuns hNoticeFamily hNoticeCode hFwCheck hd hws he
    subst he hd
    exact fwRunDev_eq (exec_refModelCmd ch s) hFwCmd hFwRuns hNoticeFamily hNoticeCode hFwCheck rfl
  case refStoreCmd =>
    intro s ch n rest ws d e hFwCmd hFwRuns hNoticeFamily hNoticeCode hFwCheck hd hws hOptBusy hOptNextGen he
    subst he hd
    exact fwRunDev_eq (exec_refStoreCmd ch s) hFwCmd hFwRuns hNoticeFamily hNoticeCode hFwCheck
      ((if_neg (by simp [hOptBusy])).trans (if_neg (not_le.mpr hOptNextGen)))
  case refStoreBusy =>
    intro s ch n rest ws d e hFwCmd hFwRuns hNoticeFamily hNoticeCode hFwCheck hd hws hOptBusy he
    subst he hd
    exact fwRunDev_eq (exec_refStoreCmd ch s) hFwCmd hFwRuns hNoticeFamily hNoticeCode hFwCheck (if_pos hOptBusy)
  case redPairCmd =>
    intro s ch n rest ws d e hFwCmd hFwRuns hNoticeFamily hNoticeCode hFwCheck hd hws he
    subst he hws hd
    exact fwRunDev_eq (exec_redPairCmd ch s) hFwCmd hFwRuns hNoticeFamily hNoticeCode hFwCheck rfl
  case redStreamCmd =>
    intro s ch n rest ws d e hFwCmd hFwRuns hNoticeFamily hNoticeCode hFwCheck hd hws hFwMayWrite hEntryBad hEntryBad2
      he
    subst he hws hd
    refine fwRunDev_eq (exec_redStreamCmd ch s) hFwCmd hFwRuns hNoticeFamily hNoticeCode hFwCheck ?_
    simp only [hFwMayWrite]
    exact if_neg (by simp [hEntryBad, hEntryBad2])
  case redLatentCmd =>
    intro s ch n rest ws d e hFwCmd hFwRuns hNoticeFamily hNoticeCode hFwCheck hd hws he
    subst he hws hd
    exact fwRunDev_eq (exec_redLatentCmd ch s) hFwCmd hFwRuns hNoticeFamily hNoticeCode hFwCheck rfl
  case blkRequestCmd =>
    intro s ch n rest ws d e x hFwCmd hFwRuns hNoticeFamily hNoticeCode hFwCheck hd hws hFwMayWrite hx he
    subst he hx hws hd
    refine fwRunDev_eq (exec_blkRequestCmd ch s) hFwCmd hFwRuns hNoticeFamily hNoticeCode hFwCheck ?_
    simp only [hFwMayWrite]
  case lldpPortCmd =>
    intro s ch n rest ws d e hFwCmd hFwRuns hNoticeFamily hNoticeCode hFwCheck hd hws hWordAt he
    subst he hws hd
    exact fwRunDev_eq (exec_lldpPortCmd ch s) hFwCmd hFwRuns hNoticeFamily hNoticeCode hFwCheck (if_neg (not_le.mpr hWordAt))
  case lldpNeighboursCmd =>
    intro s ch n rest ws d e known x hFwCmd hFwRuns hNoticeFamily hNoticeCode hFwCheck hd hws hknown hx he
    subst he hx hknown hd
    exact fwRunDev_eq (exec_lldpNeighboursCmd ch s) hFwCmd hFwRuns hNoticeFamily hNoticeCode hFwCheck rfl
  case logMarkCmd =>
    intro s ch n rest bs r t hFwCmd hFwRuns hNoticeFamily hNoticeCode hFwCheck hr hbs hx ht
    subst ht hbs hr
    exact fwRun_eq (exec_logMarkCmd ch s) hFwCmd hFwRuns hNoticeFamily hNoticeCode hFwCheck (if_neg (not_lt.mpr hx))
  case logExportCmd =>
    intro s ch n rest bs r t hFwCmd hFwRuns hNoticeFamily hNoticeCode hFwCheck hr hbs ht
    subst ht hbs hr
    exact fwRun_eq (exec_logExportCmd ch s) hFwCmd hFwRuns hNoticeFamily hNoticeCode hFwCheck rfl
  case epashCfgCmd =>
    intro s ch n rest ws d e hFwCmd hFwRuns hNoticeFamily hNoticeCode hFwCheck hd hws he
    subst he hws hd
    exact fwRunDev_eq (exec_epashCfgCmd ch s) hFwCmd hFwRuns hNoticeFamily hNoticeCode hFwCheck rfl

end Sys2Proof.Machine
end

section
/-!
The update commands of the mailboxes (R324, R326).
-/
namespace Sys2Proof.Machine

theorem exec_updBegin (ch : Fin 32) (s : State) : exec (.updBegin ch) s = execUpdBegin ch s := rfl

theorem exec_updWrite (ch : Fin 32) (s : State) : exec (.updWrite ch) s = execUpdWrite ch s := rfl

theorem exec_updVerify (ch : Fin 32) (crcOk sigOk : Bool) (version : BitVec 32) (s : State) :
    exec (.updVerify ch crcOk sigOk version) s = execUpdVerify ch crcOk sigOk version s := rfl

theorem exec_updActivate (ch : Fin 32) (s : State) : exec (.updActivate ch) s = execUpdActivate ch s := rfl

theorem exec_updConfirm (ch : Fin 32) (s : State) : exec (.updConfirm ch) s = execUpdConfirm ch s := rfl

theorem exec_updAbort (ch : Fin 32) (s : State) : exec (.updAbort ch) s = execUpdAbort ch s := rfl

theorem exec_updState (ch : Fin 32) (s : State) : exec (.updState ch) s = execUpdState ch s := rfl

/-- The status of an update's WRITE: its state, then its fields. -/
def Dev.updWriteStatus (d : Dev) (bs : List (BitVec 8)) : Nat :=
  if d.updSt ≠ 1 then 6
  else if wordAt (payloadWords bs) 0 ≠ d.upd.data.length ∨ d.upd.size < (d.upd.data ++ bs.drop 8).length
    ∨ 65520 < (bs.drop 8).length then 4 else 0

theorem Dev.updWriteStatus_good {d : Dev} {bs : List (BitVec 8)} (hst : d.updSt = 1)
    (hat : wordAt (payloadWords bs) 0 = d.upd.data.length) (hsize : (d.upd.data ++ bs.drop 8).length ≤ d.upd.size)
    (hlen : (bs.drop 8).length ≤ 65520) : d.updWriteStatus bs = 0 := by
  rw [Dev.updWriteStatus, if_neg (not_not.mpr hst), if_neg]
  rintro (h | h | h)
  · exact h hat
  · exact absurd h (not_lt.mpr hsize)
  · exact absurd h (not_lt.mpr hlen)

/-- Settles O38: a command at the front that passes its checks, in the update's states that allow it. -/
theorem updateCommands : Obligations.UpdateCommands := by
  refine ⟨?updBegin, ?updWrite, ?updVerify, ?updActivate, ?updActivateTwinRestarts, ?updConfirm, ?updAbortIdle,
    ?updAbort, ?updState⟩
  case updBegin =>
    intro s ch n rest ws d e size i hFwCmd hFwRuns hNoticeFamily hNoticeCode hFwCheck hd hws hsize hx hSize hUpdSt hi
      he
    subst he hi hsize hws hd
    exact fwRunDev_eq (exec_updBegin ch s) hFwCmd hFwRuns hNoticeFamily hNoticeCode hFwCheck
      ((if_neg (by omega)).trans (if_neg hUpdSt))
  case updWrite =>
    intro s ch n rest bs r t all hFwCmd hFwRuns hNoticeFamily hNoticeCode hFwCheck hr hbs hall hx hWordAt hAll hx2 ht
    subst hall
    have hgood : r.dev.updWriteStatus bs = 0 := Dev.updWriteStatus_good hx hWordAt hAll hx2
    subst ht hbs hr
    exact fwRun_eq (exec_updWrite ch s) hFwCmd hFwRuns hNoticeFamily hNoticeCode hFwCheck (if_neg (not_not.mpr hgood))
  case updVerify =>
    intro s ch n rest ws d e crcOk sigOk version x c y hFwCmd hFwRuns hNoticeFamily hNoticeCode hFwCheck hd hws hUpdSt
      hx hc hy he
    subst he hy hc hx hd
    exact fwRunDev_eq (exec_updVerify ch crcOk sigOk version s) hFwCmd hFwRuns hNoticeFamily hNoticeCode hFwCheck
      (if_neg (not_not.mpr hUpdSt))
  case updActivate =>
    intro s ch n rest ws d e y hFwCmd hFwRuns hNoticeFamily hNoticeCode hFwCheck hd hws hUpdSt hEnable hy he
    have hfree : ¬(d.twinRestarts && d.flag DBL.page DBL.DBL_CFG.ENABLE) = true := by
      rcases hEnable with h | h <;> simp [h]
    subst he hy hws hd
    exact fwRunDev_eq (exec_updActivate ch s) hFwCmd hFwRuns hNoticeFamily hNoticeCode hFwCheck
      ((if_neg (not_not.mpr hUpdSt)).trans (if_neg hfree))
  case updActivateTwinRestarts =>
    intro s ch n rest ws d e hFwCmd hFwRuns hNoticeFamily hNoticeCode hFwCheck hd hws hUpdSt hTwinRestarts hEnable he
    subst he hd
    exact fwRunDev_eq (exec_updActivate ch s) hFwCmd hFwRuns hNoticeFamily hNoticeCode hFwCheck
      ((if_neg (not_not.mpr hUpdSt)).trans (if_pos (by simp [hTwinRestarts, hEnable])))
  case updConfirm =>
    intro s ch n rest ws d e i y hFwCmd hFwRuns hNoticeFamily hNoticeCode hFwCheck hd hws hTrial hUpd hi hy he
    subst he hy hi hd
    exact fwRunDev_eq (exec_updConfirm ch s) hFwCmd hFwRuns hNoticeFamily hNoticeCode hFwCheck
      (if_neg (by simp [hTrial, hUpd]))
  case updAbortIdle =>
    intro s ch n rest ws d e hFwCmd hFwRuns hNoticeFamily hNoticeCode hFwCheck hd hws hUpdSt he
    subst he hd
    exact fwRunDev_eq (exec_updAbort ch s) hFwCmd hFwRuns hNoticeFamily hNoticeCode hFwCheck
      ((if_neg (by omega)).trans (if_pos hUpdSt))
  case updAbort =>
    intro s ch n rest ws d e hFwCmd hFwRuns hNoticeFamily hNoticeCode hFwCheck hd hws hUpdSt hUpdSt2 he
    subst he hd
    exact fwRunDev_eq (exec_updAbort ch s) hFwCmd hFwRuns hNoticeFamily hNoticeCode hFwCheck
      ((if_neg hUpdSt2).trans (if_neg hUpdSt))
  case updState =>
    intro s ch n rest ws d e hFwCmd hFwRuns hNoticeFamily hNoticeCode hFwCheck hd hws he
    subst he hd
    exact fwRunDev_eq (exec_updState ch s) hFwCmd hFwRuns hNoticeFamily hNoticeCode hFwCheck rfl

end Sys2Proof.Machine
end

section
/-!
Restarts of the services and trials of an image (R325, R326, R351), and the placement period (R303).
-/
namespace Sys2Proof.Machine

theorem exec_svcRestart (acc : Accessor) (s : State) : exec (.svcRestart acc) s = execSvcRestart acc s := rfl

theorem exec_restartCoresHalted (s : State) : exec .restartCoresHalted s = execRestartCoresHalted s := rfl

theorem exec_restartDone (s : State) : exec .restartDone s = execRestartDone s := rfl

theorem exec_trialConfirmTimeout (s : State) : exec .trialConfirmTimeout s = execTrialConfirmTimeout s := rfl

theorem exec_trialStartTimeout (s : State) : exec .trialStartTimeout s = execTrialStartTimeout s := rfl

theorem exec_placementPeriod (cores services : List (BitVec 7)) (s : State) :
    exec (.placementPeriod cores services) s = execPlacementPeriod cores services s := rfl

/-- The loads of a period shown. -/
def Dev.showPeriodLoads (d : Dev) (c : Nat → Nat) (services : List (BitVec 7)) : Dev :=
  (List.range svcCount).foldl (fun (d : Dev) n => d.set SVC.page SVC.SVC_STAT.LOAD (services.getD n 0).toNat n)
    ((((d.set SVC.page SVC.CORE_LOAD.SC0 (c 0)).set SVC.page SVC.CORE_LOAD.SC1 (c 1)).set SVC.page SVC.CORE_LOAD.SC2 (c 2)).set
      SVC.page SVC.CORE_LOAD.SC3 (c 3))

/-- With AUTO each core is looked at in turn. -/
def Dev.placePeriod (d : Dev) (c : Nat → Nat) : Dev :=
  if !d.flag SVC.page SVC.PLACE_CFG.AUTO then { d with hiRuns := [] }
  else ([0, 1, 2, 3].foldl (fun (x : Dev × List Nat) i => x.1.placeCore x.2 i) (d, [c 0, c 1, c 2, c 3])).1

theorem exec_placementPeriod_runs {s : State} {cores services : List (BitVec 7)} {c : Nat → Nat} {d : Dev}
    (hruns : s.dev.imageRuns = true) (hc : c = fun i => (cores.getD i 0).toNat) (hd : d = s.dev.showPeriodLoads c services) :
    exec (.placementPeriod cores services) s = .next { s with dev := d.placePeriod c } := by
  subst hd hc
  exact onDev_eq (exec_placementPeriod cores services s) (Dev.when_pos _ _ hruns)

/-- Settles O39: each event by the firmware's state and the times that it tests. -/
theorem serviceRestartsAndPlacement : Obligations.ServiceRestartsAndPlacement := by
  refine ⟨?svcRestart, ?restartCoresHalted, ?coresInReset, ?firstStart, ?restartEnds, ?trialConfirmTimeout,
    ?trialStartTimeout, ?noImage, ?placementOff, ?placementAuto⟩
  case svcRestart =>
    intro s acc hmay hFwRuns
    exact onFw_eq (exec_svcRestart acc s) ((Dev.asOwner_may _ hmay).trans (Dev.when_pos _ _ hFwRuns))
  case restartCoresHalted =>
    intro s d hState hFwDown hd
    subst hd
    exact onDev_eq (exec_restartCoresHalted s) (Dev.when_pos _ _ (by simp [hState, hFwDown]))
  case coresInReset =>
    intro s hReleased
    exact onFw_eq (exec_restartDone s) (if_pos (by simp [hReleased]))
  case firstStart =>
    intro s hReleased hState
    exact onFw_eq (exec_restartDone s) ((if_neg (by simp [hReleased])).trans (if_pos hState))
  case restartEnds =>
    intro s hReleased hState hFwDown
    exact onFw_eq (exec_restartDone s)
      ((if_neg (by simp [hReleased])).trans ((if_neg (by omega)).trans (if_pos ⟨hState, hFwDown⟩)))
  case trialConfirmTimeout =>
    intro s hDue hUpd hTrial hFwRuns
    exact onFw_eq (exec_trialConfirmTimeout s) (Dev.when_pos _ _ (by simp [hDue, hUpd, hTrial, hFwRuns]))
  case trialStartTimeout =>
    intro s hDue hUpd hState
    exact onFw_eq (exec_trialStartTimeout s) (Dev.when_pos _ _ (by simp [hDue, hUpd, hState]))
  case noImage =>
    intro s cores services hImageRuns
    exact onDev_eq (exec_placementPeriod cores services s) (Dev.when_neg _ _ hImageRuns)
  case placementOff =>
    intro s cores services c d hImageRuns hc hd hAuto
    rw [exec_placementPeriod_runs hImageRuns hc hd, Dev.placePeriod, if_pos (by simp [hAuto])]
  case placementAuto =>
    intro s cores services c d hImageRuns hc hd hAuto
    rw [exec_placementPeriod_runs hImageRuns hc hd, Dev.placePeriod, if_neg (by simp [hAuto])]

end Sys2Proof.Machine
end

section
/-!
The frame rings of the host and of firmware (R332 to R336).
-/
namespace Sys2Proof.Machine

theorem exec_ringDoorbell (acc : Accessor) (ring : Fin 16) (tail : BitVec 16) (s : State) :
    exec (.ringDoorbell acc ring tail) s = execRingDoorbell acc ring tail s := rfl

theorem exec_coalesceTimer (ring : Fin 16) (s : State) :
    exec (.coalesceTimer ring) s = execCoalesceTimer ring s := rfl

theorem exec_txDescriptorProcess (source : TxSource) (w1 w2 : BitVec 64) (bytes : List (BitVec 8)) (errs : WordErrors) (s : State) :
    exec (.txDescriptorProcess source w1 w2 bytes errs) s = execTxDescriptorProcess source w1 w2 bytes errs s := rfl

theorem exec_dmaError (ring : Fin 16) (cause : Fin 4) (index : BitVec 16) (desc : Option (BitVec 64)) (s : State) :
    exec (.dmaError ring cause index desc) s = execDmaError ring cause index desc s := rfl

theorem exec_pcieLinkChange (up : Bool) (speed width : BitVec 3) (s : State) :
    exec (.pcieLinkChange up speed width) s = execPcieLinkChange up speed width s := rfl

theorem exec_d3hotEntry (fn : Fin 2) (hot : Bool) (s : State) :
    exec (.d3hotEntry fn hot) s = execD3hotEntry fn hot s := rfl

/-- A change of one page shows on no other. -/
theorem OnlyPage.get_other {p q s : Nat} {d e : Dev} {f : Field} (h : OnlyPage p d e) (hq : q ≠ p) (ho : f.off < 4096)
    (hs : s < 65536) : e.get q f s = d.get q f s := by
  unfold Dev.get Dev.rd
  rw [h _ (by rw [rkeyPage_rkey ho hs]; exact hq)]

theorem Dev.doorbell_effect (d : Dev) (ring : Fin 16) (tail : BitVec 16) (e : Dev)
    (he : e = d.set PCI.page (PCI.RING_DB.TAIL.nth ring) tail.toNat) :
    e.get PCI.page (PCI.RING_DB.TAIL.nth ring) = tail.toNat ∧ OnlyPage PCI.page d e ∧ Quiet d e := by
  subst he
  have hoff : (PCI.RING_DB.TAIL.nth ring).off < 4096 := by
    show 0x100 + 4 * ring.val < 4096
    omega
  exact ⟨Dev.get_set_fits _ _ _ (show 0 + 16 ≤ 32 by decide) tail.isLt, (OnlyPage.refl _ d).set hoff (by decide),
    Dev.set_quiet ..⟩

/-! ### Descriptors -/

section
variable {d : Dev} {ring cls : Nat} {w1 w2 : Data} {bytes : List (BitVec 8)} {errs : WordErrors}

/-- A ring that hands nothing over: it does not run, has no descriptor left, is under back-pressure, or the felt sleeps. -/
def Dev.ringWaits (d : Dev) (ring : Nat) : Bool :=
  !d.ringRuns ring || decide (d.ringOwned ring ≤ d.txPending ring) || (d.bpOf 48).testBit ring || !d.released unitFelt

theorem Dev.ringTransmit_waits (h : d.ringWaits ring = true) : d.ringTransmit ring w1 w2 bytes errs = d := if_pos h

theorem Dev.not_ringWaits (hruns : d.ringRuns ring = true) (hown : d.txPending ring < d.ringOwned ring)
    (hbp : (d.bpOf 48).testBit ring = false) (hfelt : d.released unitFelt = true) : ¬d.ringWaits ring = true := by
  simp [Dev.ringWaits, hruns, hown, hbp, hfelt]

theorem Dev.ringTransmit_bad {st : Nat} (h : ¬d.ringWaits ring = true) (hbad : d.txDescBad ring w1 = some st) :
    d.ringTransmit ring w1 w2 bytes errs = d.txTake ring st w1 := by
  refine (if_neg h).trans ?_
  rw [hbad]

theorem Dev.ringTransmit_good (h : ¬d.ringWaits ring = true) (hgood : d.txDescBad ring w1 = none)
    (hlen : bytes.length = bitsOf w1 63 50) {e : Dev}
    (he : e = (d.txPut ring (some d.nextFrame) 1 w1).txEnter 48 0x032 bytes (txReq ring w1 w2 (bitOf w1 45) (bitOf w1 46)) errs) :
    d.ringTransmit ring w1 w2 bytes errs
      = ((if e.nextFrame = d.nextFrame then e.txNoFrame d.nextFrame else e).count (0xF60 + ring)).txSettle := by
  subst he
  refine (if_neg h).trans ?_
  rw [hgood]
  exact if_neg (not_not.mpr hlen)

theorem Dev.firmwareTransmit_good (hruns : d.fwRuns = true) (h6 : d.released 6 = true) (hx : d.xing 54 = 0)
    (hbp : (d.bpOf 49).testBit cls = false) (hfelt : d.released unitFelt = true) (hlen : bytes.length = bitsOf w1 63 50) :
    d.firmwareTransmit cls w1 w2 bytes errs
      = d.txEnter 49 0x034 bytes (txReq cls w1 w2 false (bitOf w1 46 && cls == 6)) errs :=
  if_neg (by simp [hruns, h6, hx, hbp, hfelt, hlen])

theorem Dev.firmwareTransmit_pressed (hbp : (d.bpOf 49).testBit cls = true) :
    d.firmwareTransmit cls w1 w2 bytes errs = d := if_pos (by simp [hbp])

end

/-! ### The management lane -/

/-- The bytes that the management lane sends, with the time of sending where they carry it. -/
def Dev.mlOneStep (d : Dev) (w1 : Data) (bytes : List (BitVec 8)) (p : Parsed) (stamp : Nat) : List (BitVec 8) × Bool :=
  if bitOf w1 47 && d.flag (TSU.page 48) TSU.TSU_CFG.ONE_STEP_EN && p.ptp != 0 && decide (p.ptpType ≤ 3)
  then ptpOneStep bytes p.ptp p.ptpOfs stamp else (bytes, false)

/-- A frame that the management lane sends, counted and with its bytes `x`, under the loop-back `mode`. -/
def Dev.mlSend (d : Dev) (w1 : Data) (x : List (BitVec 8) × Bool) (stamp mode : Nat) (soft : Bool) : Dev :=
  let d := d.when x.2 (·.tcSkipOn 48 50)
  let d := d.when (bitOf w1 48 && decide (mode < 6)) (·.txfPush 48 (bitsOf w1 31 16) stamp soft d.untrace)
  let d := d.when (x.2 && decide (mode < 6)) (·.txfPush 48 (bitsOf w1 31 16) stamp soft d.untrace)
  if mode = 0 then d.emit (.frame 50 0 (x.1.length + 4) x.1 false stamp)
  else if mode ≤ 5 then d.free.2.mlArrive x.1 (some ⟨.good, 1⟩) (d.free.2.portStamp 50 ⟨0, BitVec.ofNat 16 d.free.1, 0⟩)
  else d

def Dev.mlSends (d : Dev) (w1 : Data) (x : List (BitVec 8) × Bool) (stamp : Nat) (soft : Bool) : Dev :=
  d.mlSend w1 x stamp ((d.when x.2 (·.tcSkipOn 48 50)).get (LNK.page 50) LNK.LOOP_CFG.MODE) soft

theorem Dev.tcSkipOn_mode (d : Dev) (b : Bool) :
    (d.when b (·.tcSkipOn 48 50)).get (LNK.page 50) LNK.LOOP_CFG.MODE = d.get (LNK.page 50) LNK.LOOP_CFG.MODE := by
  cases b with
  | false => rfl
  | true =>
    have h : OnlyPage (TSU.page 48) d (d.tcSkipOn 48 50) :=
      (((OnlyPage.refl _ d).incWrap (by decide) (by decide)).raise _ _).countLane _ _ _
    exact h.get_other (by decide) (by decide) (by decide)

theorem Dev.countFrame_get (d : Dev) (lane n k stamp p s : Nat) (f : Field) :
    (d.countFrame lane n k stamp).get p f s = d.get p f s := by
  unfold Dev.get Dev.rd
  rw [Dev.countFrame_regs]

theorem Dev.mlTransmit_runs {d : Dev} {w1 : Data} {bytes : List (BitVec 8)} (hruns : d.fwRuns = true)
    (h6 : d.released 6 = true) (hup : d.laneState 50 = laneUp) (hlen : bytes.length = bitsOf w1 63 50) {first stamp : Nat}
    {soft : Bool} {e : Dev} (hfirst : first = d.now + 64 * nsU / rateGbit (d.rateAct 50)) (hsoft : soft = d.isSoft 50)
    (hstamp : stamp = if soft then softStamp first else d.txStampAt 50 first)
    (he : e = (d.countFrame 50 8 1 stamp).countFrame 50 9 (bytes.length + 4) stamp) :
    d.mlTransmit w1 bytes = e.mlSends w1 (e.mlOneStep w1 bytes (parseFrame mlProfile bytes true) stamp) stamp soft := by
  subst he hstamp hsoft hfirst
  exact if_neg (by simp [hruns, h6, hup, hlen])

/-! ### Frames to the host -/

/-- A frame written to the host's buffers, with its descriptors. -/
def Dev.toHost (d : Dev) (f : Frame) (ring : Nat) (parts : List (BitVec 64 × BitVec 64 × List (BitVec 8)))
    (errs : WordErrors) : Dev :=
  let last := parts.length - 1
  let reason := match f.reasons.find? (fun x => x.2 == 48) with | some x => x.1 | none => 0
  let head := d.ringHead ring
  let d := ((List.range parts.length).zip parts).foldl (fun (d : Dev) x =>
    let (i, w0, _, bs) := x
    let w1 := bs.length % 2 ^ 14 * 2 ^ 50 + (if i = last then 2 ^ 48 else 0) + (if i = 0 then 2 ^ 47 else 0)
      + f.input % 64 * 2 ^ 41 + reason % 16 * 2 ^ 37
    let w2 := if i = 0 then (stampWord f.stamp f.untrace f.src).toNat else 0
    let w3 := if i = 0 then (match f.handle with | some h => 2 ^ 14 + h % 2 ^ 14 | none => 0) else 0
    let d := d.emit (.hostMem w0.toNat bs)
    d.emit (.hostMem (d.ringBase ring + 32 * ((head + i) % d.ringSize ring) + 8)
      (bytesLE 8 w1 ++ bytesLE 8 w2 ++ bytesLE 8 w3))) d
  ((d.count (0xF60 + ring)).ringAdvance ring parts.length).txDone 48 errs

/-- The host's output, by the frame that it has taken up. -/
def Dev.hostOutput (d : Dev) (descs : List (BitVec 64 × BitVec 64)) (errs : WordErrors) : Dev :=
  match (d.output 48).tx with
  | none => d
  | some t =>
    match d.frame t.frame with
    | none => d
    | some f =>
      if !f.ended || !d.ringRuns (8 + t.tc) then d else
      match splitFrame (d.outBytes f 48 f.hdr) (descs.take (d.ringOwned (8 + t.tc))) with
      | none => d
      | some parts => d.toHost f (8 + t.tc) parts errs

theorem exec_rxFrameToHost_output (descs : List (BitVec 64 × BitVec 64)) (errs : WordErrors) (s : State) :
    exec (.rxFrameToHost descs errs) s = onDev (·.hostOutput descs errs) s := rfl

/-- Settles O40: a descriptor by its ring and its fields, a frame to the host by what the output holds. -/
theorem frameRings : Obligations.FrameRings := by
  refine ⟨?ringDoorbell, ?coalesceTimer, ?ringWaits, ?badDescriptor, ?ringTransmits, ?firmwareTransmits,
    ?firmwarePressed, ?managementTransmits, ?nothingToHost, ?frameToHost, ?dmaError, ?pcieLinkChange, ?d3hotEntry⟩
  case ringDoorbell =>
    intro s acc ring tail hmay
    exact does_of_exec (exec_of_asOwner (exec_ringDoorbell acc ring tail s) hmay rfl)
      (s.dev.doorbell_effect ring tail _ rfl)
  case coalesceTimer =>
    intro s ring t hRing hPageUp hCoalUs
    refine onDev_eq (exec_coalesceTimer ring s) ?_
    rw [hRing]
    exact Dev.when_pos _ _ (by simp [hPageUp, hCoalUs])
  case ringWaits =>
    intro s ring w1 w2 bytes errs hRingRuns
    have hwaits : s.dev.ringWaits ring = true := by
      rcases hRingRuns with h | h | h | h <;> simp [Dev.ringWaits, h]
    exact onDev_eq (exec_txDescriptorProcess (.ring ring) w1 w2 bytes errs s) (Dev.ringTransmit_waits hwaits)
  case badDescriptor =>
    intro s ring w1 w2 bytes errs st hRingRuns hTxPending hBpOf hReleased hTxDescBad
    exact onDev_eq (exec_txDescriptorProcess (.ring ring) w1 w2 bytes errs s)
      (Dev.ringTransmit_bad (Dev.not_ringWaits hRingRuns hTxPending hBpOf hReleased) hTxDescBad)
  case ringTransmits =>
    intro s ring w1 w2 bytes errs n d hRingRuns hTxPending hBpOf hReleased hTxDescBad hBytes hn hd
    subst hn
    exact onDev_eq (exec_txDescriptorProcess (.ring ring) w1 w2 bytes errs s)
      (Dev.ringTransmit_good (Dev.not_ringWaits hRingRuns hTxPending hBpOf hReleased) hTxDescBad hBytes hd)
  case firmwareTransmits =>
    intro s cls w1 w2 bytes errs hFwRuns hReleased hXing hBpOf hReleased2 hBytes
    exact onDev_eq (exec_txDescriptorProcess (.firmware cls) w1 w2 bytes errs s)
      (Dev.firmwareTransmit_good hFwRuns hReleased hXing hBpOf hReleased2 hBytes)
  case firmwarePressed =>
    intro s cls w1 w2 bytes errs hBpOf
    exact onDev_eq (exec_txDescriptorProcess (.firmware cls) w1 w2 bytes errs s) (Dev.firmwareTransmit_pressed hBpOf)
  case managementTransmits =>
    intro s w1 w2 bytes errs first stamp mode soft p d x hFwRuns hReleased hst hBytes hfirst hsoft hstamp hmode hp hd
      hx
    have hx' : d.mlOneStep w1 bytes (parseFrame mlProfile bytes true) stamp = x := by rw [hx, hp]; rfl
    have hmode' : (d.when x.2 (·.tcSkipOn 48 50)).get (LNK.page 50) LNK.LOOP_CFG.MODE = mode := by
      rw [Dev.tcSkipOn_mode, hd, Dev.countFrame_get, Dev.countFrame_get, hmode]
    refine onDev_eq (exec_txDescriptorProcess .ml w1 w2 bytes errs s)
      ((Dev.mlTransmit_runs hFwRuns hReleased hst hBytes hfirst hsoft hstamp hd).trans ?_)
    rw [hx', Dev.mlSends, hmode']
    rfl
  case nothingToHost =>
    intro s descs errs hOutput
    refine onDev_eq (exec_rxFrameToHost_output descs errs s) ?_
    rw [Dev.hostOutput, hOutput]
  case frameToHost =>
    intro s descs errs t f ring parts hOutput hFrame hring hx hRingRuns hOutBytes
    subst hring
    refine onDev_eq (exec_rxFrameToHost_output descs errs s) ?_
    simp only [Dev.hostOutput, hOutput, hFrame, hOutBytes]
    exact if_neg (by simp [hx, hRingRuns])
  case dmaError =>
    intro s ring cause index desc d hRingRuns hd
    subst hd
    exact onDev_eq (exec_dmaError ring cause index desc s) (Dev.when_pos _ _ hRingRuns)
  case pcieLinkChange =>
    intro s up speed width d hPageUp hd
    subst hd
    exact onDev_eq (exec_pcieLinkChange up speed width s) (Dev.when_pos _ _ hPageUp)
  case d3hotEntry =>
    intro s fn hot hPageUp
    exact onDev_eq (exec_d3hotEntry fn hot s) (Dev.when_pos _ _ hPageUp)

end Sys2Proof.Machine
end

section
/-!
The Crown bus (R203, R338 to R344): what it reports, its templates and their launches.
-/
namespace Sys2Proof.Machine

theorem exec_crownTripClear (bits setting : BitVec 32) (s : State) :
    exec (.crownTripClear bits setting) s = execCrownTripClear bits setting s := rfl

theorem exec_crownBadAccess (s : State) : exec .crownBadAccess s = execCrownBadAccess s := rfl

theorem exec_ctlMsgWrite (value : BitVec 32) (s : State) :
    exec (.ctlMsgWrite value) s = execCtlMsgWrite value s := rfl

theorem exec_crnWriteShadow (acc : Accessor) (s : State) :
    exec (.crnWriteShadow acc) s = execCrnWriteShadow acc s := rfl

theorem Dev.raise_quiet (d : Dev) (p : Nat) (f : Field) (n : Nat) : Quiet d (d.raise p f n) := by
  unfold Quiet
  simp

theorem Dev.controllerMessage_effect (d : Dev) (value : BitVec 32) (e : Dev)
    (he : e = (d.set CRN.page CRN.CTL_MSG.DATA value.toNat).raise CRN.page CRN.INT_RAW.CTL_MSG) :
    e.get CRN.page CRN.CTL_MSG.DATA = value.toNat ∧ e.get CRN.page CRN.INT_RAW.CTL_MSG = 1 ∧ OnlyPage CRN.page d e
      ∧ Quiet d e := by
  subst he
  refine ⟨?_, Dev.raise_get_raised _ _ _ (by decide) (by decide) (by decide),
    ((OnlyPage.refl _ d).set (by decide) (by decide)).raise _ _, (Dev.set_quiet ..).trans (Dev.raise_quiet ..)⟩
  rw [Dev.raise_get_beside _ (by decide)]
  exact Dev.get_set_fits _ _ _ (by decide) value.isLt

/-! ### Templates and launches -/

/-- A template that launches nothing: not valid, or without a filter of the express class. -/
theorem launch_unfit {w : Data} {b : Bool} (h : bitOf w 63 = false ∨ b = false) : (!bitOf w 63 || !b) = true := by
  rcases h with h | h <;> simp [h]

theorem launch_fit {w : Data} {b : Bool} (h : bitOf w 63 = true) (hb : b = true) : ¬(!bitOf w 63 || !b) = true := by
  simp [h, hb]

/-- A launch of a template that has been looked at, with the filter it names. -/
def Dev.launchTemplate (y : Dev) (tpl : Fin 64) (data : BitVec 32) (filter : Nat) : Dev :=
  if !bitOf (y.template tpl 0) 63 || !y.tc7Filter filter then y.launchRefused tpl 1
  else if decide (16 ≤ y.crown.launches.length) || y.xing 55 != 0 then y.launchRefused tpl 2
  else
    let l : Launch := ⟨y.templateBytes tpl data, filter, bitsOf (y.template tpl 1) 47 0, softStamp y.now, y.untrace⟩
    let d := y.setCrown (fun c => { c with launches := c.launches ++ [l] })
    let d := d.setCrown (fun c => { c with accepted := (c.accepted + 1) % 65536, last := tpl })
    (d.incWrap CRN.page CRN.LAUNCH_STAT.ACCEPTED).count 0xF80

def Dev.launchSeen (tpl : Fin 64) (data : BitVec 32) (y : Dev) : Dev :=
  y.launchTemplate tpl data (bitsOf (y.template tpl 0) 53 40)

theorem exec_templateLaunch_seen (tpl : Fin 64) (data : BitVec 32) (s : State) :
    exec (.templateLaunch tpl data) s
      = onDev (fun d => d.when d.crownOn (fun d => (d.seenWords .template tpl 34).launchSeen tpl data)) s := rfl

theorem exec_templateLaunch_on {s : State} {tpl : Fin 64} (data : BitVec 32) {filter : Nat} {y : Dev}
    (hon : s.dev.crownOn = true) (hy : y = s.dev.seenWords .template tpl 34)
    (hfilter : filter = bitsOf (y.template tpl 0) 53 40) :
    exec (.templateLaunch tpl data) s = .next { s with dev := y.launchTemplate tpl data filter } := by
  rw [hfilter]
  exact onDev_eq (exec_templateLaunch_seen tpl data s)
    ((Dev.when_pos _ _ hon).trans (congrArg (Dev.launchSeen tpl data) hy.symm))

theorem Dev.launchTemplate_unfit {y : Dev} {tpl : Fin 64} {filter : Nat} (data : BitVec 32)
    (h : bitOf (y.template tpl 0) 63 = false ∨ y.tc7Filter filter = false) :
    y.launchTemplate tpl data filter = y.launchRefused tpl 1 := by
  rw [Dev.launchTemplate]
  exact if_pos (launch_unfit h)

theorem Dev.launchTemplate_noRoom {y : Dev} {tpl : Fin 64} {filter : Nat} (data : BitVec 32)
    (hvalid : bitOf (y.template tpl 0) 63 = true) (hclass : y.tc7Filter filter = true)
    (hfull : 16 ≤ y.crown.launches.length ∨ y.xing 55 ≠ 0) :
    y.launchTemplate tpl data filter = y.launchRefused tpl 2 := by
  have hno : (decide (16 ≤ y.crown.launches.length) || y.xing 55 != 0) = true := by
    rcases hfull with h | h <;> simp [h]
  rw [Dev.launchTemplate]
  exact (if_neg (launch_fit hvalid hclass)).trans (if_pos hno)

theorem Dev.launchTemplate_accepted {y d e : Dev} {tpl : Fin 64} {filter : Nat} {data : BitVec 32} {l : Launch}
    (hvalid : bitOf (y.template tpl 0) 63 = true) (hclass : y.tc7Filter filter = true)
    (hroom : y.crown.launches.length < 16) (hopen : y.xing 55 = 0)
    (hl : l = ⟨y.templateBytes tpl data, filter, bitsOf (y.template tpl 1) 47 0, softStamp y.now, y.untrace⟩)
    (hd : d = y.setCrown (fun c => { c with launches := c.launches ++ [l] }))
    (he : e = d.setCrown (fun c => { c with accepted := (c.accepted + 1) % 65536, last := tpl })) :
    y.launchTemplate tpl data filter = (e.incWrap CRN.page CRN.LAUNCH_STAT.ACCEPTED).count 0xF80 := by
  have hfree : ¬(decide (16 ≤ y.crown.launches.length) || y.xing 55 != 0) = true := by simp [hroom, hopen]
  rw [Dev.launchTemplate, if_neg (launch_fit hvalid hclass), if_neg hfree, he, hd, hl]

/-- A launch that has passed its meter, placed into the queues of its destinations. -/
def Dev.placeLaunch (e : Dev) (c : Ctx) (l : Launch) : Dev :=
  match stepTc7 e c with
  | .drop d _ => d
  | .go d c =>
    if c.dests.isEmpty then d.count 0x677 else
    let f := d.newFrame c l.bytes ⟨l.stamp, 0x031, false, l.untrace⟩ [] none false
    let n := d.nextFrame
    let d : Dev := { d.setFrame n (some f) with nextFrame := n + 1 }
    let d := c.dests.foldl (fun d e => if e < 48 then d.wake e else d) d
    d.allocate n

/-- A launch taken into the device. -/
def Dev.enterLaunch (d : Dev) (l : Launch) : Dev :=
  match stepMeter d (d.launchCtx l) with
  | .drop d _ => d.setCrown (fun c => { c with cause := 3 })
  | .go d c => d.placeLaunch c l

/-- The queue of launches without its front. -/
def Dev.launchesPopped (d : Dev) (rest : List Launch) (errs : WordErrors) : Dev :=
  (d.setCrown (fun c => { c with launches := rest })).wordErrors errs

def Dev.dequeueLaunch (d : Dev) (errs : WordErrors) : Dev :=
  match d.crown.launches with
  | [] => d
  | l :: rest =>
    if d.xing 55 ≠ 0 ∨ d.released unitFelt = false then d
    else if errs.bad then d.launchesPopped rest errs else (d.launchesPopped rest errs).enterLaunch l

theorem exec_templateLaunchDequeue_queue (errs : WordErrors) (s : State) :
    exec (.templateLaunchDequeue errs) s = onDev (·.dequeueLaunch errs) s := rfl

theorem Dev.dequeueLaunch_shut {d : Dev} {errs : WordErrors}
    (h : d.crown.launches = [] ∨ d.xing 55 ≠ 0 ∨ d.released unitFelt = false) : d.dequeueLaunch errs = d := by
  unfold Dev.dequeueLaunch
  split
  case h_1 => rfl
  case h_2 hq => exact if_pos (h.resolve_left (by rw [hq]; exact List.cons_ne_nil _ _))

theorem Dev.dequeueLaunch_front {d : Dev} {errs : WordErrors} {l : Launch} {rest : List Launch}
    (hq : d.crown.launches = l :: rest) (hx : d.xing 55 = 0) (hfelt : d.released unitFelt = true) :
    d.dequeueLaunch errs
      = if errs.bad then d.launchesPopped rest errs else (d.launchesPopped rest errs).enterLaunch l := by
  rw [Dev.dequeueLaunch, hq]
  exact if_neg (by simp [hx, hfelt])

/-- Settles O41: what the bus reports while it is on; a launch by its template, the queue and the crossing. -/
theorem crownBus : Obligations.CrownBus := by
  refine ⟨?crownTripClear, ?crownBadAccess, ?ctlMsgWrite, ?launchUnfit, ?launchNoRoom, ?launchAccepted, ?dequeueShut,
    ?dequeueMetered, ?dequeuePlaced, ?dequeueBroken, ?crnReadLive, ?crnReadShadow, ?crnWriteShadow, ?crnWriteRefused,
    ?crnPublish⟩
  case crownTripClear =>
    intro s bits setting hCrownOn
    exact onDev_eq (exec_crownTripClear bits setting s) (Dev.when_pos _ _ hCrownOn)
  case crownBadAccess =>
    intro s hCrownOn
    exact onDev_eq (exec_crownBadAccess s) (Dev.when_pos _ _ hCrownOn)
  case ctlMsgWrite =>
    intro s value hCrownOn
    exact does_of_exec (onDev_eq (exec_ctlMsgWrite value s) (Dev.when_pos _ _ hCrownOn))
      (s.dev.controllerMessage_effect value _ rfl)
  case launchUnfit =>
    intro s tpl data filter y hCrownOn hy hfilter hBitOf
    exact (exec_templateLaunch_on data hCrownOn hy hfilter).trans (by rw [Dev.launchTemplate_unfit data hBitOf])
  case launchNoRoom =>
    intro s tpl data filter y hCrownOn hy hfilter hBitOf hx hx2
    exact (exec_templateLaunch_on data hCrownOn hy hfilter).trans
      (by rw [Dev.launchTemplate_noRoom data hBitOf hx hx2])
  case launchAccepted =>
    intro s tpl data filter y l d e hCrownOn hy hfilter hBitOf hx hx2 hx3 hl hd he
    exact (exec_templateLaunch_on data hCrownOn hy hfilter).trans
      (by rw [Dev.launchTemplate_accepted hBitOf hx hx2 hx3 hl hd he])
  case dequeueShut =>
    intro s errs hCrown
    exact onDev_eq (exec_templateLaunchDequeue_queue errs s) (Dev.dequeueLaunch_shut hCrown)
  case dequeueMetered =>
    intro s errs l rest d e c hCrown hXing hReleased hd hErrs hLaunchCtx
    subst hd
    refine onDev_eq (exec_templateLaunchDequeue_queue errs s) ((Dev.dequeueLaunch_front hCrown hXing hReleased).trans ?_)
    rw [if_neg (by simp [hErrs]), Dev.enterLaunch, Dev.launchesPopped, hLaunchCtx]
  case dequeuePlaced =>
    intro s errs l rest d e c hCrown hXing hReleased hd hErrs hLaunchCtx
    subst hd
    refine onDev_eq (exec_templateLaunchDequeue_queue errs s) ((Dev.dequeueLaunch_front hCrown hXing hReleased).trans ?_)
    rw [if_neg (by simp [hErrs]), Dev.enterLaunch, Dev.launchesPopped, hLaunchCtx]
    rfl
  case dequeueBroken =>
    intro s errs l rest hCrown hXing hReleased hErrs
    exact onDev_eq (exec_templateLaunchDequeue_queue errs s)
      ((Dev.dequeueLaunch_front hCrown hXing hReleased).trans (if_pos hErrs))
  case crnReadLive =>
    intro s acc hr hWinWord
    exact exec_of_asAny rfl hr (by simp [hWinWord])
  case crnReadShadow =>
    intro s acc hr hWinWord
    exact exec_of_asAny rfl hr (by simp [hWinWord])
  case crnWriteShadow =>
    intro s acc t w v hmay ht hw hv hx hx2
    have hgood : ¬(33 < w ∨ (w = 0 ∧ templateBad v = true)) := by
      rintro (h | ⟨h0, hbad⟩)
      · omega
      · simp [hx2 h0] at hbad
    subst hv hw ht
    exact exec_of_asOwner (exec_crnWriteShadow acc s) hmay (if_neg hgood)
  case crnWriteRefused =>
    intro s acc hmay hx
    exact exec_of_asOwner (exec_crnWriteShadow acc s) hmay (if_pos hx)
  case crnPublish =>
    intro s acc hmay
    exact exec_of_asOwner rfl hmay rfl

end Sys2Proof.Machine
end

section
/-!
Power states and wake (R358 to R361), and the sources of a reset (R346 to R350).
-/
namespace Sys2Proof.Machine

theorem exec_dozeEntry (acc : Accessor) (cfg : BitVec 32) (s : State) :
    exec (.dozeEntry acc cfg) s = execDozeEntry acc cfg s := rfl

theorem exec_dozeExit (acc : Accessor) (cfg : BitVec 32) (s : State) :
    exec (.dozeExit acc cfg) s = execDozeExit acc cfg s := rfl

theorem exec_keepEntry (acc : Accessor) (cfg : BitVec 32) (s : State) :
    exec (.keepEntry acc cfg) s = execKeepEntry acc cfg s := rfl
theorem exec_keepIslandsReset (s : State) : exec .keepIslandsReset s = execKeepIslandsReset s := rfl

theorem exec_wakeNLow (s : State) : exec .wakeNLow s = execWakeNLow s := rfl

theorem exec_wakeTimeReached (s : State) : exec .wakeTimeReached s = execWakeTimeReached s := rfl

theorem exec_perstNRise (s : State) : exec .perstNRise s = execPerstNRise s := rfl

theorem exec_keepSupplyTimeout (s : State) : exec .keepSupplyTimeout s = execKeepSupplyTimeout s := rfl
theorem exec_powerOnReset (s : State) : exec .powerOnReset s = execPowerOnReset s := rfl

theorem exec_brownOut (s : State) : exec .brownOut s = execBrownOut s := rfl

theorem exec_resetNLow (s : State) : exec .resetNLow s = execResetNLow s := rfl

theorem exec_resetNRise (s : State) : exec .resetNRise s = execResetNRise s := rfl
theorem exec_clockFailureReset (s : State) : exec .clockFailureReset s = execClockFailureReset s := rfl

theorem exec_watchdogWarn (s : State) : exec .watchdogWarn s = execWatchdogWarn s := rfl

theorem exec_watchdogExpiry (s : State) : exec .watchdogExpiry s = execWatchdogExpiry s := rfl

theorem exec_wdogKick (acc : Accessor) (s : State) : exec (.wdogKick acc) s = execWdogKick acc s := rfl

theorem exec_softwareReset (acc : Accessor) (value : BitVec 32) (s : State) :
    exec (.softwareReset acc value) s = execSoftwareReset acc value s := rfl

theorem exec_debugWarmReset (s : State) : exec .debugWarmReset s = execDebugWarmReset s := rfl

theorem exec_handshakeLockup (island : Fin 64) (stage : BitVec 8) (s : State) :
    exec (.handshakeLockup island stage) s = execHandshakeLockup island stage s := rfl

theorem exec_coreLockup (core : Fin 5) (s : State) : exec (.coreLockup core) s = execCoreLockup core s := rfl

/-! ### A cold source -/

/-- A cold source starts the machine again, with the lower of two codes while the release waits for its t0. -/
theorem coldSource_code {s : State} {cause code : Nat} (f : Dev → Dev)
    (h : code = if s.dev.waitsT0 then min cause (s.dev.get RST.page RST.RST_CAUSE.CAUSE) else cause) :
    coldSource cause f s = .next { s with dev := (f s.dev).coldReset code, dram := [] } := by
  rw [h]
  rfl

/-- A cold source outside a release that waits for its t0 starts the machine again with its own code. -/
theorem coldSource_running {s : State} {cause : Nat} {f : Dev → Dev} (h : s.dev.waitsT0 = false) :
    coldSource cause f s = .next { s with dev := (f s.dev).coldReset cause, dram := [] } := by
  exact coldSource_code f (if_neg (by simp [h])).symm

/-- While the release waits for its t0, the lower of the two codes stands. -/
theorem coldSource_waiting {s : State} {cause : Nat} {f : Dev → Dev} (h : s.dev.waitsT0 = true) :
    coldSource cause f s
      = .next { s with dev := (f s.dev).coldReset (min cause (s.dev.get RST.page RST.RST_CAUSE.CAUSE)), dram := [] } := by
  exact coldSource_code f (if_pos h).symm

/-! ### Power states -/

/-- A power state asked for by the owner of the GLB page: the shadow takes it, and the page commits. -/
theorem Dev.powerTo_may {d e : Dev} {acc : Accessor} {cfg : Word} {target : Nat} (hmay : MayWrite d acc GLB.page)
    (he : e = d.wrShadow .glb GLB.page GLB.PWR_CFG.TARGET.off 0 (setBits cfg GLB.PWR_CFG.TARGET.lo GLB.PWR_CFG.TARGET.wd target)) :
    d.powerTo acc cfg target = e.commitGlb := by
  rw [Dev.powerTo, Dev.asOwner_may _ hmay, he]

/-- Settles O42: a power state is a COMMIT of the GLB page; each trigger wakes where KEEP lets it. -/
theorem powerStatesAndWake : Obligations.PowerStatesAndWake := by
  refine ⟨?dozeEntry, ?dozeExit, ?keepEntry, ?keepIslandsReset, ?wakeN, ?wakeTime, ?wakeTimeIdle, ?wakeNIdle,
    ?perstRise, ?perstRiseIdle, ?keepSupplyRestored, ?supplyRestored, ?supplyTimeout⟩
  case dozeEntry =>
    intro s acc cfg d hmay hd
    exact onDev_eq (exec_dozeEntry acc cfg s) (Dev.powerTo_may hmay hd)
  case dozeExit =>
    intro s acc cfg d hmay hd
    exact onDev_eq (exec_dozeExit acc cfg s) (Dev.powerTo_may hmay hd)
  case keepEntry =>
    intro s acc cfg d hmay hd
    exact onDev_eq (exec_keepEntry acc cfg s) (Dev.powerTo_may hmay hd)
  case keepIslandsReset =>
    intro s x d hChanging hx hd
    subst hd hx
    exact onMem_eq (exec_keepIslandsReset s) (if_neg (by simp [hChanging]))
  case wakeN =>
    intro s x hKeeps hWakeNEn hx
    exact onMem_eq (exec_wakeNLow s) ((if_pos (by simp [hKeeps, hWakeNEn])).trans hx.symm)
  case wakeTime =>
    intro s x hKeeps hWakeTimeEn hWakeCome hx
    exact onMem_eq (exec_wakeTimeReached s) ((if_pos (by simp [hKeeps, hWakeTimeEn, hWakeCome])).trans hx.symm)
  case wakeTimeIdle =>
    intro s hWakeTimeEn
    refine onMem_eq (exec_wakeTimeReached s) (if_neg ?_)
    rcases hWakeTimeEn with h | h | h <;> simp [h]
  case wakeNIdle =>
    intro s hWakeNEn
    refine onMem_eq (exec_wakeNLow s) (if_neg ?_)
    rcases hWakeNEn with h | h <;> simp [h]
  case perstRise =>
    intro s d x hKeeps hd hx
    subst hd
    exact onMem_eq (exec_perstNRise s) ((if_pos hKeeps).trans hx.symm)
  case perstRiseIdle =>
    intro s hKeeps
    exact onMem_eq (exec_perstNRise s) (if_neg (by rw [Bool.not_eq_true]; exact hKeeps))
  case keepSupplyRestored =>
    intro s
    rfl
  case supplyRestored =>
    intro s hSeqr
    exact (exec_keepSupplyTimeout s).trans (if_neg (by simp [hSeqr]))
  case supplyTimeout =>
    intro s code hSeqr hcode
    exact (exec_keepSupplyTimeout s).trans ((if_pos hSeqr).trans (coldSource_code id hcode))

/-! ### Cold sources -/
/-- Settles O48: a cold source is `coldSource` with its code; RESET_N rising begins the release. -/
theorem coldSources : Obligations.ColdSources := by
  refine ⟨?powerOnReset, ?brownOut, ?resetNLow, ?brownOutWaiting, ?resetNRise, ?resetNRiseLate⟩
  case powerOnReset =>
    intro s hWaitsT0
    exact (exec_powerOnReset s).trans (coldSource_running hWaitsT0)
  case brownOut =>
    intro s hWaitsT0
    exact (exec_brownOut s).trans (coldSource_running hWaitsT0)
  case resetNLow =>
    intro s d hWaitsT0 hd
    subst hd
    exact (exec_resetNLow s).trans (coldSource_running hWaitsT0)
  case brownOutWaiting =>
    intro s hWaitsT0
    exact (exec_brownOut s).trans (coldSource_waiting hWaitsT0)
  case resetNRise =>
    intro s d hWaitsT0 hd
    subst hd
    exact onDev_eq (exec_resetNRise s) (Dev.when_pos _ _ hWaitsT0)
  case resetNRiseLate =>
    intro s hWaitsT0
    exact onDev_eq (exec_resetNRise s) (Dev.when_neg _ _ hWaitsT0)

/-! ### Warm sources -/

/-- Settles O49: each source acts where its condition stands, and nothing happens where it does not. -/
theorem warmSources : Obligations.WarmSources := by
  refine ⟨?clockFails, ?clockFailsIdle, ?watchdogWarn, ?wdogExpires, ?wdogIdle, ?wdogKick, ?wdogKickRefused,
    ?softwareReset, ?softwareResetBadKey, ?debugReset, ?debugResetLocked, ?lockup, ?lockupHeld, ?coreLockup⟩
  case clockFails =>
    intro s gates x hXoOk hWaitsT0 hgates hx
    subst hx hgates
    exact onMem_eq (exec_clockFailureReset s) (if_pos (by simp [hXoOk, hWaitsT0]))
  case clockFailsIdle =>
    intro s hXoOk
    refine onMem_eq (exec_clockFailureReset s) (if_neg ?_)
    rcases hXoOk with h | h <;> simp [h]
  case watchdogWarn =>
    intro s hWdogRuns hWdogWarned hWdogPassed
    exact onDev_eq (exec_watchdogWarn s) (Dev.when_pos _ _ (by rw [hWdogRuns, hWdogWarned, hWdogPassed]; rfl))
  case wdogExpires =>
    intro s hWdogRuns hWdogWarned hWdogPassed
    exact onMem_eq (exec_watchdogExpiry s) (if_pos (by rw [hWdogRuns, hWdogWarned, hWdogPassed]; rfl))
  case wdogIdle =>
    intro s hWdogRuns
    refine onMem_eq (exec_watchdogExpiry s) (if_neg ?_)
    rcases hWdogRuns with h | h | h <;> simp [h]
  case wdogKick =>
    intro s acc hAcc
    exact onDev_eq (exec_wdogKick acc s) (if_pos hAcc)
  case wdogKickRefused =>
    intro s acc hAcc
    exact onDev_eq (exec_wdogKick acc s) (if_neg (by simp [hAcc]))
  case softwareReset =>
    intro s acc value hmay hGetBits hGetBits2
    obtain ⟨-, hfree, hown⟩ := hmay
    exact onMem_eq (exec_softwareReset acc value s) (if_pos (by simp [hfree, hown, hGetBits, hGetBits2]))
  case softwareResetBadKey =>
    intro s acc value hmay hGetBits hGetBits2
    refine onMem_eq (exec_softwareReset acc value s) ((if_neg (by simp [hGetBits2])).trans ?_)
    rw [Dev.asOwner_may _ hmay, if_pos (by simp [hGetBits])]
  case debugReset =>
    intro s hDebugLocked
    exact onMem_eq (exec_debugWarmReset s) (if_neg (by simp [hDebugLocked]))
  case debugResetLocked =>
    intro s hDebugLocked
    exact onMem_eq (exec_debugWarmReset s) (if_pos hDebugLocked)
  case lockup =>
    intro s island stage hReleased hXing
    have hacts : ¬(!s.dev.released unitFelt || (!decide (56 ≤ island.val) && s.dev.xing island.val == xHeld)) = true := by
      rcases hXing with h | h <;> simp [hReleased, h]
    refine onMem_eq (exec_handshakeLockup island stage s) ((if_neg hacts).trans ?_)
    simp only [decide_eq_true_eq]
  case lockupHeld =>
    intro s island stage hIsland hXing
    have hheld : (!s.dev.released unitFelt || (!decide (56 ≤ island.val) && s.dev.xing island.val == xHeld)) = true := by
      simp [hXing, hIsland]
    exact onMem_eq (exec_handshakeLockup island stage s) (if_pos hheld)
  case coreLockup =>
    intro s core hReleased
    exact onMem_eq (exec_coreLockup core s) (if_pos hReleased)

end Sys2Proof.Machine
end

section
/-!
The option store (R246, R247, R354 to R357): its load, its write, and the model it keeps.
-/
namespace Sys2Proof.Machine

theorem exec_optionLoadDone (badA badB : Bool) (s : State) :
    exec (.optionLoadDone badA badB) s = execOptionLoadDone badA badB s := rfl

theorem exec_optWrite (acc : Accessor) (s : State) : exec (.optWrite acc) s = execOptWrite acc s := rfl

theorem exec_optWriteDone (ok : Bool) (s : State) : exec (.optWriteDone ok) s = execOptWriteDone ok s := rfl

theorem exec_modelFit (s : State) : exec .modelFit s = execModelFit s := rfl

/-- Settles O43: each command follows its own branch; a written image shows its generation, a failed one its fault. -/
theorem optionStore : Obligations.OptionStore := by
  refine ⟨?loadTrained, ?loadDone, ?optWrite, ?writeDone, ?writeFailed, ?modelFit, ?modelFitIdle⟩
  case loadTrained =>
    intro s badA badB d hLoading hd hSeqr
    refine onDev_eq (exec_optionLoadDone badA badB s) ((Dev.when_pos _ _ hLoading).trans ?_)
    subst hd
    exact if_pos hSeqr
  case loadDone =>
    intro s badA badB d hLoading hd hSeqr
    refine onDev_eq (exec_optionLoadDone badA badB s) ((Dev.when_pos _ _ hLoading).trans ?_)
    subst hd
    exact if_neg hSeqr
  case optWrite =>
    intro s acc hmay
    exact onMem_eq (exec_optWrite acc s) (by rw [Dev.asOwner_may _ hmay])
  case writeDone =>
    intro s w d hOptWrite hd
    subst hd
    refine onDev_eq (exec_optWriteDone true s) ?_
    simp only [hOptWrite, if_true]
  case writeFailed =>
    intro s w d hOptWrite hd
    subst hd
    refine onDev_eq (exec_optWriteDone false s) ?_
    simp only [hOptWrite, Bool.false_eq_true, if_false]
  case modelFit =>
    intro s m span d hImageRuns hRefState hLearn hFitModel hd
    subst hd
    refine onDev_eq (exec_modelFit s) ((Dev.when_pos _ _ (by simp [hImageRuns, hRefState, hLearn])).trans ?_)
    simp only [hFitModel]
  case modelFitIdle =>
    intro s hImageRuns
    refine onDev_eq (exec_modelFit s) (Dev.when_neg _ _ ?_)
    rcases hImageRuns with h | h | h <;> simp [h]

end Sys2Proof.Machine
end

section
/-!
The release (R348 to R353): clocks, training, the pace check and the islands in their order.
-/
namespace Sys2Proof.Machine

theorem exec_xoAbsentTimeout (s : State) : exec .xoAbsentTimeout s = execXoAbsentTimeout s := rfl

theorem exec_dramTrainingDone (rate : BitVec 16) (attempts : Fin 4) (s : State) :
    exec (.dramTrainingDone rate attempts) s = execDramTrainingDone rate attempts s := rfl

theorem exec_dramTrainingFail (s : State) : exec .dramTrainingFail s = execDramTrainingFail s := rfl

/-! ### A clock becomes good -/

/-- The clock of an island that had stopped runs again. -/
def State.backIfStopped (what : Nat) (t : State) (i : Nat) : State :=
  if goodBit i = what ∧ t.dev.flag FAB.page FAB.XING_STAT.CLK_STOP i then clockBack i 0 t else t

theorem foldl_backIfStopped_running (what : Nat) (s : State) (l : List Nat)
    (h : ∀ i ∈ l, goodBit i = what → s.dev.flag FAB.page FAB.XING_STAT.CLK_STOP i = false) :
    l.foldl (State.backIfStopped what) s = s := by
  induction l with
  | nil => rfl
  | cons i l ih =>
    have hrun : State.backIfStopped what s i = s := if_neg fun hstop => by
      simp [h i (List.mem_cons_self ..) hstop.1] at hstop
    rw [List.foldl_cons, hrun]
    exact ih fun j hj => h j (List.mem_cons_of_mem _ hj)

/-- The state in which the clock counts as good, before the islands that had lost it go on. -/
def State.withClockGood (s : State) (what : Fin 7) (d : Dev) : State :=
  { s with dev := if what.val = 0 then d.xoBack else d }

theorem exec_islandClockGood_folds {s : State} {what : Fin 7} {d : Dev}
    (hd : d = s.dev.set RST.page RST.CLK_GOOD.GOOD (putBit (s.dev.get RST.page RST.CLK_GOOD.GOOD) what true)) :
    exec (.islandClockGood what) s
      = .next { (List.range 56).foldl (State.backIfStopped what) (s.withClockGood what d) with pending := s.pending } := by
  rw [hd]
  rfl

theorem Dev.setGood_clockStop (d : Dev) (v : Nat) {i : Nat} (hi : i < 56) :
    (d.set RST.page RST.CLK_GOOD.GOOD v).flag FAB.page FAB.XING_STAT.CLK_STOP i
      = d.flag FAB.page FAB.XING_STAT.CLK_STOP i := by
  unfold Dev.flag
  rw [Dev.get_set_page _ _ (by decide) (by decide) (by decide) (by decide) (by omega)]

/-! ### Absent XO_IN -/

theorem Dev.xoAbsent_effect (d : Dev) (e : Dev)
    (he : e = (d.set TMB.page TMB.TMB_STAT.BACKUP 1).set RST.page RST.SEQ_STAT.XO_ABSENT 1) :
    e.get TMB.page TMB.TMB_STAT.BACKUP = 1 ∧ e.get RST.page RST.SEQ_STAT.XO_ABSENT = 1 ∧ Quiet d e := by
  subst he
  refine ⟨?_, Dev.get_set_same _ _ _ _ (by decide), (Dev.set_quiet ..).trans (Dev.set_quiet ..)⟩
  rw [Dev.get_set_page _ _ (by decide) (by decide) (by decide) (by decide) (by decide)]
  exact Dev.get_set_same _ _ _ _ (by decide)

/-! ### The pace check -/

/-- The device once attempt `n` at the pace check is counted; the first attempt starts the supply loop. -/
def Dev.paceTried (d : Dev) (n : Nat) : Dev :=
  (if n = 1 then d.loopStart else d).set RST.page RST.SEQ_STAT.PACE_TRY (min n 3)

/-- A pace check that did not pass is tried again, or has failed after its third attempt. -/
def Dev.paceMissed (d : Dev) (n : Nat) : Dev :=
  if n < 3 then ({ d with pace := { d.pace with good := 0 } } : Dev).raise RST.page RST.INT_RAW.SEQ_RETRY
  else ({ d with pace := { d.pace with good := 0 } } : Dev).set RST.page RST.SEQ_STAT.PACE_FAIL 1

def Dev.paceJudged (d : Dev) (crcFail : List (BitVec 16)) (n : Nat) : Dev :=
  if d.pace.good = 100 then d.startFelt crcFail else d.paceMissed n

def Dev.paceAttempt (d : Dev) (crcFail : List (BitVec 16)) (n : Nat) : Dev := (d.paceTried n).paceJudged crcFail n

theorem exec_paceCheckAttempt_parts (crcFail : List (BitVec 16)) (s : State) :
    exec (.paceCheckAttempt crcFail) s = onDev (fun d => d.when d.feltReady (fun d =>
      d.paceAttempt crcFail (d.get RST.page RST.SEQ_STAT.PACE_TRY + 1))) s := rfl

theorem exec_paceCheckAttempt_ready {s : State} (crcFail : List (BitVec 16)) {n : Nat} {d : Dev}
    (hready : s.dev.feltReady = true) (hn : n = s.dev.get RST.page RST.SEQ_STAT.PACE_TRY + 1)
    (hd : d = s.dev.paceTried n) :
    exec (.paceCheckAttempt crcFail) s = .next { s with dev := d.paceJudged crcFail n } := by
  rw [hd, hn]
  exact onDev_eq (exec_paceCheckAttempt_parts crcFail s) (Dev.when_pos _ _ hready)

/-! ### The islands -/

theorem exec_islandRelease (unit : Fin 128) (crcFail : List (BitVec 16)) (strapB : Bool) (s : State) :
    exec (.islandRelease unit crcFail strapB) s = execIslandRelease unit crcFail strapB s := rfl

/-- Settles O44: each step of the release where its conditions stand, the islands by their branch. -/
theorem releaseSequence : Obligations.ReleaseSequence := by
  refine ⟨?clockGoodRunning, ?clockGood, ?xoAbsentTimeout, ?dramTrainingDone, ?dramTrainingFail, ?pacePassed,
    ?paceRetried, ?releasedAlready, ?releaseKeepAlive, ?releaseDram, ?releaseTimeBase, ?releasePcie, ?releaseCrown,
    ?releaseCores, ?releaseLane⟩
  case clockGoodRunning =>
    intro s what d hWhat hClkStop hd
    have hfold : (List.range 56).foldl (State.backIfStopped what) (s.withClockGood what d) = s.withClockGood what d := by
      refine foldl_backIfStopped_running _ _ _ fun i hi hgood => ?_
      rw [State.withClockGood, if_neg hWhat, hd]
      exact (Dev.setGood_clockStop _ _ (List.mem_range.1 hi)).trans (hClkStop i (List.mem_range.1 hi) hgood)
    rw [exec_islandClockGood_folds hd, hfold, State.withClockGood, if_neg hWhat]
  case clockGood =>
    intro s what d hd
    exact exec_islandClockGood_folds hd
  case xoAbsentTimeout =>
    intro s hSeqr hWaitsT0 hXoOk
    exact does_of_exec (onDev_eq (exec_xoAbsentTimeout s) (Dev.when_pos _ _ (by simp [hSeqr, hWaitsT0, hXoOk])))
      (s.dev.xoAbsent_effect _ rfl)
  case dramTrainingDone =>
    intro s rate attempts d e hReleased hTrained hDramFail hd he
    subst he hd
    exact onDev_eq (exec_dramTrainingDone rate attempts s) (Dev.when_pos _ _ (by simp [hReleased, hTrained, hDramFail]))
  case dramTrainingFail =>
    intro s hReleased hTrained
    exact onDev_eq (exec_dramTrainingFail s) (Dev.when_pos _ _ (by simp [hReleased, hTrained]))
  case pacePassed =>
    intro s crcFail n d hFeltReady hn hd hPace
    exact (exec_paceCheckAttempt_ready crcFail hFeltReady hn hd).trans (by rw [Dev.paceJudged, if_pos hPace])
  case paceRetried =>
    intro s crcFail n d hFeltReady hn hd hPace
    exact (exec_paceCheckAttempt_ready crcFail hFeltReady hn hd).trans
      (by rw [Dev.paceJudged, if_neg hPace, Dev.paceMissed])
  case releasedAlready =>
    intro s unit crcFail strapB hReleased
    exact onDev_eq (exec_islandRelease unit crcFail strapB s) (if_pos hReleased)
  case releaseKeepAlive =>
    intro s crcFail strapB hReleased hMayRelease hPwrState hBackup
    have hstart : (s.dev.mayRelease && s.dev.pwrState != pwrKeep
        && (s.dev.xoOk || s.dev.flag TMB.page TMB.TMB_STAT.BACKUP || s.dev.clockGood 0)) = true := by
      rcases hBackup with h | h | h <;> simp [hMayRelease, hPwrState, h]
    exact onDev_eq (exec_islandRelease 1 crcFail strapB s)
      ((if_neg (ne_true_of_eq_false hReleased)).trans ((if_pos rfl).trans (Dev.when_pos _ _ hstart)))
  case releaseDram =>
    intro s crcFail strapB hReleased hSeqr hReleased2 hClockGood
    exact onDev_eq (exec_islandRelease 53 crcFail strapB s)
      ((if_neg (ne_true_of_eq_false hReleased)).trans ((if_neg (by decide)).trans ((if_pos rfl).trans
        (Dev.when_pos _ _ (by simp [hSeqr, hReleased2, hClockGood])))))
  case releaseTimeBase =>
    intro s crcFail strapB hReleased hMayRelease hPwrState hReleased2 hClockGood
    exact onDev_eq (exec_islandRelease 2 crcFail strapB s)
      ((if_neg (ne_true_of_eq_false hReleased)).trans ((if_neg (by decide)).trans ((if_neg (by decide)).trans
        ((if_pos rfl).trans (Dev.when_pos _ _ (by simp [hMayRelease, hPwrState, hReleased2, hClockGood]))))))
  case releasePcie =>
    intro s crcFail strapB hReleased hMayRelease hPwrState hClockGood hPinPerstN
    exact onDev_eq (exec_islandRelease 5 crcFail strapB s)
      ((if_neg (ne_true_of_eq_false hReleased)).trans ((if_neg (by decide)).trans ((if_neg (by decide)).trans
        ((if_neg (by decide)).trans ((if_pos rfl).trans
          (Dev.when_pos _ _ (by simp [hMayRelease, hPwrState, hPinPerstN, hClockGood])))))))
  case releaseCrown =>
    intro s crcFail strapB hReleased hReleased2 hClockGood
    exact onDev_eq (exec_islandRelease 7 crcFail strapB s)
      ((if_neg (ne_true_of_eq_false hReleased)).trans ((if_neg (by decide)).trans ((if_neg (by decide)).trans
        ((if_neg (by decide)).trans ((if_neg (by decide)).trans ((if_pos rfl).trans
          (Dev.when_pos _ _ (by simp [hReleased2, hClockGood]))))))))
  case releaseCores =>
    intro s crcFail strapB hReleased hReleased2 hSeqr hClockGood
    exact onDev_eq (exec_islandRelease 6 crcFail strapB s)
      ((if_neg (ne_true_of_eq_false hReleased)).trans ((if_neg (by decide)).trans ((if_neg (by decide)).trans
        ((if_neg (by decide)).trans ((if_neg (by decide)).trans ((if_neg (by decide)).trans ((if_pos rfl).trans
          (Dev.when_pos _ _ (by simp [hReleased2, hSeqr, hClockGood])))))))))
  case releaseLane =>
    intro s unit crcFail strapB lane hUnit hLane hReleased hReleased2 hClockGood
    have hlane : (unit : Nat) - 64 = lane := by omega
    refine onDev_eq (exec_islandRelease unit crcFail strapB s)
      ((if_neg (ne_true_of_eq_false hReleased)).trans ((if_neg (by omega)).trans ((if_neg (by omega)).trans
        ((if_neg (by omega)).trans ((if_neg (by omega)).trans ((if_neg (by omega)).trans ((if_neg (by omega)).trans
          ((if_pos (by omega)).trans ((Dev.when_pos _ _ (by simp [hReleased2, hClockGood])).trans ?_)))))))))
    rw [hlane]

end Sys2Proof.Machine
end

section
/-!
Tally's counters (R367 to R376): a counter read and counted by software, the freeze and its snapshot, the samplers.
-/
namespace Sys2Proof.Machine

theorem exec_cntLoRead (acc : Accessor) (s : State) : exec (.cntLoRead acc) s = execCntLoRead acc s := rfl

theorem exec_swInc (acc : Accessor) (value : BitVec 32) (s : State) :
    exec (.swInc acc value) s = execSwInc acc value s := rfl

theorem exec_freezeInstant (s : State) : exec .freezeInstant s = execFreezeInstant s := rfl

theorem exec_snapCollectDone (s : State) : exec .snapCollectDone s = execSnapCollectDone s := rfl

theorem exec_freezeArm (acc : Accessor) (timed : Bool) (sec : BitVec 32) (ns : BitVec 30) (s : State) :
    exec (.freezeArm acc timed sec ns) s = execFreezeArm acc timed sec ns s := rfl

theorem exec_freezeCancel (acc : Accessor) (s : State) : exec (.freezeCancel acc) s = execFreezeCancel acc s := rfl

/-- Software counts in a counter of its own range, and in no other. -/
theorem Dev.swInc_effect {d e : Dev} {acc : Accessor} {v : Word} {i : Nat} (hfw : acc.isFw = true)
    (hi : i = getBits v TAL.SW_INC.INDEX.lo TAL.SW_INC.INDEX.wd) (hlo : 0xE00 ≤ i) (hhi : i ≤ 0xEFF)
    (he : e = d.swInc acc v) :
    e.counter i = (d.counter i + getBits v TAL.SW_INC.AMOUNT.lo TAL.SW_INC.AMOUNT.wd) % 2 ^ 48
      ∧ (∀ j, j ≠ i → e.counter j = d.counter j) ∧ e.regs = d.regs := by
  have hcount : d.swInc acc v = d.count i (getBits v TAL.SW_INC.AMOUNT.lo TAL.SW_INC.AMOUNT.wd) := by
    subst hi
    exact (if_neg (by simp [hfw])).trans (if_pos ⟨hlo, hhi⟩)
  rw [he, hcount]
  refine ⟨?_, fun j hj => ?_, by rw [Dev.count_toControl]⟩
  · rw [Dev.count_counter, if_pos rfl]
  · rw [Dev.count_counter, if_neg hj]

/-! ### Freezes -/

/-- The device with the TAL shadows that a freeze command writes. -/
def Dev.talShadows (d : Dev) (writes : List (Nat × Word)) : Dev :=
  writes.foldl (fun d w => d.wrShadow .tal TAL.page w.1 0 w.2) d

theorem Dev.freezeCommand_accepted {d : Dev} {acc : Accessor} {writes : List (Nat × Word)} (hmay : MayWrite d acc TAL.page)
    (hrules : (d.talShadows writes).talRules.find? (·.1) = none) :
    d.freezeCommand acc writes = Dev.talEffect (d.talShadows writes) ((d.talShadows writes).acceptCommit TAL.page) :=
  (Dev.asOwner_may d hmay).trans (Dev.commitBy_accepted _ _ hrules)

theorem Dev.freezeCommand_rejected {d : Dev} {acc : Accessor} {writes : List (Nat × Word)} {code off : Nat}
    (hmay : MayWrite d acc TAL.page) (hrules : (d.talShadows writes).talRules.find? (·.1) = some (true, code, off)) :
    d.freezeCommand acc writes = (d.talShadows writes).rejectCommit TAL.page code off :=
  (Dev.asOwner_may d hmay).trans (Dev.commitBy_rejected _ _ hrules)

/-! ### Samplers -/

/-- The sampler as it stands once a pending sample is taken. -/
def Dev.sampleTaken (d : Dev) (smp : Fin 4) (taken : Bool) : Dev :=
  if taken then d.set TAL.page TAL.SMP_STAT.PENDING 0 smp else d

/-- Whether a sampler with `c` counts of its period of `n` does not fire. -/
def Dev.samplerWaits (d : Dev) (smp : Fin 4) (n c : Nat) : Bool :=
  !d.pageUp TAL.page || !d.flag TAL.page TAL.SMP_CFG.EN smp
    || (decide (c < n) && !coreCounter (d.get TAL.page TAL.SMP_CFG.INDEX smp))

/-- A sampler that has fired: its core is interrupted, or has missed a sample. -/
def Dev.samplerFired (d : Dev) (smp : Fin 4) : Dev :=
  if d.flag TAL.page TAL.SMP_STAT.PENDING smp then
    (d.incSat TAL.page TAL.SMP_STAT.MISSED smp).raise TAL.page TAL.INT_RAW.SMP_MISS
  else (d.set TAL.page TAL.SMP_STAT.PENDING 1 smp).emit (.coreInt (d.get TAL.page TAL.SMP_CFG.CORE smp) "sample")

def Dev.samplerAt (d : Dev) (smp : Fin 4) (n c : Nat) : Dev :=
  if d.samplerWaits smp n c then d
  else ({ d with smpCount := tset (fun _ => 0) d.smpCount smp (c - n) } : Dev).samplerFired smp

theorem exec_samplerFire_parts (smp : Fin 4) (taken : Bool) (s : State) :
    exec (.samplerFire smp taken) s = onDev (fun d => (d.sampleTaken smp taken).samplerAt smp
      (d.get TAL.page TAL.SMP_PERIOD.N smp) (tget (fun _ => 0) d.smpCount smp)) s := rfl

theorem exec_samplerFire_taken {s : State} {smp : Fin 4} {taken : Bool} {d : Dev} (hd : d = s.dev.sampleTaken smp taken) :
    exec (.samplerFire smp taken) s = .next { s with
      dev := d.samplerAt smp (s.dev.get TAL.page TAL.SMP_PERIOD.N smp) (tget (fun _ => 0) s.dev.smpCount smp) } := by
  rw [hd]
  exact exec_samplerFire_parts smp taken s

theorem Dev.samplerAt_fires {d : Dev} {smp : Fin 4} {n c : Nat} (hup : d.pageUp TAL.page = true)
    (hen : d.flag TAL.page TAL.SMP_CFG.EN smp = true)
    (hdue : n ≤ c ∨ coreCounter (d.get TAL.page TAL.SMP_CFG.INDEX smp) = true) :
    d.samplerAt smp n c = ({ d with smpCount := tset (fun _ => 0) d.smpCount smp (c - n) } : Dev).samplerFired smp := by
  refine if_neg ?_
  rcases hdue with h | h <;> simp [Dev.samplerWaits, hup, hen, h]

theorem Dev.samplerAt_waits {d : Dev} {smp : Fin 4} {n c : Nat}
    (h : d.pageUp TAL.page = false ∨ d.flag TAL.page TAL.SMP_CFG.EN smp = false
      ∨ (c < n ∧ coreCounter (d.get TAL.page TAL.SMP_CFG.INDEX smp) = false)) : d.samplerAt smp n c = d := by
  refine if_pos ?_
  rcases h with h | h | ⟨hc, h⟩
  · simp [Dev.samplerWaits, h]
  · simp [Dev.samplerWaits, h]
  · simp [Dev.samplerWaits, hc, h]

/-- Settles O45: counters by `count_counter`, freezes as commits of the TAL page, a sampler by its period. -/
theorem tallyCounters : Obligations.TallyCounters := by
  refine ⟨?countRead, ?countReadInReset, ?softwareCounts, ?softwareRefused, ?freezeInstant, ?snapCollectDone,
    ?armAccepted, ?armRejected, ?cancelAccepted, ?cancelRejected, ?samplerFires, ?samplerWaits⟩
  case countRead =>
    intro s acc n d hPageUp hn hd
    subst hd hn
    exact onDev_eq (exec_cntLoRead acc s) (if_neg (by simp [hPageUp]))
  case countReadInReset =>
    intro s acc hPageUp
    exact onDev_eq (exec_cntLoRead acc s) (if_pos (by simp [hPageUp]))
  case softwareCounts =>
    intro s acc value i hPageUp hAcc hi hx hx2
    exact does_of_exec (onDev_eq (exec_swInc acc value s) (if_neg (by simp [hPageUp])))
      (Dev.swInc_effect hAcc hi hx hx2 rfl)
  case softwareRefused =>
    intro s acc value hPageUp hAcc
    exact onDev_eq (exec_swInc acc value s) ((if_neg (by simp [hPageUp])).trans (if_pos (by simp [hAcc])))
  case freezeInstant =>
    intro s t hFreezeAt hCollecting hNow
    refine onDev_eq (exec_freezeInstant s) ?_
    simp only [hFreezeAt]
    exact Dev.when_pos _ _ (by simp [hCollecting, hNow])
  case snapCollectDone =>
    intro s t d hFreezeAt hCollecting hNow hd
    refine onDev_eq (exec_snapCollectDone s) ?_
    simp only [hFreezeAt]
    subst hd
    exact Dev.when_pos _ _ (by simp [hCollecting, hNow])
  case armAccepted =>
    intro s acc timed sec ns d hmay hd hTalRules
    subst hd
    exact onDev_eq (exec_freezeArm acc timed sec ns s) (Dev.freezeCommand_accepted hmay hTalRules)
  case armRejected =>
    intro s acc timed sec ns d code off hmay hd hTalRules
    subst hd
    exact onDev_eq (exec_freezeArm acc timed sec ns s) (Dev.freezeCommand_rejected hmay hTalRules)
  case cancelAccepted =>
    intro s acc d hmay hd hTalRules
    subst hd
    exact onDev_eq (exec_freezeCancel acc s) (Dev.freezeCommand_accepted hmay hTalRules)
  case cancelRejected =>
    intro s acc d code off hmay hd hTalRules
    subst hd
    exact onDev_eq (exec_freezeCancel acc s) (Dev.freezeCommand_rejected hmay hTalRules)
  case samplerFires =>
    intro s smp taken n c d hn hc hd hPageUp hEn hIndex
    subst hn hc
    exact (exec_samplerFire_taken hd).trans (by rw [Dev.samplerAt_fires hPageUp hEn hIndex, Dev.samplerFired])
  case samplerWaits =>
    intro s smp taken d hd hEn
    exact (exec_samplerFire_taken hd).trans (by rw [Dev.samplerAt_waits hEn])

end Sys2Proof.Machine
end

section
/-!
The recorder and the tests (R379 to R389).
-/
namespace Sys2Proof.Machine

theorem exec_logClear (acc : Accessor) (s : State) : exec (.logClear acc) s = execLogClear acc s := rfl

theorem exec_dramTestStart (acc : Accessor) (s : State) : exec (.dramTestStart acc) s = execDramTestStart acc s := rfl

theorem exec_dramTestDone (errors : BitVec 32) (first : BitVec 27) (s : State) :
    exec (.dramTestDone errors first) s = execDramTestDone errors first s := rfl

theorem exec_mbistRun (s : State) : exec .mbistRun s = execMbistRun s := rfl

/-- The front of the recorder's queue reaches DRAM once its time has passed. -/
def Dev.recordNext (d : Dev) (m : List Host.Cell) : Option LogRec → Dev × List Host.Cell
  | none => (d, m)
  | some r =>
    if !d.released unitFelt || !d.flag LOG.page LOG.LOG_STAT.DRAM_OK || !(r.late || decide (r.time + 8000 * nsU ≤ d.now))
    then (d, m)
    else ({ d with logHeld := d.logHeld.erase r } : Dev).logWrite m r

theorem exec_recordWrite_next (s : State) :
    exec .recordWrite s = onMem (fun d m => d.recordNext m (nextRecord d.logHeld)) s := rfl


/-- Whether a command of an accessor of the page runs. -/
theorem runs_of_mayWrite {d : Dev} {acc : Accessor} {page : Nat} (hmay : MayWrite d acc page) :
    (d.pageUp page && !d.pageHeld page && d.owns acc page && !(acc.isFw && d.hostHolds page)) = true := by
  obtain ⟨⟨hup, hheld⟩, hfree, hown⟩ := hmay
  rw [hup, hheld, hfree, hown]
  rfl

/-- Settles O46: the record's own conditions, and the commands of the owner of LOG and DRM. -/
theorem recorderAndTests : Obligations.RecorderAndTests := by
  refine ⟨?recordNone, ?recordWritten, ?logClear, ?testStarts, ?testRefused, ?dramTestAbort, ?dramTestDone, ?mbistRun⟩
  case recordNone =>
    intro s hLogHeld
    exact onMem_eq (exec_recordWrite_next s) (by rw [hLogHeld, Dev.recordNext])
  case recordWritten =>
    intro s r d m hLogHeld hReleased hDramOk hNow hLogHeld2
    have hdue : ¬(!s.dev.released unitFelt || !s.dev.flag LOG.page LOG.LOG_STAT.DRAM_OK
        || !(r.late || decide (r.time + 8000 * nsU ≤ s.dev.now))) = true := by
      rcases hNow with h | h <;> simp [hReleased, hDramOk, h]
    exact onMem_eq (exec_recordWrite_next s) (by rw [hLogHeld, Dev.recordNext, if_neg hdue, hLogHeld2])
  case logClear =>
    intro s acc hmay
    exact onMem_eq (exec_logClear acc s) (Prod.ext (Dev.asOwner_may _ hmay) (if_pos (runs_of_mayWrite hmay)))
  case testStarts =>
    intro s acc hmay hTestRefused
    have hruns : ¬(!(s.dev.pageUp DRM.page && !s.dev.pageHeld DRM.page && s.dev.owns acc DRM.page
        && !(acc.isFw && s.dev.hostHolds DRM.page) && !s.dev.testRefused)) = true := by
      rw [runs_of_mayWrite hmay, hTestRefused]
      decide
    exact onMem_eq (exec_dramTestStart acc s) (Prod.ext (Dev.asOwner_may _ hmay) (if_neg hruns))
  case testRefused =>
    intro s acc hmay hTestRefused
    have hrefused : (!(s.dev.pageUp DRM.page && !s.dev.pageHeld DRM.page && s.dev.owns acc DRM.page
        && !(acc.isFw && s.dev.hostHolds DRM.page) && !s.dev.testRefused)) = true := by
      rw [hTestRefused, Bool.not_true, Bool.and_false]
      rfl
    exact onMem_eq (exec_dramTestStart acc s) (Prod.ext (Dev.asOwner_may _ hmay) (if_pos hrefused))
  case dramTestAbort =>
    intro s acc hmay
    exact exec_of_asOwner rfl hmay rfl
  case dramTestDone =>
    intro s errors first d hDramTest hd
    subst hd
    exact onDev_eq (exec_dramTestDone errors first s) (Dev.when_pos _ _ hDramTest)
  case mbistRun =>
    intro s hTestMode
    exact onDev_eq (exec_mbistRun s) (Dev.when_pos _ _ hTestMode)

end Sys2Proof.Machine
end

section
/-!
Epash (R383 to R386): what each operation answers, and what a repeat does.
-/
namespace Sys2Proof.Machine

theorem exec_epashIdent (req : EpashReq) (s : State) : exec (.epashIdent req) s = execEpashIdent req s := rfl

theorem exec_epashSnap (req : EpashReq) (s : State) : exec (.epashSnap req) s = execEpashSnap req s := rfl

theorem exec_epashLive (req : EpashReq) (s : State) : exec (.epashLive req) s = execEpashLive req s := rfl

theorem exec_epashFreezeAt (req : EpashReq) (s : State) : exec (.epashFreezeAt req) s = execEpashFreezeAt req s := rfl

/-- A request that is not a repeat, with a body of its operation's length, is answered with what the operation gives. -/
theorem Dev.epashDo_new {d e : Dev} {op len status : Nat} {req : EpashReq} {body : List (BitVec 8)}
    {run : Dev → List (BitVec 8) → Nat × List (BitVec 8) × Dev} (hon : d.epashOn = true) (hversion : req.version = 1)
    (hold : d.epashOld op req = none) (hbody : req.body.length = len) (hlen : req.length.toNat = len)
    (hrun : run d req.body = (status, body, e)) : d.epashDo op len req run = Dev.epashAnswer op req status body e := by
  rw [Dev.epashDo, if_neg (by simp [hon, hversion]), hold]
  simp only [hbody, hlen, hrun, ne_eq, not_true_eq_false, or_self, if_false]

/-- A repeat is answered with the reply of the first, and counted. -/
theorem Dev.epashDo_repeat {d : Dev} {op : Nat} {req : EpashReq} {e : EpashReply} (len : Nat)
    (run : Dev → List (BitVec 8) → Nat × List (BitVec 8) × Dev) (hon : d.epashOn = true) (hversion : req.version = 1)
    (hold : d.epashOld op req = some e) :
    d.epashDo op len req run = (d.emit (.reply "epash" (req.requester :: e.reply))).count 0xE71 := by
  rw [Dev.epashDo, if_neg (by simp [hon, hversion]), hold]

/-! ### READ -/

/-- The pages that READ does not show: mailboxes, security and the option store. -/
def readBarred (page : Nat) : Bool :=
  match pageOf page with
  | some (t, _) => t == .mbx || t == .sec || t == .opt
  | none => false

theorem readBarred_shown {page : Nat} (h : ∀ t i, pageOf page = some (t, i) → t ≠ .mbx ∧ t ≠ .sec ∧ t ≠ .opt) :
    readBarred page = false := by
  unfold readBarred
  split
  case h_1 t i hpage =>
    obtain ⟨hmbx, hsec, hopt⟩ := h t i hpage
    simp [hmbx, hsec, hopt]
  case h_2 => rfl

theorem readBarred_kept {page i : Nat} {t : PageType} (hpage : pageOf page = some (t, i))
    (ht : t = .mbx ∨ t = .sec ∨ t = .opt) : readBarred page = true := by
  rw [readBarred, hpage]
  rcases ht with rfl | rfl | rfl <;> rfl

/-- What READ gives for `n` words of a page from an offset. -/
def Dev.epashReads (d : Dev) (page off n : Nat) : Nat × List (BitVec 8) × Dev :=
  if n = 0 ∨ 256 < n ∨ off % 4 ≠ 0 ∨ 4096 < off + 4 * n then (2, [], d)
  else if readBarred page then (3, [], d)
  else if d.pageHeld page then (4, [], d)
  else (0, wordsBE (d.readMany page off n).1, (d.readMany page off n).2)

theorem exec_epashRead_reads (req : EpashReq) (s : State) :
    exec (.epashRead req) s = onDev (fun d => d.epashDo 2 6 req (fun d bs =>
      d.epashReads (reqNum bs 0 2) (reqNum bs 2 2) (reqNum bs 4 2))) s := rfl

/-- A request for words that its page has. -/
theorem read_fits {off n : Nat} (hpos : 0 < n) (hn : n ≤ 256) (hoff : off % 4 = 0) (hend : off + 4 * n ≤ 4096) :
    ¬(n = 0 ∨ 256 < n ∨ off % 4 ≠ 0 ∨ 4096 < off + 4 * n) := by
  omega

theorem Dev.epashReads_shown {d : Dev} {page off n : Nat} {x : List Word × Dev}
    (hfits : ¬(n = 0 ∨ 256 < n ∨ off % 4 ≠ 0 ∨ 4096 < off + 4 * n)) (hshown : readBarred page = false)
    (hheld : d.pageHeld page = false) (hx : x = d.readMany page off n) :
    d.epashReads page off n = (0, wordsBE x.1, x.2) := by
  rw [Dev.epashReads, if_neg hfits, hshown, hheld, hx]
  rfl

theorem Dev.epashReads_barred {d : Dev} {page off n : Nat} (hfits : ¬(n = 0 ∨ 256 < n ∨ off % 4 ≠ 0 ∨ 4096 < off + 4 * n))
    (hbarred : readBarred page = true) : d.epashReads page off n = (3, [], d) := by
  rw [Dev.epashReads, if_neg hfits, if_pos hbarred]

/-! ### LOG and MARK -/

/-- What LOG_READ gives for `n` records from `first`. -/
def Dev.epashLogs (d : Dev) (m : List Host.Cell) (first n : Nat) : Nat × List (BitVec 8) × Dev :=
  if n = 0 ∨ 90 < n ∨ d.logSlots < first + n then (2, [], d)
  else (0, wordsBE [(d.readReg .firmware LOG.page LOG.WR_IDX.IDX.off), (d.readReg .firmware LOG.page LOG.OLDEST_IDX.IDX.off)]
    ++ memRead m (logBase + 16 * first) (16 * n), d)

theorem exec_epashLogRead_logs (req : EpashReq) (s : State) :
    exec (.epashLogRead req) s = onMem (fun d m => (d.epashDo 6 6 req (fun d bs =>
      d.epashLogs m (reqNum bs 0 4) (reqNum bs 4 2)), m)) s := rfl

/-- A MARK is recorded by the service. -/
def Dev.epashMarks (d : Dev) (bs : List (BitVec 8)) : Nat × List (BitVec 8) × Dev :=
  (0, [], d.record (d.svcSource 7) 0x11 (markData bs))

theorem exec_epashMark_marks (req : EpashReq) (s : State) :
    exec (.epashMark req) s = onDev (fun d => d.epashDo 7 8 req Dev.epashMarks) s := rfl

/-- Settles O47: `epashDo_new` with what the operation gives, or `epashDo_repeat`. -/
theorem epashRequests : Obligations.EpashRequests := by
  refine ⟨?epashIdent, ?epashRead, ?epashReadBarred, ?epashSnap, ?epashLive, ?epashLiveBad, ?epashFreeze,
    ?epashFreezeBarred, ?epashLogRead, ?epashMark, ?epashMarkRepeat, ?epashFreezeRepeat⟩
  case epashIdent =>
    intro s req hEpashOn hReq hEpashOld hReq2 hReq3
    exact onDev_eq (exec_epashIdent req s) (Dev.epashDo_new hEpashOn hReq hEpashOld hReq2 hReq3 rfl)
  case epashRead =>
    intro s req page off n x hEpashOn hReq hEpashOld hReq2 hReq3 hpage hoff hn hx hx2 hOff hOff2 hx3 hPageHeld hx4
    subst hpage hoff hn
    exact onDev_eq (exec_epashRead_reads req s) (Dev.epashDo_new hEpashOn hReq hEpashOld hReq2 hReq3
      (Dev.epashReads_shown (read_fits hx hx2 hOff hOff2) (readBarred_shown hx3) hPageHeld hx4))
  case epashReadBarred =>
    intro s req page off n i t hEpashOn hReq hEpashOld hReq2 hReq3 hpage hoff hn hx hx2 hOff hOff2 hPageOf ht
    subst hpage hoff hn
    exact onDev_eq (exec_epashRead_reads req s) (Dev.epashDo_new hEpashOn hReq hEpashOld hReq2 hReq3
      (Dev.epashReads_barred (read_fits hx hx2 hOff hOff2) (readBarred_kept hPageOf ht)))
  case epashSnap =>
    intro s req first n hEpashOn hReq hEpashOld hReq2 hReq3 hfirst hn hx hx2 hFirst
    subst hfirst hn
    exact onDev_eq (exec_epashSnap req s) (Dev.epashDo_new hEpashOn hReq hEpashOld hReq2 hReq3 (if_neg (by omega)))
  case epashLive =>
    intro s req first n hEpashOn hReq hEpashOld hReq2 hReq3 hfirst hn hx hx2 hFirst
    subst hfirst hn
    exact onDev_eq (exec_epashLive req s) (Dev.epashDo_new hEpashOn hReq hEpashOld hReq2 hReq3 (if_neg (by omega)))
  case epashLiveBad =>
    intro s req hEpashOn hReq hEpashOld hReq2 hReq3 hReqNum
    exact onDev_eq (exec_epashLive req s) (Dev.epashDo_new hEpashOn hReq hEpashOld hReq2 hReq3 (if_pos hReqNum))
  case epashFreeze =>
    intro s req r hEpashOn hReq hEpashOld hReq2 hReq3 hOwns hCollecting hHostHolds hr hRejected
    subst hr
    exact onDev_eq (exec_epashFreezeAt req s) (Dev.epashDo_new hEpashOn hReq hEpashOld hReq2 hReq3
      ((if_neg (by simp [hOwns])).trans ((if_neg (by simp [hCollecting, hHostHolds])).trans (if_neg (by simp [hRejected])))))
  case epashFreezeBarred =>
    intro s req hEpashOn hReq hEpashOld hReq2 hReq3 hOwns
    exact onDev_eq (exec_epashFreezeAt req s) (Dev.epashDo_new hEpashOn hReq hEpashOld hReq2 hReq3
      (if_pos (by simp [hOwns])))
  case epashLogRead =>
    intro s req first n hEpashOn hReq hEpashOld hReq2 hReq3 hfirst hn hx hx2 hLogSlots
    subst hfirst hn
    have hfits : ¬(reqNum req.body 4 2 = 0 ∨ 90 < reqNum req.body 4 2
        ∨ s.dev.logSlots < reqNum req.body 0 4 + reqNum req.body 4 2) := by omega
    refine onMem_eq (exec_epashLogRead_logs req s) (congrArg (·, s.dram) ?_)
    exact Dev.epashDo_new hEpashOn hReq hEpashOld hReq2 hReq3 (by rw [Dev.epashLogs, if_neg hfits])
  case epashMark =>
    intro s req hEpashOn hReq hEpashOld hReq2 hReq3
    exact onDev_eq (exec_epashMark_marks req s) (Dev.epashDo_new hEpashOn hReq hEpashOld hReq2 hReq3 (by rw [Dev.epashMarks]))
  case epashMarkRepeat =>
    intro s req e hEpashOn hReq hEpashOld
    exact onDev_eq (exec_epashMark_marks req s) (Dev.epashDo_repeat 8 _ hEpashOn hReq hEpashOld)
  case epashFreezeRepeat =>
    intro s req e hEpashOn hReq hEpashOld
    exact onDev_eq (exec_epashFreezeAt req s) (Dev.epashDo_repeat 10 _ hEpashOn hReq hEpashOld)

end Sys2Proof.Machine
end

section
/-!
Page commands (R307, R309, R395 to R398): COMMIT, DISCARD and SOFT_RST, a change of owner and of VIEW, INT_RAW and ERR_INFO.
-/
namespace Sys2Proof.Machine

theorem exec_ownerWrite (acc : Accessor) (page : BitVec 16) (owner : BitVec 2) (s : State) :
    exec (.ownerWrite acc page owner) s = execOwnerWrite acc page owner s := rfl

theorem exec_viewSet (acc : Accessor) (page : BitVec 16) (view : Bool) (s : State) :
    exec (.viewSet acc page view) s = execViewSet acc page view s := rfl

theorem exec_intRawClear (acc : Accessor) (page : BitVec 16) (bits raised : BitVec 32) (s : State) :
    exec (.intRawClear acc page bits raised) s = execIntRawClear acc page bits raised s := rfl

theorem exec_errInfoClear (acc : Accessor) (page : BitVec 16) (s : State) :
    exec (.errInfoClear acc page) s = execErrInfoClear acc page s := rfl

/-! ### COMMIT and SOFT_RST -/

theorem Dev.commitAt_noShadow {d : Dev} {acc : Accessor} {page i : Nat} {t : PageType} (hp : pageOf page = some (t, i))
    (hs : hasShadow t = false) : d.commitAt acc page = d := by
  rw [Dev.commitAt, hp]
  exact if_pos (by simp [hs])

theorem Dev.softReset_barred {d : Dev} {acc : Accessor} {page i : Nat} {t : PageType} (hp : pageOf page = some (t, i))
    (hbarred : softRstOk t = false) : d.softReset acc page = d.err page 0x03 0x08 := by
  rw [Dev.softReset, hp]
  exact if_pos (by simp [hbarred])

/-- The page of a soft reset once its COMMIT has made the reset values live. -/
def Dev.softResetDone (r : Dev) (page : Nat) : Dev :=
  (((((r.wr page 0x10 0).wr page 0x20 0).wr page 0x24 0).set page COM.STAT.RESTORED 0).set GLB.page
    GLB.RESTORE_STAT.SOURCE 1 page).writeImage page

/-- What a soft reset does after its COMMIT, which left `q`. -/
def Dev.softResetAfter (d q : Dev) (t : PageType) (i page : Nat) : Dev :=
  if q.flag page COM.COMMIT_STAT.REJECTED && hasShadow t then
    d.rejectCommit page (q.get page COM.COMMIT_STAT.CODE) (q.get page COM.ERR_INFO.DETAIL)
  else ((q.coldThen t i).coldRw t page).softResetDone page

theorem Dev.softReset_after {d q : Dev} {acc : Accessor} {page i : Nat} {t : PageType} (hp : pageOf page = some (t, i))
    (hok : softRstOk t = true) (hq : q = ((d.coldFirst t i).coldShadows t page).commitAt acc page) :
    d.softReset acc page = d.softResetAfter q t i page := by
  subst hq
  rw [Dev.softReset, hp]
  exact if_neg (by simp [hok])

/-! ### CTRL -/

/-- A bit of the word that CTRL shows to an accessor: the owner in bits 0 and 1, its own VIEW in bit 2. -/
theorem ctrlWord_bit (x y : Word) {n : Nat} (hn : 2 ≤ n) :
    getBits ((x &&& COM.CTRL.OWNER.mask) ||| (y &&& COM.CTRL.VIEW.mask)) n 1 = if n = 2 then getBits y 2 1 else 0 := by
  have hbit : ∀ (w : Word) (k : Nat), getBits w k 1 = (w.toNat.testBit k).toNat := fun w k => (Nat.toNat_testBit ..).symm
  have howner : COM.CTRL.OWNER.mask.toNat.testBit n = false := Nat.testBit_lt_two_pow
    (lt_of_lt_of_le (by decide : COM.CTRL.OWNER.mask.toNat < 2 ^ 2) (Nat.pow_le_pow_right (by decide) hn))
  have hview : COM.CTRL.VIEW.mask.toNat.testBit n = decide (2 = n) :=
    (by decide : COM.CTRL.VIEW.mask.toNat = 2 ^ 2) ▸ Nat.testBit_two_pow
  rw [hbit, BitVec.toNat_or, BitVec.toNat_and, BitVec.toNat_and, Nat.testBit_or, Nat.testBit_and, Nat.testBit_and,
    howner, hview, Bool.and_false, Bool.false_or]
  split
  case isTrue h => simp [h, hbit]
  case isFalse h => simp [Ne.symm h]

theorem Dev.owns_congr {d e : Dev} {page : Nat} (h : e.owner page = d.owner page) (acc : Accessor) :
    e.owns acc page = d.owns acc page := by
  unfold Dev.owns
  rw [h]

theorem Dev.owner_setView (d : Dev) (page v k : Nat) : (d.set page COM.CTRL.VIEW v k).owner page = d.owner page :=
  Dev.get_set_other _ _ (.inr (by decide))

/-- The owner of a page hands it on: nothing of the page is taken from firmware. -/
theorem Dev.writeCtrl_owner {d : Dev} {acc : Accessor} {page i owner view : Nat} {t : PageType} {w : Word}
    (hp : pageOf page = some (t, i)) (hfixed : ownerFixed t = false) (hmine : d.owns acc page = true)
    (hkeep : hostWrite acc = false ∨ owner ≠ 0 ∨ d.owner page = 0) (hview : getBits w COM.CTRL.VIEW.lo 1 = view)
    (howner : getBits w COM.CTRL.OWNER.lo 2 = owner) (hsoft : getBits w COM.CTRL.SOFT_RST.lo 1 = 0) :
    d.writeCtrl acc page w = (d.set page COM.CTRL.VIEW view acc.idx).setOwner page owner := by
  have htaken : (hostWrite acc && owner == 0 && d.owner page != 2 && (d.owner page == 1 || d.owner page == 3)) = false := by
    rcases hkeep with h | h | h <;> simp [h]
  rw [Dev.writeCtrl, hp]
  simp only [hview, howner, hsoft, Dev.owner_setView, Dev.owns_congr (Dev.owner_setView ..), hmine, hfixed]
  simp [htaken]

/-- Settles O50: each command by its equation on a page that its accessor may write. -/
theorem pageCommands : Obligations.PageCommands := by
  refine ⟨?commitGo, ?commitGoNoShadow, ?commitDiscard, ?softResetBarred, ?softResetRejected, ?softResetDone,
    ?ownerWrite, ?viewSet, ?intRawClear, ?errInfoClear⟩
  case commitGo =>
    intro s acc page hmay
    exact exec_of_asOwner (exec_commitGo acc page s) hmay rfl
  case commitGoNoShadow =>
    intro s acc page t i hmay hPageOf hHasShadow
    exact exec_of_asOwner (exec_commitGo acc page s) hmay (Dev.commitAt_noShadow hPageOf hHasShadow)
  case commitDiscard =>
    intro s acc page t i hmay hPageOf hHasShadow
    exact exec_of_asOwner (exec_commitDiscard acc page s) hmay (Dev.discardAt_eq _ hPageOf hHasShadow)
  case softResetBarred =>
    intro s acc page t i hmay hPageOf hSoftRstOk
    exact exec_of_asOwner (exec_softReset acc page s) hmay (Dev.softReset_barred hPageOf hSoftRstOk)
  case softResetRejected =>
    intro s acc page t i r hmay hPageOf hSoftRstOk hHasShadow hr hRejected
    exact exec_of_asOwner (exec_softReset acc page s) hmay
      ((Dev.softReset_after hPageOf hSoftRstOk hr).trans (if_pos (by simp [hRejected, hHasShadow])))
  case softResetDone =>
    intro s acc page t i q r hmay hPageOf hSoftRstOk hq hRejected hr
    have hpassed : ¬(q.flag page.toNat COM.COMMIT_STAT.REJECTED && hasShadow t) = true := by
      rcases hRejected with h | h <;> simp [h]
    exact exec_of_asOwner (exec_softReset acc page s) hmay
      ((Dev.softReset_after hPageOf hSoftRstOk hq).trans ((if_neg hpassed).trans (by rw [← hr, Dev.softResetDone])))
  case ownerWrite =>
    intro s acc page owner t i v hr hPageOf hOwnerFixed hOwns hOwner hv
    have howner : owner.toNat ≠ 0 ↔ owner ≠ 0 := BitVec.toNat_ne_iff_ne (y := 0)
    refine onDev_eq (exec_ownerWrite acc page owner s) ((Dev.asAny_may s.dev hr).trans
      (Dev.writeCtrl_owner hPageOf hOwnerFixed hOwns (by rwa [howner]) ?view ?owner ?soft))
    case view =>
      rw [getBits_setBits_other _ _ (by decide) (.inr (by decide)), hv]
      exact ctrlWord_bit _ _ (by decide)
    case owner =>
      rw [getBits_setBits_same _ _ (by decide), Nat.mod_eq_of_lt owner.isLt]
    case soft =>
      rw [getBits_setBits_other _ _ (by decide) (.inr (by decide))]
      exact ctrlWord_bit _ _ (by decide)
  case viewSet =>
    intro s acc page view t i hr hPageOf
    exact exec_of_asAny (exec_viewSet acc page view s) hr (Dev.when_pos _ _ (by rw [hPageOf]; rfl))
  case intRawClear =>
    intro s acc page bits raised t i hr hPageOf
    exact exec_of_asAny (exec_intRawClear acc page bits raised s) hr (by rw [Dev.clearRaw, hPageOf])
  case errInfoClear =>
    intro s acc page hmay
    exact exec_of_asOwner (exec_errInfoClear acc page s) hmay rfl

end Sys2Proof.Machine
end

section
/-!
The page windows (R329, R337 to R345): reads over I2C and the waits of the Crown page window.
-/
namespace Sys2Proof.Machine

theorem exec_crownWaitRead (page : BitVec 16) (addr : BitVec 10) (s : State) :
    exec (.crownWaitRead page addr) s = execCrownWaitRead page addr s := rfl

theorem exec_crownWaitWrite (page : BitVec 16) (addr : BitVec 10) (value : BitVec 32) (s : State) :
    exec (.crownWaitWrite page addr value) s = execCrownWaitWrite page addr value s := rfl

/-! ### I2C -/

theorem exec_i2cRead_unaligned {s : State} {offset : BitVec 32} (h : offset.toNat % 4 ≠ 0 ∨ 0x4000000 ≤ offset.toNat) :
    exec (.i2cTransfer offset false) s = .next { s with dev := s.dev.emit (.reply "i2c" [0]) } :=
  onDev_eq (exec_i2cTransfer offset false s) ((if_neg Bool.false_ne_true).trans (if_pos h))

/-- The read of a register of a page whose clock runs, other than a mailbox page. -/
theorem exec_i2cRead_page {s : State} {offset : BitVec 32} {page off : Nat} {x : Word × Dev}
    (ha : offset.toNat = page * 4096 + off) (ho : off < 4096) (h4 : off % 4 = 0) (hp : page < 0x3FFF)
    (hu : s.dev.pageUp page = true) (hheld : s.dev.pageHeld page = false) (h0 : page ≠ MBX.page 0)
    (h1 : page ≠ MBX.page 1) (hx : x = s.dev.readBy .host0 page off) :
    exec (.i2cTransfer offset false) s = .next { s with dev := x.2.emit (.reply "i2c" [x.1.toNat]) } := by
  subst hx
  have hpage : offset.toNat / 4096 = page := by omega
  have hoff : offset.toNat % 4096 = off := by omega
  have hin : ¬(offset.toNat % 4 ≠ 0 ∨ 0x4000000 ≤ offset.toNat) := by omega
  have hsummary : ¬0x3FFF000 ≤ offset.toNat := by omega
  have hmbx : ¬(page = MBX.page 0 ∨ page = MBX.page 1) := not_or.mpr ⟨h0, h1⟩
  refine onDev_eq (exec_i2cTransfer offset false s) ?_
  simp only [hpage, hoff, Bool.false_eq_true, if_false, if_neg hin, if_neg hsummary, hu, hheld, Bool.not_true, if_neg hmbx]

/-! ### The Crown page window -/

/-- An access of the Crown bus to the page window while none waits. -/
theorem Dev.crownAccess_begins {d : Dev} {w : CrownWait} (hon : d.crownOn = true) (hnone : d.crown.wait = none)
    (hallowed : w.write = false ∨ d.flag CRN.page CRN.CRN_CFG.CTL_WR = true) :
    d.crownAccess w = d.setCrown (fun c => { c with pageSel := w.page, wait := some w }) := by
  refine (Dev.when_pos _ _ (by simp [hon, hnone])).trans (if_neg ?_)
  show ¬(w.write && !d.flag CRN.page CRN.CRN_CFG.CTL_WR) = true
  rcases hallowed with h | h <;> simp [h]

theorem Dev.crownAccess_barred {d : Dev} {w : CrownWait} (hon : d.crownOn = true) (hnone : d.crown.wait = none)
    (hwrite : w.write = true) (hbarred : d.flag CRN.page CRN.CRN_CFG.CTL_WR = false) :
    d.crownAccess w
      = (d.setCrown (fun c => { c with pageSel := w.page })).err CRN.page 0xB0 CRN.CRN_CFG.CTL_WR.off := by
  refine (Dev.when_pos _ _ (by simp [hon, hnone])).trans (if_pos ?_)
  show (w.write && !d.flag CRN.page CRN.CRN_CFG.CTL_WR) = true
  simp [hwrite, hbarred]

theorem exec_crownWaitComplete_none {s : State} (h : s.dev.crown.wait = none) : exec .crownWaitComplete s = .next s := by
  simp only [exec_crownWaitComplete, execCrownWaitComplete, onState, h]

/-- A Crown wait that writes a page whose clock runs ends with the controller's write. -/
theorem exec_crownWaitComplete_write {s : State} {w : CrownWait} {d : Dev} (hw : s.dev.crown.wait = some w)
    (hheld : s.dev.pageHeld w.page = false) (hwrite : w.write = true)
    (hd : d = s.dev.setCrown (fun c => { c with wait := none })) :
    exec .crownWaitComplete s
      = .next { writeReg .controller w.page w.off w.value { s with dev := d } with pending := s.pending } := by
  subst hd
  simp only [exec_crownWaitComplete, execCrownWaitComplete, onState, hw, hheld, hwrite, Bool.false_eq_true, if_false, if_true]

/-! ### The wait's time-out -/

/-- A wait that has ended; a read of the bus is then answered with ones. -/
def Dev.waitCut (d : Dev) (w : CrownWait) : Dev :=
  if w.write then d.setCrown (fun c => { c with wait := none })
  else (d.setCrown (fun c => { c with wait := none })).emit (.reply "crown" [0xFFFFFFFF])

/-- What a time-out reports. -/
def Dev.waitTimedOut (d : Dev) : Dev :=
  (((d.err CRN.page 0xB1 CRN.CRN_STAT.TMO_CNT.off).incSat CRN.page CRN.CRN_STAT.TMO_CNT).raise CRN.page
    CRN.INT_RAW.WAIT_TMO).count 0xF83

def Dev.waitTimeout (d : Dev) : Option CrownWait → Dev
  | none => d
  | some w =>
    if d.now < w.since + waitMax (d.get CRN.page CRN.CRN_CFG.WAIT_MAX) * nsU then d else (d.waitCut w).waitTimedOut

theorem exec_crownWaitTimeout_waits (s : State) :
    exec .crownWaitTimeout s = onDev (fun d => d.waitTimeout d.crown.wait) s := rfl

/-- Settles O52: I2C and Crown accesses by their branch; a wait begins, ends with its access, or is cut. -/
theorem pageWindows : Obligations.PageWindows := by
  refine ⟨?i2cWrite, ?i2cUnaligned, ?i2cRead, ?i2cInReset, ?crownWaitRead, ?crownWrite, ?crownWriteBarred,
    ?completeNone, ?completeRead, ?completeWrite, ?timeoutNone, ?timeout, ?timeoutEarly⟩
  case i2cWrite =>
    intro s offset
    exact onDev_eq (exec_i2cTransfer offset true s) (if_pos rfl)
  case i2cUnaligned =>
    intro s offset hOffset
    exact exec_i2cRead_unaligned hOffset
  case i2cRead =>
    intro s offset page off x hOffset hOff hOff2 hPage hPageUp hPageHeld hPage2 hPage3 hx
    exact exec_i2cRead_page hOffset hOff hOff2 hPage hPageUp hPageHeld hPage2 hPage3 hx
  case i2cInReset =>
    intro s offset page off hOffset hOff hOff2 hPage hPageUp
    exact exec_i2cRead_inReset hOffset hOff hOff2 hPage hPageUp
  case crownWaitRead =>
    intro s page addr hCrownOn hCrown
    exact onDev_eq (exec_crownWaitRead page addr s) (Dev.crownAccess_begins hCrownOn hCrown (.inl rfl))
  case crownWrite =>
    intro s page addr value hCrownOn hCrown hCtlWr
    exact onDev_eq (exec_crownWaitWrite page addr value s) (Dev.crownAccess_begins hCrownOn hCrown (.inr hCtlWr))
  case crownWriteBarred =>
    intro s page addr value d hCrownOn hCrown hCtlWr hd
    subst hd
    exact onDev_eq (exec_crownWaitWrite page addr value s) (Dev.crownAccess_barred hCrownOn hCrown rfl hCtlWr)
  case completeNone =>
    intro s hCrown
    exact exec_crownWaitComplete_none hCrown
  case completeRead =>
    intro s w d x hCrown hPageHeld hx hx2 hx3 hd hx4
    exact exec_crownWaitComplete_read hCrown hPageHeld hx hx2 hx3 hd hx4.symm
  case completeWrite =>
    intro s w d hCrown hPageHeld hx hd
    exact exec_crownWaitComplete_write hCrown hPageHeld hx hd
  case timeoutNone =>
    intro s hCrown
    exact onDev_eq (exec_crownWaitTimeout_waits s) (by rw [hCrown, Dev.waitTimeout])
  case timeout =>
    intro s w d hCrown hd hWaitMax
    have hcut : s.dev.waitCut w = d := hd.symm
    refine onDev_eq (exec_crownWaitTimeout_waits s) ?_
    rw [hCrown, Dev.waitTimeout, if_neg (Nat.not_lt.2 hWaitMax), hcut, Dev.waitTimedOut]
  case timeoutEarly =>
    intro s w hCrown hWaitMax
    exact onDev_eq (exec_crownWaitTimeout_waits s) (by rw [hCrown, Dev.waitTimeout, if_pos hWaitMax])

end Sys2Proof.Machine
end
